-- ==== Sys2Proof/Word.lean ====
section
/-! DEFINITION. Word.lean: the bit words of the HC1600's registers and rings (R6, R7). -/

namespace Sys2Proof

/-- One byte of a ring entry, a payload or a memory. -/
abbrev Byte := BitVec 8

/-- One 32-bit BAR0 register (R39: BAR0 accesses are 32-bit and aligned). -/
abbrev Word := BitVec 32

/-- A 7-bit ring pointer: slot index in [5:0], wrap bit [6] (R41). -/
abbrev RingPtr := BitVec 7

end Sys2Proof
end

