-- ==== Sys2Proof/Syntax.lean ====
section
/-! DEFINITION. Syntax.lean: the commands of the block, one constructor for each row of the table of operations and events. -/

namespace Sys2Proof

/-- The interface a bus access comes over (R5, R65). -/
inductive Via where
  | pcie | mgp
  deriving DecidableEq, Repr

/-- The Seam links of Table 1-2 (R18). -/
inductive SeamLink where
  | cv0 | cv1 | io0 | io1 | io2 | io3
  deriving DecidableEq, Repr

/-- A command entry less its OPCODE (R42): TAG, byte 4 (FORCE, IRQ, FENCE and reserved bits), reserved byte 5, PLEN,
reserved byte 7, and the payload bytes. -/
structure CmdEntry where
  tag : BitVec 16
  flags : Byte
  resv5 : Byte
  plen : Byte
  resv7 : Byte
  payload : List Byte
  deriving DecidableEq, Repr

/-- What the boot ROM and Frelvo's self-tests find (R446): whether the fuses read, the failure code of each slot's flash read,
header or signature check (0x05, 0x07, 0x02; none where all pass), and whether the self-tests pass. -/
structure BootEvidence where
  fusesOk : Bool
  failA : Option Byte
  failB : Option Byte
  selfTestOk : Bool
  deriving DecidableEq, Repr

/-- A transmit setting that changes by cross-fade: the two tables of R104, the pre-compensated dispersion of R105, the triplets in use. -/
inductive TxFade where
  | nlc | taps | cdPre | count
  deriving DecidableEq, Repr

/-- The loss-of-lock criteria of R163, in the order of RX_LOL_Cn's payload. -/
inductive LolCause where
  | pilotBer | timing | frequency | correlation
  deriving DecidableEq, Repr

/-- What a 1 ms quality window measures (R148, R150, R158): the linear SNR of each polarisation as a ratio of two numbers, the equaliser's taps at its end
(16 filters, output lane by output lane, in units of 2⁻¹⁶), the frequency derotator and the timing loop's integrator, and the pilot bit error ratio, in the units
of Table 6-5. -/
structure QualityReport where
  sigX : Nat
  errX : Nat
  sigY : Nat
  errY : Nat
  taps : List (List Int)
  freq : Int
  clock : Int
  pilotBer : Nat
  deriving DecidableEq, Repr


/-- Corrections, or measured errors, of one working position of a converter, in the resolutions of Table 7-2: offset in 1/64 LSB, gain in
0.001 dB, skew in fs, the two side taps of the bandwidth filter in 2⁻¹², the static linearity table in 1/64 LSB (R169, R170). -/
structure Correction where
  offset : Int
  gain : Int
  skew : Int
  bwL : Int
  bwR : Int
  lin : List Int
  deriving DecidableEq, Repr

/-- What a calibration finds on one converter: the new value of each position visited, and the residuals of Table 7-6. -/
structure ConvReport where
  conv : Nat
  slices : List (Nat × Correction)
  skewRms : Nat
  gainDev : Nat
  offsetDev : Nat
  deriving DecidableEq, Repr

/-- What the converters answer to CMD_CAL_RUN: the lanes on which no reference tone was found (ACTION 1), and the slices measured or handed back
(ACTIONS 1 and 3). -/
structure CalEvidence where
  notFound : Byte
  reports : List ConvReport
  deriving DecidableEq, Repr

/-- One coding block as the search for block lock sees it (R194): its inner checks, its header: fill bit, reserved bit, SB_START. -/
structure SearchBlock where
  checksOk : Bool
  fill : Bool
  reserved : Bool
  sbStart : BitVec 14
  deriving DecidableEq, Repr

/-- What the search has found on a carrier: an offset in data symbols, and the coding blocks from it on (R194). -/
structure LockSearch where
  car : Fin 4
  offset : Nat
  blocks : List SearchBlock
  deriving DecidableEq, Repr

/-- What a block-locked decoder has met (R195): consecutive coding blocks, each with whether its inner checks failed after N iterations; or consecutive staircase
starts, each with the outer-coded bits counted since a start and the SB_START reported. -/
inductive FecLolCause where
  | innerFailures (failed : List Bool)
  | staircaseOffset (starts : List (Nat × BitVec 14))
  deriving DecidableEq, Repr

/-- What the decoder counted in a 1 ms window (R190, R192, R196, R199). -/
structure FecWindow where
  bits : Nat
  innerCorr : Nat
  outerCorr : Nat
  blocks : Nat
  iters : Nat
  innerFail : Nat
  dmErr : Nat
  injected : Nat
  mi : Nat
  deriving DecidableEq, Repr

/-- What an uncorrectable DRAM word held (Table 11-4): a bundle's buffer, a group's held leg, a golden copy (its SRAM, unit and word; whether the live
word passes parity, and whether the other stack's copy is usable), an entry of the BAR2 window at an offset (error log, snapshot ring, dump region),
the staged firmware, a hosted program's spill window, a stored hosted image (R384). -/
inductive DramUse where
  | bundleBuffer (b : Fin 128)
  | protDelay (g : Fin 64)
  | golden (mem : Byte) (unit : BitVec 16) (word : Nat) (liveOk otherOk : Bool)
  | window (off : BitVec 30)
  | staged
  | spill (handle : Fin 32)
  | hosted (handle : Fin 32)
  deriving DecidableEq, Repr

/-- A program of the engine array: a hosted one by handle, or the system program of a row of Table 15-2 for a carrier. -/
inductive EngWho where
  | hosted (h : Fin 32)
  | system (row : Fin 5) (c : Fin 4)
  deriving DecidableEq, Repr

/-- What a data SRAM word that failed parity held (Table 11-5): a cell of a channel, a channel's multiframe, a word that a program reads. -/
inductive SramUse where
  | insole (ch : Fin 512)
  | authHold (ch : Fin 512)
  | engine (who : EngWho)
  | free
  deriving DecidableEq, Repr

/-- What a memory test finds (R277): failing words, and an address in each failing row. -/
structure BistReport where
  words : Nat
  rows : List Nat
  deriving DecidableEq, Repr

/-- What a lane's receiver reports over a 1 ms window (R297, R300, R307): figure of merit in 0.01 dB, peaking in 0.5 dB, DFE tap in 1/128, frequency
offset in 0.1 ppm, and the checker's bits and errored bits of the window. -/
structure LaneReport where
  fom : Int
  ctle : Byte
  dfe1 : Int
  freq : Int
  bits : Nat
  errs : Nat
  deriving DecidableEq, Repr

/-- The information of a Stitch codeword: TYPE, LANE, CWC and twenty 32-byte blocks (R311, R312). -/
structure Codeword where
  type : Nat
  lane : Nat
  cwc : Nat
  blocks : List (List Byte)
  deriving DecidableEq, Repr

/-- What a lane's decoder makes of one received codeword: its information and its arrival in ps, or nothing where it is uncorrectable. -/
structure CwArrival where
  got : Option Codeword
  at_ : Nat
  deriving DecidableEq, Repr

/-- The codewords that every lane of a Stitch port has just received, by lane index (R312). -/
structure LaneLocks where
  port : Fin 4
  lanes : List (List CwArrival)
  deriving DecidableEq, Repr

/-- The codewords that one lane of a Stitch port has just received (R312). -/
structure LaneCws where
  lane : Fin 16
  cws : List CwArrival
  deriving DecidableEq, Repr

/-- How the codewords that carry a cell decoded (R330, R331): without error, with corrections, or at least one uncorrectable. -/
inductive CellCw where
  | clean | corrected | uncorrectable
  deriving DecidableEq, Repr

/-- Signatures of a group's legs, newest first, as the aligner compares them; none for a multiframe that is excluded (R249). -/
structure LegMatch where
  later : List (Option (BitVec 32))
  earlier : List (Option (BitVec 32))
  deriving DecidableEq, Repr

/-- What one received multiframe of a channel shows (R215 to R217): ENC and KP as voted, its MFC, the 40,960 payload bytes of its frames 0 to 127, and the tag
that the tag frames of the next multiframe carry. -/
structure MfReport where
  enc : Bool
  kp : Fin 2
  mfc : BitVec 64
  text : List Byte
  tag : List Byte
  deriving DecidableEq, Repr

/-- Where an uncorrectable word of the key-slot memory lies (R260): a line key slot of a channel, a job key slot, the KEK. -/
inductive KeyWhere where
  | line (ch : Fin 512) (slot : Fin 2)
  | job (k : Fin 16)
  | kek
  deriving DecidableEq, Repr

/-- The samples of one line frame (R410, R411): whether the receiver was LOCKED, and P, S1, S2, S3. -/
structure SenseSample where
  valid : Bool
  values : List (BitVec 16)
  deriving DecidableEq, Repr


/-- What a Breeze context has when it finds its sync word (R435): its number, and the last 32 bits received, the latest in bit 0. -/
structure BrzSync where
  ctx : Fin 2
  last : BitVec 32
  deriving DecidableEq, Repr

/-- What a Breeze context has when it declares a preamble (R435): the depth of 16 symbols in units of 0.01%, the tone's centre frequency in Hz, and the symbols' deviations in
Hz, the earliest first. -/
structure BrzHeard where
  level : BitVec 16
  tone : Int
  symbols : List Int
  deriving DecidableEq, Repr

/-- What can take over a transition that a command runs (R73, R408): the temperature sample that trips the device, the current limit that has lasted 20 ms,
or the failure of the reference oscillator. -/
inductive Takeover where
  | thermal (core cv0 cv1 io : Int) (vin : Nat)
  | limit (vin : Nat)
  | oscillator (lost : Bool) (ppm : Int)
  deriving DecidableEq, Repr

/-- What CMD_POWER_STATE meets (R73, R91): the domains that do not power up on the way to Service, and a drop that takes the transition over. -/
structure PowerEvidence where
  failed : List Nat
  cut : Option Takeover
  deriving DecidableEq, Repr

/-- The entry of a CMD_DOMAIN_SET with the drop, if any, that takes over while its domains change (R73, Table 3-11). -/
structure DomainRun extends CmdEntry where
  cut : Option Takeover
  deriving DecidableEq, Repr

/-- How a burn of fuse bits goes: every bit reads back, one fails after `bits` have burned, or PWRWARN# comes while the last of `bits` burns, with VIN in mV
(R451, R452, Table 19-7). -/
inductive BurnEnd where
  | whole
  | failed (bits : Nat)
  | warned (bits vin : Nat)
  deriving DecidableEq, Repr

/-- The levels that decide a loss of signal on a carrier (R126), in 0.01 per cent of full scale: over the span of the rule the largest RMS level of any lane
where a loss is in question, the smallest where its end is. -/
structure LevelReport where
  car : Fin 4
  rms : Nat
  deriving DecidableEq, Repr

/-- What a CD search finds in its captured block (R138): the strength of the symbol-clock tone at every trial value, the noise-floor threshold, and around each
of the chosen maxima, strongest first, the strengths at 21 points a tenth of the step apart. -/
structure SearchReport where
  coarse : List Nat
  floor : Nat
  fine : List (List Nat)
  deriving DecidableEq, Repr

/-- The power spectrum of the block captured for the CD search (R151): frequencies in MHz with the power found there. -/
abbrev Spectrum := List (Int × Nat)

/-- What pilot synchronisation measures (R152): the amplitude variance at each of the 32 symbol positions, and at each position the sign bits, in lane order, of
the symbols of consecutive blocks. -/
structure PilotReport where
  car : Fin 4
  variance : List Nat
  bits : List (List (List Bool))
  deriving DecidableEq, Repr

/-- One pilot window of 1,024 pilots (R162, R163): errored pilot bits of its 4,096, the timing integrator in 0.001 ppm, the residual frequency error in MHz, the
frequency derotator in MHz, the correlation of the two equaliser outputs in 0.001. -/
structure PilotWindow where
  errs : Nat
  timing : Int
  resid : Int
  derot : Int
  corr : Nat
  deriving DecidableEq, Repr

/-- The pilot windows of a carrier, newest first. -/
structure LockReport where
  car : Fin 4
  windows : List PilotWindow
  deriving DecidableEq, Repr

/-- The phases compared at a pilot (R154), in units of 2π/65,536. -/
structure SlipReport where
  car : Fin 4
  directed : BitVec 16
  pilot : BitVec 16
  deriving DecidableEq, Repr

/-- The commands and events the block takes: one constructor for each row of the table of operations and events.
A `cmd…` constructor is the execution of a mailbox command by Frelvo (R48, R510); its operand `e` is the command entry less its
OPCODE, and any further operand is what the world outside the model answers during the command. The others are a bus access, or
an event of a pin, a port, a timer or an engine; their operands are what the device observes of it. -/
inductive Instr where
  /-- CMD_TAIL_WRITE (R44): A host write to CMD_TAIL rings the doorbell, or is ignored and sets OVERRUN if it would pass CMD_HEAD by more than 64. -/
  | cmdTailWrite (via : Via) (v : Word)
  /-- COMMAND_CONSUME (R46): Frelvo copies a command entry and advances CMD_HEAD once the outstanding count is below 64. -/
  | commandConsume
  /-- CPL_HEAD_WRITE (R45): A host write to CPL_HEAD frees completion slots, or is ignored and sets BAD_HEAD if it would pass CPL_TAIL. -/
  | cplHeadWrite (via : Via) (v : Word)
  /-- MBX_PORT_WRITE (R65): A write to MBX_PORT selects the owning interface, or is dropped and sets PORT_DROP. -/
  | mbxPortWrite (via : Via) (v : Word)
  /-- PORT_DROP_WRITE (R65): A write from the interface that MBX_PORT excludes is dropped and sets PORT_DROP. -/
  | portDropWrite (via : Via) (off : BitVec 20) (v : Word)
  /-- EVT_MARK_WRITE (R58): A write to EVT_MARK sets the watermark and re-evaluates the MARK_HIT condition. -/
  | evtMarkWrite (via : Via) (v : Word)
  /-- EVT_RUN_WRITE (R56): A write of RUN = 1 moves the FIFO from start-up mode to run mode and evaluates the watermark. -/
  | evtRunWrite (via : Via) (v : Word)
  /-- MARK_HIT_CLEAR (R58): A W1C of MARK_HIT clears the latch and re-latches at once if the condition still holds. -/
  | markHitClear (via : Via)
  /-- EVT_POP_WRITE (R55): A write of 1 to EVT_POP removes the oldest event entry. -/
  | evtPopWrite (via : Via) (v : Word)
  /-- INT_ENABLE_WRITE (R59): A write to INT_ENABLE enables sources, and each newly written 1 whose INT_STATUS bit is set sends its message. -/
  | intEnableWrite (via : Via) (v : Word)
  /-- REGISTER_WRITE (R39): A write to any register without a row of its own stores the value, applies W1C, or is dropped. -/
  | registerWrite (via : Via) (off : BitVec 20) (v : Word)
  /-- DEBUG_WINDOW_FAULT_ACCESS (R62): An access to a block debug region whose domain is OFF or unclocked reads 0xD0FF_D0FF or drops the write, and sets ACCESS_FAULT. -/
  | debugWindowFaultAccess (via : Via) (off : BitVec 20) (wr : Bool)
  /-- BAR2_OFF_STACK_ACCESS (R62): A BAR2 access to a region held in a DRAM stack that is OFF reads 0xD0FF_D0FF or drops the write, and sets ACCESS_FAULT. -/
  | bar2OffStackAccess (off : BitVec 30) (stack : Fin 2) (wr : Bool)
  /-- MSIX_MESSAGE_SEND (R59): An enabled interrupt source sends its MSI-X message, or holds it pending while its vector is masked. -/
  | msixMessageSend (src : Fin 12) (masked : Bool)
  /-- MGP_WRITE_TRANSACTION (R63): An MGP write stores each complete 4-byte register from the offset given, and discards a partial register at STOP. -/
  | mgpWriteTransaction (off : BitVec 20) (data : List Byte)
  /-- MGP_READ_TRANSACTION (R63): An MGP read returns BAR0 bytes from the offset given, advancing 4 every fourth byte. -/
  | mgpReadTransaction (off : BitVec 20) (n : Nat)
  /-- RESPONDER_COMPLETE (R51): In ACTIVATING, BOOTING or FAULT, the hardware responder consumes a command and completes it with E_BUSY or E_STATE. -/
  | responderComplete
  /-- POWER_ON_RESET (R68): VIN rising through the undervoltage lockout releases soft-start and resets the device with RESET_CAUSE POR. -/
  | powerOnReset (vin : Nat)
  /-- UVLO_SHUTDOWN (R68): VIN falling below the undervoltage lockout removes every rail within 50 µs. -/
  | uvloShutdown (vin : Nat)
  /-- OVERVOLTAGE_SHUTDOWN (R68): VIN above the overvoltage threshold removes every rail as an undervoltage does. -/
  | overvoltageShutdown (vin : Nat)
  /-- OVERVOLTAGE_RESTART (R68): After 100 ms below the restart threshold, the device restarts with RESET_CAUSE OVP. -/
  | overvoltageRestart (vin : Nat)
  /-- PWRWARN_ASSERT (R67): VIN below the falling threshold asserts PWRWARN#, halves the engine clock and raises PWR_WARN. -/
  | pwrwarnAssert (vin : Nat)
  /-- PWRWARN_RELEASE (R67): VIN above the release threshold releases PWRWARN# and restores the engine clock. -/
  | pwrwarnRelease (vin : Nat)
  /-- CURRENT_LIMIT_ENGAGE (R69): Input current reaching the limit holds it there and asserts PWRWARN#. -/
  | currentLimitEngage (vin : Nat)
  /-- CURRENT_LIMIT_RELEASE (R67): Input current falling below the limit ends the limit and its PWRWARN# assertion. -/
  | currentLimitRelease (vin : Nat)
  /-- CURRENT_LIMIT_DROP (R69): A current limit still active 20 ms after engaging takes every domain OFF into Calm and raises PWR_ILIMIT. -/
  | currentLimitDrop (vin : Nat)
  /-- SYSRST_ASSERT (R84): SYSRST# held low for 10 µs puts the device in reset, whatever its state. -/
  | sysrstAssert
  /-- SYSRST_RELEASE (R84): Release of SYSRST# ends the reset and starts boot. -/
  | sysrstRelease
  /-- SYS_RESET_DELAY_EXPIRY (R84): 1 ms after CMD_SYS_RESET completes, the device resets with RESET_CAUSE CMD. -/
  | sysResetDelayExpiry
  /-- BOOT_ROM_RUN (R446): After a reset, the boot ROM runs the boot phases, with slot fallback, to MBX_STATE READY or FAULT. -/
  | bootRomRun (b : BootEvidence)
  /-- PCIE_RESET (R85): A PCIe fundamental or hot reset resets only the endpoint, its configuration space and the MSI-X table. -/
  | pcieReset
  /-- WATCHDOG_EXPIRY (R86): Frelvo's watchdog expires and fails boot, restarts Frelvo, or leaves MBX_STATE at FAULT. -/
  | watchdogExpiry
  /-- FRELVO_MEMORY_UE (R260): An uncorrectable Frelvo memory word restarts Frelvo as a watchdog expiry does. -/
  | frelvoMemoryUe
  /-- FRELVO_RESTART_READY (R86): The restarted image completes cut-off commands with E_BUSY, becomes READY and raises FRELVO_RESTART. -/
  | frelvoRestartReady
  /-- WAKE_MGP_MATCH (R77): In Doldrums, an MGP START with the device's own address is acknowledged and wakes the device as a reset. -/
  | wakeMgpMatch (addr : BitVec 7)
  /-- WAKE_PIN (R77): In Doldrums, WAKE# held low for one always-on cycle wakes the device as a reset. -/
  | wakePin
  /-- QUEUED_DOLDRUMS_ENTRY (R73): A queued Doldrums request runs when the transition in progress ends, evaluated at that moment. -/
  | queuedDoldrumsEntry
  /-- SQUALL_DROOP (R88): VENG or VMC falling 5% below nominal halves the engine clock and counts the droop. -/
  | squallDroop (veng : Bool) (vmc : Bool)
  /-- SQUALL_RESTORE (R88): 10 µs after both rails are back above the threshold, the engine clock is restored. -/
  | squallRestore
  /-- THERMAL_SAMPLE (R89): Each millisecond Frelvo reads the junction sensors and applies throttling or a thermal trip to Calm. -/
  | thermalSample (core : Int) (cv0 : Int) (cv1 : Int) (io : Int) (vin : Nat)
  /-- THROTTLE_HOLD_EXPIRY (R89): Throttling held for 1 s blocks commands that would add buffered bundles or raise B. -/
  | throttleHoldExpiry
  /-- HW_THERMAL_SHUTDOWN (R89): Tj at or above 125 °C on any die makes the hardware remove every rail except VAON. -/
  | hwThermalShutdown
  /-- THERMAL_RESTART (R89): Tj falling below 100 °C after hardware shutdown resets the device with RESET_CAUSE HOT. -/
  | thermalRestart
  /-- BOOST_WINDOW_SPENT (R90): 20 s of boost within the 60 s window returns the engines to nominal clock and raises BOOST_SPENT. -/
  | boostWindowSpent
  /-- SEAM_FLIT_RETRY (R21): A Seam flit that fails its CRC is retransmitted and counted. -/
  | seamFlitRetry (link : SeamLink) (fails : Nat)
  /-- SEAM_WINDOW_END (R22): A 1 ms retransmission window ends and the rate test for persistent failure is applied. -/
  | seamWindowEnd (link : SeamLink)
  /-- CMD_SYS_INFO (R479): Returns uptime, dump information, parameter count and MBX_PORT. -/
  | cmdSysInfo (e : CmdEntry)
  /-- CMD_SYS_RESET (R84): Completes with E_OK and schedules a reset 1 ms later. -/
  | cmdSysReset (e : CmdEntry)
  /-- CMD_PARAM_SET (R486): Checks the entries in order and applies all of them or none. -/
  | cmdParamSet (e : CmdEntry)
  /-- CMD_PARAM_GET (R53): Returns up to 6 parameter values, all or none. -/
  | cmdParamGet (e : CmdEntry)
  /-- CMD_POWER_STATE (R72): Moves the device between Calm, Service and Doldrums as Table 3-4 states. -/
  | cmdPowerState (e : CmdEntry) (w : PowerEvidence)
  /-- CMD_DOMAIN_SET (R79): Records domain targets and, in Service, applies them, forcing dependants with FORCE. -/
  | cmdDomainSet (e : DomainRun)
  /-- CMD_POWER_STATUS (R481): Returns power state, domain states, clock causes, boost use, Tj and VIN. -/
  | cmdPowerStatus (e : CmdEntry)
  /-- CMD_CARRIER_SET (R98): Sets the operating point of both directions of a dark carrier and obtains its lasts. -/
  | cmdCarrierSet (e : CmdEntry)
  /-- CMD_CARRIER_RECOVER (R482): Retrains a failed Seam link and clears the held-down state of its carriers. -/
  | cmdCarrierRecover (e : CmdEntry) (retrains : Bool)
  /-- CMD_TX_ENABLE (R116): Enables a carrier's transmitter with a ramp, or ramps it down to DARK. -/
  | cmdTxEnable (e : CmdEntry)
  /-- TX_FRAMER_START (R116): The framer sends frame 0 at the next edge of the device multiframe epoch and the pilot generator is loaded. -/
  | txFramerStart (c : Fin 4)
  /-- TX_RAMP_END (R117): A transmit gain ramp ends and the carrier enters ON, MUTED or DARK. -/
  | txRampEnd (c : Fin 4)
  /-- CMD_TX_MUTE (R117): Sets or clears the host mute cause, with a ramp. -/
  | cmdTxMute (e : CmdEntry)
  /-- CMD_TX_COEF_LOAD (R104): Writes staged transmit table entries and optionally commits them by cross-fade. -/
  | cmdTxCoefLoad (e : CmdEntry)
  /-- CMD_TX_STATUS (R118): Returns the transmit state, mute causes, coefficient state and clip figures. -/
  | cmdTxStatus (e : CmdEntry)
  /-- CMD_CP_SPI (R484): Performs a carrier-port SPI transfer and returns the first 52 received bytes. -/
  | cmdCpSpi (e : CmdEntry) (rx : List Byte)
  /-- TXOK_LOW (R117): CPn_TXOK falling mutes the carrier within 1 µs and latches INTERLOCK. -/
  | txokLow (c : Fin 4)
  /-- TXOK_HIGH (R117): CPn_TXOK returning high starts the automatic interlock clear when P_TX_IL_AUTO is 1. -/
  | txokHigh (c : Fin 4)
  /-- INTERLOCK_AUTO_CLEAR (R117): 10 ms after CPn_TXOK returns high, INTERLOCK clears and the carrier may ramp back to ON. -/
  | interlockAutoClear (c : Fin 4)
  /-- PRES_HIGH (R117): CPn_PRES# going high while enabled mutes the carrier within 1 µs with cause PRESENCE. -/
  | presHigh (c : Fin 4)
  /-- TX_CLOCK_UNLOCK (R117): Loss of transmit clock lock mutes the carrier within 1 µs with cause CLOCK. -/
  | txClockUnlock (c : Fin 4)
  /-- TX_CLOCK_RELOCK (R117): 1 ms after the transmit clock relocks, the CLOCK cause clears. -/
  | txClockRelock (c : Fin 4)
  /-- TX_CLIP_WINDOW (R111): A 1 s clip window ends and TX_CLIP_Cn is raised if the clipped fraction exceeds its alarm. -/
  | txClipWindow (c : Fin 4) (clipped : Nat) (samples : Nat)
  /-- PILOT_SEED_RELOAD (R102): Every 32,768th pilot the pilot PRBS generator is reloaded with its seed. -/
  | pilotSeedReload (c : Fin 4)
  /-- TX_XFADE_END (R104): A transmit table cross-fade ends and any waiting commit starts its cross-fade. -/
  | txXfadeEnd (c : Fin 4) (which : TxFade)
  /-- CMD_CD_REACH (R141): Changes the receive dispersion window of a live carrier and resizes its lasts. -/
  | cmdCdReach (e : CmdEntry)
  /-- CMD_LAST_STATUS (R142): Returns the owner, lender and need of every last and the pool policy. -/
  | cmdLastStatus (e : CmdEntry)
  /-- RX_LOS_DECLARE (R126): Every lane below the threshold for 10 measurements declares loss of signal and raises RX_LOS_Cn. -/
  | rxLosDeclare (r : LevelReport)
  /-- RX_LOS_CLEAR (R126): Every lane 3 dB above the threshold for 1 ms clears loss of signal and raises RX_LOS_CLR_Cn. -/
  | rxLosClear (r : LevelReport)
  /-- ADC_CLIP_WINDOW (R125): A 1 s window ends and ADC_CLIP_Cn is raised if the clipped fraction exceeds its alarm. -/
  | adcClipWindow (c : Fin 4) (clipped : Nat) (samples : Nat)
  /-- LAST_LOAD_END (R133): An engine finishes loading a shadow or in-place set of lasts, switching at once if the receiver is not LOCKED. -/
  | lastLoadEnd (c : Fin 4)
  /-- SHADOW_SWITCH (R133): At a received frame boundary, the CD stage switches to the shadow set and frees or returns the old set. -/
  | shadowSwitch (c : Fin 4)
  /-- LAST_REALLOCATE (R137): When lasts become FREE, a short or pre-empted carrier obtains its need and raises LAST_RESTORED_Cn. -/
  | lastReallocate (c : Fin 4)
  /-- CD_SEARCH_END (R138): The CD search hands its candidates to acquisition or fails with CD_SEARCH_FAIL_Cn. -/
  | cdSearchEnd (c : Fin 4) (found : SearchReport)
  /-- CD_TRIM_UPDATE (R140): Every 100 ms the trim moves towards the residual dispersion and re-centres past 80% of its range. -/
  | cdTrimUpdate (c : Fin 4) (q : QualityReport)
  /-- CMD_RX_STATUS (R166): Returns receiver state, failure cause and quality measurements. -/
  | cmdRxStatus (e : CmdEntry)
  /-- CMD_RX_REACQUIRE (R165): Requests fast re-acquisition or full acquisition and completes at lock or failure. -/
  | cmdRxReacquire (e : CmdEntry)
  /-- CMD_RX_NLC_LOAD (R157): Writes host receive nonlinear triplets and optionally commits them by cross-fade. -/
  | cmdRxNlcLoad (e : CmdEntry)
  /-- ACQ_START (R160): Once every condition holds on a receiver that is not LOCKED, a full acquisition begins. -/
  | acqStart (c : Fin 4)
  /-- CANDIDATE_LOAD_END (R161): A CD candidate is loaded into the active set and acquisition enters COARSE. -/
  | candidateLoadEnd (c : Fin 4)
  /-- COARSE_END (R151): Coarse frequency and timing pull-in end and acquisition enters PRECONVERGE. -/
  | coarseEnd (c : Fin 4) (sp : Spectrum) (timingOk : Bool)
  /-- PRECONVERGE_END (R161): Constant-modulus convergence ends and acquisition enters PILOT_SYNC. -/
  | preconvergeEnd (c : Fin 4)
  /-- PILOT_SYNC_END (R152): A rotation and order combination is accepted and acquisition enters TRACK. -/
  | pilotSyncEnd (r : PilotReport)
  /-- RX_LOCK (R162): The lock criteria hold for 16 pilot windows, the receiver enters LOCKED and raises RX_LOCK_Cn. -/
  | rxLock (r : LockReport)
  /-- ACQ_STATE_TIMEOUT (R161): An acquisition state exceeds its maximum time and fails, trying the next candidate or ending the attempt. -/
  | acqStateTimeout (c : Fin 4)
  /-- ACQ_WAIT_END (R164): After P_RX_ACQ_RETRY in WAIT, a new full acquisition starts. -/
  | acqWaitEnd (c : Fin 4)
  /-- LOSS_OF_LOCK (R163): A loss-of-lock criterion invalidates the carrier's symbols, raises RX_LOL_Cn and starts fast re-acquisition. -/
  | lossOfLock (c : Fin 4) (ws : List PilotWindow)
  /-- PILOT_SEED_REPEAT (R152): At each repeat of the far-end pilot seed, the receiver reports SEED_RX and checks it against P_RX_PILOT_SEED. -/
  | pilotSeedRepeat (c : Fin 4) (seed : BitVec 15)
  /-- CYCLE_SLIP (R154): A decision-directed phase π/4 or more from the pilot phase counts a slip and resets the estimate. -/
  | cycleSlip (r : SlipReport)
  /-- CYCLE_SLIP_WINDOW (R154): A 1 s window ends and CYCLE_SLIP_Cn is raised if the slips exceed the alarm. -/
  | cycleSlipWindow (c : Fin 4) (slips : Nat)
  /-- QUALITY_WINDOW (R158): Each 1 ms window yields SNR, margin and equaliser reports. -/
  | qualityWindow (c : Fin 4) (q : QualityReport)
  /-- NLC_TRAIN_START (R156): Every P_RX_NLC_PERIOD, or when a cluster has room, a nonlinear training run starts. -/
  | nlcTrainStart (c : Fin 4)
  /-- NLC_TRAIN_END (R156): The trainer fits triplets and commits the table only if it gains at least 0.05 dB. -/
  | nlcTrainEnd (c : Fin 4) (fit : List (BitVec 48)) (snrNew : Int) (snrOld : Int)
  /-- NLC_XFADE_END (R155): A receive nonlinear cross-fade ends, NLC_APPLIED_Cn is raised and any waiting table starts. -/
  | nlcXfadeEnd (c : Fin 4)
  /-- CMD_CAL_RUN (R178): Starts a background round, a tone calibration, a DAC initial calibration, or aborts a round. -/
  | cmdCalRun (e : CmdEntry) (ev : CalEvidence)
  /-- CMD_CAL_STATUS (R179): Returns calibration state and residuals of one converter. -/
  | cmdCalStatus (e : CmdEntry)
  /-- CAL_ROUND_TRIGGER (R176): The period, temperature trigger or continuous mode starts a background calibration round. -/
  | calRoundTrigger (c : Fin 4)
  /-- CAL_FS_CHANGE_TRIGGER (R177): 10 ms after a change of Fs, a calibration round starts. -/
  | calFsChangeTrigger (c : Fin 4)
  /-- CAL_ROUND_END (R172): A round ends, forms new skew and bandwidth estimates, fails out-of-range slices and starts gradual application. -/
  | calRoundEnd (c : Fin 4) (found : List ConvReport)
  /-- CAL_APPLY_END (R173): The gradual application of new corrections over P_CAL_APPLY frames ends. -/
  | calApplyEnd (c : Fin 4)
  /-- DAC_INIT_CAL_END (R175): DAC initial calibration ends and CAL_READY_Cn is raised. -/
  | dacInitCalEnd (c : Fin 4) (found : List ConvReport)
  /-- CMD_FEC_STATUS (R199): Returns FEC state, BER, iterations and counters of a carrier. -/
  | cmdFecStatus (e : CmdEntry)
  /-- CMD_FEC_INJECT (R201): Starts, replaces or stops error injection on a carrier. -/
  | cmdFecInject (e : CmdEntry)
  /-- FEC_INJECT_TICK (R201): Each 1 ms a burst or an uncorrectable block is injected until COUNT is reached. -/
  | fecInjectTick (c : Fin 4)
  /-- FEC_INJECT_END (R201): A random injection ends when its DURATION expires. -/
  | fecInjectEnd (c : Fin 4)
  /-- FEC_BLOCK_LOCK (R194): Four consecutive good coding blocks at one offset give block lock and raise FEC_LOCK_Cn. -/
  | fecBlockLock (c : LockSearch)
  /-- FEC_LOSS_OF_BLOCK_LOCK (R195): Failed blocks or misplaced staircase starts lose block lock, apply loss-of-frame actions and raise FEC_LOL_Cn. -/
  | fecLossOfBlockLock (c : Fin 4) (why : FecLolCause)
  /-- FEC_DEG_WINDOW (R197): Every 1 ms Frelvo computes pre-FEC BER and raises or clears FEC_DEG_Cn. -/
  | fecDegWindow (c : Fin 4) (w : FecWindow)
  /-- FEC_UNCORR_BLOCK (R198): A staircase block leaving the window uncorrected is counted and delivered as P_FEC_UNCORR_ACT selects. -/
  | fecUncorrBlock (c : Fin 4)
  /-- CMD_BUNDLE_CREATE (R223): Defines a bundle of contiguous channels of one carrier. -/
  | cmdBundleCreate (e : CmdEntry)
  /-- CMD_BUNDLE_DELETE (R224): Deletes an idle, unattached bundle. -/
  | cmdBundleDelete (e : CmdEntry)
  /-- CMD_BUNDLE_ENABLE (R225): Enables a bundle at the next multiframe boundary, or disables it with a drain. -/
  | cmdBundleEnable (e : CmdEntry)
  /-- BUNDLE_BOUNDARY_APPLY (R225): At the next multiframe boundary a bundle enable or disable takes effect in each direction. -/
  | bundleBoundaryApply (b : Fin 128)
  /-- BUNDLE_DRAIN_END (R225): The disable drain ends and the remainder is discarded and counted in DISCARD_ON_DISABLE. -/
  | bundleDrainEnd (b : Fin 128) (bytes : Nat)
  /-- CMD_FRM_STATUS (R227): Returns frame and multiframe state, defects and section counters. -/
  | cmdFrmStatus (e : CmdEntry)
  /-- CMD_CHAN_STATUS (R228): Returns a channel's bundle, defects, key phase and path counters. -/
  | cmdChanStatus (e : CmdEntry)
  /-- CMD_FRM_TTI (R229): Sets the transmit or expected TTI or reads the received TTI. -/
  | cmdFrmTti (e : CmdEntry)
  /-- IN_FRAME_DECLARE (R209): Three FAW matches at the frame spacing declare IN_FRAME. -/
  | inFrameDeclare (c : Fin 4)
  /-- FALSE_CANDIDATE (R209): A miss at a candidate check drops the candidate, counts it and resumes HUNT. -/
  | falseCandidate (c : Fin 4)
  /-- LOF_DECLARE (R209): Five consecutive FAW misses declare LOF, apply all-ones and restart HUNT. -/
  | lofDeclare (c : Fin 4)
  /-- MF_ALIGN (R210): Three consistent MFAS values align the multiframe or clear OOM. -/
  | mfAlign (c : Fin 4) (mfas : BitVec 7)
  /-- OOM_DECLARE (R210): Five inconsistent MFAS values declare out of multiframe. -/
  | oomDeclare (c : Fin 4)
  /-- LOM_DECLARE (R210): OOM lasting 256 frame periods declares LOM and applies all-ones. -/
  | lomDeclare (c : Fin 4)
  /-- TTI_ACCEPT (R213): A TTI identical in 3 multiframes is accepted and TIM is declared or cleared. -/
  | ttiAccept (c : Fin 4) (tti : List Byte)
  /-- SBDI_RX_CHANGE (R220): SBDI received as 1 or 0 in 3 overhead frames sets or clears the received indication. -/
  | sbdiRxChange (c : Fin 4) (on : Bool)
  /-- PATH_DEFECT_CHANGE (R220): A path defect is declared or cleared on a channel, with its consequent action and PATH_DEFECT. -/
  | pathDefectChange (ch : Fin 512) (defects : BitVec 5)
  /-- CONSEQUENT_ACTION_END (R221): At the first multiframe boundary after the clearing conditions, a consequent action ends. -/
  | consequentActionEnd (c : Fin 4)
  /-- RS_FIELDS_ACCEPT (R214): Rate-step fields identical in 3 overhead frames are accepted and acted on. -/
  | rsFieldsAccept (c : Fin 4) (bytes : List Byte)
  /-- RS_COUNTDOWN_TICK (R214): At each multiframe boundary during COMMIT, the hardware lowers RS_CD by 1. -/
  | rsCountdownTick (c : Fin 4)
  /-- CMD_RATE_STEP (R235): Initiates a hitless rate step of a carrier and completes when the local transmitter has switched. -/
  | cmdRateStep (e : CmdEntry) (roomOk : Bool)
  /-- CMD_RATE_STATUS (R256): Returns the rate-step state, role, target and history of a carrier. -/
  | cmdRateStatus (e : CmdEntry)
  /-- CMD_RATE_ELASTIC (R233): Designates or clears a carrier's elastic bundle. -/
  | cmdRateElastic (e : CmdEntry)
  /-- RS_REQ_RX (R239): The responder accepts a REQ, runs its interlocks and answers ACK or NAK, or meets a collision. -/
  | rsReqRx (c : Fin 4) (roomOk : Bool)
  /-- RS_ACK_RX (R239): The initiator accepts ACK and sends COMMIT. -/
  | rsAckRx (c : Fin 4)
  /-- RS_NAK_RX (R243): The initiator accepts NAK, sends ABORT and fails its command. -/
  | rsNakRx (c : Fin 4)
  /-- RS_COMMIT_RX (R239): The responder accepts the initiator's COMMIT and sends its own. -/
  | rsCommitRx (c : Fin 4)
  /-- RS_ABORT_RX (R243): The responder accepts ABORT, releases reservations and raises RATE_STEP_FAIL_Cn. -/
  | rsAbortRx (c : Fin 4)
  /-- RS_ACK_TIMEOUT (R235): No ACK or NAK within P_RS_ACK_TIMEOUT abandons the step with ABORT. -/
  | rsAckTimeout (c : Fin 4)
  /-- RS_THROTTLE_DONE (R237): The elastic flow's Insole occupancy is within its new allowance and the step may proceed. -/
  | rsThrottleDone (c : Fin 4)
  /-- RS_THROTTLE_TIMEOUT (R237): The throttle not complete within P_RS_THROTTLE_MAX fails the step and releases reservations. -/
  | rsThrottleTimeout (c : Fin 4)
  /-- RS_TX_SWITCH (R240): At the countdown's end the transmitter switches n at frame 0 and Rs, Fs and codes at Σ. -/
  | rsTxSwitch (c : Fin 4)
  /-- RS_RX_SWITCH (R241): The receiver switches at the received Σ, finds the new FAW and ends the step with RATE_STEP_DONE_Cn. -/
  | rsRxSwitch (c : Fin 4)
  /-- RS_SPLIT_TIMEOUT (R243): No receive Σ within P_RS_ACK_TIMEOUT of the local switch puts the carrier in SPLIT. -/
  | rsSplitTimeout (c : Fin 4)
  /-- RATE_POLICY_DECISION (R244): Each second the policy program computes margin and trend and advises or runs a step. -/
  | ratePolicyDecision (c : Fin 4)
  /-- CMD_PROT_CREATE (R248): Creates a protection group pairing a working and a protection bundle. -/
  | cmdProtCreate (e : CmdEntry)
  /-- CMD_PROT_DELETE (R248): Deletes a disarmed protection group. -/
  | cmdProtDelete (e : CmdEntry)
  /-- CMD_PROT_ARM (R251): Arms a group and completes at alignment, or disarms it. -/
  | cmdProtArm (e : CmdEntry)
  /-- CMD_PROT_SWITCH (R254): Sets or clears a host protection request. -/
  | cmdProtSwitch (e : CmdEntry)
  /-- CMD_PROT_STATUS (R257): Returns a group's state, selection, requests and counters. -/
  | cmdProtStatus (e : CmdEntry)
  /-- PROT_ALIGN (R249): Signatures matching at one unique offset for 16 multiframes align the legs and raise PROT_ALIGNED. -/
  | protAlign (g : Fin 64) (diff : Nat) (earlierProt : Bool) (found : LegMatch)
  /-- PROT_HOLDOFF_EXPIRY (R253): SF or SD persisting for HOLDOFF changes SEL within 50 µs and raises PROT_SWITCH. -/
  | protHoldoffExpiry (g : Fin 64) (subst : Nat) (damaged : Nat)
  /-- PROT_WTR_EXPIRY (R253): The wait-to-restore of a revertive group expires and SEL returns to working. -/
  | protWtrExpiry (g : Fin 64)
  /-- PROT_LEG_RETURN (R255): A failed leg valid again is realigned, paused onto, or left unaligned. -/
  | protLegReturn (g : Fin 64) (prot : Bool) (early : Int) (diff : Nat) (subst : Nat) (damaged : Nat)
  /-- CMD_ETH_PORT_CREATE (R302): Defines an Ethernet port on lanes and attaches its bundle. -/
  | cmdEthPortCreate (e : CmdEntry)
  /-- CMD_ETH_PORT_DELETE (R303): Deletes a disabled Ethernet port. -/
  | cmdEthPortDelete (e : CmdEntry)
  /-- CMD_ETH_PORT_ENABLE (R304): Powers and enables a port's lanes, or takes them to electrical idle. -/
  | cmdEthPortEnable (e : CmdEntry)
  /-- CMD_ETH_PORT_STATUS (R306): Returns port state, faults and counters. -/
  | cmdEthPortStatus (e : CmdEntry)
  /-- CMD_LANE_STATUS (R307): Returns lane mode, adaptation, PRBS and figure of merit. -/
  | cmdLaneStatus (e : CmdEntry)
  /-- CMD_LANE_TEST (R301): Sets loopback, pattern generator and checker of a range of lanes. -/
  | cmdLaneTest (e : CmdEntry)
  /-- LANE_LOS_CHANGE (R296): A lane's loss of signal asserts or releases, moving its port state. -/
  | laneLosChange (l : Fin 64) (on : Bool)
  /-- LANE_CDR_LOCK (R296): A lane's CDR locks and initial adaptation starts. -/
  | laneCdrLock (l : Fin 64)
  /-- LANE_ADAPT_END (R296): Initial adaptation ends and the lane tracks or freezes. -/
  | laneAdaptEnd (l : Fin 64)
  /-- LANE_FOM_WINDOW (R297): Each 1 ms window updates FOM and raises LANE_FOM_LOW_Lnn after 10 low windows. -/
  | laneFomWindow (l : Fin 64) (r : LaneReport)
  /-- ETH_PORT_STATE_CHANGE (R305): A port's PORT_STATE changes, raising ETH_UP_Enn or ETH_DOWN_Enn. -/
  | ethPortStateChange (p : Fin 32) (locked : Bool) (corr : Nat) (uncorr : Nat)
  /-- ETH_FRAME_RX (R288): A MAC frame from the client is mapped into GFP, forwarded with FCS handling, or discarded. -/
  | ethFrameRx (p : Fin 32) (frame : List Byte) (err : Bool)
  /-- ETH_FRAME_TX (R289): A delineated frame is sent to the client with regenerated preamble, or dropped at a full egress buffer. -/
  | ethFrameTx (p : Fin 32) (frame : List Byte) (held : Nat)
  /-- GFP_LOSS_OF_DELINEATION (R287): Loss of GFP delineation counts GFP_LOD and starts Local Fault to the client. -/
  | gfpLossOfDelineation (p : Fin 32)
  /-- CSF_FRAME_TIMER (R290): Every 100 ms during client fail or Remote Fault, a GFP management frame is sent into the bundle. -/
  | csfFrameTimer (p : Fin 32)
  /-- CSF_FRAME_RX (R291): A received GFP management frame sets Local or Remote Fault toward the client for 300 ms. -/
  | csfFrameRx (p : Fin 32) (upi : Byte)
  /-- CLIENT_FAULT_RX (R290): Local or Remote Fault ordered sets from the client change client fail or Remote Fault forwarding. -/
  | clientFaultRx (p : Fin 32) (fault : Fin 3)
  /-- PRBS_CHECKER_LOCK (R300): 1,024 matching symbols lock the PRBS checker, possibly to the inverted pattern. -/
  | prbsCheckerLock (l : Fin 64) (inv : Bool)
  /-- PRBS_CHECKER_LOSS (R300): 256 errored symbols in 1,024 lose checker lock, count a relock and reseed. -/
  | prbsCheckerLoss (l : Fin 64)
  /-- SREF_LOSS (R293): Loss of SREFn sets the Stitch lanes to electrical idle and raises SREF_LOSS_Sn. -/
  | srefLoss (p : Fin 4)
  /-- SREF_RETURN (R293): 1 ms after SREFn returns, its lanes restart adaptation and the port retrains. -/
  | srefReturn (p : Fin 4)
  /-- CMD_STITCH_PORT_CREATE (R332): Defines a Stitch port with its lanes and baud rate. -/
  | cmdStitchPortCreate (e : CmdEntry)
  /-- CMD_STITCH_PORT_DELETE (R333): Deletes a disabled Stitch port with no flows. -/
  | cmdStitchPortDelete (e : CmdEntry)
  /-- CMD_STITCH_PORT_ENABLE (R334): Enables a Stitch port through training to UP, or disables it. -/
  | cmdStitchPortEnable (e : CmdEntry)
  /-- CMD_STITCH_FLOW (R335): Attaches or detaches a bundle as a flow of a Stitch port. -/
  | cmdStitchFlow (e : CmdEntry)
  /-- CMD_STITCH_STATUS (R336): Returns Stitch port state, RTT and cell counters. -/
  | cmdStitchStatus (e : CmdEntry)
  /-- STITCH_LANES_LOCKED (R316): Every lane reaches codeword lock and the port enters TUNE. -/
  | stitchLanesLocked (p : LaneLocks)
  /-- STITCH_TRAINING_CW_RX (R316): A training control block is received; the peer's requests are applied and LINK_ID is checked. -/
  | stitchTrainingCwRx (p : Fin 4) (l : Fin 16) (ctrl : List Byte)
  /-- STITCH_TUNE_DONE (R316): The tuning sweep ends, the best point is requested and the port enters READY. -/
  | stitchTuneDone (p : Fin 4) (foms : List (List Int))
  /-- STITCH_PEER_READY (R316): The peer's RX_READY is seen on every lane and the port enters ALIGN. -/
  | stitchPeerReady (p : Fin 4)
  /-- STITCH_ALIGN_DONE (R316): Data codewords are deskewed on every lane, the port is UP and raises STITCH_UP_Sn. -/
  | stitchAlignDone (p : Fin 4)
  /-- STITCH_CODEWORD_LOCK_LOSS (R312): 16 consecutive uncorrectable codewords lose a lane's codeword lock. -/
  | stitchCodewordLockLoss (p : Fin 4) (l : LaneCws)
  /-- STITCH_CELL_RX (R330): A received cell is sorted into exactly one outcome, updating credits, sequences and Insole. -/
  | stitchCellRx (p : Fin 4) (cell : List Byte) (cw : CellCw)
  /-- STITCH_CELL_TX (R315): The transmitter sends a data cell its credits allow, or an idle cell, with a credit update. -/
  | stitchCellTx (p : Fin 4) (ch : Fin 512) (credit : Fin 512) (payload : List Byte)
  /-- STITCH_SYNC_TIMER (R315): 1 µs after a channel's last data cell, then every 100 µs, a SYNC cell is sent. -/
  | stitchSyncTimer (p : Fin 4) (ch : Fin 512)
  /-- STITCH_PROBE_TIMER (R315): Every 1 ms a probe cell is sent on each port. -/
  | stitchProbeTimer (p : Fin 4)
  /-- STITCH_RETRAIN_TIMER (R317): Every 100 ms an enabled port that is down makes a new training attempt. -/
  | stitchRetrainTimer (p : Fin 4)
  /-- CMD_KEY_LOAD (R349): Loads a key slot of a range of channels, or a job key slot. -/
  | cmdKeyLoad (e : CmdEntry)
  /-- CMD_KEY_ACTIVATE (R350): Sets the transmit slot and receive expectation of a range of channels. -/
  | cmdKeyActivate (e : CmdEntry)
  /-- CMD_KEY_ERASE (R351): Zeroes selected key slots, refusing active ones without FORCE. -/
  | cmdKeyErase (e : CmdEntry)
  /-- CMD_KEY_STATUS (R352): Returns a channel's slot flags, MFCs and authentication counters. -/
  | cmdKeyStatus (e : CmdEntry)
  /-- CMD_KEK_LOAD (R348): Loads one half of an OAEP-wrapped KEK and installs it after PART 1. -/
  | cmdKekLoad (e : CmdEntry)
  /-- CMD_CRYPTO_JOB (R355): Queues a memory-to-memory crypto job. -/
  | cmdCryptoJob (e : CmdEntry)
  /-- CMD_CRYPTO_CANCEL (R358): Removes a queued job or stops a running one. -/
  | cmdCryptoCancel (e : CmdEntry)
  /-- KEY_NEAR_LIMIT_REACHED (R342): A transmit slot reaching P_KEY_WARN of its limit raises KEY_NEAR_LIMIT and may roll automatically. -/
  | keyNearLimitReached (ch : Fin 512) (n : Nat)
  /-- KEY_LIMIT_EXPIRY (R342): A transmit slot reaching its usage limit expires and the channel sends zeros with AIS. -/
  | keyLimitExpiry (ch : Fin 512) (n : Nat)
  /-- MULTIFRAME_AUTH_CHECK (R346): A received multiframe is decrypted and tag-checked, delivered, or replaced by zeros with AIS. -/
  | multiframeAuthCheck (ch : Fin 512) (mfs : List MfReport)
  /-- CRYPTO_JOB_START (R356): The next queued job starts, an urgent one suspending a normal job at its block boundary. -/
  | cryptoJobStart
  /-- CRYPTO_JOB_END (R357): A job ends, writes its completion record and raises CRYPTO_JOB_DONE. -/
  | cryptoJobEnd (bad : Bool)
  /-- KEY_SLOT_UE (R260): An uncorrectable key-slot word leaves its slot erased with the effects of a forced erase. -/
  | keySlotUe (at_ : KeyWhere) (word : Nat)
  /-- CMD_ENG_LOAD (R376): Copies, verifies and stores a hosted engine image under a handle. -/
  | cmdEngLoad (e : CmdEntry)
  /-- CMD_ENG_START (R377): Places and starts a hosted program on a cluster with its grants. -/
  | cmdEngStart (e : CmdEntry)
  /-- CMD_ENG_STOP (R378): Stops a hosted program at its tile ends and releases its resources. -/
  | cmdEngStop (e : CmdEntry)
  /-- CMD_ENG_UNLOAD (R379): Frees a handle and its stored image. -/
  | cmdEngUnload (e : CmdEntry)
  /-- CMD_ENG_MSG (R380): Places a 16-byte message in a running program's inbox. -/
  | cmdEngMsg (e : CmdEntry)
  /-- CMD_ENG_STATUS (R381): Returns a hosted program's state, grants and counts. -/
  | cmdEngStatus (e : CmdEntry)
  /-- CMD_ENG_ARRAY (R382): Returns per-cluster engine use, free pages, domains and the engine clock. -/
  | cmdEngArray (e : CmdEntry)
  /-- ENG_PROGRAM_FAULT (R368): A program fault halts the engine, discards staged writes, releases resources and raises ENG_FAULT. -/
  | engProgramFault (who : EngWho) (cause : Fin 7) (pc : BitVec 32)
  /-- ENG_TILE_END_STOP (R378): A program being stopped reaches its tile ends, is zeroed and released, and raises ENG_STOPPED. -/
  | engTileEndStop (h : Fin 32)
  /-- SYS_RUN_PLACE (R366): A waiting system run is placed within 1 ms of room appearing on an ON cluster. -/
  | sysRunPlace
  /-- SYS_RUN_WAIT_EXPIRY (R366): A system run waiting 1 s raises ENG_SYS_WAIT. -/
  | sysRunWaitExpiry (who : EngWho)
  /-- SYMBOL_CAPTURE_REQUEST (R371): A program requests a symbol capture, which starts or is answered not available. -/
  | symbolCaptureRequest (who : EngWho) (c : Fin 4)
  /-- SYMBOL_CAPTURE_END (R371): A capture of 65,536 symbols per polarisation is stored in the program's shared pages. -/
  | symbolCaptureEnd (c : Fin 4)
  /-- ENG_TX_TABLE_COMMIT (R370): An engine commits staged transmit table entries as CMD_TX_COEF_LOAD with COMMIT does. -/
  | engTxTableCommit (h : Fin 32) (c : Fin 4) (table : Fin 2) (entries : List (Nat × BitVec 48))
  /-- ENG_COUNTER_READ (R372): A program reads a counter, or is refused and counted in DENIED. -/
  | engCounterRead (h : Fin 32) (cid : BitVec 32)
  /-- ENG_USER_RAISE (R373): A program raises ENG_USER within its rate, or the event is dropped and counted. -/
  | engUserRaise (h : Fin 32) (bytes : List Byte)
  /-- CMD_TIM_REF_CFG (R402): Configures a timing reference's enable, priority, QL and frequency. -/
  | cmdTimRefCfg (e : CmdEntry)
  /-- CMD_TIM_REF_QL (R403): Sets a reference's QL and re-evaluates selection. -/
  | cmdTimRefQl (e : CmdEntry)
  /-- CMD_TIM_SELECT (R404): Sets the DPLL selection mode. -/
  | cmdTimSelect (e : CmdEntry)
  /-- CMD_TIM_PHASE_STEP (R406): Steps the phase of selected outputs. -/
  | cmdTimPhaseStep (e : CmdEntry)
  /-- CMD_TIM_OUT_CFG (R405): Configures a clock or pulse output. -/
  | cmdTimOutCfg (e : CmdEntry)
  /-- CMD_TIM_STATUS (R407): Returns DPLL, reference and pulse output state. -/
  | cmdTimStatus (e : CmdEntry)
  /-- REF_ACTIVITY_LOSS (R388): No edge for 4 periods disqualifies a reference and raises TIM_REF_LOS. -/
  | refActivityLoss (r : Fin 4)
  /-- REF_ACTIVITY_RETURN (R388): A reference's first edge restores activity and raises TIM_REF_LOS_CLR. -/
  | refActivityReturn (r : Fin 4)
  /-- REF_FREQ_MEASURE (R389): Every 100 ms each reference is measured, qualified, disqualified or voted, and selection runs. -/
  | refFreqMeasure (offs : List Int)
  /-- REF_WTR_EXPIRY (R393): A reference's wait-to-restore expires and it becomes eligible. -/
  | refWtrExpiry (r : Fin 4)
  /-- DPLL_LOCK (R396): The DPLL meets its lock criteria for 1 s, enters LOCKED and raises TIM_LOCK. -/
  | dpllLock
  /-- HOLDOVER_EXPIRY (R398): Holdover reaching P_TIM_HO_TIME moves the DPLL to FREERUN and raises TIM_FREERUN. -/
  | holdoverExpiry
  /-- PPSIN_EDGE (R400): A PPSIN edge is timestamped and the aligned PPSOUT jumps or slews. -/
  | ppsinEdge (p : Fin 2) (gap : Nat) (raw0 : Int) (raw1 : Int)
  /-- PPSIN_LOSS (R400): Two expected PPSIN edges missing make the input lost and raise TIM_PPS_LOSS. -/
  | ppsinLoss (p : Fin 2)
  /-- XO_FAIL (R408): XOIN lost or out of range raises TIM_XO_FAIL and takes the device to Calm. -/
  | xoFail (lost : Bool) (ppm : Int)
  /-- CMD_SENSE_COEF_LOAD (R415): Loads a sensing compensator set or returns to the default set. -/
  | cmdSenseCoefLoad (e : CmdEntry)
  /-- CMD_SENSE_STATUS (R419): Returns sensing and Front state of a carrier. -/
  | cmdSenseStatus (e : CmdEntry)
  /-- TELEMETRY_RECORD (R417): Each output period a record of the four streams is written to the carrier's ring. -/
  | telemetryRecord (c : Fin 4) (late : Nat) (valid : List Bool) (values : List (List (BitVec 16)))
  /-- SENSE_XFADE_END (R414): A compensator cross-fade ends and any waiting set starts. -/
  | senseXfadeEnd (c : Fin 4)
  /-- FRONT_WINDOW (R418): A Front window is evaluated and FRONT_Cn is raised after 2 windows above threshold. -/
  | frontWindow (c : Fin 4) (ph : Nat) (sop : Nat) (phMilli : Fin 1000) (sopMilli : Fin 1000)
  /-- FRONT_CLEAR_HOLD (R418): A measure below half its threshold for P_FRONT_HOLD raises FRONT_CLR_Cn. -/
  | frontClearHold (c : Fin 4) (measure : Fin 2)
  /-- CMD_HK_CFG (R422): Sets a housekeeping converter's scan list and enable. -/
  | cmdHkCfg (e : CmdEntry)
  /-- CMD_HK_READ (R424): Returns housekeeping results in the best available format. -/
  | cmdHkRead (e : CmdEntry)
  /-- CMD_HK_CAL (R425): Runs a step of housekeeping system calibration. -/
  | cmdHkCal (e : CmdEntry) (codes : List (BitVec 16))
  /-- HK_WARMUP_END (R423): 5 ms after enabling, the reference buffer is warm and conversions begin. -/
  | hkWarmupEnd (v : Fin 2)
  /-- HK_CONVERSION (R422): A scan entry's averaged conversion updates its result and its limit check. -/
  | hkConversion (v : Fin 2) (k : Fin 32) (code : BitVec 16)
  /-- HK_SELFCHECK (R426): Every 10 ms the converter checks its internal reference and ground, marking SUSPECT on failure. -/
  | hkSelfcheck (v : Fin 2) (c26 : BitVec 16) (c27 : BitVec 16)
  /-- CMD_BRZ_TX_ENABLE (R439): Enables or disables Breeze transmission on a carrier. -/
  | cmdBrzTxEnable (e : CmdEntry)
  /-- CMD_BRZ_SEND (R440): Queues one Breeze packet. -/
  | cmdBrzSend (e : CmdEntry)
  /-- CMD_BRZ_RECV (R441): Returns half of a Breeze receive ring entry. -/
  | cmdBrzRecv (e : CmdEntry)
  /-- CMD_BRZ_STATUS (R442): Returns Breeze transmit and receive state and counters. -/
  | cmdBrzStatus (e : CmdEntry)
  /-- BRZ_RAMP_END (R433): A Breeze tone ramp up or down ends. -/
  | brzRampEnd (c : Fin 4)
  /-- BRZ_PACKET_TX_START (R433): The next queued packet starts when the previous packet or ramp has ended. -/
  | brzPacketTxStart (c : Fin 4)
  /-- BRZ_PACKET_TX_END (R433): A packet sent in full raises BREEZE_TX_DONE_Cn. -/
  | brzPacketTxEnd (c : Fin 4)
  /-- BRZ_PREAMBLE_DETECT (R435): A context declares a preamble and starts sync search, capturing or ignoring as R436 states. -/
  | brzPreambleDetect (c : Fin 4) (k : Fin 2) (heard : BrzHeard)
  /-- BRZ_SYNC_FOUND (R435): The sync word is found and the context starts reception. -/
  | brzSyncFound (c : Fin 4) (k : BrzSync)
  /-- BRZ_SYNC_TIMEOUT (R435): No sync word within 64 symbol times counts a false preamble. -/
  | brzSyncTimeout (c : Fin 4) (k : Fin 2)
  /-- BRZ_PACKET_RX_END (R435): A received packet's CRC is checked; a good packet is written to the ring and raises BREEZE_RX_Cn. -/
  | brzPacketRxEnd (c : Fin 4) (k : Fin 2) (bytes : List Byte) (rateErr : Int) (freqErr : Int)
  /-- CMD_CNT_READ (R461): Returns up to 6 live counter entries read at one instant. -/
  | cmdCntRead (e : CmdEntry)
  /-- CMD_CNT_SELECT (R460): Sets a programmable counter's source and mode, clearing it. -/
  | cmdCntSelect (e : CmdEntry)
  /-- CMD_CNT_CLEAR (R462): Clears OVF of the selected counter families and programmable counter values. -/
  | cmdCntClear (e : CmdEntry)
  /-- SNAP_RUN_WRITE (R465): A write of SNAP_CTRL RUN starts or stops periodic snapshots. -/
  | snapRunWrite (via : Via) (v : Word)
  /-- SNAP_DMA_EN_WRITE (R468): A write of SNAP_CTRL DMA_EN starts or stops copying snapshots to host memory. -/
  | snapDmaEnWrite (via : Via) (v : Word)
  /-- SNAP_TRIG_WRITE (R465): A write of 1 to TRIG takes a snapshot now, or sets SKIP. -/
  | snapTrigWrite (via : Via) (v : Word)
  /-- SNAPSHOT_STROBE (R464): At each period a strobe latches every counter, or is skipped while a dump runs. -/
  | snapshotStrobe
  /-- SNAPSHOT_DUMP_END (R467): A dump ends in the ring and host buffer and raises the SNAPSHOT source. -/
  | snapshotDumpEnd (dmaOk : Bool)
  /-- CMD_SEC_STATUS (R455): Returns boot slot, fallback, fuse SVN and staged image information. -/
  | cmdSecStatus (e : CmdEntry)
  /-- CMD_FW_STAGE (R449): Verifies a firmware image and writes it to the other flash slot. -/
  | cmdFwStage (e : CmdEntry) (flashOk : Bool)
  /-- CMD_FW_ACTIVATE (R450): Restarts Frelvo on the staged image without a traffic hit. -/
  | cmdFwActivate (e : CmdEntry)
  /-- ACTIVATION_READY (R450): The new image passes its self-tests, becomes READY and raises FW_ACTIVATED. -/
  | activationReady
  /-- ACTIVATION_FALLBACK (R450): The new image not READY within 1.0 s restarts the previous image and raises FW_ACTIVATE_FAIL. -/
  | activationFallback
  /-- CMD_SEC_ATTEST (R453): Writes and signs an attestation report with the host nonce. -/
  | cmdSecAttest (e : CmdEntry)
  /-- CMD_SEC_SVN_COMMIT (R451): Blows fuse bits to raise the firmware counter or an engine minimum SVN. -/
  | cmdSecSvnCommit (e : CmdEntry) (burn : BurnEnd)
  /-- CMD_SEC_ENROLL (R452): Enrols or revokes a customer code-signing key and optionally sets OWNER_LOCK. -/
  | cmdSecEnroll (e : CmdEntry) (burn : BurnEnd)
  /-- CMD_SEC_READ (R454): Returns 48 bytes of the attestation report or the certificate store. -/
  | cmdSecRead (e : CmdEntry)
  /-- CMD_MEM_STATUS (R279): Returns memory state, error counts, admission figures and scrub progress. -/
  | cmdMemStatus (e : CmdEntry)
  /-- CMD_MEM_RETIRE (R278): Retires the row holding an address to a spare row. -/
  | cmdMemRetire (e : CmdEntry)
  /-- CMD_MEM_BIST (R277): Runs a destructive march test on an out-of-service memory and retires failing rows. -/
  | cmdMemBist (e : CmdEntry) (found : BistReport)
  /-- DRAM_CORRECTABLE_ERROR (R269): A single-bit DRAM error is corrected, written back and logged. -/
  | dramCorrectableError (stack : Fin 2) (addr : BitVec 36) (syndrome : BitVec 16) (bitpos : Byte) (region : BitVec 3)
  /-- DRAM_UNCORRECTABLE_ERROR (R269): A double-bit DRAM error is logged, raises MEM_UE and has its region's outcome. -/
  | dramUncorrectableError (stack : Fin 2) (addr : BitVec 36) (syndrome : BitVec 16) (region : BitVec 3) (what : DramUse)
  /-- CFG_PARITY_ERROR (R270): A configuration SRAM parity failure reloads the word from its golden copy. -/
  | cfgParityError (mem : Byte) (unit : BitVec 16) (word : Nat) (bytes : BitVec 16) (copies : Nat) (pendingWrite : Bool)
  /-- DATA_PARITY_ERROR (R272): A data SRAM parity error has the outcome of Table 11-5 and is logged. -/
  | dataParityError (mem : Byte) (unit : BitVec 16) (word : Nat) (bytes : BitVec 16) (what : SramUse)
  /-- SCRUB_PASS_END (R273): A DRAM scrub pass ends, or MEM_SCRUB_LATE is raised past twice its period. -/
  | scrubPassEnd (stack : Fin 2)
  /-- RESTRIPE_END (R261): Re-striping onto a returning stack ends, the full limit returns and MEM_RESTRIPED is raised. -/
  | restripeEnd
  /-- BUF_RING_OVERFLOW (R268): Data reaching a full bundle ring is discarded and counted in BUF_OVERFLOW. -/
  | bufRingOverflow (b : Fin 128) (bytes : Nat)
  /-- UNKNOWN_OPCODE (R14): Frelvo executes a command whose opcode has family 0x00, 0x10 to 0xFF or is undefined in its family and completes it with E_BAD_OPCODE. -/
  | unknownOpcode (op : BitVec 16) (e : CmdEntry)
  /-- LANE_CDR_LOCK_LOSS (R296): A lane's CDR loses lock, moving its port to NO_SIGNAL or taking its Stitch port down, and a new initial adaptation starts when the signal returns. -/
  | laneCdrLockLoss (l : Fin 64)
  /-- CSF_HOLD_EXPIRY (R291): 300 ms after the last received GFP management frame, its Local or Remote Fault cause toward the client ends. -/
  | csfHoldExpiry (p : Fin 32) (rf : Bool)
  /-- GFP_DELINEATION_GAIN (R287): The receiving port regains GFP delineation by core-header check, sets GFP_SYNC and may end Local Fault toward the client. -/
  | gfpDelineationGain (p : Fin 32)
  /-- BOOST_WINDOW_FREE (R90): After boost has been spent, the sliding 60 s window again holds less than 20 s of boost, and boost may be granted once more. -/
  | boostWindowFree
  /-- HOLDOVER_HISTORY_READY (R397): After the DPLL has been LOCKED for 10 s without a break, holdover history exists and HO_READY is set. -/
  | holdoverHistoryReady
  /-- MISSED_SWITCH_RETRY (R243): After a missed switch, a re-acquisition at one operating point that has not locked within 10 ms gives way to a re-acquisition at the other point. -/
  | missedSwitchRetry (c : Fin 4)
  /-- BAR2_HOST_WRITE (R265): A host write through BAR2 to a stack that is ON stores bytes in DRAM, using read-modify-write when the write is narrow or unaligned. -/
  | bar2HostWrite (off : BitVec 30) (data : List Byte)
  deriving DecidableEq, Repr

end Sys2Proof
end

