-- ==== Sys2Proof/Decode.lean ====
section
/-! DEFINITION. Decode.lean: the command that a word spells by the table's bits. -/

namespace Sys2Proof

/-- The table of operations and events gives no row any bits: a command is a bus access, an execution or an event, and no word spells one. -/
def decodeTableWord (_nbits _w : Nat) : Option Instr := none

end Sys2Proof
end

