-- ==== Sys2Proof/Config.lean ====
section
/-! DEFINITION. Config.lean: what an implementation fixes, and the values the spec leaves open. Each is a constant without a body. -/

namespace Sys2Proof

/-- A value the spec leaves open, by the number of the draw (log entry 1). -/
opaque Config.freeValue : Nat → Nat

/-- DEV_UID, fused per part (R40). -/
opaque Config.devUid : BitVec 64

/-- The symbol rate in kBd of interop profile 1 (OIF 400ZR) and 2 (OIF 800ZR): the OIF agreements fix it, the spec does not give it (R99). -/
opaque Config.profileRate : Nat → Nat

/-- What the equaliser reports of its taps (R148): residual dispersion in ps/nm, differential group delay in 0.1 ps, polarisation-dependent loss in 0.01 dB, and
from the taps of two windows the peak rotation of the polarisation in krad/s. The spec gives no formula. -/
opaque Config.eqResidual : List (List Int) → Int
opaque Config.eqDgd : List (List Int) → Nat
opaque Config.eqPdl : List (List Int) → Nat
opaque Config.eqSopRate : List (List Int) → List (List Int) → Nat

/-- Factory corrections from fuses: carrier, converter, position, quantity (0 offset, 1 gain, 2 skew, 3 and 4 bandwidth taps, 5 onwards linearity
codes), in the resolutions of Table 7-2 (R175). -/
opaque Config.factoryCal : Nat → Nat → Nat → Nat → Int

/-- The side taps that hold a bandwidth correction at another rate: its response is that of the given taps at 400 GS/s, the rate is num/den kS/s. How the die
re-samples a response is not given (R170). -/
opaque Config.bandwidthAt : Nat → Nat → Int → Int → Int × Int

/-- What a round has found when it is cut, and what a spare is fitted to: draw, converter, position, quantity (as for the fuses; 300 the number of positions
visited). The measurements themselves are no command's operand there (R173, R180, R182). -/
opaque Config.calFound : Nat → Nat → Nat → Nat → Int

/-- The bank or macro, and the row, that hold an address of a memory's unit: the address hash is not given (R261, R274). -/
opaque Config.memBank : Nat → Nat → Nat → Nat
opaque Config.memRow : Nat → Nat → Nat → Nat

/-- Words of an SRAM's unit: their number is not given (R260, R278). -/
opaque Config.memWords : Nat → Nat → Nat

/-- What the device's key-transport private key decodes an OAEP ciphertext to; `none` where decoding fails (R347). -/
opaque Config.oaepDecode : List Byte → Option (List Byte)

/-- AES key unwrap of NIST SP 800-38F under a KEK; `none` where its integrity check fails (R347). -/
opaque Config.kwUnwrap : List Byte → List Byte → Option (List Byte)

/-- AES-256-GCM: key, 12-byte IV, additional data, text; the text in the other form, and the 16-byte tag (R354). -/
opaque Config.gcm : List Byte → List Byte → List Byte → List Byte → List Byte × List Byte
opaque Config.gcmOpen : List Byte → List Byte → List Byte → List Byte → List Byte × List Byte

/-- AES-256-CMAC and HMAC-SHA-256: key and text (R354). -/
opaque Config.cmac : List Byte → List Byte → List Byte
opaque Config.hmac : List Byte → List Byte → List Byte

/-- SHA-256 (R374, R448). -/
opaque Config.sha256 : List Byte → List Byte

/-- RSA-3072 PSS verification with the key of a digest: message and signature (R375, R448). -/
opaque Config.pssOk : List Byte → List Byte → List Byte → Bool

/-- Digest of Umainor's engine-code key (R375). -/
opaque Config.engineKey : List Byte

/-- The default compensator set for a decimation and P_SENSE_MINPHASE, in units of 2⁻¹⁴: Frelvo computes it (R414). -/
opaque Config.senseDefault : Nat → Bool → List Int

/-- The four-tap cubic interpolator for a delay in sixteenths of an output period, from four decimated samples, newest first: its coefficients are not given
(R413). -/
opaque Config.senseInterp : Nat → List Int → Int

/-- A filtered value as 16 bits where it is no whole number or exceeds them: numerator and denominator; the rounding is not given (R414). -/
opaque Config.senseNarrow : Int → Nat → Nat

/-- The PAM4 levels of the pattern SSPRBS, which IEEE 802.3 defines and the spec does not repeat (R299). -/
opaque Config.ssprbs : Nat → Int

/-- Is a word of the crypto region of the debug window key-slot memory (R345)? The layout of the region is not given (R508). -/
opaque Config.keySlotWord : Nat → Bool

/-- Do a housekeeping converter's fused gain and offset pass their check (R424)? -/
opaque Config.hkFusesOk : Nat → Bool

/-- A converter's code in factory format, in µV: converter, differential, code (R424). -/
opaque Config.hkFactory : Nat → Bool → Int → Int

/-- Digest of Umainor's firmware key, and of the boot ROM (R445, R453). -/
opaque Config.firmwareKey : List Byte
opaque Config.romDigest : List Byte

/-- RSA-3072 PSS signature with the device identity key: the salt's draw and the message; 384 bytes (R453). -/
opaque Config.dikSign : Nat → List Byte → List Byte

/-- The Umainor Heost root certificate and the manufacturing certificate that it issued, in DER (R445). -/
opaque Config.rootCert : List Byte
opaque Config.makerCert : List Byte

/-- The device identity certificate, issued by the manufacturing certificate, and the key-transport certificate, issued by the DIK, for what their subject holds
(R445). -/
opaque Config.identityCert : List Byte → List Byte
opaque Config.transportCert : List Byte → List Byte

end Sys2Proof
end

