-- ==== Sys2Proof/Machine/Table.lean ====
section
/-! DEFINITION. Machine/Table.lean: finite tables of the device's numbered objects, and byte memories in canonical form. -/

namespace Sys2Proof.Machine

/-- A table of numbered objects (carriers, bundles, channels, lanes, …): index and value, indices rising.
An object that is not listed has the table's default value. -/
abbrev Tbl (α : Type) := List (Nat × α)

/-- The value of object `i`; `d` where the table does not list it. -/
def Tbl.get {α : Type} (d : α) : Tbl α → Nat → α
  | [], _ => d
  | (k, v) :: t, i => if k = i then v else Tbl.get d t i

/-- The table with object `i` at `v`. -/
def Tbl.set {α : Type} : Tbl α → Nat → α → Tbl α
  | [], i, v => [(i, v)]
  | (k, w) :: t, i, v =>
    if i < k then (i, v) :: (k, w) :: t
    else if i = k then (i, v) :: t
    else (k, w) :: Tbl.set t i v

/-- The table with object `i` changed by `f`. -/
def Tbl.upd {α : Type} (d : α) (t : Tbl α) (i : Nat) (f : α → α) : Tbl α :=
  Tbl.set t i (f (Tbl.get d t i))

/-- The table with object `i` back at the default. -/
def Tbl.drop {α : Type} (t : Tbl α) (i : Nat) : Tbl α := t.filter fun p => p.1 ≠ i

/-- The listed objects whose value meets `p`, by index. -/
def Tbl.which {α : Type} (t : Tbl α) (p : α → Bool) : List Nat :=
  (t.filter fun kv => p kv.2).map (·.1)

/-- Indices strictly rising, all above the bound where one is given. -/
def Tbl.risingFrom {α : Type} : Option Nat → Tbl α → Bool
  | _, [] => true
  | none, (k, _) :: t => Tbl.risingFrom (some k) t
  | some b, (k, _) :: t => decide (b < k) && Tbl.risingFrom (some k) t

/-- A table's canonical form: indices strictly rising. -/
def Tbl.wf {α : Type} (t : Tbl α) : Bool := Tbl.risingFrom none t

/-- Byte memory: cells at strictly rising addresses, none of them zero; an unlisted byte reads zero. -/
abbrev Mem := List Host.Cell

/-- What a byte that nothing has written reads as.
DESIGN CHOICE (log entry 8) for DRAM, whose contents at power-up the spec does not give; R41 states it for the two rings. -/
def Mem.unlisted : Byte := 0

/-- The byte at address `a`. -/
def Mem.read : Mem → Nat → Byte
  | [], _ => Mem.unlisted
  | (k, v) :: t, a => if k = a then v else Mem.read t a

/-- Put byte `b` at the place of address `a` in the rising list, unless it is what an unlisted address reads as. -/
def Mem.write : Mem → Nat → Byte → Mem
  | [], a, b => if b = Mem.unlisted then [] else [(a, b)]
  | (k, v) :: t, a, b =>
    if a < k then (if b = Mem.unlisted then (k, v) :: t else (a, b) :: (k, v) :: t)
    else if a = k then (if b = Mem.unlisted then t else (a, b) :: t)
    else (k, v) :: Mem.write t a b

/-- Write the bytes `bs` from address `a` upwards. -/
def Mem.writeAll : Mem → Nat → List Byte → Mem
  | m, _, [] => m
  | m, a, b :: bs => Mem.writeAll (Mem.write m a b) (a + 1) bs

/-- The `n` bytes from address `a`. -/
def Mem.readAll (m : Mem) (a n : Nat) : List Byte := (List.range n).map fun k => m.read (a + k)

/-- Addresses strictly rising above the bound, and no cell at the unlisted value. -/
def Mem.wfFrom : Option Nat → Mem → Bool
  | _, [] => true
  | none, (k, v) :: t => decide (v ≠ Mem.unlisted) && Mem.wfFrom (some k) t
  | some b, (k, v) :: t => decide (b < k) && decide (v ≠ Mem.unlisted) && Mem.wfFrom (some k) t

/-- The canonical form of a memory, in which equal memories are equal lists. -/
def Mem.wf (m : Mem) : Bool := Mem.wfFrom none m

end Sys2Proof.Machine
end

