-- ==== Sys2Proof/Machine/BreezeState.lean ====
section
/-! DEFINITION. Machine/BreezeState.lean: the Breeze transmitters and receivers (chapter 18). -/

namespace Sys2Proof.Machine

/-- The tone of a transmitter (R433, TONE_STATE). -/
inductive Tone where
  | off | rampUp | on | sending | rampDown
  deriving DecidableEq, Repr

/-- A queued packet: TAG and payload (R440). -/
structure BrzPacket where
  tag : Nat
  data : List Byte
  deriving DecidableEq, Repr

/-- A receiver context (R435, R436). -/
inductive BrzCtx where
  | listening
  /-- `since`: when the preamble was declared, in ns -/
  | sync (since level : Nat) (capture : Bool)
  | recv (level : Nat) (capture : Bool)
  deriving DecidableEq, Repr

/-- Tone frequency in kHz, P_BRZ_RATE, sync word: what R437 holds back until a boundary. -/
structure BrzCfg where
  freq : Nat
  rate : Nat
  sync : Nat
  deriving DecidableEq, Repr

/-- Breeze on one carrier. -/
structure Breeze where
  en : Bool
  tone : Tone
  /-- waiting packets, at most 4, oldest first -/
  queue : List BrzPacket
  /-- the packet being sent -/
  cur : Option BrzPacket
  /-- the bytes of the packet on the line: preamble, sync word, LEN, payload, CRC (R432); an output of the model -/
  line : List Byte
  /-- a disable waits for the packet and the ramp (R434) -/
  disabling : Bool
  txCfg : BrzCfg
  rxCfg : BrzCfg
  ctx0 : BrzCtx
  ctx1 : BrzCtx
  /-- packets delivered since reset: SEQ is this modulo 2³² (R438) -/
  wrSeq : Nat
  /-- LEVEL of the last delivered packet -/
  level : Nat
  deriving DecidableEq, Repr

def Breeze.reset : Breeze where
  en := false
  tone := .off
  queue := []
  cur := none
  line := []
  disabling := false
  txCfg := ⟨0, 0, 0⟩
  rxCfg := ⟨0, 0, 0⟩
  ctx0 := .listening
  ctx1 := .listening
  wrSeq := 0
  level := 0

end Sys2Proof.Machine
end

