-- ==== Sys2Proof/Machine/CalState.lean ====
section
/-! DEFINITION. Machine/CalState.lean: what one carrier's converter calibration and FEC hold (chapters 7 and 8). -/

namespace Sys2Proof.Machine

/-- One converter of a carrier: 0 to 3 ADC XI, XQ, YI, YQ; 4 to 7 DAC XI, XQ, YI, YQ (R178). -/
structure Conv where
  /-- corrections by position; a position not listed has its factory correction from fuses (R175) -/
  corr : Tbl Correction
  /-- positions found out of range in the last round that measured them (R180) -/
  strikes : List Nat
  failCount : Nat
  /-- positions whose slice failed after the spare was consumed -/
  failed : List Nat
  /-- the position that the spare has taken over for good (R180) -/
  spareAt : Option Nat
  /-- the last reference-tone result by position: skew and the two side taps (R172) -/
  tone : Tbl (Int × Int × Int)
  toneValid : Bool
  /-- corrections before the move that R173 applies gradually, by position, and since when the move in progress runs -/
  was : Tbl Correction
  applySince : Option Nat
  /-- positions of the round in progress that were handed back with their new offset and linearity (R171, R173) -/
  handed : Nat
  /-- positions of the round in progress that a status has shown to be done (R171) -/
  shown : Nat
  /-- cause of this converter's last round (TRIGGER of Table 7-6) -/
  trigger : Nat
  rounds : Nat
  /-- end of the last completed round, in ns, and the die temperature then, in 0.1 °C -/
  lastEnd : Option Nat
  tempLast : Int
  skewRms : Nat
  gainDev : Nat
  offsetDev : Nat
  /-- a change of skew or bandwidth, or of gain, waits for later rounds (R173) -/
  pendingSkew : Bool
  pendingGain : Bool
  deriving DecidableEq, Repr

def Conv.factory : Conv where
  corr := []
  strikes := []
  failCount := 0
  failed := []
  spareAt := none
  tone := []
  toneValid := false
  was := []
  applySince := none
  handed := 0
  shown := 0
  trigger := 0
  rounds := 0
  lastEnd := none
  tempLast := 0
  skewRms := 0
  gainDev := 0
  offsetDev := 0
  pendingSkew := false
  pendingGain := false

/-- Has the spare taken over a position for good (R180)? -/
def Conv.spareUsed (c : Conv) : Bool := c.spareAt.isSome

/-- Where a carrier's background rounds stand (R175, R177). -/
inductive CalPhase where
  | factory | initial | idle | round
  deriving DecidableEq, Repr

/-- One carrier's calibration (chapter 7). -/
structure Cal where
  phase : CalPhase
  /-- a DAC initial calibration runs; one has ended since domain Cn came ON from OFF (R175) -/
  dacBusy : Bool
  dacDone : Bool
  /-- the DACs that the DAC initial calibration works on (R178) -/
  dacMask : Nat
  /-- ACTION of the last CMD_CAL_RUN that waits for an end (R178) -/
  action : Nat
  /-- cause of the carrier's last round, coded as TRIGGER of Table 7-6 -/
  trigger : Nat
  /-- converters of the round in progress, those of them whose round has not ended, and when it started -/
  mask : Nat
  left : Nat
  roundSince : Nat
  /-- loss of signal has been declared during the round (R172) -/
  losSeen : Bool
  /-- end of the previous round, completed or not, and the die temperature then (R176) -/
  prevEnd : Nat
  prevTemp : Int
  /-- when the rounds that follow changes of Fs start, and on which converters (R177) -/
  fsDue : List (Nat × Nat)
  /-- a round was stopped by a Seam failure and restarts with the carrier (R182) -/
  resume : Bool
  conv : Tbl Conv
  deriving DecidableEq, Repr

def Cal.reset : Cal where
  phase := .factory
  dacBusy := false
  dacDone := false
  dacMask := 0xF0
  action := 0
  trigger := 0
  mask := 0
  left := 0
  roundSince := 0
  losSeen := false
  prevEnd := 0
  prevTemp := 0
  fsDue := []
  resume := false
  conv := []

/-- FEC_STATE (R199). -/
inductive FecLock where
  | down | search | locked
  deriving DecidableEq, Repr

def FecLock.code : FecLock → Nat
  | .down => 0
  | .search => 1
  | .locked => 2

/-- A running injection (R201): POINT, MODE, BER_MANT and BER_EXP, BURST_LEN, bursts or blocks left, end of a random injection in ns. -/
structure Injection where
  transmit : Bool
  mode : Nat
  mant : Nat
  exp : Nat
  burst : Nat
  left : Nat
  ends : Option Nat
  deriving DecidableEq, Repr

/-- One carrier's FEC (chapter 8). -/
structure Fec where
  lock : FecLock
  /-- N and latency mode in force (class O, R203) -/
  iter : Nat
  latmode : Nat
  preBer : Nat
  mi : Nat
  iterMean : Nat
  /-- LOCK_TIME in µs -/
  lockTime : Nat
  /-- what block lock found: the offset of the coding blocks in data symbols, and the outer-coded bits from the first block to the first staircase block (R194) -/
  offset : Nat
  align : Nat
  deg : Bool
  /-- consecutive windows above the threshold, and below 0.8 of it (R197) -/
  above : Nat
  under : Nat
  /-- uncorrectable blocks since the last FEC_UNCORR_Cn, and when that was raised (R198) -/
  uncorr : Nat
  uncorrAt : Option Nat
  inj : Option Injection
  deriving DecidableEq, Repr

def Fec.reset : Fec where
  lock := .down
  iter := 0
  latmode := 0
  preBer := 0
  mi := 0
  iterMean := 0
  lockTime := 0
  offset := 0
  align := 0
  deg := false
  above := 0
  under := 0
  uncorr := 0
  uncorrAt := none
  inj := none

end Sys2Proof.Machine
end

