-- ==== Sys2Proof/Machine/ClientState.lean ====
section
/-! DEFINITION. Machine/ClientState.lean: client lanes, Ethernet ports (chapter 12), Stitch ports and their channels (chapter 13). -/

namespace Sys2Proof.Machine

/-- ADAPT_STATE (R296, R307). -/
inductive Adapt where
  | off | initial | tracking | frozen
  deriving DecidableEq, Repr

def Adapt.code : Adapt → Nat
  | .off => 0
  | .initial => 1
  | .tracking => 2
  | .frozen => 3

/-- One PAM4 lane (R283, R295 to R301). -/
structure Lane where
  los : Bool
  cdr : Bool
  adapt : Adapt
  /-- test state: loopback 0 to 3, generator and checker patterns (Tables 12-3 to 12-5) -/
  loopback : Nat
  gen : Nat
  chk : Nat
  chkLock : Bool
  chkInv : Bool
  /-- bits the generator has flipped on request: an output of the model (INJECT of R301) -/
  flips : Nat
  /-- the last window's figure of merit, in 0.01 dB (R297), windows in a row below the threshold, and when the event was last raised -/
  fom : Int
  fomLow : Nat
  fomLowAt : Option Nat
  /-- measured CTLE peaking, DFE tap and frequency offset, in the units of Table 12-9 -/
  ctle : Nat
  dfe1 : Int
  freq : Int
  /-- PRE and POST last requested by a Stitch peer since training began (R316) -/
  peerFir : Option (Nat × Nat)
  /-- APPLIED_SEQ sent to the peer -/
  appliedSeq : Nat
  /-- the point this end has requested of the peer, and its REQ_SEQ -/
  reqFir : Nat × Nat
  reqSeq : Nat
  /-- when the peer's APPLIED_SEQ confirmed it, and the FOM measured at the points of the sweep so far, the first first (TUNE of Table 13-3) -/
  confirmedAt : Option Nat
  sweep : List Int
  /-- RX_READY of the peer has been seen (R316) -/
  peerReady : Bool
  deriving DecidableEq, Repr

def Lane.reset : Lane where
  los := false
  cdr := false
  adapt := .off
  loopback := 0
  gen := 0
  chk := 0
  chkLock := false
  chkInv := false
  flips := 0
  fom := 0
  fomLow := 0
  fomLowAt := none
  ctle := 0
  dfe1 := 0
  freq := 0
  peerFir := none
  appliedSeq := 0
  reqFir := (0, 0)
  reqSeq := 0
  confirmedAt := none
  sweep := []
  peerReady := false

/-- PORT_STATE of an Ethernet port (Table 12-7). -/
inductive EthState where
  | disabled | noSignal | adapting | noAlign | up | test
  deriving DecidableEq, Repr

def EthState.code : EthState → Nat
  | .disabled => 0
  | .noSignal => 1
  | .adapting => 2
  | .noAlign => 3
  | .up => 4
  | .test => 5

/-- One Ethernet port (R285 to R291). -/
structure EthPort where
  type : Nat
  first : Nat
  bundle : Nat
  enabled : Bool
  st : EthState
  /-- codeword and PCS lane alignment locked on every lane, and the last 1 ms within P_ETH_UNCORR_THR (Table 12-7) -/
  aligned : Bool
  /-- receive GFP delineated (R287) -/
  gfpSync : Bool
  /-- ordered sets received from the client: 0 none, 1 Local Fault, 2 Remote Fault -/
  rxFault : Nat
  /-- management frames in force from the bundle: UPI 0x01 or 0x02 (0 none), and UPI 0xFD (R291) -/
  csf : Nat
  csfRf : Bool
  /-- Local Fault is sent until the first GFP frame delineated after every cause has cleared (R291) -/
  lf : Bool
  /-- the UPI of the last management frame sent, and how many were sent: outputs of the model (R290) -/
  csfSent : Nat
  csfCount : Nat
  /-- the last client frame mapped into the bundle, and the last frame sent to the client with its preamble and average gap: outputs of the model -/
  mapped : List Byte
  sent : List Byte
  gap : Nat
  deriving DecidableEq, Repr

/-- Training and traffic states of a Stitch port (Table 13-3, R331); `down` waits for the next attempt. -/
inductive StitchState where
  | down | training | tune | ready | align | up | mismatch
  deriving DecidableEq, Repr

/-- A flow: a bundle attached to a Stitch port, in the order of attachment (R318, R321). -/
structure Flow where
  bundle : Nat
  /-- extra cells granted to each of its channels, by channel (R321) -/
  extra : Tbl Nat
  deriving DecidableEq, Repr

/-- One piece of a channel's Insole queue: cell payload, or fill inserted before it (R324), and the bytes the framer has yet to take. -/
structure Seg where
  cell : Bool
  bytes : Nat
  deriving DecidableEq, Repr

/-- One attached channel of an UP Stitch port (R319 to R325). -/
structure SChan where
  /-- client to line: the SEQ expected, cells freed, the limit sent (modulo 2²²) -/
  e : Nat
  freed : Nat
  limit : Nat
  /-- Insole queue, oldest first -/
  queue : List Seg
  /-- cells lost and not yet revealed by a later cell or SYNC; cells of a revealed gap awaiting their fill (R324, R337) -/
  hidden : Nat
  gap : Nat
  /-- underrun bytes inserted since the previous accepted cell (R325) -/
  under : Nat
  /-- no data cell has come since UP or since the last SYNC: an idle flow's fill is no underrun (R325) -/
  idle : Bool
  /-- consecutive stale cells (R330) -/
  stale : Nat
  /-- line to client: next SEQ, the limit received, bytes of a cell being filled, cells waiting (R323) -/
  tx : Nat
  txLimit : Nat
  egBytes : Nat
  egCells : Nat
  deriving DecidableEq, Repr

def SChan.reset : SChan := ⟨0, 0, 13, [], 0, 0, 0, true, 0, 0, 0, 0, 0⟩

/-- The check configuration of a port (R328, R329). -/
structure CvConfig where
  width : Nat
  poly : Nat
  init : Nat
  xorout : Nat
  refin : Bool
  refout : Bool
  deriving DecidableEq, Repr

/-- The CRC-32 of IEEE 802.3 (R329). -/
def CvConfig.crc32 : CvConfig := ⟨32, 0x04C11DB7, 0xFFFFFFFF, 0xFFFFFFFF, true, true⟩

/-- Events counted since the last one raised, at most one a second (R324, R330). -/
structure PerSecond where
  since : Nat
  at_ : Option Nat
  deriving DecidableEq, Repr

/-- One Stitch port; `lanes` = 0 where it does not exist. -/
structure Stitch where
  lanes : Nat
  baud : Nat
  enabled : Bool
  st : StitchState
  cause : Nat
  /-- SREFn is lost (R293) -/
  srefLost : Bool
  /-- the P_SREF_FREQ in force, captured when a quad of Sn powers up (class S, R293, R309): it belongs to the input and outlives the port -/
  srefFreq : Nat
  /-- class O values in force (R338) -/
  linkId : Nat
  txtune : Bool
  /-- link identifier, tuning and check value before the last enable (R16) -/
  classOWas : Nat × Bool × CvConfig
  cv : CvConfig
  tuneDone : Bool
  /-- flows in the order of attachment -/
  flows : List Flow
  chans : Tbl SChan
  /-- RTT in force in ns, and the first 16 measurements, newest first (R321) -/
  rtt : Nat
  probes : List Nat
  /-- probe token awaiting its echo, and when it left -/
  token : Option (Nat × Nat)
  /-- measurements in a row that exceed the RTT in force by more than 0.1 µs -/
  above : List Nat
  /-- tokens of received probes whose echoes are due -/
  echoes : List Nat
  /-- consecutive check failures in codewords that decoded without error (R331) -/
  checkRun : Nat
  lost : PerSecond
  misdir : PerSecond
  viol : PerSecond
  /-- the last cell sent: an output of the model -/
  sent : List Byte
  deriving DecidableEq, Repr

def Stitch.absent : Stitch where
  lanes := 0
  baud := 0
  enabled := false
  st := .down
  cause := 0
  srefLost := false
  srefFreq := 1
  linkId := 0
  txtune := true
  classOWas := (0, true, .crc32)
  cv := .crc32
  tuneDone := false
  flows := []
  chans := []
  rtt := 0
  probes := []
  token := none
  above := []
  echoes := []
  checkRun := 0
  lost := ⟨0, none⟩
  misdir := ⟨0, none⟩
  viol := ⟨0, none⟩
  sent := []

/-- A running enable is taken back: the port is down, with the class O values from before it (R16). -/
def Stitch.withdrawn (s : Stitch) : Stitch :=
  { s with enabled := false, st := .down, linkId := s.classOWas.1, txtune := s.classOWas.2.1, cv := s.classOWas.2.2 }

/-- Client lanes, Ethernet ports that exist, Stitch ports, and the line frame up to which Stitch queues have been served. -/
structure Client where
  lane : Tbl Lane
  eth : Tbl EthPort
  stitch : Tbl Stitch
  frame : Nat
  deriving DecidableEq, Repr

def Client.reset : Client := ⟨[], [], [], 0⟩

end Sys2Proof.Machine
end

