-- ==== Sys2Proof/Machine/CryptoState.lean ====
section
/-! DEFINITION. Machine/CryptoState.lean: key slots, receive configuration, KEK, crypto jobs (chapter 14). -/

namespace Sys2Proof.Machine

/-- A loaded line key slot (R340, R342). -/
structure KeySlot where
  key : List Byte
  txSalt : Nat
  rxSalt : Nat
  start : Nat
  /-- L of R342, and so MFC_START + 2^L -/
  limitLog : Nat
  /-- next transmit MFC -/
  mfc : Nat
  /-- last MFC accepted on receive; `none` since the load -/
  rxLast : Option Nat
  /-- KEY_NEAR_LIMIT has been raised for it -/
  near : Bool
  deriving DecidableEq, Repr

/-- What the transmitter of a channel does (TX_MODE of Table 14-4). -/
inductive KeyTx where
  | plain
  | slot (s : Nat)
  | expired (s : Nat)
  | erased
  deriving DecidableEq, Repr

def KeyTx.code : KeyTx → Nat
  | .plain => 0
  | .slot _ => 1
  | .expired _ => 2
  | .erased => 3

/-- One channel's keys (R343 to R346). -/
structure KeyChan where
  slot0 : Option KeySlot
  slot1 : Option KeySlot
  tx : KeyTx
  expect : Nat
  rolls : Nat
  /-- the multiframe boundary from which on an automatic roll is due (R342): it waits there for MBX_STATE READY, or one more after a load (R359) -/
  rollAt : Option Nat
  /-- slots named by the received KP, with ENC = 1, in the last multiframe and the one before (R343) -/
  kp1 : Option Nat
  kp2 : Option Nat
  /-- authentication failures since the last AUTH_FAIL event, and when that was raised -/
  failSince : Nat
  failAt : Option Nat
  deriving DecidableEq, Repr

def KeyChan.reset : KeyChan := ⟨none, none, .plain, 0, 0, none, none, none, 0, none⟩

/-- A loaded job key slot (R349). -/
structure JobKey where
  key : List Byte
  salt : Nat
  start : Nat
  limitLog : Nat
  counter : Nat
  deriving DecidableEq, Repr

/-- A memory-to-memory job (Table 14-6), its offsets counted from the job area. -/
structure Job where
  id : Nat
  op : Nat
  urgent : Bool
  key : List Byte
  kslot : Nat
  tagLen : Nat
  src : Nat
  dst : Nat
  len : Nat
  aadOff : Nat
  aadLen : Nat
  tagOff : Nat
  recOff : Nat
  iv : List Byte
  /-- the input, the additional data and the tag or MAC as read at its start -/
  input : List Byte
  aad : List Byte
  tag : List Byte
  deriving DecidableEq, Repr

/-- Keys and jobs. -/
structure Keys where
  chan : Tbl KeyChan
  job : Tbl JobKey
  kek : Option (List Byte)
  /-- the half that PART 0 stored, and how many commands of family 0x08 had completed after it (R348) -/
  kekHalf : Option (List Byte × Nat)
  normal : List Job
  urgent : List Job
  running : Option Job
  suspended : Option Job
  /-- the multiframe up to which transmit MFCs have been advanced -/
  mf : Nat
  /-- when an authentication failure last occurred (FSP device bit 11) -/
  failAt : Option Nat
  deriving DecidableEq, Repr

def Keys.reset : Keys := ⟨[], [], none, none, [], [], none, none, 0, none⟩

end Sys2Proof.Machine
end

