-- ==== Sys2Proof/Machine/EngState.lean ====
section
/-! DEFINITION. Machine/EngState.lean: the signal-engine array's runs and hosted programs (chapter 15). -/

namespace Sys2Proof.Machine

/-- The system programs of Table 15-2 (R364). -/
inductive SysProg where
  | search | builder | trainer | ratePolicy | front
  deriving DecidableEq, Repr

/-- One system run: placed on a cluster, or waiting for one (R366). -/
structure SysRun where
  prog : SysProg
  carrier : Nat
  cluster : Option Nat
  /-- the engines of its cluster that it uses, 0 to 15 -/
  engs : List Nat
  /-- its shared pages there, 0 to 31 -/
  shared : List Nat
  /-- when the run was asked for, in ns -/
  since : Nat
  /-- ENG_SYS_WAIT has been raised for this run -/
  warned : Bool
  /-- this is the repetition after a fault (R368) -/
  again : Bool
  deriving DecidableEq, Repr

/-- STATE of a handle (Table 15-8), EMPTY ones apart. -/
inductive ProgState where
  | loaded | running | stopping | faulted
  deriving DecidableEq, Repr

def ProgState.code : ProgState → Nat
  | .loaded => 1
  | .running => 2
  | .stopping => 3
  | .faulted => 4

/-- A loaded hosted program (R374 to R381). -/
structure Prog where
  st : ProgState
  /-- header fields of its image (Table 15-5) -/
  len : Nat
  signer : Nat
  svn : Nat
  pages : Nat
  engMin : Nat
  engMax : Nat
  tileMax : Nat
  spillMib : Nat
  outMib : Nat
  permReq : Nat
  cntReq : Nat
  digest : List Byte
  /-- its copy in the hosted-image store, and whether a word of it is lost (R269, R374) -/
  image : List Byte
  bad : Bool
  /-- placement and grants of the present or last run -/
  cluster : Nat
  engs : List Nat
  /-- its shared pages on its cluster, 0 to 31 -/
  shared : List Nat
  perm : Nat
  cntMask : Nat
  arg : Nat
  /-- first 1 MiB unit of its output window; `none` when it has none -/
  out : Option Nat
  /-- its spill window's contents from the start on: bytes not listed are zero -/
  spill : List Byte
  fault : Nat
  faultPc : Nat
  commits : Nat
  superseded : Nat
  /-- telemetry records received in this run (R417) -/
  records : Nat
  /-- messages waiting, oldest first (R380) -/
  inbox : List (List Byte)
  /-- times of the user events of the last second (R373) -/
  userTimes : List Nat
  /-- what the program was last answered: a counter's value and OVF, or 1 started and 2 not available for a capture; an output of the model -/
  answer : Nat
  deriving DecidableEq, Repr

/-- A symbol capture in progress: for a run of a system program, or for a handle (R371). -/
inductive Capture where
  | system (prog : SysProg) (carrier : Nat)
  | hosted (h : Nat)
  deriving DecidableEq, Repr

/-- Hosted programs by handle, captures by carrier, faults since reset; the memories of the array (Table 15-1): the 192 KiB of each engine by its number, 0 to
255, and the 64 KiB shared pages by 32 × cluster + page. One not listed is zero. -/
structure Eng where
  prog : Tbl Prog
  capture : Tbl Capture
  faults : Nat
  local_ : Tbl (List Byte)
  page : Tbl (List Byte)
  deriving DecidableEq, Repr

def Eng.reset : Eng := ⟨[], [], 0, [], []⟩

end Sys2Proof.Machine
end

