-- ==== Sys2Proof/Machine/LineState.lean ====
section
/-! DEFINITION. Machine/LineState.lean: what one carrier's transmitter and receiver hold, and the Last pool (chapters 4 to 6). -/

namespace Sys2Proof.Machine

/-- An operating point (R94, R96): profile (0 native, 1 OIF 400ZR, 2 OIF 800ZR), active slots n, entropy H in units of 1/64 bit. -/
structure OpPoint where
  profile : Nat
  slots : Nat
  h : Nat
  deriving DecidableEq, Repr

/-- A coefficient table with its staged copy and its cross-fades (R26, R104, R155, R414). An update is a table with the cluster
that issued it (none for the host or Frelvo). -/
structure CoefTable where
  staged : Tbl Nat
  active : Tbl Nat
  /-- the table the cross-fade in progress leads to -/
  fading : Option (Tbl Nat × Option Nat)
  /-- the table that waits for the cross-fade in progress to end -/
  waiting : Option (Tbl Nat × Option Nat)
  deriving DecidableEq, Repr

def CoefTable.bypass : CoefTable := ⟨[], [], none, none⟩

/-- A setting that walks towards its target in bounded steps at frame boundaries (R110, R127). -/
structure Walk where
  start : Int
  target : Int
  /-- when the walk began, in ns -/
  since : Nat
  deriving DecidableEq, Repr

/-- A setting that reaches the output by cross-fade (R105, P_TX_NLC_TRIPLETS). -/
structure FadeVal where
  active : Int
  fading : Option Int
  waiting : Option Int
  deriving DecidableEq, Repr

/-- TX_STATE (R118): 0 DARK, 1 STARTING, 2 RAMP_UP, 3 ON, 4 RAMP_DOWN, 5 MUTED. -/
inductive TxState where
  | dark | starting | rampUp | on | rampDown | muted
  deriving DecidableEq, Repr

def TxState.code : TxState → Nat
  | .dark => 0
  | .starting => 1
  | .rampUp => 2
  | .on => 3
  | .rampDown => 4
  | .muted => 5

/-- One carrier's transmitter (chapter 4). -/
structure Tx where
  state : TxState
  /-- where a RAMP_DOWN ends: true for DARK (a disable), false for MUTED (a host mute) -/
  rampToDark : Bool
  muteHost : Bool
  muteInterlock : Bool
  mutePresence : Bool
  muteClock : Bool
  /-- HOST and INTERLOCK before the last CMD_TX_MUTE with MUTE = 0 (R16) -/
  causesWas : Bool × Bool
  /-- CPn_PRES# is low: a front end is present (R113) -/
  present : Bool
  /-- CPn_TXOK is high: emission permitted (R113) -/
  txok : Bool
  /-- the operating point of the transmit direction; `none` before the first CMD_CARRIER_SET (R98) -/
  op : Option OpPoint
  /-- class O values in force (R120): roll-off, pilot gain, pilot seed -/
  rolloff : Nat
  pilotGain : Nat
  pilotSeed : Nat
  /-- those three before the last CMD_TX_ENABLE (R16) -/
  classOWas : Nat × Nat × Nat
  /-- the pilot PRBS and the pilots since its last load, both as of `pilotSince` (R102) -/
  pilotState : BitVec 15
  pilotCount : Nat
  pilotSince : Nat
  /-- nonlinear triplets (TABLE 0) and pre-emphasis taps (TABLE 1) (R104) -/
  nlc : CoefTable
  taps : CoefTable
  cdPre : FadeVal
  nlcCount : FadeVal
  /-- walks of R110 by index: 0 to 2 skews, 3 and 4 IQ gains, 5 and 6 IQ phases, 7 X/Y balance -/
  walks : Tbl Walk
  clipPpm : Nat
  /-- bytes of the last carrier-port SPI transfer, sent and received (R114) -/
  spiSent : List Byte
  deriving DecidableEq, Repr

def FadeVal.zero : FadeVal := ⟨0, none, none⟩

/-- A transmitter after a reset: DARK, nothing configured, class O values at their defaults. A front end is fitted (log entry 3);
CPn_TXOK reads low, as its pull-down gives it (R113). -/
def Tx.reset : Tx where
  state := .dark
  rampToDark := false
  muteHost := false
  muteInterlock := false
  mutePresence := false
  muteClock := false
  causesWas := (false, false)
  present := true
  txok := false
  op := none
  rolloff := 50
  pilotGain := 10
  pilotSeed := 0x5555
  classOWas := (50, 10, 0x5555)
  pilotState := 0
  pilotCount := 0
  pilotSince := 0
  nlc := .bypass
  taps := .bypass
  cdPre := .zero
  nlcCount := .zero
  walks := []
  clipPpm := 0
  spiSent := []

/-- The state of one last (R130). -/
inductive LastState where
  | free
  | active (n : Nat)
  | shadow (n : Nat)
  | lent (n m : Nat)
  deriving DecidableEq, Repr

/-- What asked for a shadow set or an in-place load (R131, R133, R136, R141). -/
inductive BuildWhy where
  | reach (lo hi : Int)
  | recentre
  | rateStep
  | candidate
  | restore
  deriving DecidableEq, Repr

/-- Contents of lasts being computed by a last builder (R133): a shadow set, or a load in place. -/
structure Build where
  why : BuildWhy
  inPlace : Bool
  /-- the D_L the new contents are for -/
  dL : Int
  /-- loading has ended and the switch waits for a received frame boundary -/
  loaded : Bool
  deriving DecidableEq, Repr

/-- Where a receiver stands (R160, R161, R164). Together with `fast` it gives RX_STATE. -/
inductive Acq where
  | down | noSignal | search | load | coarse | preconverge | pilotSync | track | locked | wait
  /-- the active set is being reloaded in place with a hit (R136) -/
  | reload
  deriving DecidableEq, Repr

/-- FAIL_CAUSE (R166). -/
inductive FailCause where
  | none | noCd | noTiming | noFreq | noConverge | noPilot | noEngine | noLast
  deriving DecidableEq, Repr

def FailCause.code : FailCause → Nat
  | .none => 0
  | .noCd => 1
  | .noTiming => 2
  | .noFreq => 3
  | .noConverge => 4
  | .noPilot => 5
  | .noEngine => 6
  | .noLast => 7

/-- Measured quantities of a receiver (R148, R158, R166), in the units of Table 6-5. -/
structure RxMeas where
  snr : Int
  snrX : Int
  snrY : Int
  margin : Int
  dgd : Nat
  freq : Int
  clock : Int
  resid : Int
  pdl : Nat
  sop : Nat
  pilotBer : Nat
  deriving DecidableEq, Repr

def RxMeas.zero : RxMeas := ⟨0, 0, 0, 0, 0, 0, 0, 0, 0, 0, 0⟩

/-- One carrier's receiver (chapters 5 and 6). -/
structure Rx where
  acq : Acq
  /-- the attempt is a fast re-acquisition (R164) -/
  fast : Bool
  failCause : FailCause
  /-- operating point of the receive direction -/
  op : Option OpPoint
  /-- loss of signal declared (R126) -/
  los : Bool
  /-- window and step in force (class O, R144) -/
  lo : Int
  hi : Int
  step : Nat
  /-- P_RX_MIMO_TAPS, P_RX_FO_RANGE, P_RX_PILOT_SEED, P_RX_PILOT_GAIN in force (class O, R168) -/
  taps : Nat
  foRange : Nat
  pilotSeed : Nat
  pilotGain : Nat
  /-- set value and trim of the CD stage (R128) -/
  dL : Int
  dT : Int
  /-- the trim before the last move, and when that began: it is applied by cross-fade (R140) -/
  dTWas : Int
  dTSince : Nat
  build : Option Build
  /-- a re-centring waits for a shadow set (R136) -/
  recentreDeferred : Bool
  /-- CD_TRIM_LIMIT raised for the deferred re-centring (R140) -/
  trimLimitRaised : Bool
  /-- the set was taken by pre-emption (R135) -/
  preempted : Bool
  /-- the need could not be met at power-up (R137) -/
  short : Bool
  /-- the active set has no valid contents: it was returned from a loan (R134) or rebuilt after a cut resize (R141) -/
  stale : Bool
  /-- those contents have to be rebuilt before any use of the set (R134, R141) -/
  rebuild : Bool
  /-- a last of the active set is reloaded in place while a shadow set is being built (R271) -/
  restoring : Bool
  /-- candidates of the CD search not yet tried (R161) -/
  candidates : List Int
  attemptStart : Nat
  acqTime : Nat
  acqCount : Nat
  lockedSince : Nat
  /-- when ACQ_FAIL was last raised since the last lock or configuration (R164) -/
  acqFailAt : Option Nat
  /-- a CMD_RX_REACQUIRE waits for the attempt's end (R165) -/
  reacq : Bool
  meas : RxMeas
  /-- the equaliser's taps at the last quality window in LOCKED: 16 filters, output lane by output lane, in units of 2⁻¹⁶ (R147); the last good taps (R164) -/
  mimo : List (List Int)
  /-- the frequency derotator as coarse acquisition loaded it, in kHz (R151) -/
  derot : Int
  /-- what pilot synchronisation found: position in the block of 32, quarter turns of the two polarisations, their order, and the receiver's own generator (R152) -/
  pilotPos : Nat
  pilotTurn : Nat × Nat
  pilotSwap : Bool
  pilotGen : BitVec 15
  /-- the decision-directed phase at the last pilot, in units of 2π/65,536, and the slips of the present 1 s window (R154) -/
  ddPhase : BitVec 16
  slips : Nat
  /-- the receive nonlinear table (R155) -/
  nlc : CoefTable
  nlcCount : FadeVal
  /-- a training run is in progress or waits for a cluster (R156) -/
  nlcTraining : Bool
  /-- the earliest time of the next training run, in ns (R156, R167) -/
  trainFrom : Nat
  nlcUpdates : Nat
  /-- seed found at the last repeat; seeds seen since LOCKED (R152) -/
  seedRx : Nat
  seedsSeen : List Nat
  /-- when the last repeat was met, in ns: the next one is expected 32,768 pilots later (R152) -/
  repeatAt : Option Nat
  seedMm : Bool
  /-- receive skew walks of R127: 0 XQ, 1 YI, 2 YQ -/
  walks : Tbl Walk
  clipPpm : Nat
  deriving DecidableEq, Repr

/-- A receiver after a reset: down, nothing configured, class O values at their defaults. -/
def Rx.reset : Rx where
  acq := .down
  fast := false
  failCause := .none
  op := none
  los := false
  lo := -80000
  hi := 80000
  step := 500
  taps := 31
  foRange := 3000
  pilotSeed := 0x5555
  pilotGain := 10
  dL := 0
  dT := 0
  dTWas := 0
  dTSince := 0
  build := none
  recentreDeferred := false
  trimLimitRaised := false
  preempted := false
  short := false
  stale := false
  rebuild := false
  restoring := false
  candidates := []
  attemptStart := 0
  acqTime := 0
  acqCount := 0
  lockedSince := 0
  acqFailAt := none
  reacq := false
  meas := .zero
  mimo := []
  derot := 0
  pilotPos := 0
  pilotTurn := (0, 0)
  pilotSwap := false
  pilotGen := 0
  ddPhase := 0
  slips := 0
  nlc := .bypass
  nlcCount := ⟨48, none, none⟩
  nlcTraining := false
  trainFrom := 0
  nlcUpdates := 0
  seedRx := 0
  seedsSeen := []
  repeatAt := none
  seedMm := false
  walks := []
  clipPpm := 0

/-- A table arrives at the receive compensator: it waits while another table, or the count, cross-fades (R155). -/
def Rx.commitNlc (r : Rx) (new : Tbl Nat) (issuer : Option Nat) : Rx × Option (Option Nat) :=
  if r.nlc.fading.isNone && r.nlcCount.fading.isSome then
    ({ r with nlc := { r.nlc with waiting := some (new, issuer) } }, r.nlc.waiting.map (·.2))
  else
    match r.nlc.fading, r.nlc.waiting with
    | none, _ => ({ r with nlc := { r.nlc with fading := some (new, issuer) } }, none)
    | some _, w => ({ r with nlc := { r.nlc with waiting := some (new, issuer) } }, w.map (·.2))

/-- A new count waits for a cross-fade in progress, of the table or of the count (R155). -/
def Rx.setCount (r : Rx) (v : Int) : Rx :=
  { r with nlcCount := if r.nlc.fading.isSome || r.nlcCount.fading.isSome then { r.nlcCount with waiting := some v }
      else if r.nlcCount.active = v then r.nlcCount else { r.nlcCount with fading := some v } }

/-- Does a new count replace one that waits, which is then never applied (R26)? -/
def Rx.countDisplaces (r : Rx) : Bool := (r.nlc.fading.isSome || r.nlcCount.fading.isSome) && r.nlcCount.waiting.isSome

/-- The receive cross-fade in progress ends, and what waits begins its own: a table before a count (R155, log entry 176). -/
def Rx.endNlcFade (r : Rx) : Rx :=
  let t : CoefTable := { r.nlc with active := (r.nlc.fading.map (·.1)).getD r.nlc.active, fading := none }
  let c : FadeVal := { r.nlcCount with active := r.nlcCount.fading.getD r.nlcCount.active, fading := none }
  if t.waiting.isSome then { r with nlc := { t with fading := t.waiting, waiting := none }, nlcCount := c }
  else { r with nlc := t, nlcCount := { c with fading := c.waiting.filter fun v => decide (v ≠ c.active), waiting := none } }

/-- The trim moves; the move is applied by cross-fade over 128 line frames (R140, Table 5-1). -/
def Rx.moveTrim (r : Rx) (now : Nat) (v : Int) : Rx := if v = r.dT then r else { r with dTWas := r.dT, dTSince := now, dT := v }

/-- The trim takes a value with the set, without a cross-fade (R133). -/
def Rx.setTrim (r : Rx) (v : Int) : Rx := { r with dT := v, dTWas := v }

end Sys2Proof.Machine
end

