-- ==== Sys2Proof/Machine/FrameState.lean ====
section
/-! DEFINITION. Machine/FrameState.lean: framing, channels, bundles, rate steps and protection groups (chapters 9 and 10). -/

namespace Sys2Proof.Machine

/-- FRM_STATE (R209, R227). -/
inductive FrmState where
  | down | hunt | inFrame
  deriving DecidableEq, Repr

def FrmState.code : FrmState → Nat
  | .down => 0
  | .hunt => 1
  | .inFrame => 2

/-- Multiframe alignment (R210). -/
inductive MfState where
  | none | oom | aligned
  deriving DecidableEq, Repr

/-- The deframer of one carrier, and the section fields it sends (R209 to R214, R220). -/
structure Frm where
  st : FrmState
  mf : MfState
  lof : Bool
  lom : Bool
  tim : Bool
  sbdi : Bool
  /-- a section consequent action is in force (R221) -/
  ca : Bool
  /-- the last instant, in ns, that a section action or a cut multiframe touched (R210, R221) -/
  dirtyAt : Option Nat
  /-- the frame number at the last alignment, and when that was (MFAS) -/
  mfas : Nat
  mfasAt : Nat
  /-- TTIs: sent, expected, last accepted (R213) -/
  ttiTx : List Byte
  ttiExp : List Byte
  ttiRx : Option (List Byte)
  /-- accepted SOH bytes 20 to 24 (R214) -/
  rsRx : List Byte
  /-- when the transmit framer last started, with frame 0 of multiframe 0, in ns (R205, R247) -/
  txStart : Nat
  deriving DecidableEq, Repr

def Frm.reset : Frm where
  st := .down
  mf := .none
  lof := false
  lom := false
  tim := false
  sbdi := false
  ca := false
  dirtyAt := none
  mfas := 0
  mfasAt := 0
  ttiTx := List.replicate 64 0
  ttiExp := List.replicate 64 0
  ttiRx := none
  rsRx := List.replicate 5 0
  txStart := 0

/-- One tributary channel's receive side (R215, R217, R220). -/
structure Chan where
  /-- path defects declared: [0] AIS, [1] OCI, [2] ENCM, [3] BMM, [4] BDI received -/
  defects : Nat
  /-- a path consequent action is in force (R221) -/
  ca : Bool
  kp : Bool
  /-- last accepted MFC -/
  mfc : Nat
  /-- masks not yet reported by PATH_DEFECT, and when the last one was raised (R220) -/
  raised : Nat
  cleared : Nat
  raisedAt : Option Nat
  /-- the path action in force is all-ones (Table 9-6) -/
  ones : Bool
  /-- the last multiframe was replaced by zeros with AIS: a failed or impossible check, or a mismatch of ENC (R346) -/
  zeros : Bool
  deriving DecidableEq, Repr

def Chan.reset : Chan := ⟨0, false, false, 0, 0, 0, none, false, false⟩

/-- What a bundle is attached to (R222, R246). -/
inductive Attach where
  | none
  | eth (port : Nat)
  | stitch (port : Nat)
  deriving DecidableEq, Repr

/-- How far an enable or a disable has got (R225): enabled from the next boundary on, draining, drained and waiting for the boundary. -/
inductive BundleState where
  | disabled | enabling | enabled | draining | closing
  deriving DecidableEq, Repr

/-- A bundle of contiguous channels (R222, R223, R233). -/
structure Bundle where
  carrier : Nat
  first : Nat
  count : Nat
  buffered : Bool
  st : BundleState
  attach : Attach
  elastic : Bool
  /-- buffered direction, from P_MEM_BUF_DIR at creation: true for client to line (R267) -/
  toLine : Bool
  /-- depth of its ring in µs, from P_MEM_BUF_DEPTH at creation (R267) -/
  depth : Nat
  /-- bytes discarded since the last BUF_OVERFLOW, and when that was raised (R268) -/
  lost : Nat
  lostAt : Option Nat
  deriving DecidableEq, Repr

/-- RS_STATE (R256). -/
inductive RsState where
  | idle | prepare | reqSent | ackSent | committed | txSwitched | split
  deriving DecidableEq, Repr

def RsState.code : RsState → Nat
  | .idle => 0
  | .prepare => 1
  | .reqSent => 2
  | .ackSent => 3
  | .committed => 4
  | .txSwitched => 5
  | .split => 6

/-- Rate-step fields of the section overhead (R214). -/
structure RsFields where
  op : Nat
  seq : Nat
  slots : Nat
  h : Nat
  cd : Nat
  deriving DecidableEq, Repr

/-- One carrier's rate steps and rate policy (R232 to R245). -/
structure Rate where
  st : RsState
  responder : Bool
  seq : Nat
  slots : Nat
  h : Nat
  /-- the point before the step -/
  oldSlots : Nat
  oldH : Nat
  /-- the fields its transmitter sends, and since when; NAK and ABORT are sent for 2 multiframes, then IDLE (Table 10-2, log entry 16) -/
  tx : RsFields
  txSince : Nat
  txDone : Bool
  /-- when the local transmitter switched, in ns -/
  txSwitchAt : Nat
  rxDone : Bool
  /-- a shadow set is being loaded, or is loaded, for the step -/
  shadow : Bool
  loading : Bool
  /-- the elastic flow's allowance has been lowered and its occupancy is awaited; it is lowered (R237) -/
  throttling : Bool
  throttled : Bool
  /-- what the device has read of the elastic bundle's ring: room for the old net rate × 100 µs (R237 step 4) -/
  room : Bool
  /-- the step was started by the rate policy (R245) -/
  auto : Bool
  start : Nat
  lastCause : Nat
  lastDuration : Nat
  /-- the carrier is in SPLIT, also while a step runs that is to end it (R243) -/
  split : Bool
  /-- the receiver re-acquires after a missed switch, at the new point or at the old one (R243) -/
  missed : Option Bool
  /-- SYMRATE_ACT at the last CMD_CARRIER_SET (R244) -/
  setRate : Nat
  adviceSlots : Nat
  adviceH : Nat
  /-- effective margins of the last decisions with their times in ns, newest first (R244) -/
  margins : List (Nat × Int)
  /-- the second up to which the policy program has been started (R244, R364) -/
  policySec : Nat
  /-- since when M has exceeded the up threshold without a break, in ns -/
  upSince : Option Nat
  blockedAt : Option Nat
  deriving DecidableEq, Repr

/-- Is a step under way that has not been committed here? -/
def Rate.uncommitted (r : Rate) : Bool := decide (r.st = .prepare ∨ r.st = .reqSent ∨ r.st = .ackSent)

def Rate.reset : Rate where
  st := .idle
  responder := false
  seq := 0
  slots := 0
  h := 0
  oldSlots := 0
  oldH := 0
  tx := ⟨0, 0, 0, 0, 0⟩
  txSince := 0
  txDone := false
  txSwitchAt := 0
  rxDone := false
  shadow := false
  loading := false
  throttling := false
  throttled := false
  room := true
  auto := false
  start := 0
  lastCause := 0
  lastDuration := 0
  split := false
  missed := none
  setRate := 0
  adviceSlots := 0
  adviceH := 0
  margins := []
  policySec := 0
  upSince := none
  blockedAt := none

/-- PROT_STATE (R257). -/
inductive ProtState where
  | disarmed | filling | aligned | degraded
  deriving DecidableEq, Repr

def ProtState.code : ProtState → Nat
  | .disarmed => 0
  | .filling => 1
  | .aligned => 2
  | .degraded => 3

/-- A protection group (R246 to R257). Legs are told by a Bool: true for the protection leg. -/
structure Group where
  work : Nat
  prot : Nat
  revert : Bool
  sdEn : Bool
  holdoff : Nat
  wtr : Nat
  st : ProtState
  selProt : Bool
  earlierProt : Bool
  /-- host request: 0 none, 1 LOCKOUT, 2 FORCE, 3 MANUAL_P, 4 MANUAL_W (R254) -/
  host : Nat
  /-- conditions that have persisted for HOLDOFF and act (R253) -/
  wSf : Bool
  wSd : Bool
  pSf : Bool
  pSd : Bool
  wAligned : Bool
  pAligned : Bool
  /-- when a running WTR expires, in ns -/
  wtrEnd : Option Nat
  rank : Nat
  diff : Nat
  ambig : Bool
  /-- FORCE of the CMD_PROT_ARM under way (R251) -/
  armForce : Bool
  /-- PROT_REALIGN_NEEDED or PROT_DELAY_RANGE left a leg unaligned until the group is re-armed (R255) -/
  stuck : Bool
  /-- the protection bundle was enabled before the CMD_PROT_ARM under way -/
  protWas : Bool
  /-- since when each condition has stood, in ns: SF and SD of the working leg, SF and SD of the protection leg (R253) -/
  wSfAt : Option Nat
  wSdAt : Option Nat
  pSfAt : Option Nat
  pSdAt : Option Nat
  /-- by how much each leg is delayed to meet the delivered latency, in ns (R250, R255) -/
  wHold : Nat
  pHold : Nat
  /-- when the differential delay was last looked at (R250) -/
  diffAt : Nat
  deriving DecidableEq, Repr

end Sys2Proof.Machine
end

