-- ==== Sys2Proof/Machine/Codes.lean ====
section
/-! DEFINITION. Machine/Codes.lean: the status codes of completions (R15) and the events of Table 21-5 (R487, R489). -/

namespace Sys2Proof.Machine

/-- The status codes of Table 0-7 (R15). -/
inductive Status where
  | ok
  | busy
  | badOpcode
  | badParam
  | state
  | domainOff
  | noLast
  | dramBw
  | slotActive
  | authFail
  | timeout
  | trafficPresent
  | noCredit
  | fuse
  | sequence
  | internal
  deriving DecidableEq, Repr

/-- The code of a status (R15). -/
def Status.code : Status → Nat
  | .ok => 0x00
  | .busy => 0x01
  | .badOpcode => 0x02
  | .badParam => 0x03
  | .state => 0x04
  | .domainOff => 0x05
  | .noLast => 0x06
  | .dramBw => 0x07
  | .slotActive => 0x08
  | .authFail => 0x09
  | .timeout => 0x0A
  | .trafficPresent => 0x0B
  | .noCredit => 0x0C
  | .fuse => 0x0D
  | .sequence => 0x0E
  | .internal => 0x0F

/-- The events of Table 21-5 by name; an event of one instance carries the instance in INSTANCE (R487). -/
inductive Evt where
  | evtOverflow
  | seamDegraded
  | frelvoRestart
  | pwrWarn
  | pwrIlimit
  | domainForced
  | squall
  | thermThrottle
  | thermTrip
  | boostSpent
  | txOn
  | txMuted
  | txInterlock
  | cpAbsent
  | txClip
  | adcClip
  | rxLos
  | rxLosClr
  | cdSearchDone
  | cdSearchFail
  | cdTrimLimit
  | cdReloadHit
  | lastLoanRecalled
  | lastPreempted
  | lastRestored
  | lastShort
  | rxLock
  | rxLol
  | acqFail
  | cycleSlip
  | nlcApplied
  | calReady
  | calSliceFail
  | calConvFail
  | fecLock
  | fecLol
  | fecDeg
  | fecDegClr
  | fecUncorr
  | rxSeedMismatch
  | lof
  | lofClr
  | lom
  | lomClr
  | tim
  | sbdi
  | pathDefect
  | rateStepDone
  | rateStepFail
  | rateReqRx
  | rateAdvice
  | rateBlocked
  | protAligned
  | protSwitch
  | protDelayRange
  | protAlignAmbig
  | protRealignNeeded
  | ethUp
  | ethDown
  | laneFomLow
  | srefLoss
  | stitchUp
  | stitchDown
  | stitchRttLong
  | stitchLost
  | stitchMisdirect
  | stitchCreditViol
  | stitchMismatch
  | keyNearLimit
  | keyRolled
  | keyExpired
  | authFail
  | cryptoJobDone
  | engFault
  | engStopped
  | engSysWait
  | engUser
  | timRefLos
  | timRefLosClr
  | timRefQual
  | timRefDisqual
  | timRefSuspect
  | timRefSuspectClr
  | timVoteSplit
  | timLock
  | timSwitch
  | timHoldover
  | timFreerun
  | timPpsLoss
  | timPpsClr
  | timPpsAligned
  | timXoFail
  | front
  | frontClr
  | hkNoFactory
  | hkSelfcheck
  | hkImplausible
  | hkLimit
  | hkLimitClr
  | breezeRx
  | breezeTxDone
  | breezeTxAbort
  | cntSnapSkip
  | bootFallback
  | fwActivated
  | fwActivateFail
  | svnCommitted
  | memCe
  | memUe
  | memParity
  | memRetire
  | memSpareExhausted
  | memGoldenLost
  | memCeStorm
  | memScrubLate
  | memRestriped
  | bufOverflow
  deriving DecidableEq, Repr

/-- CODE of an event: the family in [15:8], an index in [7:0] (R487, R489). -/
def Evt.code : Evt → Nat
  | .evtOverflow => 0x0101
  | .seamDegraded => 0x0102
  | .frelvoRestart => 0x0103
  | .pwrWarn => 0x0201
  | .pwrIlimit => 0x0202
  | .domainForced => 0x0203
  | .squall => 0x0204
  | .thermThrottle => 0x0205
  | .thermTrip => 0x0206
  | .boostSpent => 0x0207
  | .txOn => 0x0301
  | .txMuted => 0x0302
  | .txInterlock => 0x0303
  | .cpAbsent => 0x0304
  | .txClip => 0x0305
  | .adcClip => 0x0306
  | .rxLos => 0x0307
  | .rxLosClr => 0x0308
  | .cdSearchDone => 0x0309
  | .cdSearchFail => 0x030A
  | .cdTrimLimit => 0x030B
  | .cdReloadHit => 0x030C
  | .lastLoanRecalled => 0x030D
  | .lastPreempted => 0x030E
  | .lastRestored => 0x030F
  | .lastShort => 0x0310
  | .rxLock => 0x0311
  | .rxLol => 0x0312
  | .acqFail => 0x0313
  | .cycleSlip => 0x0314
  | .nlcApplied => 0x0315
  | .calReady => 0x0316
  | .calSliceFail => 0x0317
  | .calConvFail => 0x0318
  | .fecLock => 0x0319
  | .fecLol => 0x031A
  | .fecDeg => 0x031B
  | .fecDegClr => 0x031C
  | .fecUncorr => 0x031D
  | .rxSeedMismatch => 0x031E
  | .lof => 0x0401
  | .lofClr => 0x0402
  | .lom => 0x0403
  | .lomClr => 0x0404
  | .tim => 0x0405
  | .sbdi => 0x0406
  | .pathDefect => 0x0407
  | .rateStepDone => 0x0501
  | .rateStepFail => 0x0502
  | .rateReqRx => 0x0503
  | .rateAdvice => 0x0504
  | .rateBlocked => 0x0505
  | .protAligned => 0x0506
  | .protSwitch => 0x0507
  | .protDelayRange => 0x0508
  | .protAlignAmbig => 0x0509
  | .protRealignNeeded => 0x050A
  | .ethUp => 0x0601
  | .ethDown => 0x0602
  | .laneFomLow => 0x0603
  | .srefLoss => 0x0604
  | .stitchUp => 0x0701
  | .stitchDown => 0x0702
  | .stitchRttLong => 0x0703
  | .stitchLost => 0x0704
  | .stitchMisdirect => 0x0705
  | .stitchCreditViol => 0x0706
  | .stitchMismatch => 0x0707
  | .keyNearLimit => 0x0801
  | .keyRolled => 0x0802
  | .keyExpired => 0x0803
  | .authFail => 0x0804
  | .cryptoJobDone => 0x0805
  | .engFault => 0x0901
  | .engStopped => 0x0902
  | .engSysWait => 0x0903
  | .engUser => 0x0904
  | .timRefLos => 0x0A01
  | .timRefLosClr => 0x0A02
  | .timRefQual => 0x0A03
  | .timRefDisqual => 0x0A04
  | .timRefSuspect => 0x0A05
  | .timRefSuspectClr => 0x0A06
  | .timVoteSplit => 0x0A07
  | .timLock => 0x0A08
  | .timSwitch => 0x0A09
  | .timHoldover => 0x0A0A
  | .timFreerun => 0x0A0B
  | .timPpsLoss => 0x0A0C
  | .timPpsClr => 0x0A0D
  | .timPpsAligned => 0x0A0E
  | .timXoFail => 0x0A0F
  | .front => 0x0B01
  | .frontClr => 0x0B02
  | .hkNoFactory => 0x0B03
  | .hkSelfcheck => 0x0B04
  | .hkImplausible => 0x0B05
  | .hkLimit => 0x0B06
  | .hkLimitClr => 0x0B07
  | .breezeRx => 0x0C01
  | .breezeTxDone => 0x0C02
  | .breezeTxAbort => 0x0C03
  | .cntSnapSkip => 0x0D01
  | .bootFallback => 0x0E01
  | .fwActivated => 0x0E02
  | .fwActivateFail => 0x0E03
  | .svnCommitted => 0x0E04
  | .memCe => 0x0F01
  | .memUe => 0x0F02
  | .memParity => 0x0F03
  | .memRetire => 0x0F04
  | .memSpareExhausted => 0x0F05
  | .memGoldenLost => 0x0F06
  | .memCeStorm => 0x0F07
  | .memScrubLate => 0x0F08
  | .memRestriped => 0x0F09
  | .bufOverflow => 0x0F0A

/-- The one severity of each CODE (R487). ENG_FAULT has the severity R383 gives each cause: the one here is that of
a fault of a hosted program, and the raising operation names another where R383 does. -/
def Evt.severity : Evt → Nat
  | .evtOverflow => 2
  | .seamDegraded => 5
  | .frelvoRestart => 4
  | .pwrWarn => 2
  | .pwrIlimit => 4
  | .domainForced => 1
  | .squall => 2
  | .thermThrottle => 2
  | .thermTrip => 5
  | .boostSpent => 0
  | .txOn => 1
  | .txMuted => 1
  | .txInterlock => 4
  | .cpAbsent => 4
  | .txClip => 2
  | .adcClip => 2
  | .rxLos => 4
  | .rxLosClr => 1
  | .cdSearchDone => 0
  | .cdSearchFail => 3
  | .cdTrimLimit => 3
  | .cdReloadHit => 4
  | .lastLoanRecalled => 1
  | .lastPreempted => 4
  | .lastRestored => 1
  | .lastShort => 4
  | .rxLock => 1
  | .rxLol => 4
  | .acqFail => 4
  | .cycleSlip => 2
  | .nlcApplied => 0
  | .calReady => 0
  | .calSliceFail => 3
  | .calConvFail => 4
  | .fecLock => 0
  | .fecLol => 4
  | .fecDeg => 3
  | .fecDegClr => 1
  | .fecUncorr => 3
  | .rxSeedMismatch => 3
  | .lof => 4
  | .lofClr => 1
  | .lom => 4
  | .lomClr => 1
  | .tim => 3
  | .sbdi => 1
  | .pathDefect => 3
  | .rateStepDone => 1
  | .rateStepFail => 4
  | .rateReqRx => 1
  | .rateAdvice => 1
  | .rateBlocked => 2
  | .protAligned => 1
  | .protSwitch => 1
  | .protDelayRange => 4
  | .protAlignAmbig => 2
  | .protRealignNeeded => 3
  | .ethUp => 1
  | .ethDown => 4
  | .laneFomLow => 2
  | .srefLoss => 4
  | .stitchUp => 1
  | .stitchDown => 4
  | .stitchRttLong => 2
  | .stitchLost => 3
  | .stitchMisdirect => 3
  | .stitchCreditViol => 4
  | .stitchMismatch => 4
  | .keyNearLimit => 2
  | .keyRolled => 1
  | .keyExpired => 4
  | .authFail => 3
  | .cryptoJobDone => 0
  | .engFault => 3
  | .engStopped => 0
  | .engSysWait => 2
  | .engUser => 0
  | .timRefLos => 2
  | .timRefLosClr => 1
  | .timRefQual => 1
  | .timRefDisqual => 2
  | .timRefSuspect => 2
  | .timRefSuspectClr => 1
  | .timVoteSplit => 2
  | .timLock => 1
  | .timSwitch => 1
  | .timHoldover => 4
  | .timFreerun => 4
  | .timPpsLoss => 3
  | .timPpsClr => 1
  | .timPpsAligned => 1
  | .timXoFail => 5
  | .front => 1
  | .frontClr => 1
  | .hkNoFactory => 4
  | .hkSelfcheck => 4
  | .hkImplausible => 3
  | .hkLimit => 2
  | .hkLimitClr => 1
  | .breezeRx => 0
  | .breezeTxDone => 0
  | .breezeTxAbort => 3
  | .cntSnapSkip => 2
  | .bootFallback => 4
  | .fwActivated => 1
  | .fwActivateFail => 4
  | .svnCommitted => 1
  | .memCe => 0
  | .memUe => 4
  | .memParity => 3
  | .memRetire => 1
  | .memSpareExhausted => 4
  | .memGoldenLost => 4
  | .memCeStorm => 4
  | .memScrubLate => 2
  | .memRestriped => 1
  | .bufOverflow => 3

end Sys2Proof.Machine
end

