-- ==== Sys2Proof/Machine/IoState.lean ====
section
/-! DEFINITION. Machine/IoState.lean: the mailbox, the event FIFO, the interrupt block and the programmable counters' edge memory: what the I/O die keeps for the host. -/

namespace Sys2Proof.Machine

/-- MBX_STATE (R44): 0 BOOTING, 1 READY, 2 ACTIVATING, 3 FAULT. -/
inductive MbxState where
  | booting | ready | activating | fault
  deriving DecidableEq, Repr

/-- The code of MBX_STATE (R44). -/
def MbxState.code : MbxState → Nat
  | .booting => 0
  | .ready => 1
  | .activating => 2
  | .fault => 3

/-- A command that has been consumed and not yet completed (R46 to R48). -/
structure Inflight where
  /-- OPCODE of the entry -/
  op : Nat
  /-- the rest of the entry -/
  e : CmdEntry
  /-- when it was consumed, in ns (EXEC_TIME, R43) -/
  at_ : Nat
  /-- has its action started? (R48) -/
  started : Bool
  /-- when its class C bound passes, in ns (R50); meaningful once started -/
  deadline : Nat
  /-- cut off by a restart of Frelvo, to be completed by the restarted image (R86) -/
  cut : Bool
  deriving DecidableEq, Repr

/-- An event entry of the FIFO (R54). -/
structure Event where
  code : Nat
  inst : Nat
  sev : Nat
  seq : BitVec 32
  time : Nat
  payload : List Byte
  deriving DecidableEq, Repr

/-- An event recorded while MBX_STATE is ACTIVATING, before it is given a SEQ (R509). -/
structure HeldEvent where
  code : Nat
  inst : Nat
  sev : Nat
  time : Nat
  payload : List Byte
  deriving DecidableEq, Repr

/-- A programmable counter (R459, R460): mode, source condition and instance, value, overflow. -/
structure ProgCounter where
  mode : Nat
  cond : Nat
  inst : Nat
  v : Nat
  ovf : Bool
  /-- the 10 ns tick of the last edge counted: two edges within one tick count once -/
  edgeAt : Option Nat
  deriving DecidableEq, Repr

/-- One latched entry: slot, VALUE, OVF, OFF (Table 20-4). -/
structure SnapCell where
  slot : Nat
  v : Nat
  ovf : Bool
  off : Bool
  deriving DecidableEq, Repr

/-- A dump in progress: what the strobe latched (R464, R466). -/
structure SnapDump where
  seq : Nat
  time : Nat
  /-- taken by TRIG -/
  trig : Bool
  skipped : Nat
  period : Nat
  cells : List SnapCell
  deriving DecidableEq, Repr

/-- The snapshot control block (R465 to R468). -/
structure Snap where
  run : Bool
  dmaEn : Bool
  period : BitVec 14
  /-- SEQ of the last snapshot written, and of the next -/
  seq : BitVec 32
  next : BitVec 32
  busy : Option SnapDump
  late : Bool
  skip : Bool
  dmaErr : Bool
  skipped : BitVec 32
  /-- strobes skipped since the previous snapshot, and since the last CNT_SNAP_SKIP -/
  since : Nat
  sinceEvent : Nat
  eventAt : Option Nat
  dmaBase : BitVec 64
  dmaCount : Byte
  dmaTail : Byte
  dmaHead : Byte
  dmaSkipped : BitVec 32
  /-- host address and SEQ of the last copy: an output of the model -/
  copied : Option (Nat × Nat)
  deriving DecidableEq, Repr

def Snap.reset : Snap where
  run := false
  dmaEn := false
  period := 1000
  seq := 0
  next := 0
  busy := none
  late := false
  skip := false
  dmaErr := false
  skipped := 0
  since := 0
  sinceEvent := 0
  eventAt := none
  dmaBase := 0
  dmaCount := 0
  dmaTail := 0
  dmaHead := 0
  dmaSkipped := 0
  copied := none

/-- The interface registers and queues that the I/O die keeps. -/
structure Io where
  /-- the command ring's bytes, by BAR0 offset 0x1000 to 0x4FFF (R39, R41) -/
  cmdRing : Mem
  /-- the completion ring's bytes, by BAR0 offset 0x5000 to 0x5FFF (R39, R41) -/
  cplRing : Mem
  cmdTail : RingPtr
  cmdHead : RingPtr
  cplHead : RingPtr
  cplTail : RingPtr
  mbxState : MbxState
  /-- MBX_PORT: 0 open, 1 PCIe only, 2 MGP only (R44, R65) -/
  mbxPort : BitVec 2
  /-- MBX_ERR: [0] OVERRUN, [1] BAD_HEAD, [2] PORT_DROP (R44) -/
  mbxErr : BitVec 3
  /-- commands consumed and not yet completed, in the order of their consumption (R46, R48) -/
  inflight : List Inflight
  /-- commands of family 0x08 completed so far (R348) -/
  cmds8 : Nat
  /-- the event FIFO, oldest first (R54 to R57) -/
  evts : List Event
  evtMark : BitVec 11
  markHit : Bool
  runMode : Bool
  overflow : Bool
  evtDropped : BitVec 32
  /-- events dropped since the previous EVT_OVERFLOW (R57) -/
  droppedSince : Nat
  /-- the SEQ the next event takes (R54) -/
  evtSeq : BitVec 32
  /-- events recorded while ACTIVATING, oldest first (R509) -/
  held : List HeldEvent
  /-- events that found the record of 1,024 full while ACTIVATING (R509) -/
  heldDropped : Nat
  intStatus : BitVec 16
  intEnable : BitVec 16
  accessFaultAddr : BitVec 32
  /-- INT_VECn where it differs from its reset value n (R59) -/
  intVec : Tbl (BitVec 6)
  /-- sources with a message due and not yet sent, oldest first (R59, R85) -/
  msgDue : List Nat
  /-- vectors whose message is held pending because the vector is masked (R59) -/
  msixPending : List Nat
  /-- the vector of the last message sent, an output of the model (R59) -/
  lastMsg : Option Nat
  /-- the last value a bus read answered, an output of the model (R63) -/
  lastRead : List Byte
  /-- programmable counters PC00 to PC63 that are set (R459) -/
  pcs : Tbl ProgCounter
  /-- the MGP's 20-bit offset pointer (R63) -/
  mgpOffset : BitVec 20
  /-- snapshot control (R465) -/
  snap : Snap
  /-- bits of source F of the FSP words as Frelvo last evaluated them: carriers 0 to 3, and 4 for the device word (R473) -/
  fspF : Tbl Nat
  deriving DecidableEq, Repr

/-- The interface block after a reset (R41, R44, R55, R59): every register at its Reset column value. -/
def Io.reset : Io where
  cmdRing := []
  cplRing := []
  cmdTail := 0
  cmdHead := 0
  cplHead := 0
  cplTail := 0
  mbxState := .booting
  mbxPort := 0
  mbxErr := 0
  inflight := []
  cmds8 := 0
  evts := []
  evtMark := 0
  markHit := false
  runMode := false
  overflow := false
  evtDropped := 0
  droppedSince := 0
  evtSeq := 0
  held := []
  heldDropped := 0
  intStatus := 0
  intEnable := 0
  accessFaultAddr := 0
  intVec := []
  msgDue := []
  msixPending := []
  lastMsg := none
  lastRead := []
  pcs := []
  mgpOffset := 0
  snap := .reset
  fspF := []

end Sys2Proof.Machine
end

