-- ==== Sys2Proof/Machine/MemState.lean ====
section
/-! DEFINITION. Machine/MemState.lean: error tracking, retirement, scrubbing and the error log (chapter 11). -/

namespace Sys2Proof.Machine

/-- An address that has had corrections (R274): its memory, unit and address, and when, newest first. -/
structure Track where
  mem : Nat
  unit : Nat
  addr : Nat
  times : List Nat
  deriving DecidableEq, Repr

/-- A row replaced by a spare row of its bank or macro (R274). -/
structure RetiredRow where
  mem : Nat
  unit : Nat
  bank : Nat
  row : Nat
  deriving DecidableEq, Repr

/-- A hard-failed word without a spare row, and when it was last logged (R275). -/
structure HardWord where
  mem : Nat
  unit : Nat
  addr : Nat
  loggedAt : Nat
  deriving DecidableEq, Repr

/-- Events of one kind merged under a limit (R280): how many since the last was raised, and when that was. -/
structure Merged where
  since : Nat
  at_ : Option Nat
  deriving DecidableEq, Repr

/-- The memory bookkeeping of Frelvo and the buffer manager. -/
structure MemSys where
  track : List Track
  retired : List RetiredRow
  /-- banks and macros with no spare left: memory, unit, bank -/
  exhausted : List (Nat × Nat × Nat)
  hard : List HardWord
  /-- SEQ of the next error-log entry (LOG_WR) -/
  logSeq : Nat
  ce : Merged
  parity : Merged
  storm : Merged
  /-- MEM_UE events of the present second, and when that second began (at most 100 per second) -/
  ueCount : Nat
  ueSince : Nat
  /-- start of the present DRAM scrub pass, by stack, and end of the last one -/
  scrubStart : Tbl Nat
  /-- how long the pass of a stack in IDLE had run: it resumes where it stopped (R273) -/
  scrubHeld : Tbl Nat
  /-- stacks whose present pass has been reported late -/
  scrubLate : List Nat
  lastScrubEnd : Nat
  deriving DecidableEq, Repr

def MemSys.reset : MemSys where
  track := []
  retired := []
  exhausted := []
  hard := []
  logSeq := 0
  ce := ⟨0, none⟩
  parity := ⟨0, none⟩
  storm := ⟨0, none⟩
  ueCount := 0
  ueSince := 0
  scrubStart := []
  scrubHeld := []
  scrubLate := []
  lastScrubEnd := 0

end Sys2Proof.Machine
end

