-- ==== Sys2Proof/Machine/Params.lean ====
section
/-! DEFINITION. Machine/Params.lean: the parameter space (R52, R53, R485, R486): identifiers, ranges, defaults, classes, relations. -/

namespace Sys2Proof.Machine

/-- P_EVT_SEV_MIN. -/
abbrev pEvtSevMin : Nat := 0x0120
/-- P_EVT_FAMILY_MASK. -/
abbrev pEvtFamilyMask : Nat := 0x0121
/-- P_CPL_IRQ_ALL. -/
abbrev pCplIrqAll : Nat := 0x0122
/-- P_BOOST_ENABLE. -/
abbrev pBoostEnable : Nat := 0x0220
/-- P_THERM_THROTTLE. -/
abbrev pThermThrottle : Nat := 0x0221
/-- P_WAKE_SOURCES. -/
abbrev pWakeSources : Nat := 0x0222
/-- P_TJ_MAX. -/
abbrev pTjMax : Nat := 0x0230
/-- P_VIN_NOW. -/
abbrev pVinNow : Nat := 0x0231
/-- P_TX_ROLLOFF. -/
abbrev pTxRolloff : Nat := 0x0340
/-- P_TX_PILOT_GAIN. -/
abbrev pTxPilotGain : Nat := 0x0344
/-- P_TX_PILOT_SEED. -/
abbrev pTxPilotSeed : Nat := 0x0348
/-- P_TX_SWING. -/
abbrev pTxSwing : Nat := 0x034C
/-- P_TX_CLIP. -/
abbrev pTxClip : Nat := 0x0350
/-- P_TX_RAMP. -/
abbrev pTxRamp : Nat := 0x0354
/-- P_TX_CD_PRE. -/
abbrev pTxCdPre : Nat := 0x0358
/-- P_TX_NLC_TRIPLETS. -/
abbrev pTxNlcTriplets : Nat := 0x035C
/-- P_TX_XFADE. -/
abbrev pTxXfade : Nat := 0x0360
/-- P_TX_SKEW_XQ. -/
abbrev pTxSkewXq : Nat := 0x0364
/-- P_TX_SKEW_YI. -/
abbrev pTxSkewYi : Nat := 0x0368
/-- P_TX_SKEW_YQ. -/
abbrev pTxSkewYq : Nat := 0x036C
/-- P_TX_IQ_GAIN_X. -/
abbrev pTxIqGainX : Nat := 0x0370
/-- P_TX_IQ_GAIN_Y. -/
abbrev pTxIqGainY : Nat := 0x0374
/-- P_TX_IQ_PHASE_X. -/
abbrev pTxIqPhaseX : Nat := 0x0378
/-- P_TX_IQ_PHASE_Y. -/
abbrev pTxIqPhaseY : Nat := 0x037C
/-- P_TX_XY_BAL. -/
abbrev pTxXyBal : Nat := 0x0380
/-- P_TX_CLIP_ALARM. -/
abbrev pTxClipAlarm : Nat := 0x0384
/-- P_TX_IL_AUTO. -/
abbrev pTxIlAuto : Nat := 0x0388
/-- P_TX_CLIP_RATE. -/
abbrev pTxClipRate : Nat := 0x038C
/-- P_CD_RANGE_LO. -/
abbrev pCdRangeLo : Nat := 0x0390
/-- P_CD_RANGE_HI. -/
abbrev pCdRangeHi : Nat := 0x0394
/-- P_CD_SEARCH_STEP. -/
abbrev pCdSearchStep : Nat := 0x0398
/-- P_LAST_QUOTA. -/
abbrev pLastQuota : Nat := 0x039C
/-- P_LAST_PRIO. -/
abbrev pLastPrio : Nat := 0x03A0
/-- P_LAST_INPLACE. -/
abbrev pLastInplace : Nat := 0x03A4
/-- P_RX_ADC_FS. -/
abbrev pRxAdcFs : Nat := 0x03A8
/-- P_RX_LOS_THR. -/
abbrev pRxLosThr : Nat := 0x03AC
/-- P_RX_ADC_CLIP_ALARM. -/
abbrev pRxAdcClipAlarm : Nat := 0x03B0
/-- P_RX_SKEW_XQ. -/
abbrev pRxSkewXq : Nat := 0x03B4
/-- P_RX_SKEW_YI. -/
abbrev pRxSkewYi : Nat := 0x03B8
/-- P_RX_SKEW_YQ. -/
abbrev pRxSkewYq : Nat := 0x03BC
/-- P_CD_EST. -/
abbrev pCdEst : Nat := 0x03C0
/-- P_CD_TRIM. -/
abbrev pCdTrim : Nat := 0x03C4
/-- P_LAST_POLICY. -/
abbrev pLastPolicy : Nat := 0x03C8
/-- P_RX_MIMO_TAPS. -/
abbrev pRxMimoTaps : Nat := 0x03CC
/-- P_RX_MIMO_MU. -/
abbrev pRxMimoMu : Nat := 0x03D0
/-- P_RX_TR_BW. -/
abbrev pRxTrBw : Nat := 0x03D4
/-- P_RX_FO_RANGE. -/
abbrev pRxFoRange : Nat := 0x03D8
/-- P_RX_CPR_WIN. -/
abbrev pRxCprWin : Nat := 0x03DC
/-- P_RX_CPR_DD. -/
abbrev pRxCprDd : Nat := 0x03E0
/-- P_RX_PILOT_SEED. -/
abbrev pRxPilotSeed : Nat := 0x03E4
/-- P_RX_PILOT_GAIN. -/
abbrev pRxPilotGain : Nat := 0x03E8
/-- P_RX_NLC_MODE. -/
abbrev pRxNlcMode : Nat := 0x03EC
/-- P_RX_NLC_TRIPLETS. -/
abbrev pRxNlcTriplets : Nat := 0x03F0
/-- P_RX_NLC_PERIOD. -/
abbrev pRxNlcPeriod : Nat := 0x03F4
/-- P_RX_SLIP_ALARM. -/
abbrev pRxSlipAlarm : Nat := 0x03F8
/-- P_RX_ACQ_RETRY. -/
abbrev pRxAcqRetry : Nat := 0x03FC
/-- P_CAL_MODE. -/
abbrev pCalMode : Nat := 0x0300
/-- P_CAL_PERIOD. -/
abbrev pCalPeriod : Nat := 0x0304
/-- P_CAL_TEMP_TRIG. -/
abbrev pCalTempTrig : Nat := 0x0308
/-- P_CAL_APPLY. -/
abbrev pCalApply : Nat := 0x030C
/-- P_CAL_TONE_FREQ. -/
abbrev pCalToneFreq : Nat := 0x0310
/-- P_CAL_SKEW_SRC. -/
abbrev pCalSkewSrc : Nat := 0x0314
/-- P_CAL_AGE_MAX. -/
abbrev pCalAgeMax : Nat := 0x0318
/-- P_FEC_ITER. -/
abbrev pFecIter : Nat := 0x031C
/-- P_FEC_EARLY. -/
abbrev pFecEarly : Nat := 0x0320
/-- P_FEC_LATMODE. -/
abbrev pFecLatmode : Nat := 0x0324
/-- P_FEC_UNCORR_ACT. -/
abbrev pFecUncorrAct : Nat := 0x0328
/-- P_FEC_DEG_THR. -/
abbrev pFecDegThr : Nat := 0x032C
/-- P_FEC_DEG_WIN. -/
abbrev pFecDegWin : Nat := 0x0330
/-- P_FEC_PRE_BER. -/
abbrev pFecPreBer : Nat := 0x0334
/-- P_FEC_MI_EST. -/
abbrev pFecMiEst : Nat := 0x0338
/-- P_FEC_ITER_MEAN. -/
abbrev pFecIterMean : Nat := 0x033C
/-- P_FRM_TIM_MODE. -/
abbrev pFrmTimMode : Nat := 0x0400
/-- P_FRM_BMM_ACT. -/
abbrev pFrmBmmAct : Nat := 0x0404
/-- P_FRM_BDI_EN. -/
abbrev pFrmBdiEn : Nat := 0x0408
/-- P_RS_POLICY. -/
abbrev pRsPolicy : Nat := 0x0500
/-- P_RS_ACCEPT. -/
abbrev pRsAccept : Nat := 0x0504
/-- P_RS_COUNTDOWN. -/
abbrev pRsCountdown : Nat := 0x0508
/-- P_RS_ACK_TIMEOUT. -/
abbrev pRsAckTimeout : Nat := 0x050C
/-- P_RS_STEP_SLOTS. -/
abbrev pRsStepSlots : Nat := 0x0510
/-- P_RS_MIN_SLOTS. -/
abbrev pRsMinSlots : Nat := 0x0514
/-- P_RS_MAX_SLOTS. -/
abbrev pRsMaxSlots : Nat := 0x0518
/-- P_RS_DOWN_MARGIN. -/
abbrev pRsDownMargin : Nat := 0x051C
/-- P_RS_UP_MARGIN. -/
abbrev pRsUpMargin : Nat := 0x0520
/-- P_RS_UP_HOLD. -/
abbrev pRsUpHold : Nat := 0x0524
/-- P_RS_TREND_WIN. -/
abbrev pRsTrendWin : Nat := 0x0528
/-- P_RS_HORIZON. -/
abbrev pRsHorizon : Nat := 0x052C
/-- P_RS_RS_CEIL. -/
abbrev pRsRsCeil : Nat := 0x0530
/-- P_RS_THROTTLE_MAX. -/
abbrev pRsThrottleMax : Nat := 0x0534
/-- P_PROT_MAX_DELAY. -/
abbrev pProtMaxDelay : Nat := 0x0540
/-- P_PROT_REALIGN. -/
abbrev pProtRealign : Nat := 0x0541
/-- P_MEM_SCRUB_PERIOD. -/
abbrev pMemScrubPeriod : Nat := 0x0F20
/-- P_MEM_SCRUB_WINDOW. -/
abbrev pMemScrubWindow : Nat := 0x0F21
/-- P_MEM_BUF_DEPTH. -/
abbrev pMemBufDepth : Nat := 0x0F22
/-- P_MEM_BUF_DIR. -/
abbrev pMemBufDir : Nat := 0x0F80
/-- P_LANE_TX. -/
abbrev pLaneTx : Nat := 0x0600
/-- P_LANE_CFG. -/
abbrev pLaneCfg : Nat := 0x0640
/-- P_LANE_FOM. -/
abbrev pLaneFom : Nat := 0x0680
/-- P_ETH_MAX_FRAME. -/
abbrev pEthMaxFrame : Nat := 0x06C0
/-- P_SREF_FREQ. -/
abbrev pSrefFreq : Nat := 0x06E0
/-- P_LANE_FOM_MIN. -/
abbrev pLaneFomMin : Nat := 0x06E4
/-- P_ETH_UNCORR_THR. -/
abbrev pEthUncorrThr : Nat := 0x06E5
/-- P_ETH_CSF_EN. -/
abbrev pEthCsfEn : Nat := 0x06E6
/-- P_STITCH_LINK_ID. -/
abbrev pStitchLinkId : Nat := 0x0700
/-- P_STITCH_TXTUNE. -/
abbrev pStitchTxtune : Nat := 0x0704
/-- P_STITCH_FILL. -/
abbrev pStitchFill : Nat := 0x0708
/-- P_STITCH_RTT_STRICT. -/
abbrev pStitchRttStrict : Nat := 0x070C
/-- P_CV_WIDTH. -/
abbrev pCvWidth : Nat := 0x0710
/-- P_CV_POLY. -/
abbrev pCvPoly : Nat := 0x0714
/-- P_CV_INIT. -/
abbrev pCvInit : Nat := 0x0718
/-- P_CV_XOROUT. -/
abbrev pCvXorout : Nat := 0x071C
/-- P_CV_REFLECT. -/
abbrev pCvReflect : Nat := 0x0720
/-- P_STITCH_RTT. -/
abbrev pStitchRtt : Nat := 0x0724
/-- P_KEY_LIMIT_LOG2. -/
abbrev pKeyLimitLog2 : Nat := 0x0800
/-- P_KEY_WARN. -/
abbrev pKeyWarn : Nat := 0x0801
/-- P_KEY_ROLL_AUTO. -/
abbrev pKeyRollAuto : Nat := 0x0802
/-- P_KEY_WRAP_ONLY. -/
abbrev pKeyWrapOnly : Nat := 0x0803
/-- P_ENG_HOSTED_MASK. -/
abbrev pEngHostedMask : Nat := 0x0900
/-- P_ENG_USER_RATE. -/
abbrev pEngUserRate : Nat := 0x0901
/-- P_ENG_CLOCK. -/
abbrev pEngClock : Nat := 0x0910
/-- P_ENG_BUSY. -/
abbrev pEngBusy : Nat := 0x0911
/-- P_TIM_QUAL_TIME. -/
abbrev pTimQualTime : Nat := 0x0A10
/-- P_TIM_WTR. -/
abbrev pTimWtr : Nat := 0x0A11
/-- P_TIM_HO_TIME. -/
abbrev pTimHoTime : Nat := 0x0A12
/-- P_TIM_VOTE. -/
abbrev pTimVote : Nat := 0x0A13
/-- P_TIM_BW. -/
abbrev pTimBw : Nat := 0x0A14
/-- P_TIM_SLOPE. -/
abbrev pTimSlope : Nat := 0x0A15
/-- P_TIM_ABSORB. -/
abbrev pTimAbsorb : Nat := 0x0A16
/-- P_TIM_STEP_RATE. -/
abbrev pTimStepRate : Nat := 0x0A17
/-- P_TIM_PPS_SLEW. -/
abbrev pTimPpsSlew : Nat := 0x0A18
/-- P_TIM_PPS_JUMP. -/
abbrev pTimPpsJump : Nat := 0x0A19
/-- P_TIM_ACCEPT. -/
abbrev pTimAccept : Nat := 0x0A20
/-- P_TIM_REJECT. -/
abbrev pTimReject : Nat := 0x0A24
/-- P_TIM_DPLL_OFFSET. -/
abbrev pTimDpllOffset : Nat := 0x0A30
/-- P_SENSE_EN. -/
abbrev pSenseEn : Nat := 0x0B00
/-- P_SENSE_MINPHASE. -/
abbrev pSenseMinphase : Nat := 0x0B04
/-- P_FRONT_PH_THR. -/
abbrev pFrontPhThr : Nat := 0x0B08
/-- P_FRONT_SOP_THR. -/
abbrev pFrontSopThr : Nat := 0x0B0C
/-- P_FRONT_BAND_LO. -/
abbrev pFrontBandLo : Nat := 0x0B10
/-- P_FRONT_BAND_HI. -/
abbrev pFrontBandHi : Nat := 0x0B14
/-- P_SENSE_DECIM. -/
abbrev pSenseDecim : Nat := 0x0B20
/-- P_SENSE_DESKEW. -/
abbrev pSenseDeskew : Nat := 0x0B21
/-- P_SENSE_XFADE. -/
abbrev pSenseXfade : Nat := 0x0B22
/-- P_FRONT_WIN. -/
abbrev pFrontWin : Nat := 0x0B23
/-- P_FRONT_HOLD. -/
abbrev pFrontHold : Nat := 0x0B24
/-- P_HK_PLAUS_TOL. -/
abbrev pHkPlausTol : Nat := 0x0B30
/-- P_HK_LIM_LO. -/
abbrev pHkLimLo : Nat := 0x0B40
/-- P_HK_LIM_HI. -/
abbrev pHkLimHi : Nat := 0x0B80
/-- P_BRZ_TX_FREQ. -/
abbrev pBrzTxFreq : Nat := 0x0C00
/-- P_BRZ_RX_FREQ. -/
abbrev pBrzRxFreq : Nat := 0x0C04
/-- P_BRZ_RATE. -/
abbrev pBrzRate : Nat := 0x0C08
/-- P_BRZ_DEPTH. -/
abbrev pBrzDepth : Nat := 0x0C0C
/-- P_BRZ_RAMP. -/
abbrev pBrzRamp : Nat := 0x0C10
/-- P_BRZ_TX_MODE. -/
abbrev pBrzTxMode : Nat := 0x0C14
/-- P_BRZ_RX_EN. -/
abbrev pBrzRxEn : Nat := 0x0C18
/-- P_BRZ_RX_MIN. -/
abbrev pBrzRxMin : Nat := 0x0C1C
/-- P_BRZ_SYNC. -/
abbrev pBrzSync : Nat := 0x0C20

/-- When a parameter takes effect (R52): class I at once, class O at the next command that configures its object,
class S when its domain next powers up; measured parameters are read-only. -/
inductive ParamClass where
  | instant | object | powerUp | measured
  deriving DecidableEq, Repr

/-- The grid of a stored parameter's range (R486: a value off the grid is out of range). -/
inductive ParamGrid where
  | plain
  | multiple (n : Nat)
  | odd
  | zeroOrFrom (lo : Int)
  | atMostOnes (n : Nat)
  | laneTx
  | laneCfg
  deriving DecidableEq, Repr

/-- One row of a parameter table: the identifier of instance 0, the number of instances, the range with its grid, the
defaults (one for all instances, or one each) and the class. -/
structure ParamSpec where
  base : Nat
  count : Nat
  lo : Int
  hi : Int
  grid : ParamGrid
  dflt : List Int
  cls : ParamClass
  deriving DecidableEq, Repr

/-- The parameters of family 0x01 (R485). -/
def paramRows01 : List ParamSpec := [
  ⟨pEvtSevMin, 1, 0, 5, .plain, [0], .instant⟩,
  ⟨pEvtFamilyMask, 1, 0, 65534, .plain, [0xFFFE], .instant⟩,
  ⟨pCplIrqAll, 1, 0, 1, .plain, [0], .instant⟩]

/-- The parameters of family 0x02 (R485). -/
def paramRows02 : List ParamSpec := [
  ⟨pBoostEnable, 1, 0, 1, .plain, [0], .instant⟩,
  ⟨pThermThrottle, 1, 85, 105, .plain, [105], .instant⟩,
  ⟨pWakeSources, 1, 0, 3, .plain, [3], .instant⟩,
  ⟨pTjMax, 1, -40, 130, .plain, [0], .measured⟩,
  ⟨pVinNow, 1, 0, 90000, .plain, [0], .measured⟩]

/-- The parameters of family 0x03, part 1 (R485). -/
def paramRows03a : List ParamSpec := [
  ⟨pTxRolloff, 4, 5, 200, .plain, [50], .object⟩,
  ⟨pTxPilotGain, 4, 0, 30, .plain, [10], .object⟩,
  ⟨pTxPilotSeed, 4, 1, 32767, .plain, [0x5555], .object⟩,
  ⟨pTxSwing, 4, 300, 900, .multiple 10, [600], .instant⟩,
  ⟨pTxClip, 4, 200, 400, .plain, [320], .instant⟩,
  ⟨pTxRamp, 4, 0, 1000, .plain, [100], .instant⟩,
  ⟨pTxCdPre, 4, -50000, 50000, .plain, [0], .instant⟩,
  ⟨pTxNlcTriplets, 4, 0, 48, .plain, [0], .instant⟩,
  ⟨pTxXfade, 4, 8, 1024, .plain, [128], .instant⟩,
  ⟨pTxSkewXq, 4, -160, 160, .plain, [0], .instant⟩,
  ⟨pTxSkewYi, 4, -160, 160, .plain, [0], .instant⟩,
  ⟨pTxSkewYq, 4, -160, 160, .plain, [0], .instant⟩,
  ⟨pTxIqGainX, 4, -300, 300, .plain, [0], .instant⟩,
  ⟨pTxIqGainY, 4, -300, 300, .plain, [0], .instant⟩,
  ⟨pTxIqPhaseX, 4, -200, 200, .plain, [0], .instant⟩,
  ⟨pTxIqPhaseY, 4, -200, 200, .plain, [0], .instant⟩,
  ⟨pTxXyBal, 4, -300, 300, .plain, [0], .instant⟩,
  ⟨pTxClipAlarm, 4, 1, 10000, .plain, [100], .instant⟩,
  ⟨pTxIlAuto, 4, 0, 1, .plain, [0], .instant⟩,
  ⟨pTxClipRate, 4, 0, 1000000, .plain, [0], .measured⟩,
  ⟨pCdRangeLo, 4, -200000, 200000, .plain, [-80000], .object⟩,
  ⟨pCdRangeHi, 4, -200000, 200000, .plain, [80000], .object⟩,
  ⟨pCdSearchStep, 4, 100, 2000, .plain, [500], .object⟩,
  ⟨pLastQuota, 4, 0, 20, .plain, [8], .instant⟩]

/-- The parameters of family 0x03, part 2 (R485). -/
def paramRows03b : List ParamSpec := [
  ⟨pLastPrio, 4, 0, 7, .plain, [4], .instant⟩,
  ⟨pLastInplace, 4, 0, 1, .plain, [0], .instant⟩,
  ⟨pRxAdcFs, 4, 200, 800, .multiple 10, [500], .instant⟩,
  ⟨pRxLosThr, 4, 1, 50, .plain, [4], .instant⟩,
  ⟨pRxAdcClipAlarm, 4, 1, 10000, .plain, [100], .instant⟩,
  ⟨pRxSkewXq, 4, -160, 160, .plain, [0], .instant⟩,
  ⟨pRxSkewYi, 4, -160, 160, .plain, [0], .instant⟩,
  ⟨pRxSkewYq, 4, -160, 160, .plain, [0], .instant⟩,
  ⟨pCdEst, 4, -220000, 220000, .plain, [0], .measured⟩,
  ⟨pCdTrim, 4, -12000, 12000, .plain, [0], .measured⟩,
  ⟨pLastPolicy, 1, 0, 2, .plain, [0], .instant⟩,
  ⟨pRxMimoTaps, 4, 15, 63, .odd, [31], .object⟩,
  ⟨pRxMimoMu, 4, 1, 1024, .plain, [64], .instant⟩,
  ⟨pRxTrBw, 4, 100, 10000, .plain, [2000], .instant⟩,
  ⟨pRxFoRange, 4, 500, 5000, .plain, [3000], .object⟩,
  ⟨pRxCprWin, 4, 1, 16, .plain, [4], .instant⟩,
  ⟨pRxCprDd, 4, 0, 32, .plain, [16], .instant⟩,
  ⟨pRxPilotSeed, 4, 0, 32767, .plain, [0x5555], .object⟩,
  ⟨pRxPilotGain, 4, 0, 30, .plain, [10], .object⟩,
  ⟨pRxNlcMode, 4, 0, 2, .plain, [1], .instant⟩,
  ⟨pRxNlcTriplets, 4, 0, 96, .plain, [48], .instant⟩,
  ⟨pRxNlcPeriod, 4, 1, 3600, .plain, [10], .instant⟩,
  ⟨pRxSlipAlarm, 4, 1, 1000000, .plain, [10], .instant⟩,
  ⟨pRxAcqRetry, 4, 10, 10000, .plain, [100], .instant⟩]

/-- The parameters of family 0x03, part 3 (R485). -/
def paramRows03c : List ParamSpec := [
  ⟨pCalMode, 4, 0, 2, .plain, [1], .instant⟩,
  ⟨pCalPeriod, 4, 1, 3600, .plain, [60], .instant⟩,
  ⟨pCalTempTrig, 4, 1, 20, .plain, [3], .instant⟩,
  ⟨pCalApply, 4, 64, 16384, .plain, [1024], .instant⟩,
  ⟨pCalToneFreq, 4, 1000, 180000, .plain, [10007], .object⟩,
  ⟨pCalSkewSrc, 4, 0, 1, .plain, [0], .instant⟩,
  ⟨pCalAgeMax, 4, 0, 4294967295, .plain, [0], .measured⟩,
  ⟨pFecIter, 4, 4, 16, .plain, [10], .object⟩,
  ⟨pFecEarly, 4, 0, 1, .plain, [1], .instant⟩,
  ⟨pFecLatmode, 4, 0, 1, .plain, [0], .object⟩,
  ⟨pFecUncorrAct, 4, 0, 1, .plain, [0], .instant⟩,
  ⟨pFecDegThr, 4, 100, 50000, .plain, [15000], .instant⟩,
  ⟨pFecDegWin, 4, 1, 1000, .plain, [10], .instant⟩,
  ⟨pFecPreBer, 4, 0, 4294967295, .plain, [0], .measured⟩,
  ⟨pFecMiEst, 4, 0, 28672, .plain, [0], .measured⟩,
  ⟨pFecIterMean, 4, 0, 4096, .plain, [0], .measured⟩]

/-- The parameters of family 0x04 (R485). -/
def paramRows04 : List ParamSpec := [
  ⟨pFrmTimMode, 4, 0, 2, .plain, [0], .instant⟩,
  ⟨pFrmBmmAct, 4, 0, 1, .plain, [1], .instant⟩,
  ⟨pFrmBdiEn, 4, 0, 1, .plain, [1], .instant⟩]

/-- The parameters of family 0x05 (R485). -/
def paramRows05 : List ParamSpec := [
  ⟨pRsPolicy, 4, 0, 2, .plain, [0], .instant⟩,
  ⟨pRsAccept, 4, 0, 1, .plain, [1], .instant⟩,
  ⟨pRsCountdown, 4, 2, 255, .plain, [8], .instant⟩,
  ⟨pRsAckTimeout, 4, 10, 2000, .plain, [200], .instant⟩,
  ⟨pRsStepSlots, 4, 1, 32, .plain, [4], .instant⟩,
  ⟨pRsMinSlots, 4, 16, 128, .plain, [16], .instant⟩,
  ⟨pRsMaxSlots, 4, 16, 128, .plain, [128], .instant⟩,
  ⟨pRsDownMargin, 4, 0, 500, .plain, [50], .instant⟩,
  ⟨pRsUpMargin, 4, 50, 1000, .plain, [150], .instant⟩,
  ⟨pRsUpHold, 4, 10, 86400, .plain, [600], .instant⟩,
  ⟨pRsTrendWin, 4, 10, 3600, .plain, [60], .instant⟩,
  ⟨pRsHorizon, 4, 0, 600, .plain, [10], .instant⟩,
  ⟨pRsRsCeil, 4, 0, 322000000, .zeroOrFrom 96000000, [0], .instant⟩,
  ⟨pRsThrottleMax, 4, 10, 1000, .plain, [100], .instant⟩,
  ⟨pProtMaxDelay, 1, 1000, 40000, .plain, [40000], .instant⟩,
  ⟨pProtRealign, 1, 0, 1, .plain, [0], .instant⟩]

/-- The parameters of family 0x0F (R485). -/
def paramRows0F : List ParamSpec := [
  ⟨pMemScrubPeriod, 1, 600, 86400, .plain, [3600], .instant⟩,
  ⟨pMemScrubWindow, 1, 3600, 604800, .plain, [86400], .instant⟩,
  ⟨pMemBufDepth, 1, 100, 10000, .plain, [1000], .object⟩,
  ⟨pMemBufDir, 128, 0, 1, .plain, [0], .object⟩]

/-- The parameters of family 0x06 (R485). -/
def paramRows06 : List ParamSpec := [
  ⟨pLaneTx, 64, 0, 4294967295, .laneTx, [0x03200804], .instant⟩,
  ⟨pLaneCfg, 64, 0, 4294967295, .laneCfg, [0], .instant⟩,
  ⟨pLaneFom, 64, -32768, 32767, .plain, [0], .measured⟩,
  ⟨pEthMaxFrame, 32, 64, 16000, .plain, [10000], .instant⟩,
  ⟨pSrefFreq, 4, 0, 1, .plain, [1], .powerUp⟩,
  ⟨pLaneFomMin, 1, 1000, 3000, .plain, [1800], .instant⟩,
  ⟨pEthUncorrThr, 1, 1, 10000, .plain, [10], .instant⟩,
  ⟨pEthCsfEn, 1, 0, 1, .plain, [1], .instant⟩]

/-- The parameters of family 0x07 (R485). -/
def paramRows07 : List ParamSpec := [
  ⟨pStitchLinkId, 4, 0, 65535, .plain, [0], .object⟩,
  ⟨pStitchTxtune, 4, 0, 1, .plain, [1], .object⟩,
  ⟨pStitchFill, 4, 0, 255, .plain, [0], .instant⟩,
  ⟨pStitchRttStrict, 4, 0, 1, .plain, [0], .instant⟩,
  ⟨pCvWidth, 4, 8, 32, .multiple 8, [32], .object⟩,
  ⟨pCvPoly, 4, 1, 4294967295, .odd, [0x04C11DB7], .object⟩,
  ⟨pCvInit, 4, 0, 4294967295, .plain, [0xFFFFFFFF], .object⟩,
  ⟨pCvXorout, 4, 0, 4294967295, .plain, [0xFFFFFFFF], .object⟩,
  ⟨pCvReflect, 4, 0, 3, .plain, [3], .object⟩,
  ⟨pStitchRtt, 4, 0, 65535, .plain, [0], .measured⟩]

/-- The parameters of family 0x08 (R485). -/
def paramRows08 : List ParamSpec := [
  ⟨pKeyLimitLog2, 1, 20, 40, .plain, [32], .object⟩,
  ⟨pKeyWarn, 1, 50, 99, .plain, [90], .instant⟩,
  ⟨pKeyRollAuto, 1, 0, 1, .plain, [0], .instant⟩,
  ⟨pKeyWrapOnly, 1, 0, 1, .plain, [0], .instant⟩]

/-- The parameters of family 0x09 (R485). -/
def paramRows09 : List ParamSpec := [
  ⟨pEngHostedMask, 1, 0, 65535, .atMostOnes 12, [0x0000], .instant⟩,
  ⟨pEngUserRate, 1, 1, 100, .plain, [10], .instant⟩,
  ⟨pEngClock, 1, 0, 2000, .plain, [0], .measured⟩,
  ⟨pEngBusy, 1, 0, 100, .plain, [0], .measured⟩]

/-- The parameters of family 0x0A (R485). -/
def paramRows0A : List ParamSpec := [
  ⟨pTimQualTime, 1, 1, 3600, .plain, [10], .instant⟩,
  ⟨pTimWtr, 1, 0, 3600, .plain, [300], .instant⟩,
  ⟨pTimHoTime, 1, 60, 604800, .plain, [86400], .instant⟩,
  ⟨pTimVote, 1, 10, 1000, .plain, [200], .instant⟩,
  ⟨pTimBw, 1, 1, 1000, .plain, [10], .instant⟩,
  ⟨pTimSlope, 1, 1, 10000, .plain, [100], .instant⟩,
  ⟨pTimAbsorb, 1, 0, 1, .plain, [1], .instant⟩,
  ⟨pTimStepRate, 1, 0, 10000, .plain, [0], .instant⟩,
  ⟨pTimPpsSlew, 1, 1, 1000, .plain, [10], .instant⟩,
  ⟨pTimPpsJump, 1, 10, 1000000, .plain, [1000], .instant⟩,
  ⟨pTimAccept, 4, 10, 5000, .plain, [920], .instant⟩,
  ⟨pTimReject, 4, 20, 5000, .plain, [1200], .instant⟩,
  ⟨pTimDpllOffset, 1, -2147483648, 2147483647, .plain, [0], .measured⟩]

/-- The parameters of family 0x0B (R485). -/
def paramRows0B : List ParamSpec := [
  ⟨pSenseEn, 4, 0, 1, .plain, [0], .instant⟩,
  ⟨pSenseMinphase, 4, 0, 1, .plain, [0], .instant⟩,
  ⟨pFrontPhThr, 4, 1, 1000000, .plain, [100], .instant⟩,
  ⟨pFrontSopThr, 4, 1, 10000, .plain, [100], .instant⟩,
  ⟨pFrontBandLo, 4, 1, 100000, .plain, [10], .instant⟩,
  ⟨pFrontBandHi, 4, 2, 250000, .plain, [5000], .instant⟩,
  ⟨pSenseDecim, 1, 4, 10, .plain, [6], .instant⟩,
  ⟨pSenseDeskew, 1, 0, 1, .plain, [1], .instant⟩,
  ⟨pSenseXfade, 1, 16, 4096, .plain, [256], .instant⟩,
  ⟨pFrontWin, 1, 1, 1000, .plain, [10], .instant⟩,
  ⟨pFrontHold, 1, 10, 60000, .plain, [1000], .instant⟩,
  ⟨pHkPlausTol, 1, 100, 100000, .plain, [5000], .instant⟩,
  ⟨pHkLimLo, 64, -1500000, 1500000, .plain, [-1500000], .instant⟩,
  ⟨pHkLimHi, 64, -1500000, 1500000, .plain, [1500000], .instant⟩]

/-- The parameters of family 0x0C (R485). -/
def paramRows0C : List ParamSpec := [
  ⟨pBrzTxFreq, 4, 50, 400, .multiple 2, [100, 140, 180, 220], .instant⟩,
  ⟨pBrzRxFreq, 4, 50, 400, .multiple 2, [100, 140, 180, 220], .instant⟩,
  ⟨pBrzRate, 4, 0, 2, .plain, [0], .instant⟩,
  ⟨pBrzDepth, 4, 5, 40, .plain, [10], .instant⟩,
  ⟨pBrzRamp, 4, 1, 8, .plain, [2], .instant⟩,
  ⟨pBrzTxMode, 4, 0, 1, .plain, [1], .instant⟩,
  ⟨pBrzRxEn, 4, 0, 1, .plain, [0], .instant⟩,
  ⟨pBrzRxMin, 4, 10, 400, .plain, [20], .instant⟩,
  ⟨pBrzSync, 4, 1, 4294967295, .plain, [0x2DD49A63], .instant⟩]

/-- The rows of one family (R13: bits [15:8] of an identifier). -/
def paramFamily : Nat → List ParamSpec
  | 0x01 => paramRows01
  | 0x02 => paramRows02
  | 0x03 => paramRows03a ++ paramRows03b ++ paramRows03c
  | 0x04 => paramRows04
  | 0x05 => paramRows05
  | 0x0F => paramRows0F
  | 0x06 => paramRows06
  | 0x07 => paramRows07
  | 0x08 => paramRows08
  | 0x09 => paramRows09
  | 0x0A => paramRows0A
  | 0x0B => paramRows0B
  | 0x0C => paramRows0C
  | _ => []

/-- The families that have parameters (R485: 0x0D and 0x0E have none). -/
def paramFamilies : List Nat := [0x01, 0x02, 0x03, 0x04, 0x05, 0x0F, 0x06, 0x07, 0x08, 0x09, 0x0A, 0x0B, 0x0C]

/-- The row an identifier lies in, `none` where the identifier is unknown (R485). -/
def paramSpec (id : Nat) : Option ParamSpec :=
  (paramFamily (id / 256)).find? fun p => decide (p.base ≤ id) && decide (id < p.base + p.count)

/-- The default of an identifier (R52). -/
def paramDefault (id : Nat) : Int :=
  match paramSpec id with
  | none => 0
  | some p => (p.dflt[id - p.base]?).getD (p.dflt.headD 0)

/-- The stored parameters: the values that differ from, or were set over, their defaults. -/
abbrev Params := Tbl Int

/-- The value of a stored parameter. -/
def Params.val (p : Params) (id : Nat) : Int := Tbl.get (paramDefault id) p id

/-- The value of a stored parameter that is never negative. -/
def Params.nat (p : Params) (id : Nat) : Nat := (p.val id).toNat

/-- A 0 or 1 parameter as a condition. -/
def Params.on (p : Params) (id : Nat) : Bool := decide (p.val id = 1)

/-- How many bits of a number are 1, over its low `n` bits. -/
def onesIn : Nat → Nat → Nat
  | 0, _ => 0
  | n + 1, v => v % 2 + onesIn n (v / 2)

/-- The fields of P_LANE_TX: PRE 0 to 32, POST 0 to 32, SWING 400 to 1,200 in steps of 10, other bits zero (R309). -/
def laneTxOk (v : Nat) : Bool :=
  let swing := bitsAt v 16 10
  decide (bitsAt v 0 6 ≤ 32) && decide (bitsAt v 8 6 ≤ 32) && decide (400 ≤ swing) && decide (swing ≤ 1200) && decide (swing % 10 = 0)
    && decide (v = bitsAt v 0 6 + 2 ^ 8 * bitsAt v 8 6 + 2 ^ 16 * bitsAt v 16 10)

/-- The fields of P_LANE_CFG: TX_INV, RX_INV, ADAPT 0 to 2, CTLE_FIX 0 to 40, TX_SQ_LB, other bits zero (R309). -/
def laneCfgOk (v : Nat) : Bool :=
  decide (bitsAt v 2 2 ≤ 2) && decide (bitsAt v 4 8 ≤ 40) && decide (v < 2 ^ 13)

/-- Is a value on the grid of its row? (R486) -/
def ParamGrid.ok (g : ParamGrid) (v : Int) : Bool :=
  match g with
  | .plain => true
  | .multiple n => decide (v % (n : Int) = 0)
  | .odd => decide (v % 2 = 1)
  | .zeroOrFrom lo => decide (v = 0) || decide (lo ≤ v)
  | .atMostOnes n => decide (onesIn 16 v.toNat ≤ n)
  | .laneTx => laneTxOk v.toNat
  | .laneCfg => laneCfgOk v.toNat

/-- Does a value lie in the writable range of its row? A measured parameter's writable range is empty (R486). -/
def ParamSpec.ok (p : ParamSpec) (v : Int) : Bool :=
  decide (p.cls ≠ .measured) && decide (p.lo ≤ v) && decide (v ≤ p.hi) && p.grid.ok v

/-- The relations between stored parameters of carrier `n` (R486, R144, R259, R429). -/
def carrierRelations (p : Params) (n : Nat) : Bool :=
  decide (p.val (pCdRangeLo + n) ≤ p.val (pCdRangeHi + n))
    && decide (p.val (pRsMinSlots + n) ≤ p.val (pRsMaxSlots + n))
    && decide (p.val (pRsDownMargin + n) + 50 ≤ p.val (pRsUpMargin + n))
    && decide (p.val (pFrontBandLo + n) < p.val (pFrontBandHi + n))

/-- The relations between the check-unit parameters of Stitch port `n` (R329). -/
def stitchRelations (p : Params) (n : Nat) : Bool :=
  let lim : Int := (2 ^ p.nat (pCvWidth + n) : Nat)
  decide (p.val (pCvPoly + n) < lim) && decide (p.val (pCvInit + n) < lim) && decide (p.val (pCvXorout + n) < lim)

/-- The four static-policy quotas total 32 or less (Table 5-10, R132). -/
def quotaRelation (p : Params) : Bool :=
  decide (p.val pLastQuota + p.val (pLastQuota + 1) + p.val (pLastQuota + 2) + p.val (pLastQuota + 3) ≤ 32)

/-- Is a parameter one that a relation of its home table names? Then: does the relation hold? (R486) -/
def relationsOk (p : Params) (id : Nat) : Bool :=
  let c := id % 4
  if id / 4 = pCdRangeLo / 4 ∨ id / 4 = pCdRangeHi / 4 ∨ id / 4 = pRsMinSlots / 4 ∨ id / 4 = pRsMaxSlots / 4
      ∨ id / 4 = pRsDownMargin / 4 ∨ id / 4 = pRsUpMargin / 4 ∨ id / 4 = pFrontBandLo / 4 ∨ id / 4 = pFrontBandHi / 4 then
    carrierRelations p c
  else if id / 4 = pLastQuota / 4 then quotaRelation p
  else if id / 4 = pCvWidth / 4 ∨ id / 4 = pCvPoly / 4 ∨ id / 4 = pCvInit / 4 ∨ id / 4 = pCvXorout / 4 then stitchRelations p c
  else if id / 4 = pTimAccept / 4 ∨ id / 4 = pTimReject / 4 then
    decide (p.val (pTimAccept + c) < p.val (pTimReject + c))
  else if id / 64 = pHkLimLo / 64 ∨ id / 64 = pHkLimHi / 64 then
    decide (p.val (pHkLimLo + id % 64) ≤ p.val (pHkLimHi + id % 64))
  else true

/-- May `id` stand at `v` beside the other values? Known, writable, in range, on the grid, and no relation broken (R486). -/
def paramAccepts (p : Params) (id : Nat) (v : Int) : Bool :=
  match paramSpec id with
  | none => false
  | some sp => sp.ok v && relationsOk (Tbl.set p id v) id

/-- The parameter instances held (R479 PARAMS, R485). -/
def paramCount : Nat := sumBy (fun f => sumBy (·.count) (paramFamily f)) paramFamilies

/-- Every stored value is one its own row admits, and the table is in rising order. -/
def Params.legal (p : Params) : Bool :=
  p.wf && p.all fun kv => match paramSpec kv.1 with
    | none => false
    | some sp => sp.ok kv.2

end Sys2Proof.Machine
end

