-- ==== Sys2Proof/Machine/SenseState.lean ====
section
/-! DEFINITION. Machine/SenseState.lean: the disturbance telemetry chains, Front, and the housekeeping converters (chapter 17). -/

namespace Sys2Proof.Machine

/-- A compensator set: the default for the decimation and P_SENSE_MINPHASE in force, or 32 host taps in units of 2⁻¹⁴ (R414, R415). -/
inductive CompSet where
  | dflt (minphase : Bool)
  | host (taps : List Int)
  deriving DecidableEq, Repr

/-- One stream's decimator: four integrators and four combs of 56 bits, and the outputs the filters behind it still need, newest first (R412). -/
structure Cic where
  ints : List Nat
  combs : List Nat
  hist : List Int
  deriving DecidableEq, Repr

def Cic.reset : Cic := ⟨[0, 0, 0, 0], [0, 0, 0, 0], []⟩

/-- A record as Front reads it (R418): its SEQ, VALID, STEP, P and S1 to S3. -/
structure FrontRecord where
  seq : Nat
  valid : Bool
  step : Bool
  p : Int
  s1 : Int
  s2 : Int
  s3 : Int
  deriving DecidableEq, Repr

/-- One measure of the Front analytics (R418). -/
structure FrontMeasure where
  /-- evaluated windows in a row above the threshold -/
  above : Nat
  peak : Nat
  /-- SEQ of the first record of the first of them -/
  first : Nat
  /-- FRONT_Cn raised and not yet cleared -/
  active : Bool
  /-- the last evaluated window lay below half the threshold -/
  below : Bool
  last : Nat
  deriving DecidableEq, Repr

def FrontMeasure.reset : FrontMeasure := ⟨0, 0, 0, false, false, 0⟩

/-- One carrier's telemetry chain. -/
structure Sense where
  running : Bool
  k : Nat
  deskew : Bool
  minphase : Bool
  seq : Nat
  discont : Bool
  /-- every frame since stream 4n was last decimated was valid: they belong to the next record as well (R411, R413) -/
  restValid : Bool
  /-- when the receive path last passed a switch point Σ, in ns (R240, R417) -/
  sigma : Option Nat
  cic : Tbl Cic
  set : CompSet
  fading : Option CompSet
  /-- output samples of the cross-fade so far -/
  faded : Nat
  waiting : Option CompSet
  /-- compensator sets never applied (R414) -/
  superseded : Nat
  ph : FrontMeasure
  sop : FrontMeasure
  /-- the records of Front's present window, newest first (R418) -/
  window : List FrontRecord
  deriving DecidableEq, Repr

def Sense.reset : Sense where
  running := false
  k := 6
  deskew := true
  minphase := false
  seq := 0
  discont := false
  restValid := true
  sigma := none
  cic := []
  set := .dflt false
  fading := none
  faded := 0
  waiting := none
  superseded := 0
  ph := .reset
  sop := .reset
  window := []

/-- An entry of a scan list (R422). -/
structure HkEntry where
  input : Nat
  diff : Bool
  avg : Nat
  deriving DecidableEq, Repr

/-- The last result of a scanned input in one mode. -/
structure HkResult where
  code : Int
  at_ : Nat
  /-- outside its limits: HK_LIMIT raised and not yet cleared (R427) -/
  limit : Bool
  deriving DecidableEq, Repr

/-- System-calibration coefficients (R425): OFFSET in µV, GAIN in units of 2⁻²⁴. -/
structure HkCoef where
  offset : Int
  gain : Nat
  deriving DecidableEq, Repr

/-- An open calibration: its mask, what ZERO found, and SPAN_UV with what SPAN found (R425). -/
structure HkOpen where
  mask : Nat
  zero : Tbl Int
  spanUv : Int
  span : Option (Tbl Int)
  deriving DecidableEq, Repr

/-- One housekeeping converter. -/
structure HkConv where
  enable : Bool
  warm : Bool
  list : List HkEntry
  /-- results by input + 32 × differential -/
  res : Tbl HkResult
  /-- coefficients by input + 32 × differential -/
  coef : Tbl HkCoef
  cal : Option HkOpen
  suspect : Bool
  deriving DecidableEq, Repr

def HkConv.reset : HkConv := ⟨false, false, [], [], [], none, false⟩

/-- A shared input's comparison (R426): which results are new, and how the last comparisons went. -/
structure HkCompare where
  newA : Bool
  newB : Bool
  differ : Nat
  agree : Nat
  implausible : Bool
  deriving DecidableEq, Repr

def HkCompare.reset : HkCompare := ⟨false, false, 0, 0, false⟩

/-- Both converters (0 HKA, 1 HKB), and the comparisons of inputs 28 to 31. -/
structure Hk where
  conv : Tbl HkConv
  cmp : Tbl HkCompare
  deriving DecidableEq, Repr

def Hk.reset : Hk := ⟨[], []⟩

end Sys2Proof.Machine
end

