-- ==== Sys2Proof/Machine/SystemState.lean ====
section
/-! DEFINITION. Machine/SystemState.lean: supply, power states, domains, thermal governor, resets, boot, fuses and firmware (chapters 3 and 19), Seam links (chapter 1). -/

namespace Sys2Proof.Machine

/-- The power states of Table 3-3 (R71); `off` while the supply or a hardware shutdown has removed the rails (R68, R89). -/
inductive PState where
  | off | doldrums | calm | service
  deriving DecidableEq, Repr

/-- The state of a switchable domain (R78). -/
inductive DomState where
  | off | idle | on
  deriving DecidableEq, Repr

/-- The 2-bit code of a domain's state (R481). -/
def DomState.code : DomState → Nat
  | .off => 0
  | .idle => 1
  | .on => 2

/-- Supply, power state, domains, clocks and thermal governor (chapter 3). -/
structure Power where
  state : PState
  /-- SYSRST# holds the device in reset (R84) -/
  inReset : Bool
  /-- VIN in mV as last measured (R92) -/
  vin : Nat
  /-- VIN is below the PWRWARN# thresholds (R67) -/
  vinLow : Bool
  /-- the input current limit is active (R69) -/
  ilimit : Bool
  /-- states of the domains that are not OFF, by domain ID (R78) -/
  dom : Tbl DomState
  /-- re-striping onto a second stack runs (R261) -/
  restriping : Bool
  /-- targets recorded by CMD_DOMAIN_SET (R79) -/
  recorded : Tbl DomState
  /-- until when a transition that the device started by itself lasts, in ns (R73) -/
  transEnd : Nat
  /-- the domains that it changes (R481) -/
  changing : List Nat
  /-- a Doldrums entry is queued (R73) -/
  queued : Bool
  /-- a rail is drooping, or its droop ended less than 10 µs ago (R88) -/
  squall : Bool
  squallAt : Option Nat
  /-- junction temperatures of the dies core, CV0, CV1, I/O in units of 0.1 °C (R89) -/
  tjCore : Int
  tjCv0 : Int
  tjCv1 : Int
  tjIo : Int
  throttle : Bool
  /-- throttling has held for 1 s (R89) -/
  throttleHeld : Bool
  /-- a thermal trip took the device to Calm (R89) -/
  tripped : Bool
  boost : Bool
  /-- the 60 s window holds 20 s of boost (R90) -/
  boostSpent : Bool
  /-- closed runs of boost clock, start and end in ns, oldest first -/
  boostRuns : List (Nat × Nat)
  boostSince : Option Nat
  /-- P_WAKE_SOURCES as copied at step 1 of Doldrums entry (R76) -/
  wakeSources : Nat
  /-- when steps 2 and 3 of the Doldrums entry end and the wake comparator is armed (R74), in ns -/
  armedAt : Nat
  /-- WAKE# was seen low during those steps (R75) -/
  wakeNoted : Bool
  /-- rails removed by overvoltage, by the hardware thermal shutdown (R68, R89) -/
  ovShut : Bool
  hotShut : Bool
  /-- CMD_SYS_RESET has completed and the reset follows 1 ms later (R84) -/
  resetDue : Bool
  /-- the strap address ADDR[2:0] (R77) -/
  addrStrap : BitVec 3
  deriving DecidableEq, Repr

/-- Power right after a power-on reset: the Calm rails are up and every domain is OFF. VIN, temperatures, straps are
readings of the board, not registers; their start values are DESIGN CHOICES (log entry 3). -/
def Power.reset : Power where
  state := .calm
  inReset := false
  vin := 48000
  vinLow := false
  ilimit := false
  dom := []
  restriping := false
  recorded := []
  transEnd := 0
  changing := []
  queued := false
  squall := false
  squallAt := none
  tjCore := 250
  tjCv0 := 250
  tjCv1 := 250
  tjIo := 250
  throttle := false
  throttleHeld := false
  tripped := false
  boost := false
  boostSpent := false
  boostRuns := []
  boostSince := none
  wakeSources := 0
  armedAt := 0
  wakeNoted := false
  ovShut := false
  hotShut := false
  resetDue := false
  addrStrap := 0

/-- A Frelvo image (R448): what its header and digest say. -/
structure FwImage where
  svn : Nat
  version : Nat
  len : Nat
  digest : List Byte
  deriving DecidableEq, Repr

/-- One copy of the slot pointer (R447). -/
structure SlotPtr where
  seq : Nat
  slotB : Bool
  valid : Bool
  deriving DecidableEq, Repr

/-- Boot flash and fuses: what survives every reset (R445, R447). -/
structure NonVolatile where
  slotA : Option FwImage
  slotB : Option FwImage
  ptr0 : SlotPtr
  ptr1 : SlotPtr
  /-- firmware counter F -/
  fuseF : Nat
  /-- engine minimum SVN of signers 0 to 4 -/
  engMin : Tbl Nat
  /-- key digests of positions 1 to 4 (absent: empty) -/
  keyDigest : Tbl (List Byte)
  revoked : List Nat
  ownerLock : Bool
  deriving DecidableEq, Repr

/-- A part as shipped. DESIGN CHOICE (log entry 4): slot A holds an image of series 4.1, patch 1, SVN 0; slot B is empty; no fuse is blown. -/
def NonVolatile.shipped : NonVolatile where
  slotA := some ⟨0, 0x04010001, 4096, []⟩
  slotB := none
  ptr0 := ⟨0, false, true⟩
  ptr1 := ⟨0, false, false⟩
  fuseF := 0
  engMin := []
  keyDigest := []
  revoked := []
  ownerLock := false

/-- Boot, cause registers and firmware (R40, R446 to R455). -/
structure Boot where
  phase : Nat
  failed : Bool
  failCode : Nat
  resetCause : BitVec 8
  wakeCause : BitVec 15
  /-- the running image; `none` until Frelvo has started -/
  running : Option FwImage
  bootB : Bool
  fallback : Bool
  fallbackCode : Nat
  /-- the staged copy in the system region, and the slot it was written to (R449) -/
  staged : Option FwImage
  activations : Nat
  /-- the image that an activation in progress starts, which lives on where its staged copy is lost (R450, R456) -/
  activating : Option FwImage
  /-- restart cause for FRELVO_RESTART: 0 watchdog, 1 memory (R86, R260) -/
  restartCause : Nat
  /-- time of the last watchdog expiry (R86) -/
  expiryAt : Option Nat
  /-- diagnostic dumps (R479, R480) -/
  dumpCount : Nat
  /-- the staged copy holds an uncorrectable word (Table 11-4) -/
  stagedBad : Bool
  dumpHeld : Bool
  dumpLen : Nat
  dumpOpcode : Nat
  /-- the last attestation report (R453) -/
  attest : Option (List Byte)
  deriving DecidableEq, Repr

/-- Boot block after a reset, less its cause bits. -/
def Boot.reset : Boot where
  phase := 0
  failed := false
  failCode := 0
  resetCause := 1
  wakeCause := 0
  running := none
  bootB := false
  fallback := false
  fallbackCode := 0
  staged := none
  activations := 0
  activating := none
  restartCause := 0
  expiryAt := none
  dumpCount := 0
  stagedBad := false
  dumpHeld := false
  dumpLen := 0
  dumpOpcode := 0
  attest := none

/-- One Seam link (R21, R22): retransmissions in the present 1 ms window, windows in a row above 10,000. -/
structure Seam where
  window : Nat
  badWindows : Nat
  /-- retransmissions of the last millisecond: when, and how many -/
  recent : List (Nat × Nat)
  /-- has failed persistently and awaits CMD_CARRIER_RECOVER -/
  failed : Bool
  deriving DecidableEq, Repr

def Seam.reset : Seam := ⟨0, 0, [], false⟩

end Sys2Proof.Machine
end

