-- ==== Sys2Proof/Machine/TimState.lean ====
section
/-! DEFINITION. Machine/TimState.lean: the timing DPLL, its references, its outputs and the pulse inputs (chapter 16). -/

namespace Sys2Proof.Machine

/-- One reference input: the host's settings (R402), and what its monitors hold (R388 to R393). -/
structure TimRef where
  enable : Bool
  prio : Nat
  ql : Nat
  freq : Nat
  /-- loss of activity is declared -/
  lost : Bool
  /-- since when the reference has been active and watched, in ns -/
  since : Nat
  /-- the last measured offset in units of 0.01 ppm -/
  offset : Int
  qualified : Bool
  /-- since when the offset has stayed within the accept limit -/
  okSince : Option Nat
  /-- was disqualified, and owes a wait-to-restore when it qualifies again (R393) -/
  wasDisq : Bool
  wtrEnd : Option Nat
  suspect : Bool
  /-- consecutive measurements that named it, and that did not (R391) -/
  named : Nat
  unnamed : Nat
  deriving DecidableEq, Repr

def TimRef.reset : TimRef where
  enable := false
  prio := 0
  ql := 0
  freq := 0
  lost := false
  since := 0
  offset := 0
  qualified := false
  okSince := none
  wasDisq := false
  wtrEnd := none
  suspect := false
  named := 0
  unnamed := 0

/-- The DPLL states of Table 16-2 (R396). -/
inductive DpllState where
  | freerun | acquiring | locked | holdover | switching
  deriving DecidableEq, Repr

/-- DPLL_STATE (R407). -/
def DpllState.code : DpllState → Nat
  | .freerun => 0
  | .acquiring => 1
  | .locked => 2
  | .holdover => 3
  | .switching => 4

/-- Selection modes (R404). -/
inductive TimMode where
  | auto | forced | holdover | freerun
  deriving DecidableEq, Repr

def TimMode.code : TimMode → Nat
  | .auto => 0
  | .forced => 1
  | .holdover => 2
  | .freerun => 3

def TimMode.of : Nat → TimMode
  | 0 => .auto
  | 1 => .forced
  | 2 => .holdover
  | _ => .freerun

/-- One output (R399, R400, R405). -/
structure TimOut where
  enable : Bool
  source : Nat
  /-- CLKOUT: frequency in Hz; PPSOUT: width in ns -/
  freqWidth : Nat
  /-- PPSOUT OFFSET in ps -/
  offsetPs : Int
  /-- sum of the phase steps applied, in ps (R401) -/
  phasePs : Int
  /-- waits for its first jump onto a valid input (R400, item 3) -/
  aligning : Bool
  /-- consecutive seconds with the error beyond P_TIM_PPS_JUMP -/
  above : Nat
  /-- last e in ps -/
  err : Int
  /-- CLKOUT: it is held low after a change of frequency until this time (R405); it was enabled in FREERUN and runs at the XOIN nominal (R399) -/
  lowUntil : Nat
  atNominal : Bool
  /-- PPSOUT: its next rising edge and its last one, in ps of the time base (R400) -/
  next : Int
  last : Option Int
  deriving DecidableEq, Repr

def TimOut.reset : TimOut := ⟨false, 0, 0, 0, 0, false, 0, 0, 0, false, 0, none⟩

/-- A phase step that is being slewed (R401): the outputs of its mask, the whole step and what has been moved in ps, the rate in ns/s, its start. -/
structure StepRun where
  mask : Nat
  step : Int
  moved : Int
  rate : Nat
  since : Nat
  deriving DecidableEq, Repr

/-- A pulse input: consecutive edges 1 s apart, validity, declared loss (R400). -/
structure PpsIn where
  edges : Nat
  valid : Bool
  lost : Bool
  deriving DecidableEq, Repr

def PpsIn.reset : PpsIn := ⟨0, false, false⟩

/-- The timing block. -/
structure Tim where
  refs : Tbl TimRef
  st : DpllState
  mode : TimMode
  forced : Nat
  /-- the reference selected -/
  sel : Option Nat
  lastSel : Nat
  lockedSince : Nat
  /-- holdover history exists (R397), and the holdover value, in 0.001 ppb against XOIN -/
  history : Bool
  ho : Int
  /-- the core frequency against XOIN in 0.001 ppb, as it was at `coreAt` (Table 16-2, R407) -/
  core : Int
  coreAt : Nat
  /-- a phase step in progress (R401, R406) -/
  step : Option StepRun
  /-- start of the holdover (R398) -/
  hoSince : Nat
  /-- the phase of the reference followed minus the outputs' at the start of the last switch, in ps, when that was, and whether it is held as
  an offset (R395) -/
  phaseDiff : Int
  phaseAt : Nat
  phaseHeld : Bool
  /-- time of the last TIM_VOTE_SPLIT (R391) -/
  splitAt : Option Nat
  outs : Tbl TimOut
  pps : Tbl PpsIn
  deriving DecidableEq, Repr

def Tim.reset : Tim where
  refs := []
  st := .freerun
  mode := .auto
  forced := 0
  sel := none
  lastSel := 0
  lockedSince := 0
  history := false
  ho := 0
  core := 0
  coreAt := 0
  step := none
  hoSince := 0
  phaseDiff := 0
  phaseAt := 0
  phaseHeld := false
  splitAt := none
  outs := []
  pps := []

end Sys2Proof.Machine
end

