-- ==== Sys2Proof/Machine/State.lean ====
section
/-! DEFINITION. Machine/State.lean: the state of the block, its reset value, and the reasons a step can stop. -/

namespace Sys2Proof.Machine

/-- A counter: 48 bits and its sticky overflow bit (R457). -/
structure Counter where
  v : Nat
  ovf : Bool
  deriving DecidableEq, Repr

/-- How DRAM is lost: one stack, another staying ON; all that BAR2 shows; or with the passage to Calm, over which the Breeze receive rings keep their contents
(R80, R443, log entry 188). -/
inductive Wipe where
  | stack | region | calm
  deriving DecidableEq, Repr

/-- Does the byte at a BAR2 offset stay: golden copies, staged images and the dump with the other stack, the Breeze rings over Calm. -/
def Wipe.keeps (w : Wipe) (a : Nat) : Bool :=
  match w with
  | .stack => decide (0x3F600000 ≤ a ∧ a < 0x3F800000)
  | .region => false
  | .calm => decide (0x3F400000 ≤ a ∧ a < 0x3F404000)

/-- What a command or an event asks the interface block to do, in order: enter an event, raise an interrupt source, complete a
running command, change MBX_STATE, write the DRAM system region, store parameters. -/
inductive Emit where
  | event (ev : Evt) (inst : Nat) (sev : Nat) (fields : List (Nat × Int))
  | int (src : Nat)
  | finish (op : Nat) (key : Nat) (st : Status) (detail : Nat) (result : List Byte)
  | mbx (st : MbxState)
  | dram (addr : Nat) (bytes : List Byte)
  | params (l : List (Nat × Int))
  | pulse (cond inst : Nat)
  /-- set a programmable counter: number, mode, condition, instance (R460) -/
  | select (pc mode cond inst : Nat)
  /-- clear the programmable counters (R462) -/
  | clearPcs
  /-- what BAR2 shows is lost with DRAM, but for what stays (R80, R443, R469) -/
  | wipe (w : Wipe)
  deriving DecidableEq, Repr

/-- One carrier. -/
structure Carrier where
  tx : Tx
  rx : Rx
  /-- held down after a persistent Seam failure (R22, R483), and the link that failed last -/
  heldDown : Bool
  link : Nat
  cal : Cal
  fec : Fec
  frm : Frm
  rate : Rate
  deriving DecidableEq, Repr

def Carrier.reset : Carrier where
  tx := .reset
  rx := .reset
  heldDown := false
  link := 0
  cal := .reset
  fec := .reset
  frm := .reset
  rate := .reset

/-- Everything behind the mailbox: supply, datapath, engines, memories' bookkeeping, clocks. -/
structure Dev where
  /-- requests to the interface block, cleared by every step -/
  out : List Emit
  /-- the model's own counter of free values drawn (not the spec's) -/
  drawn : Nat
  pw : Power
  nv : NonVolatile
  boot : Boot
  seam : Tbl Seam
  cnt : Tbl Counter
  car : Tbl Carrier
  pool : Tbl LastState
  runs : List SysRun
  /-- channels, by number (R12) -/
  chan : Tbl Chan
  /-- bundles defined, by number (R222) -/
  bundle : Tbl Bundle
  /-- protection groups defined, by number (R246) -/
  group : Tbl Group
  msys : MemSys
  /-- client lanes, Ethernet and Stitch ports -/
  cli : Client
  /-- keys and crypto jobs -/
  key : Keys
  /-- hosted engine programs -/
  eng : Eng
  /-- timing (chapter 16) -/
  tim : Tim
  /-- telemetry chains by carrier (chapter 17) -/
  sen : Tbl Sense
  /-- housekeeping converters -/
  hk : Hk
  /-- Breeze by carrier (chapter 18) -/
  breeze : Tbl Breeze
  deriving DecidableEq, Repr

/-- The device after a power-on reset of a shipped part. -/
def Dev.reset : Dev where
  out := []
  drawn := 0
  pw := .reset
  nv := .shipped
  boot := .reset
  seam := []
  cnt := []
  car := []
  pool := []
  runs := []
  chan := []
  bundle := []
  group := []
  msys := .reset
  cli := .reset
  key := .reset
  eng := .reset
  tim := .reset
  sen := []
  hk := .reset
  breeze := []

/-- The state of the block. -/
structure State where
  /-- commands and events that wait, first in, first out -/
  pending : List Instr
  /-- the always-on time base, in ns (R54, R83) -/
  now : Nat
  io : Io
  par : Params
  /-- the DRAM system region as the 1 GiB BAR2 window shows it (R39) -/
  mem : Mem
  dev : Dev
  deriving DecidableEq, Repr

/-- The block right after a power-on reset (R83): the boot ROM has not run yet. -/
def State.reset : State where
  pending := []
  now := 0
  io := .reset
  par := []
  mem := []
  dev := .reset

/-- Reasons a step can stop with a fault. -/
inductive Fault where
  /-- Raised by no command of this model: the device has no stop that the spec calls undefined. Safe. -/
  | notRaised
  deriving DecidableEq, Repr

/-- Reasons a command can be refused. -/
inductive Refusal where
  /-- Raised by a dispatch arm of a command that has no meaning yet. Safe: nothing can be proved of a run through it. -/
  | notModelled (mnemonic : String)
  deriving DecidableEq, Repr

end Sys2Proof.Machine
end

