-- ==== Sys2Proof/Machine/IoOps.lean ====
section
/-! DEFINITION. Machine/IoOps.lean: the named operations over the interface block: interrupt sources, event FIFO, completions, MBX_STATE. -/

namespace Sys2Proof.Machine

/-- Interrupt source numbers (Table 2-9). -/
abbrev intCpl : Nat := 0
abbrev intEvtMark : Nat := 1
abbrev intMbxReady : Nat := 2
abbrev intMbxErr : Nat := 3
abbrev intAccessFault : Nat := 4
abbrev intFatal : Nat := 5
abbrev intSnapshot : Nat := 6
abbrev intFspC0 : Nat := 7
abbrev intFspDev : Nat := 11

/-- Bit `n` of a 16-bit register as a mask. -/
def bit16 (n : Nat) : BitVec 16 := BitVec.ofNat 16 (2 ^ n)

/-- A source is raised: its INT_STATUS bit goes to 1, and a change from 0 while it is enabled makes a message due (R59). -/
def Io.raiseInt (io : Io) (src : Nat) : Io :=
  if io.intStatus &&& bit16 src = 0 then
    { io with intStatus := io.intStatus ||| bit16 src,
              msgDue := if io.intEnable &&& bit16 src = 0 then io.msgDue else io.msgDue ++ [src] }
  else io

/-- MGP_ALERT# is asserted while any bit of INT_STATUS AND INT_ENABLE is 1 (R60). -/
def Io.mgpAlert (io : Io) : Bool := io.intStatus &&& io.intEnable ≠ 0

/-- The watermark condition EVT_LEVEL ≥ EVT_MARK with EVT_MARK non-zero; start-up mode sets no MARK_HIT (R56, R58). -/
def Io.markCond (io : Io) : Bool :=
  io.runMode && decide (io.evtMark ≠ 0) && decide (io.evtMark.toNat ≤ io.evts.length)

/-- MARK_HIT latches and raises EVT_MARK, unless it is latched already (R58). -/
def Io.latchMark (io : Io) : Io :=
  if io.markHit then io else { io with markHit := true }.raiseInt intEvtMark

/-- After a change of level, mark or mode: a change of the condition from false to true latches MARK_HIT (R58). -/
def Io.reMark (old new : Io) : Io :=
  if old.markCond = false ∧ new.markCond = true then new.latchMark else new

/-- Saturating addition to EVT_DROPPED (R55). -/
def Io.countDrop (io : Io) : Io :=
  { io with evtDropped := BitVec.ofNat 32 (satAdd 32 io.evtDropped.toNat 1) }

/-- The FIFO holds at most 1,024 entries (R55). -/
def evtCapacity : Nat := 1024

/-- Enter an event that has passed the filters: in start-up mode a full FIFO overwrites its oldest entry (R56); in run mode a
full FIFO discards the event (R57). Either way SEQ advances (R54). -/
def Io.enter (io : Io) (ev : HeldEvent) : Io :=
  let e : Event := ⟨ev.code, ev.inst, ev.sev, io.evtSeq, ev.time, ev.payload⟩
  let io1 := { io with evtSeq := io.evtSeq + 1 }
  if io.evts.length < evtCapacity then Io.reMark io { io1 with evts := io.evts ++ [e] }
  else if io.runMode then { io1.countDrop with overflow := true, droppedSince := io.droppedSince + 1 }
  else { io1.countDrop with evts := io.evts.drop 1 ++ [e] }

/-- EVT_OVERFLOW is entered once an entry is free again, ahead of any later event; its payload holds the number of events dropped
since the previous one. It is never filtered (R57), and in MBX_STATE FAULT no event is entered (R509). -/
def Io.overflowEntry (io : Io) (now : Nat) : Io :=
  if io.runMode && decide (0 < io.droppedSince) && decide (io.evts.length < evtCapacity) && decide (io.mbxState ≠ .fault) then
    { io with droppedSince := 0 }.enter
      ⟨Evt.evtOverflow.code, 0, Evt.evtOverflow.severity, now, padTo 12 (packFields [(4, io.droppedSince)])⟩
  else io

/-- Does an event pass P_EVT_SEV_MIN and P_EVT_FAMILY_MASK? (Table 2-6) -/
def evtPasses (par : Params) (code sev : Nat) : Bool :=
  decide (par.nat pEvtSevMin ≤ sev) && bitAt (par.nat pEvtFamilyMask) (code / 256)

/-- A condition that raises an event: filtered, entered at once, or recorded while MBX_STATE is ACTIVATING, or lost while it is
FAULT (R54, R509). -/
def Io.event (io : Io) (par : Params) (now : Nat) (ev : Evt) (inst sev : Nat) (fields : List (Nat × Int)) : Io :=
  let h : HeldEvent := ⟨ev.code, inst, sev, now, padTo 12 (packFields fields)⟩
  if evtPasses par ev.code sev = false then io
  else match io.mbxState with
    | .fault => io
    | .activating =>
      if io.held.length < evtCapacity then { io with held := io.held ++ [h] }
      else { io.countDrop with heldDropped := io.heldDropped + 1 }
    | _ => io.enter h

/-- The recorded events enter in order of occurrence when MBX_STATE becomes READY; those that found no room count as dropped
and take their SEQ numbers (R509, R57). -/
def Io.enterHeld (io : Io) (now : Nat) : Io :=
  let io1 := io.held.foldl Io.enter { io with held := [] }
  let io2 := if io1.heldDropped = 0 then io1 else
    { io1 with evtSeq := io1.evtSeq + BitVec.ofNat 32 io1.heldDropped, heldDropped := 0,
               overflow := io1.overflow || io1.runMode,
               droppedSince := if io1.runMode then io1.droppedSince + io1.heldDropped else io1.droppedSince }
  io2.overflowEntry now

/-- MBX_STATE changes. A change to READY enters the recorded events and raises MBX_READY; a change to FAULT raises FATAL (R51, R59, R509). -/
def Io.setMbx (io : Io) (now : Nat) (st : MbxState) : Io :=
  if io.mbxState = st then io
  else match st with
    | .ready => ({ io with mbxState := .ready }.enterHeld now).raiseInt intMbxReady
    | .fault => { io with mbxState := .fault, held := [], heldDropped := 0 }.raiseInt intFatal
    | st => { io with mbxState := st }

/-- Completions written and not yet consumed by the host (R41, R46). -/
def Io.unread (io : Io) : Nat := (io.cplTail - io.cplHead).toNat

/-- Commands consumed and not yet completed, added to the completions not yet consumed (R46). -/
def Io.outstanding (io : Io) : Nat := io.inflight.length + io.unread

/-- PHASE of the next completion: 1 on the first pass through the ring, then alternating (R43). -/
def Io.phase (io : Io) : Nat := if bitAt io.cplTail.toNat 6 then 0 else 1

/-- The 64 bytes of a completion entry (Table 2-4a, R43). -/
def cplBytes (tag : BitVec 16) (op : Nat) (st : Status) (phase detail exec : Nat) (result : List Byte) : List Byte :=
  leBytes 2 tag.toNat ++ leBytes 2 op ++ leBytes 1 st.code ++ leBytes 1 phase ++ leBytes 2 detail
    ++ leBytes 4 (min 0xFFFFFFFF exec) ++ padTo 52 result

/-- The BAR0 offset of completion slot `n` (R41). -/
def cplSlot (n : Nat) : Nat := 0x5000 + 64 * n

/-- The BAR0 offset of command slot `n` (R41). -/
def cmdSlot (n : Nat) : Nat := 0x1000 + 256 * n

/-- Write a completion and advance CPL_TAIL; raise CPL when the command asks for it or P_CPL_IRQ_ALL is 1 (R43, R59). -/
def Io.complete (io : Io) (par : Params) (now : Nat) (op : Nat) (e : CmdEntry) (at_ : Nat) (st : Status) (detail : Nat)
    (result : List Byte) : Io :=
  let slot := bitsAt io.cplTail.toNat 0 6
  let io1 := { io with
    cplRing := io.cplRing.writeAll (cplSlot slot) (cplBytes e.tag op st io.phase detail ((now - at_) / 1000) result),
    cplTail := io.cplTail + 1,
    cmds8 := io.cmds8 + b2n (decide (op / 256 = 8)) }
  if bitAt e.flags.toNat 1 || par.on pCplIrqAll then io1.raiseInt intCpl else io1

/-- The running command that an ending belongs to: the first started one with the opcode, on the object its first payload byte names. -/
def isRunning (op key : Nat) (r : Inflight) : Bool :=
  r.started && !r.cut && decide (r.op = op) && decide (fieldAt (padTo r.e.plen.toNat r.e.payload) 0 1 = key)

/-- A running command completes (R43, R49). -/
def Io.finish (io : Io) (par : Params) (now : Nat) (op key : Nat) (st : Status) (detail : Nat) (result : List Byte) : Io :=
  match io.inflight.find? (isRunning op key) with
  | none => io
  | some r =>
    { io with inflight := io.inflight.eraseP (isRunning op key) }.complete par now op r.e r.at_ st detail result

/-- An access fault: ACCESS_FAULT is raised, and the first one since it was last cleared leaves its offset (R62). -/
def Io.accessFault (io : Io) (off : Nat) (wr : Bool) : Io :=
  let io1 := if io.intStatus &&& bit16 intAccessFault = 0 then
      { io with accessFaultAddr := BitVec.ofNat 32 (off % 2 ^ 20 + 2 ^ 31 * b2n wr) } else io
  io1.raiseInt intAccessFault

/-- An MBX_ERR bit is set and the MBX_ERR source raised (R45). -/
def Io.mbxError (io : Io) (bit : Nat) : Io :=
  { io with mbxErr := io.mbxErr ||| BitVec.ofNat 3 (2 ^ bit) }.raiseInt intMbxErr

/-- Add to a programmable counter; it wraps at 2⁴⁸ and sets OVF (R457, R459). -/
def ProgCounter.add (p : ProgCounter) (n : Nat) : ProgCounter :=
  { p with v := (p.v + n) % 2 ^ 48, ovf := p.ovf || decide (2 ^ 48 ≤ p.v + n) }

/-- A pulse source occurred: every counter set to it in modes 1 to 3 counts one (R459). -/
def Io.pulse (io : Io) (cond inst : Nat) : Io :=
  { io with pcs := io.pcs.map fun kv =>
      if kv.2.cond = cond ∧ kv.2.inst = inst ∧ kv.2.mode ≠ 0 then (kv.1, kv.2.add 1) else kv }

end Sys2Proof.Machine
end

