-- ==== Sys2Proof/Machine/Ops.lean ====
section
/-! DEFINITION. Machine/Ops.lean: the named operations over the device: emitting, counters, domains, and running a mailbox command. -/

namespace Sys2Proof.Machine

/-- What the device reads beside its own state: the time, the parameters, DRAM, MBX_STATE and the mailbox registers some results carry. -/
structure Env where
  now : Nat
  par : Params
  mem : Mem
  mbx : MbxState
  mbxPort : Nat
  pcs : Tbl ProgCounter
  cmds8 : Nat
  /-- the commands that run: opcode, first payload byte, bit [8] of the payload -/
  running : List (Nat × Nat × Bool)
  deriving DecidableEq, Repr

/-- The commands that have started and not ended, as `Env` shows them. -/
def Io.running (io : Io) : List (Nat × Nat × Bool) :=
  (io.inflight.filter fun r => r.started && !r.cut).map fun r =>
    let p := padTo r.e.plen.toNat r.e.payload
    (r.op, fieldAt p 0 1, bitAt (fieldAt p 1 1) 0)

/-- The running command `op` on object `key`, by its bit [8]: the one it was given to enable (true) or to disable. -/
def Env.runs (env : Env) (op key : Nat) : Option Bool := (env.running.find? fun r => decide (r.1 = op ∧ r.2.1 = key)).map (·.2.2)

def State.env (s : State) : Env := ⟨s.now, s.par, s.mem, s.io.mbxState, s.io.mbxPort.toNat, s.io.pcs, s.io.cmds8, s.io.running⟩

/-- Nanoseconds in a microsecond, a millisecond and a second. -/
abbrev us : Nat := 1000
abbrev ms : Nat := 1000000
abbrev sec : Nat := 1000000000

/-! ### Requests to the interface block -/

def Dev.emit (d : Dev) (x : Emit) : Dev := { d with out := d.out ++ [x] }

/-- Raise an event with the one severity of its CODE (R487). -/
def Dev.raise (d : Dev) (ev : Evt) (inst : Nat) (fields : List (Nat × Int)) : Dev :=
  d.emit (.event ev inst ev.severity fields)

/-- Complete the running command `op` on object `key`. -/
def Dev.finish (d : Dev) (op key : Nat) (st : Status) (detail : Nat) (result : List Byte) : Dev :=
  d.emit (.finish op key st detail result)

/-- Raise only where a condition holds. -/
def Dev.raiseIf (d : Dev) (c : Bool) (ev : Evt) (inst : Nat) (fields : List (Nat × Int)) : Dev :=
  if c then d.raise ev inst fields else d

/-- A value the spec leaves open is drawn, and the draw counted (log entry 1). -/
def Dev.draw (d : Dev) : Nat × Dev := (Config.freeValue d.drawn, { d with drawn := d.drawn + 1 })

/-- A free value as `n` bytes. -/
def Dev.drawBytes (d : Dev) (n : Nat) : List Byte × Dev := (leBytes n (Config.freeValue d.drawn), { d with drawn := d.drawn + 1 })

/-! ### Counters -/

/-- The key of a counter: 2,048 × family + index (R458). -/
def ckey (family index : Nat) : Nat := 2048 * family + index

def Counter.zero : Counter := ⟨0, false⟩

/-- Count `n` on a counter: 48 bits, wrapping, with a sticky overflow (R457). -/
def Counter.add (c : Counter) (n : Nat) : Counter :=
  { v := (c.v + n) % 2 ^ 48, ovf := c.ovf || decide (2 ^ 48 ≤ c.v + n) }

def Dev.count (d : Dev) (key n : Nat) : Dev := { d with cnt := d.cnt.upd .zero key (·.add n) }

def Dev.counter (d : Dev) (key : Nat) : Nat := (d.cnt.get .zero key).v

/-- A counter restarts from zero (R457). -/
def Dev.restartCounter (d : Dev) (key : Nat) : Dev := { d with cnt := d.cnt.set key .zero }

/-! ### Domains (R78, Table 3-6) -/

abbrev domCarrier (n : Nat) : Nat := n
abbrev domQuad (n : Nat) : Nat := 0x10 + n
abbrev domCluster (n : Nat) : Nat := 0x20 + n
abbrev domStack (n : Nat) : Nat := 0x30 + n
abbrev domCrypto : Nat := 0x40
abbrev domDpll : Nat := 0x41

/-- The 40 domain IDs in ascending order (R78). -/
def domIds : List Nat :=
  [0x00, 0x01, 0x02, 0x03,
   0x10, 0x11, 0x12, 0x13, 0x14, 0x15, 0x16, 0x17, 0x18, 0x19, 0x1A, 0x1B, 0x1C, 0x1D, 0x1E, 0x1F,
   0x20, 0x21, 0x22, 0x23, 0x24, 0x25, 0x26, 0x27, 0x28, 0x29, 0x2A, 0x2B, 0x2C, 0x2D, 0x2E, 0x2F,
   0x30, 0x31, 0x40, 0x41]

def Dev.domState (d : Dev) (id : Nat) : DomState := d.pw.dom.get .off id
def Dev.domOn (d : Dev) (id : Nat) : Bool := decide (d.domState id = .on)
def Dev.inService (d : Dev) : Bool := decide (d.pw.state = .service)

/-- Clusters that are ON. -/
def Dev.onClusters (d : Dev) : List Nat := (List.range 16).filter fun k => d.domOn (domCluster k)

/-- Is any DRAM stack ON? -/
def Dev.anyStack (d : Dev) : Bool := d.domOn (domStack 0) || d.domOn (domStack 1)
def Dev.bothStacks (d : Dev) : Bool := d.domOn (domStack 0) && d.domOn (domStack 1)

/-- PWRWARN# is asserted: VIN below its thresholds, or the input current limit active (R67, R69). -/
def Dev.pwrWarn (d : Dev) : Bool := d.pw.vinLow || d.pw.ilimit
/-- The engine clock is halved: by Squall, PWRWARN# or thermal throttling (R67, R88, R89). -/
def Dev.halfClock (d : Dev) : Bool := d.pw.squall || d.pwrWarn || d.pw.throttle

/-! ### Carriers -/

def Dev.carrier (d : Dev) (n : Nat) : Carrier := d.car.get .reset n
def Dev.updCarrier (d : Dev) (n : Nat) (f : Carrier → Carrier) : Dev := { d with car := d.car.upd .reset n f }
def Dev.tx (d : Dev) (n : Nat) : Tx := (d.carrier n).tx
def Dev.rx (d : Dev) (n : Nat) : Rx := (d.carrier n).rx
def Dev.updTx (d : Dev) (n : Nat) (f : Tx → Tx) : Dev := d.updCarrier n fun c => { c with tx := f c.tx }
def Dev.updRx (d : Dev) (n : Nat) (f : Rx → Rx) : Dev := d.updCarrier n fun c => { c with rx := f c.rx }
def Dev.locked (d : Dev) (n : Nat) : Bool := decide ((d.rx n).acq = .locked)

/-! ### Tables and walks -/

/-- A table update arrives: it starts a cross-fade, or waits for the one in progress; a waiting one is replaced, never applied,
and its issuer answered so that it can be counted (R26). -/
def CoefTable.commit (t : CoefTable) (new : Tbl Nat) (issuer : Option Nat) : CoefTable × Option (Option Nat) :=
  match t.fading, t.waiting with
  | none, _ => ({ t with fading := some (new, issuer) }, none)
  | some _, none => ({ t with waiting := some (new, issuer) }, none)
  | some _, some w => ({ t with waiting := some (new, issuer) }, some w.2)

/-- A cross-fade ends: the new table is active, and a waiting one begins its own (R26). -/
def CoefTable.fadeEnd (t : CoefTable) : CoefTable :=
  match t.fading with
  | none => t
  | some f => { t with active := f.1, fading := t.waiting, waiting := none }

/-- A superseded update is counted on the cluster that issued it, or on COEF_SUPERSEDED_CTL (R26, Table 20-1). An issuer is a cluster number, and for
a hosted program 16 × (handle + 1) more: its own SUPERSEDED counts too (R370). -/
def Dev.countSuperseded (d : Dev) : Option (Option Nat) → Dev
  | none => d
  | some (some k) =>
    let d1 := d.count (ckey 9 (k % 16)) 1
    if k < 16 then d1
    else { d1 with eng := { d1.eng with prog := d1.eng.prog.map fun kv =>
        if kv.1 = k / 16 - 1 then (kv.1, { kv.2 with superseded := (kv.2.superseded + 1) % 2 ^ 32 }) else kv } }
  | some none => d.count (ckey 9 16) 1

/-- A setting changes by cross-fade. One that arrives during a cross-fade waits for its end, and a setting that waits is replaced (R26; that the settings of
R105 and R120 wait as the tables of R104 do is the model's choice, log entry 145). -/
def FadeVal.setTo (f : FadeVal) (v : Int) : FadeVal :=
  match f.fading with
  | none => if f.active = v then f else { f with fading := some v }
  | some _ => { f with waiting := some v }

/-- Does a new setting replace one that waits, which is then never applied (R26)? -/
def FadeVal.displaces (f : FadeVal) : Bool := f.fading.isSome && f.waiting.isSome

def FadeVal.fadeEnd (f : FadeVal) : FadeVal :=
  match f.fading with
  | none => f
  | some v => { active := v, fading := f.waiting, waiting := none }

/-- A line frame period is 102.4 ns (R94): frames elapsed in `t` ns. -/
def framesIn (t : Nat) : Nat := t * 10 / 1024

/-- The value a walk has reached: one unit of its setting per line frame towards the target (R110). -/
def Walk.value (w : Walk) (now : Nat) : Int :=
  let k : Int := framesIn (now - w.since)
  if w.start ≤ w.target then min w.target (w.start + k) else max w.target (w.start - k)

/-- A new setting redirects the walk from its current value (R110). -/
def Walk.redirect (w : Walk) (now : Nat) (v : Int) : Walk := ⟨w.value now, v, now⟩

/-! ### Committing a command's effect -/

/-- Store parameters where every one lies in its range and no relation is broken (R486). -/
def Params.store (p : Params) (l : List (Nat × Int)) : Params :=
  let p' := l.foldl (fun q kv => q.set kv.1 kv.2) p
  if l.all fun kv => paramAccepts p' kv.1 (p'.val kv.1) then p' else p

/-- A command has ended with E_INTERNAL: in Service with a stack ON its diagnostic dump, of free length and content, is written and FATAL raised
(R480). -/
def State.dump (s : State) (op : Nat) : State :=
  if s.dev.inService && s.dev.anyStack then
    let n := s.dev.drawn
    let len := 1 + Config.freeValue n % 2 ^ 21
    let b := s.dev.boot
    { s with mem := s.mem.writeAll 0x3F600000 (leBytes len (Config.freeValue (n + 1))),
             dev := { s.dev with drawn := n + 2, boot := { b with dumpCount := b.dumpCount + 1, dumpHeld := true, dumpLen := len, dumpOpcode := op } },
             io := s.io.raiseInt intFatal }
  else s

/-- A running command ends (R43, R49). -/
def State.finish (s : State) (op key : Nat) (st : Status) (detail : Nat) (result : List Byte) : State :=
  let s1 := if st = .internal ∧ s.io.inflight.any (isRunning op key) then s.dump op else s
  { s1 with io := s1.io.finish s1.par s1.now op key st detail result }

/-- Carry out one request to the interface block. -/
def State.apply (s : State) : Emit → State
  | .event ev inst sev fields => { s with io := s.io.event s.par s.now ev inst sev fields }
  | .int src => { s with io := s.io.raiseInt src }
  | .finish op key st detail result => s.finish op key st detail result
  | .mbx st => { s with io := s.io.setMbx s.now st }
  | .dram addr bytes => { s with mem := s.mem.writeAll addr bytes }
  | .params l => { s with par := s.par.store l }
  | .pulse cond inst => { s with io := s.io.pulse cond inst }
  | .select pc mode cond inst => { s with io := { s.io with pcs := s.io.pcs.set pc ⟨mode, cond, inst, 0, false, none⟩ } }
  | .wipe w => { s with mem := s.mem.filter fun c => w.keeps c.1 }
  | .clearPcs => { s with io := { s.io with pcs := s.io.pcs.map fun kv => (kv.1, { kv.2 with v := 0, ovf := false }) } }

end Sys2Proof.Machine
end

