-- ==== Sys2Proof/Machine/CntOps.lean ====
section
/-! DEFINITION. Machine/CntOps.lean: which counters exist, their values, and when their blocks are OFF (Table 20-1, R457 to R459). -/

namespace Sys2Proof.Machine

/-- The domain in which a counter of Table 20-1 counts (log entry 195): `none` where the block has no domain of its own, outer `none` where the table names no such
counter. -/
def counterBlock (family i : Nat) : Option (Option Nat) :=
  match family with
  | 0x01 => if i < 6 then some none else none
  | 0x02 => if i < 2 then some none else none
  | 0x03 => if i < 48 then some (some (domCarrier (i % 4))) else none
  | 0x04 =>
    if i < 16 then some (some (domCarrier (i % 4)))
    else if 512 ≤ i ∧ i < 1536 then some (some (domCarrier (i % 512 / 128)))
    else if 1536 ≤ i ∧ i < 1664 then some none else none
  | 0x05 => if i < 256 then some none else if i < 264 then some (some (domCarrier (i % 4))) else none
  | 0x06 => if i < 256 then some (some (domQuad (i % 64 / 4))) else if i < 512 then some none else none
  | 0x07 => if i < 48 then some none else none
  | 0x08 => if i < 1536 then some (some domCrypto) else none
  | 0x09 => if i < 16 then some (some (domCluster i)) else if i = 16 then some none else if 256 ≤ i ∧ i < 352 then some none else none
  | 0x0A => if i < 1 then some (some domDpll) else none
  | 0x0B => if i < 4 then some (some (domCarrier i)) else none
  | 0x0C => if i < 28 then some (some (domCarrier (i % 4))) else none
  | 0x0D => if i < 64 then some none else none
  | 0x0E => if i < 1 then some none else none
  | 0x0F => if i < 5 ∨ (256 ≤ i ∧ i < 384) then some none else none
  | _ => none

/-- The domain of a programmable counter's source (Table 20-2; log entry 195). -/
def sourceDomain (cond inst : Nat) : Option Nat :=
  if 1 ≤ cond ∧ cond ≤ 7 then some (domCarrier inst)
  else if cond = 8 ∨ cond = 9 then some (domCarrier (inst / 128))
  else if cond = 13 then some (domQuad (inst / 4))
  else if cond = 16 then some domDpll
  else none

/-- A programmable counter that is not set. -/
def ProgCounter.zero : ProgCounter := ⟨0, 0, 0, 0, false, none⟩

/-- VALUE, OVF and OFF of a counter (Table 20-4); an index the table does not name reads zero. A programmable counter whose source is in a domain that is
OFF holds at zero (R460). -/
def Dev.readCounter (d : Dev) (pcs : Tbl ProgCounter) (family i : Nat) : Nat × Bool × Bool :=
  match counterBlock family i with
  | none => (0, false, false)
  | some dom =>
    if family = 0x0D then
      let p := pcs.get .zero i
      let off := (sourceDomain p.cond p.inst).any fun x => decide (d.domState x = .off)
      (if off && decide (p.mode ≠ 0) then 0 else p.v, p.ovf, off && decide (p.mode ≠ 0))
    else
      let c := d.cnt.get .zero (ckey family i)
      (c.v, c.ovf, dom.any fun x => !d.domOn x)

end Sys2Proof.Machine
end

