-- ==== Sys2Proof/Machine/EngOps.lean ====
section
/-! DEFINITION. Machine/EngOps.lean: placing system runs on clusters (R364 to R366) and the room that programs take. -/

namespace Sys2Proof.Machine

/-- Engines and 64 KiB shared pages of each system program (Table 15-2). -/
def SysProg.need : SysProg → Nat × Nat
  | .search => (16, 16)
  | .builder => (4, 4)
  | .trainer => (16, 8)
  | .ratePolicy => (2, 1)
  | .front => (2, 4)

/-- The row index of Table 15-2, as ENG_FAULT and ENG_SYS_WAIT name the program (R383). -/
def SysProg.row : SysProg → Nat
  | .search => 0
  | .builder => 1
  | .trainer => 2
  | .ratePolicy => 3
  | .front => 4

/-- Engines and pages that placed system runs take on cluster `k`. -/
def Dev.sysUse (d : Dev) (k : Nat) : Nat × Nat :=
  (d.runs.filter fun r => decide (r.cluster = some k)).foldl (fun u r => (u.1 + r.prog.need.1, u.2 + r.prog.need.2)) (0, 0)

def Dev.prog (d : Dev) (h : Nat) : Option Prog := (d.eng.prog.find? fun kv => decide (kv.1 = h)).map (·.2)
def Dev.updProg (d : Dev) (h : Nat) (f : Prog → Prog) : Dev :=
  match d.prog h with
  | some p => { d with eng := { d.eng with prog := d.eng.prog.set h (f p) } }
  | none => d

/-- Is a program placed: RUNNING or STOPPING? -/
def Prog.placed (p : Prog) : Bool := decide (p.st = .running ∨ p.st = .stopping)

/-- Hosted programs placed on cluster `k`. -/
def Dev.hostedOn (d : Dev) (k : Nat) : List (Nat × Prog) := d.eng.prog.filter fun kv => kv.2.placed && decide (kv.2.cluster = k)

/-- Engines and pages that hosted programs hold on cluster `k`. -/
def Dev.hostedUse (d : Dev) (k : Nat) : Nat × Nat :=
  (d.hostedOn k).foldl (fun u kv => (u.1 + kv.2.engs.length, u.2 + kv.2.pages)) (0, 0)

/-- Does a hosted program hold the transmit-table bit of carrier `n`? (R370) -/
def Dev.txTableGranted (d : Dev) (n _t : Nat) : Bool := d.eng.prog.any fun kv => kv.2.placed && bitAt kv.2.perm n

/-- Engines of cluster `k` that no program uses, lowest first. -/
def Dev.freeEngines (d : Dev) (k : Nat) : List Nat :=
  let used := ((d.runs.filter fun r => decide (r.cluster = some k)).flatMap SysRun.engs) ++ (d.hostedOn k).flatMap fun kv => kv.2.engs
  (List.range 16).filter fun e => !used.contains e

/-- Free engines and pages of cluster `k`: 16 engines and 32 pages each (R361). -/
def Dev.room (d : Dev) (k : Nat) : Nat × Nat :=
  (16 - ((d.sysUse k).1 + (d.hostedUse k).1), 32 - ((d.sysUse k).2 + (d.hostedUse k).2))

/-- Shared pages of cluster `k` that no program holds, lowest first. -/
def Dev.freePages (d : Dev) (k : Nat) : List Nat :=
  let used := ((d.runs.filter fun r => decide (r.cluster = some k)).flatMap SysRun.shared) ++ (d.hostedOn k).flatMap fun kv => kv.2.shared
  (List.range 32).filter fun p => !used.contains p

/-! ### The array's memories (R361, R367) -/

/-- What an engine and a cluster have (Table 15-1): bytes of local memory and how many of them may be code, pages of shared memory and their bytes,
multiply-accumulates per cycle at 16 bits and at 32-bit floating point. -/
def engLocalBytes : Nat := 192 * 1024
def engCodeBytes : Nat := 64 * 1024
def clusterPages : Nat := 32
def pageBytes : Nat := 64 * 1024
def engMacs (float : Bool) : Nat := if float then 32 else 128

def Dev.setLocal (d : Dev) (u : Nat) (bs : List Byte) : Dev := { d with eng := { d.eng with local_ := d.eng.local_.set u bs } }
def Dev.setPage (d : Dev) (k p : Nat) (bs : List Byte) : Dev := { d with eng := { d.eng with page := d.eng.page.set (32 * k + p) bs } }

/-- What an engine's local memory and a page hold. -/
def Dev.localMem (d : Dev) (u : Nat) : List Byte := d.eng.local_.get (List.replicate engLocalBytes 0) u
def Dev.pageMem (d : Dev) (k p : Nat) : List Byte := d.eng.page.get (List.replicate pageBytes 0) (32 * k + p)

/-- Engines and pages of cluster `k` are zeroed: before they are given to a program, and when it releases them (R367). -/
def Dev.zeroPlace (d : Dev) (k : Nat) (engs pages : List Nat) : Dev :=
  { d with eng := { d.eng with local_ := d.eng.local_.filter fun kv => !(engs.map (16 * k + ·)).contains kv.1,
                               page := d.eng.page.filter fun kv => !(pages.map (32 * k + ·)).contains kv.1 } }

/-- A program at work writes its memories: what it leaves in them the spec does not say, for the instruction set is not described: free values (log entry 1). -/
def Dev.writesPlace (d : Dev) (k : Nat) (engs pages : List Nat) : Dev :=
  let d1 := engs.foldl (fun (d : Dev) e => let (bs, d1) := d.drawBytes engLocalBytes; d1.setLocal (16 * k + e) bs) d
  pages.foldl (fun (d : Dev) p => let (bs, d1) := d.drawBytes pageBytes; d1.setPage k p bs) d1

/-- Is `a` preferred over `b`? Outside the hosted mask first, then most free engines, then most free pages, then the lowest number (R366). -/
def Dev.prefers (d : Dev) (mask a b : Nat) : Bool :=
  let ka := ((if bitAt mask a then 0 else 1) * 17 + (d.room a).1) * 33 + (d.room a).2
  let kb := ((if bitAt mask b then 0 else 1) * 17 + (d.room b).1) * 33 + (d.room b).2
  decide (kb < ka) || (decide (ka = kb) && decide (a < b))

/-- The cluster a system run is placed on, if any ON cluster of the list has room (R366). -/
def Dev.chooseOf (d : Dev) (ks : List Nat) (mask : Nat) (p : SysProg) : Option Nat :=
  (ks.filter fun k => decide (p.need.1 ≤ (d.room k).1) && decide (p.need.2 ≤ (d.room k).2)).foldl
    (fun best k => match best with
      | none => some k
      | some b => if d.prefers mask k b then some k else some b) none

def Dev.choose (d : Dev) (mask : Nat) (p : SysProg) : Option Nat := d.chooseOf d.onClusters mask p

/-- The lowest-numbered free engines and pages of the chosen cluster (log entry 28). -/
def Dev.enginesFor (d : Dev) (p : SysProg) : Option Nat → List Nat
  | some k => (d.freeEngines k).take p.need.1
  | none => []
def Dev.pagesFor (d : Dev) (p : SysProg) : Option Nat → List Nat
  | some k => (d.freePages k).take p.need.2
  | none => []

/-- The mask of clusters open to hosted programs (R365). -/
def Env.mask (env : Env) : Nat := env.par.nat pEngHostedMask

/-- The cluster for a new system run: none while MBX_STATE is not READY (R366, R384). -/
def Dev.placeFor (d : Dev) (env : Env) (ks : List Nat) (p : SysProg) : Option Nat := if env.mbx = .ready then d.chooseOf ks env.mask p else none

def isRun (p : SysProg) (c : Nat) (r : SysRun) : Bool := decide (r.prog = p) && decide (r.carrier = c)

/-- A place is taken: zeroed, then filled by the program (R367). -/
def Dev.takePlace (d : Dev) (engs pages : List Nat) : Option Nat → Dev
  | some k => (d.zeroPlace k engs pages).writesPlace k engs pages
  | none => d

/-- A run's place is given up, zeroed (R367). -/
def Dev.leavePlace (d : Dev) (r : SysRun) : Dev :=
  match r.cluster with
  | some k => d.zeroPlace k r.engs r.shared
  | none => d

/-- A system run is asked for, on a cluster or, where it is given none, waiting; `again` for the repetition after a fault (R366, R368). -/
def Dev.newRun (d : Dev) (env : Env) (p : SysProg) (c : Nat) (k : Option Nat) (again : Bool) : Dev :=
  ({ d with runs := d.runs ++ [⟨p, c, k, d.enginesFor p k, d.pagesFor p k, env.now, false, again⟩] } : Dev).takePlace (d.enginesFor p k) (d.pagesFor p k) k

/-- A system run is asked for: placed at once where there is room, else waiting (R366). -/
def Dev.startRun (d : Dev) (env : Env) (p : SysProg) (c : Nat) : Dev := d.newRun env p c (d.placeFor env d.onClusters p) false

/-- A system run ends and frees its room, zeroed. -/
def Dev.endRun (d : Dev) (p : SysProg) (c : Nat) : Dev :=
  let d1 := match d.runs.find? (isRun p c) with
    | some r => d.leavePlace r
    | none => d
  { d1 with runs := d.runs.eraseP (isRun p c) }

/-- Is a run of `p` for carrier `c` placed on a cluster? -/
def Dev.runPlaced (d : Dev) (p : SysProg) (c : Nat) : Bool :=
  d.runs.any fun r => decide (r.prog = p) && decide (r.carrier = c) && r.cluster.isSome

/-- Is a run of `p` for carrier `c` waiting for a cluster? -/
def Dev.runWaiting (d : Dev) (p : SysProg) (c : Nat) : Bool :=
  d.runs.any fun r => decide (r.prog = p) && decide (r.carrier = c) && r.cluster.isNone

end Sys2Proof.Machine
end

