-- ==== Sys2Proof/Machine/Shaping.lean ====
section
/-! DEFINITION. Machine/Shaping.lean: the rate formula, the validity of operating points, the shaping composition, and what a last covers (R94 to R97, R101, R105, R128, R129, R159). -/

namespace Sys2Proof.Machine

/-- The symbol rate of R94 as a fraction in kBd: n × 25.3125 Gb/s / (1.685625 × h/64). -/
def rateNum (slots : Nat) : Nat := slots * 25312500 * 64 * 1000000
def rateDen (h : Nat) : Nat := 1685625 * h

/-- SYMRATE_ACT in kBd, truncated (R97); an interop profile has its agreement's rate. -/
def OpPoint.symrate (p : OpPoint) : Nat :=
  if p.profile = 0 then rateNum p.slots / rateDen p.h else Config.profileRate p.profile

/-- Numerator and denominator of ρ for OSR 0 to 3: 2, 3/2, 4/3, 5/4 (R95, R97). -/
def rhoNum : Nat → Nat
  | 0 => 2
  | 1 => 3
  | 2 => 4
  | _ => 5
def rhoDen : Nat → Nat
  | 0 => 1
  | 1 => 2
  | 2 => 3
  | _ => 4

/-- Rs of a point as a fraction in kBd. -/
def OpPoint.rsNum (p : OpPoint) : Nat := if p.profile = 0 then rateNum p.slots else Config.profileRate p.profile
def OpPoint.rsDen (p : OpPoint) : Nat := if p.profile = 0 then rateDen p.h else 1

/-- Does ρ keep Fs at or below 420 GS/s? -/
def OpPoint.rhoFits (p : OpPoint) (k : Nat) : Bool := decide (rhoNum k * p.rsNum ≤ 420000000 * (rhoDen k * p.rsDen))

/-- OSR: the largest ρ that keeps Fs at or below 420 GS/s (R95). -/
def OpPoint.osr (p : OpPoint) : Nat :=
  if p.rhoFits 0 then 0 else if p.rhoFits 1 then 1 else if p.rhoFits 2 then 2 else 3

/-- SAMPLE_RATE in kS/s, truncated (R97). -/
def OpPoint.sampleRate (p : OpPoint) : Nat := rhoNum p.osr * p.rsNum / (rhoDen p.osr * p.rsDen)

/-- Rs from 96 GBd to 322 GBd inclusive, on the exact rate (R95). -/
def OpPoint.rateOk (p : OpPoint) : Bool :=
  decide (96000000 * p.rsDen ≤ p.rsNum) && decide (p.rsNum ≤ 322000000 * p.rsDen)

/-- H from 2.0 to 7.0 (R95). -/
def OpPoint.entropyOk (p : OpPoint) : Bool := decide (128 ≤ p.h ∧ p.h ≤ 448)

/-- Rs × (1 + β) ≤ 0.95 × Fs with β in units of 0.001 (R95). -/
def OpPoint.rolloffOk (p : OpPoint) (rolloff : Nat) : Bool :=
  decide ((1000 + rolloff) * rhoDen p.osr ≤ 950 * rhoNum p.osr)

/-- The smallest h with Rs ≤ `rate` kBd (R96, RS_MODE 1), not below 128. -/
def smallestH (slots rate : Nat) : Nat := max 128 (ceilDiv (rateNum slots) (1685625 * rate))

/-- Framed and net rates in kb/s (R94, R27). -/
def netRate (slots : Nat) : Nat := slots * 25000000
def framedRate (slots : Nat) : Nat := slots * 25312500

/-- c(Rs) = 10,000 × (322 GBd / Rs)² ps/nm as a fraction (R129). -/
def coverNum : Nat := 10000 * 322000000 * 322000000
def coverDen (symrate : Nat) : Nat := symrate * symrate

/-- H = max(1, ceil(max(|LO|, |HI|) / c(Rs))) for a native carrier; an interop carrier holds 1 last (R129, R141). -/
def OpPoint.need (p : OpPoint) (lo hi : Int) : Nat :=
  if p.profile ≠ 0 then 1
  else max 1 (ceilDiv (max lo.natAbs hi.natAbs * coverDen p.symrate) coverNum)

/-- Is a transmit pre-compensation within the bank: ±c(Rs), capped at ±50,000 ps/nm? (R105) -/
def OpPoint.preOk (p : OpPoint) (pre : Int) : Bool :=
  decide (pre.natAbs ≤ 50000) && decide (pre.natAbs * coverDen p.symrate ≤ coverNum)

/-- The trim range ±1,000 × (322 GBd / Rs)² ps/nm: is `t` within `pct` per cent of it? (R128, R140) -/
def OpPoint.trimWithin (p : OpPoint) (t : Int) (pct : Nat) : Bool :=
  decide (t.natAbs * coverDen p.symrate * 1000 ≤ coverNum * pct)

/-- The trim range in whole ps/nm. -/
def OpPoint.trimMax (p : OpPoint) : Nat := coverNum / (10 * coverDen p.symrate)

/-! ### The composition of the distribution matcher (R101) -/

/-- Fixed-point numbers of the composition: 256 fraction bits. -/
def fixOne : Nat := 2 ^ 256

/-- exp(−2⁻¹⁶) by its series, in fixed point: terms 1/(k!·2^(16k)), alternating; DEDUCED that 256 bits decide every floor (log entry 9). -/
def expSeries : Nat → Nat → Nat → Nat
  | 0, _, _ => 0
  | n + 1, k, term => term - expSeries n (k + 1) (term / ((k + 1) * 65536))

def expUnit : Nat := expSeries 20 0 fixOne

/-- `expUnit` to the power `m`, by squaring; `fuel` bounds the bits of `m`. -/
def expPow : Nat → Nat → Nat → Nat
  | 0, _, _ => fixOne
  | fuel + 1, base, m =>
    let r := expPow fuel (base * base / fixOne) (m / 2)
    if m % 2 = 1 then r * base / fixOne else r

/-- exp(−j·a²/2¹⁶) in fixed point. -/
def mbWeight (j a : Nat) : Nat := expPow 26 expUnit (j * a * a)

def amplitudes : List Nat := [1, 3, 5, 7, 9, 11, 13, 15]

/-- The eight counts for λ = j·2⁻¹⁶: floors of 1,024 × P(a), the rest given to a = 1, 3, 5, … one at a time (R101, steps 1 to 3). -/
def composition (j : Nat) : List Nat :=
  let ws := amplitudes.map (mbWeight j)
  let total := sumBy id ws
  let floors := ws.map fun w => 1024 * w / total
  let left := 1024 - sumBy id floors
  floors.zipIdx.map fun (n, i) => if i < left then n + 1 else n

def factorial : Nat → Nat
  | 0 => 1
  | n + 1 => (n + 1) * factorial n

/-- k = floor(log₂(1,024! / Π N_a!)) (R101, step 4). -/
def matcherBits (counts : List Nat) : Nat :=
  Nat.log2 (factorial 1024 / counts.foldl (fun acc n => acc * factorial n) 1)

/-- The smallest multiple of 2⁻¹⁶ at which every amplitude is 1, searched upwards. -/
def lambdaMax : Nat → Nat → Nat
  | 0, j => j
  | fuel + 1, j => if (composition j).headD 0 = 1024 then j else lambdaMax fuel (j + 1)

/-- The largest λ, downwards from j, at which k ≥ K. -/
def lambdaFor (K : Nat) : Nat → Nat
  | 0 => 0
  | j + 1 => if K ≤ matcherBits (composition (j + 1)) then j + 1 else lambdaFor K j

/-- K = 512 × H − 1,024 (R101), with H = h/64. -/
def matcherPayload (h : Nat) : Nat := 8 * h - 1024

/-- The composition the device chooses for entropy h/64, and STUFF = k − K (R101, R97). -/
def shaping (h : Nat) : List Nat × Nat :=
  let c := composition (lambdaFor (matcherPayload h) (lambdaMax 70000 0))
  (c, matcherBits c - matcherPayload h)

/-! ### The matcher (R101, step 5) -/

/-- In how many orders do amplitudes with these counts follow one another? -/
def arrangements (counts : List Nat) : Nat := factorial (counts.foldl (· + ·) 0) / counts.foldl (fun acc n => acc * factorial n) 1

/-- The counts with one amplitude of index `i` less. -/
def takeOne : List Nat → Nat → List Nat
  | [], _ => []
  | n :: ns, 0 => (n - 1) :: ns
  | n :: ns, i + 1 => n :: takeOne ns i

/-- The index of the next amplitude of the sequence of rank `v`, with the rank that is left: the sequences are ordered by their first amplitude, low ones first. -/
def nextIndex (counts : List Nat) : List Nat → Nat → Nat × Nat
  | [], v => (0, v)
  | i :: is, v =>
    let m := if counts.getD i 0 = 0 then 0 else arrangements (takeOne counts i)
    if v < m then (i, v) else nextIndex counts is (v - m)

/-- The amplitude indices of the sequence of rank `v`: arithmetic coding on exact intervals. Which order the coding gives the sequences is not stated: the model
takes the ascending one (log entry 150). -/
def matchAmplitudes : Nat → List Nat → Nat → List Nat
  | 0, _, _ => []
  | fuel + 1, counts, v =>
    let (i, r) := nextIndex counts (List.range counts.length) v
    i :: matchAmplitudes fuel (takeOne counts i) r

/-- The rank of a sequence of amplitude indices: what the de-matcher of the far end finds. -/
def matchRank (counts : List Nat) : List Nat → Nat
  | [] => 0
  | i :: is => sumBy (fun j => if counts.getD j 0 = 0 then 0 else arrangements (takeOne counts j)) (List.range i) + matchRank (takeOne counts i) is

/-- Bits as a number, the first the most significant. -/
def bitsNat (bs : List Bool) : Nat := bs.foldl (fun acc b => 2 * acc + b2n b) 0
/-- The `n` bits of a number, the most significant first. -/
def natBits : Nat → Nat → List Bool
  | 0, _ => []
  | n + 1, v => bitAt v n :: natBits n v

/-- One block of a lane's matcher: K information bits followed by the stuff bits of value 0 give 1,024 amplitudes (R101). -/
def matcherBlock (h : Nat) (info : List Bool) : List Nat :=
  let (counts, stuff) := shaping h
  (matchAmplitudes 1024 counts (bitsNat info * 2 ^ stuff)).map fun i => 2 * i + 1

/-- The information bits of a received block: the stuff bits are discarded (R101, R190). -/
def dematcherBlock (h : Nat) (amps : List Nat) : List Bool :=
  let (counts, stuff) := shaping h
  natBits (matcherPayload h) (matchRank counts (amps.map fun a => (a - 1) / 2) / 2 ^ stuff)

/-- One lane symbol: amplitude index i = (a − 1)/2 has the Gray label i XOR (i >> 1); sign bit 0 is + (R100). -/
def grayLabel (a : Nat) : Nat := ((a - 1) / 2) ^^^ ((a - 1) / 2 / 2)
def laneSymbol (a : Nat) (signBit : Bool) : Int := if signBit then -(a : Int) else (a : Int)

/-! ### Pilots (R102) -/

/-- One step of the PRBS x¹⁵ + x¹⁴ + 1: the new bit is the exclusive-or of stages 15 and 14. That it is a Fibonacci register, that the bit it yields is the one
newly fed back, and that bit 14 of the seed is stage 15, is the model's choice (log entry 151). -/
def prbsStep (g : BitVec 15) : BitVec 15 × Bool :=
  let b := g.getLsbD 14 ^^ g.getLsbD 13
  (BitVec.ofNat 15 (2 * g.toNat + b2n b), b)

/-- The sign bits of one pilot in lane order XI, XQ, YI, YQ; bit 0 gives +A and bit 1 −A (R102). -/
def pilotBits (g : BitVec 15) : BitVec 15 × List Bool :=
  let (g1, b1) := prbsStep g
  let (g2, b2) := prbsStep g1
  let (g3, b3) := prbsStep g2
  let (g4, b4) := prbsStep g3
  (g4, [b1, b2, b3, b4])

/-- The generator at the next pilot. -/
def nextPilot (g : BitVec 15) : BitVec 15 := (pilotBits g).1

/-- The generator `k` pilots on, between loads (R102). -/
def pilotAfter : Nat → BitVec 15 → BitVec 15
  | 0, g => g
  | k + 1, g => pilotAfter k (nextPilot g)

/-- The generator at pilot `k` counted from the first after transmit enable: loaded again at every 32,768th (R102). -/
def pilotStateAt (seed k : Nat) : BitVec 15 := pilotAfter (k % 32768) (BitVec.ofNat 15 seed)

/-- Pilots sent in `t` ns: one in 32 symbols (R102). -/
def OpPoint.pilotsIn (p : OpPoint) (t : Nat) : Nat := t * p.rsNum / (p.rsDen * 32 * 1000000)

/-! ### Required SNR (R159), in units of 0.01 dB times 64 -/

/-- The rows of Table 6-3: required SNR in 0.01 dB at H = 2 to 7. -/
def snrRow : Nat → Nat
  | 0 | 1 | 2 => 580
  | 3 => 900
  | 4 => 1200
  | 5 => 1500
  | 6 => 1810
  | _ => 2120

/-- Required SNR at entropy h/64, linear between rows, in units of 0.01 dB / 64; an interop profile has its own figure (R159). -/
def OpPoint.requiredSnr64 (p : OpPoint) : Nat :=
  if p.profile = 1 then 1360 * 64
  else if p.profile = 2 then 1280 * 64
  else
    let i := p.h / 64
    snrRow i * 64 + (snrRow (i + 1) - snrRow i) * (p.h % 64)

/-- A fraction rounded to the nearest whole, halves away from zero (R158). -/
def roundHalfAway (num : Int) (den : Nat) : Int :=
  if 0 ≤ num then (2 * num + den) / (2 * den) else -((-2 * num + den) / (2 * den))

end Sys2Proof.Machine
end

