-- ==== Sys2Proof/Machine/PoolOps.lean ====
section
/-! DEFINITION. Machine/PoolOps.lean: the pool of 32 lasts: allocation policies, loans, the switch of sets (R129 to R137). -/

namespace Sys2Proof.Machine

def Dev.last (d : Dev) (i : Nat) : LastState := d.pool.get .free i
def Dev.setLast (d : Dev) (i : Nat) (v : LastState) : Dev := { d with pool := d.pool.set i v }
def Dev.setLasts (d : Dev) (is : List Nat) (v : LastState) : Dev := is.foldl (fun d i => d.setLast i v) d

/-- The lasts, by number, whose state meets `p`. -/
def Dev.lastsWhere (d : Dev) (p : LastState → Bool) : List Nat := (List.range 32).filter fun i => p (d.last i)

def isActive (n : Nat) : LastState → Bool
  | .active m => decide (m = n)
  | _ => false
def isShadow (n : Nat) : LastState → Bool
  | .shadow m => decide (m = n)
  | .lent _ m => decide (m = n)
  | _ => false
def isLentBy (n : Nat) : LastState → Bool
  | .lent l _ => decide (l = n)
  | _ => false

def Dev.freeLasts (d : Dev) : List Nat := d.lastsWhere fun s => decide (s = .free)
def Dev.activeLasts (d : Dev) (n : Nat) : List Nat := d.lastsWhere (isActive n)
def Dev.shadowLasts (d : Dev) (n : Nat) : List Nat := d.lastsWhere (isShadow n)
/-- Lasts of carrier `n`'s active set, those it has lent included. -/
def Dev.setSize (d : Dev) (n : Nat) : Nat := (d.activeLasts n).length + (d.lastsWhere (isLentBy n)).length
/-- Lasts a carrier holds for the quota's count: its active set and its own shadow. -/
def Dev.heldLasts (d : Dev) (n : Nat) : Nat := d.setSize n + (d.lastsWhere fun s => decide (s = .shadow n)).length

def Env.prio (env : Env) (n : Nat) : Nat := env.par.nat (pLastPrio + n)
def Env.quota (env : Env) (n : Nat) : Nat := env.par.nat (pLastQuota + n)
def Env.policy (env : Env) : Nat := env.par.nat pLastPolicy

/-- Need of carrier `n` for the window in force (R129). One that no CMD_CARRIER_SET has configured has no Rs to judge it by, and the model gives it 0 (log
entry 154). -/
def Dev.needOf (d : Dev) (n : Nat) : Nat :=
  match (d.rx n).op with
  | none => 0
  | some p => p.need (d.rx n).lo (d.rx n).hi

/-- A carrier is resting while its domain is IDLE (R134). -/
def Dev.resting (d : Dev) (n : Nat) : Bool := decide (d.domState (domCarrier n) = .idle)

/-- Carriers in the order in which they are taken from: ascending priority, then the highest number first (R134, R135). -/
def Env.takeOrder (env : Env) : List Nat :=
  (List.range 8).flatMap fun p => ([3, 2, 1, 0].filter fun n => decide (env.prio n = p))

/-- Carriers in the order of allocation on a return to Service: descending priority, then ascending number (R137). -/
def Env.giveOrder (env : Env) : List Nat :=
  [7, 6, 5, 4, 3, 2, 1, 0].flatMap fun p => ([0, 1, 2, 3].filter fun n => decide (env.prio n = p))

/-- FREE lasts that carrier `n` may draw for a shadow set: under static policy its own unused quota and the lasts outside every quota, else all
FREE lasts (Table 5-6). -/
def Dev.shadowFresh (d : Dev) (env : Env) (n : Nat) : Nat :=
  let free := d.freeLasts.length
  if env.policy = 0 then
    let own := env.quota n - d.heldLasts n
    let outside := 32 - (env.quota 0 + env.quota 1 + env.quota 2 + env.quota 3)
    let used := sumBy (fun m => d.heldLasts m - env.quota m) [0, 1, 2, 3]
    min free (own + (outside - used))
  else free

/-- Lasts that resting carriers can lend to `n`, in lending order (R134). -/
def Dev.lendable (d : Dev) (env : Env) (n : Nat) : List (Nat × Nat) :=
  env.takeOrder.flatMap fun l =>
    if l ≠ n ∧ d.resting l = true then (d.activeLasts l).map fun i => (i, l) else []

/-- Does the policy grant an active set of `h` lasts? Static policy grants a need within the quota only, to a set that is to become active too (R132, Table 5-6). -/
def Env.grants (env : Env) (n h : Nat) : Bool := decide (env.policy ≠ 0 ∨ h ≤ env.quota n)

/-- A shadow set of `h` lasts from FREE lasts (lowest numbers first, log entry 10) and then loans, whose contents the lender loses; `none` where they do
not suffice (R134). -/
def Dev.shadowFrom (d : Dev) (env : Env) (n h : Nat) : Option Dev :=
  let fresh := min h (d.shadowFresh env n)
  let lend := d.lendable env n
  if env.grants n h ∧ h - fresh ≤ lend.length then
    let d1 := d.setLasts (d.freeLasts.take fresh) (.shadow n)
    some ((lend.take (h - fresh)).foldl (fun d p => (d.setLast p.1 (.lent p.2 n)).updRx p.2 fun r => { r with stale := true, rebuild := true }) d1)
  else none

/-- The lasts of a shadow set become FREE, lent ones return to their lender (R134). -/
def Dev.freeShadow (d : Dev) (n : Nat) : Dev :=
  (List.range 32).foldl (fun d i => match d.last i with
    | .shadow m => if m = n then d.setLast i .free else d
    | .lent l m => if m = n then d.setLast i (.active l) else d
    | _ => d) d

/-- A shadow build is given up: its lasts become FREE, lent ones return to their lender, and the builder stops (R134). A CMD_CD_REACH that asked
for it completes with E_NO_LAST; a re-centring waits for the next allocation point; a rate step before its COMMIT is abandoned (Dev.follow, R243). -/
def Dev.dropBuild (d : Dev) (n : Nat) : Dev :=
  let d2 := (d.freeShadow n).endRun .builder n
  match (d.rx n).build with
  | none => d2
  | some b =>
    let d3 := d2.updRx n fun r => { r with build := none, recentreDeferred := r.recentreDeferred || decide (b.why = .recentre) }
    match b.why with
    | .reach _ _ => d3.finish 0x0310 n .noLast 0 []
    | _ => d3

/-- A carrier's lasts are released (R131, R143): its sets become FREE, borrowed lasts return to their lender, and the claim on
lasts it had lent lapses (R134). -/
def Dev.releaseLasts (d : Dev) (n : Nat) : Dev :=
  (List.range 32).foldl (fun d i => match d.last i with
    | .active m => if m = n then d.setLast i .free else d
    | .shadow m => if m = n then d.setLast i .free else d
    | .lent l m => if m = n then d.setLast i (.active l) else if l = n then d.setLast i (.shadow m) else d
    | .free => d) d

/-- The number of lasts each carrier has lent to `n`. -/
def Dev.lentTo (d : Dev) (n l : Nat) : Nat := (d.lastsWhere fun s => decide (s = .lent l n)).length

/-- Lasts go to a lender: those of the borrower's old set first, then FREE ones (R134). -/
def Dev.repay (d : Dev) (old : List Nat) (l k : Nat) : Dev × List Nat :=
  let give := old.take k
  let d1 := d.setLasts give (.active l)
  let more := d1.freeLasts.take (k - give.length)
  let d2 := d1.setLasts more (.active l)
  (if k = 0 then d2 else d2.updRx l fun r => { r with stale := true, rebuild := true }, old.drop k)

/-- The switch of sets: the shadow becomes the active set; the old set goes to the lenders up to the number lent, and the rest becomes FREE
(R133 step 4, R134). With several lenders the lowest-numbered carrier is repaid first (log entry 154). -/
def Dev.switchSets (d : Dev) (n : Nat) : Dev :=
  let old := d.activeLasts n
  let owed := [0, 1, 2, 3].map fun l => (l, d.lentTo n l)
  let d1 := d.setLasts (d.shadowLasts n) (.active n)
  let (d2, rest) := owed.foldl (fun (acc : Dev × List Nat) p => acc.1.repay acc.2 p.1 p.2) (d1, old)
  d2.setLasts rest .free

/-- A lender's domain has gone to ON: its loans are recalled at once. Each borrower's build is given up and told; a rate step that has been committed goes on
without its set, and its command completes with E_NO_LAST (R134). -/
def Dev.recallLoans (d : Dev) (l : Nat) : Dev :=
  [0, 1, 2, 3].foldl (fun d m =>
    if d.lentTo m l = 0 then d
    else
      let step := (d.rx m).build.any (fun b => decide (b.why = .rateStep)) && !(d.carrier m).rate.uncommitted
      let d1 := (d.dropBuild m).raise .lastLoanRecalled m [(1, l)]
      if step then d1.finish 0x0501 m .noLast 0 [] else d1) d

end Sys2Proof.Machine
end

