-- ==== Sys2Proof/Machine/FrameOps.lean ====
section
/-! DEFINITION. Machine/FrameOps.lean: bundles and channels as looked up, DRAM admission (R29 to R32, R513), consequent actions as operations (R220, R221). -/

namespace Sys2Proof.Machine

def Dev.cal (d : Dev) (n : Nat) : Cal := (d.carrier n).cal
def Dev.fec (d : Dev) (n : Nat) : Fec := (d.carrier n).fec
def Dev.frm (d : Dev) (n : Nat) : Frm := (d.carrier n).frm
def Dev.rate (d : Dev) (n : Nat) : Rate := (d.carrier n).rate
def Dev.updCal (d : Dev) (n : Nat) (f : Cal → Cal) : Dev := d.updCarrier n fun c => { c with cal := f c.cal }
def Dev.updFec (d : Dev) (n : Nat) (f : Fec → Fec) : Dev := d.updCarrier n fun c => { c with fec := f c.fec }
def Dev.updFrm (d : Dev) (n : Nat) (f : Frm → Frm) : Dev := d.updCarrier n fun c => { c with frm := f c.frm }
def Dev.updRate (d : Dev) (n : Nat) (f : Rate → Rate) : Dev := d.updCarrier n fun c => { c with rate := f c.rate }

/-! ### Bundles and channels (R12, R222) -/

/-- A bundle that does not exist has no channel. -/
def Bundle.absent : Bundle := ⟨0, 0, 0, false, .disabled, .none, false, true, 0, 0, none⟩

def Dev.bundleAt (d : Dev) (b : Nat) : Bundle := d.bundle.get .absent b
def Dev.hasBundle (d : Dev) (b : Nat) : Bool := decide (0 < (d.bundleAt b).count)
def Dev.updBundle (d : Dev) (b : Nat) (f : Bundle → Bundle) : Dev := { d with bundle := d.bundle.set b (f (d.bundleAt b)) }

/-- Channel number of slot `s` of carrier `n` (R12). -/
def chanNo (n s : Nat) : Nat := 128 * n + s

/-- Does the bundle hold channel `ch`? -/
def Bundle.holds (b : Bundle) (ch : Nat) : Bool :=
  decide (chanNo b.carrier b.first ≤ ch ∧ ch < chanNo b.carrier b.first + b.count)

/-- Channels of a bundle, in order. -/
def Bundle.chans (b : Bundle) : List Nat := (List.range b.count).map fun i => chanNo b.carrier (b.first + i)

/-- The bundle that holds channel `ch`. -/
def Dev.bundleOf (d : Dev) (ch : Nat) : Option (Nat × Bundle) := d.bundle.find? fun kv => kv.2.holds ch

/-- A bundle counts as enabled from the boundary that enables it until its disable drain has ended (R225). -/
def Bundle.on (b : Bundle) : Bool := decide (b.st = .enabled ∨ b.st = .draining)

/-- Does it admit client data, and deliver received data? From the boundary that enables it until a disable, which stops both at once (R225). -/
def Bundle.admits (b : Bundle) : Bool := decide (b.st = .enabled)

/-- The bundles of carrier `n`. -/
def Dev.bundlesOf (d : Dev) (n : Nat) : List (Nat × Bundle) := d.bundle.filter fun kv => decide (kv.2.carrier = n)

def Dev.anyBundleEnabled (d : Dev) (n : Nat) : Bool := (d.bundlesOf n).any fun kv => kv.2.on

/-- Does a bundle of carrier `n` hold a channel in or above slot `slots`? (R98) -/
def Dev.bundleAbove (d : Dev) (n slots : Nat) : Bool :=
  (d.bundlesOf n).any fun kv => decide (slots < kv.2.first + kv.2.count)

/-- The carrier's elastic bundle (R233). -/
def Dev.elasticOf (d : Dev) (n : Nat) : Option (Nat × Bundle) := (d.bundlesOf n).find? fun kv => kv.2.elastic

/-- The carrier runs an interop profile: the frame of chapter 9, its path overhead and its rate-step fields are not used (R200, R226). -/
def Dev.interop (d : Dev) (n : Nat) : Bool := (d.rx n).op.any fun p => decide (p.profile ≠ 0)

/-- Does a bundle lie as an interop carrier of `slots` slots has its only one: all slots from 0 on, neither elastic nor protected, and on nothing but an
Ethernet port, whose rate its COUNT makes the profile's (R226)? -/
def Dev.interopFits (d : Dev) (b slots : Nat) : Bool :=
  let x := d.bundleAt b
  decide (x.first = 0 ∧ x.count = slots) && !x.elastic && !(d.group.any fun kv => decide (kv.2.work = b ∨ kv.2.prot = b)) && match x.attach with
    | .stitch _ => false
    | _ => true

/-- Does a bundle of carrier `n` lie otherwise? (R226) -/
def Dev.interopBroken (d : Dev) (n slots : Nat) : Bool := (d.bundlesOf n).any fun kv => !d.interopFits kv.1 slots

/-- Active slots in force on transmit and on receive. -/
def Dev.txSlots (d : Dev) (n : Nat) : Nat := match (d.tx n).op with
  | some p => p.slots
  | none => 0
def Dev.rxSlots (d : Dev) (n : Nat) : Nat := match (d.rx n).op with
  | some p => p.slots
  | none => 0

/-- The groups that a bundle is a leg of (R246). -/
def Dev.groupsOf (d : Dev) (b : Nat) : List (Nat × Group) := d.group.filter fun kv => decide (kv.2.work = b ∨ kv.2.prot = b)

def Dev.chanAt (d : Dev) (ch : Nat) : Chan := d.chan.get .reset ch
def Dev.updChan (d : Dev) (ch : Nat) (f : Chan → Chan) : Dev := { d with chan := d.chan.upd .reset ch f }

/-- Is any consequent action in force on the received slot of channel `ch`? (R220, R228) -/
def Dev.chanCa (d : Dev) (ch : Nat) : Bool := (d.frm (ch / 128)).ca || (d.chanAt ch).ca || (d.chanAt ch).zeros

/-! ### What the selector delivers (R252) -/

/-- The leg the selector delivers: SEL when it is valid, else the other one when it is aligned and valid, else SEL (R252). -/
def deliveredLeg (sel validSel validOther alignedOther : Bool) : Bool :=
  if validSel then sel else if alignedOther && validOther then !sel else sel

/-- KEY_EXPIRED stands on channel `ch`: its slot has reached its limit and nothing took its place (R342). -/
def Dev.chanExpired (d : Dev) (ch : Nat) : Bool :=
  match (d.key.chan.get .reset ch).tx with
  | .expired _ => true
  | _ => false

/-- Is a leg valid: no channel of its bundle under a consequent action, an authentication failure among them, and none whose key has expired (R252)? -/
def Dev.legValid (d : Dev) (b : Bundle) : Bool := !b.chans.any fun ch => d.chanCa ch || d.chanExpired ch

/-- The channel whose received stream is delivered for channel `ch`: for a protected working bundle, that of the leg the selector delivers. A group that has
been released keeps its selected leg (R81). -/
def Dev.delivered (d : Dev) (ch : Nat) : Nat :=
  match d.bundleOf ch with
  | none => ch
  | some kv => match d.group.find? fun g => decide (g.2.work = kv.1) with
    | none => ch
    | some g =>
      let p := d.bundleAt g.2.prot
      let sel := g.2.selProt
      let leg := if g.2.st = .disarmed then sel
        else deliveredLeg sel (d.legValid (if sel then p else kv.2)) (d.legValid (if sel then kv.2 else p)) (if sel then g.2.wAligned else g.2.pAligned)
      if leg then chanNo p.carrier (p.first + (ch - chanNo kv.2.carrier kv.2.first)) else ch

/-! ### Admission (R29 to R32, R513) -/

/-- A rate step is in progress on carrier `n` (R236). -/
def Dev.rateBusy (d : Dev) (n : Nat) : Bool := decide ((d.rate n).st ≠ .idle ∧ (d.rate n).st ≠ .split)
def Dev.anyRateBusy (d : Dev) : Bool := [0, 1, 2, 3].any d.rateBusy

/-- Channels of a buffered bundle as R30 counts them: an elastic one at the higher of its old and new sizes during a step. -/
def Dev.weigh (d : Dev) (b : Bundle) : Nat :=
  if b.elastic && d.rateBusy b.carrier then max b.count (max (d.rate b.carrier).slots (d.rate b.carrier).oldSlots - b.first) else b.count

/-- Channels of all buffered bundles, and of all protected flows. -/
def Dev.bufferedChans (d : Dev) : Nat := sumBy (fun kv => if kv.2.buffered then d.weigh kv.2 else 0) d.bundle
def Dev.protectedChans (d : Dev) : Nat := sumBy (fun kv => (d.bundleAt kv.2.work).count) d.group

/-- Stacks that traffic may count on: those ON in Service, one while re-striping runs, and in Calm those recorded ON (R31, R261, R513). -/
def Dev.stacksFor (d : Dev) : Nat :=
  if d.inService then
    (if d.bothStacks && !d.pw.restriping then 2 else if d.anyStack then 1 else 0)
  else b2n (decide (d.pw.recorded.get .off (domStack 0) = .on)) + b2n (decide (d.pw.recorded.get .off (domStack 1) = .on))

/-- Does 2 × B + 2 × P, in units of 25 Gb/s, fit 13.6 Tb/s for each stack? (R29, R31) -/
def fitsBandwidth (dram b p : Nat) : Bool := decide (25 * (2 * b + 2 * p) ≤ 13600 * dram)

/-- Does P × P_PROT_MAX_DELAY fit the protection region: 32 GB with both stacks, half with one? (R31, R32) Gb/s × µs = 125 bytes. -/
def fitsRegion (dram p delayUs : Nat) : Bool := decide (25 * p * delayUs * 125 ≤ 16000000000 * dram)

/-! ### Parity (R212, R215) -/

/-- The parity counters of a carrier's section, SBIP_ERR and SBEI_SUM, and of a channel's path, PBIP_ERR and PBEI_SUM. -/
def sectionParity (n : Nat) : List Nat := [ckey 4 n, ckey 4 (4 + n)]
def pathParity (ch : Nat) : List Nat := [ckey 4 (512 + ch), ckey 4 (1024 + ch)]

/-- Parity violations are counted with every frame of chapter 9 that a carrier receives, and no row of the table brings the frames: what has been counted since
the last look is a free value (R212, R217, R226, log entry 121). A carrier that is not IN_FRAME receives none. -/
def Dev.parityRuns (d : Dev) (n : Nat) (keys : List Nat) : Dev :=
  if (d.frm n).st = .inFrame ∧ d.interop n = false then keys.foldl (fun d k => d.draw.2.count k d.draw.1) d else d

/-- The parity counters of carrier `n`: of its section, and of the path of every slot that it has. -/
def Dev.parityOf (d : Dev) (n : Nat) : Dev := d.parityRuns n (sectionParity n ++ (List.range (d.rxSlots n)).flatMap fun s => pathParity (chanNo n s))

/-- The parity counters of every carrier. -/
def Dev.parityRun (d : Dev) : Dev := ([0, 1, 2, 3] : List Nat).foldl Dev.parityOf d

/-! ### Consequent actions (R220, R221) -/

/-- A section consequent action starts on carrier `n`. -/
def Dev.sectionCa (d : Dev) (env : Env) (n : Nat) : Dev :=
  d.updFrm n fun f => { f with ca := true, dirtyAt := some env.now }

/-- Upstream invalid: the deframer goes DOWN, all-ones flow into every slot (R220). What was counted up to then stands (R212). -/
def Dev.frmDown (d : Dev) (env : Env) (n : Nat) : Dev :=
  ((d.parityOf n).updFrm n fun f => { f with st := .down, mf := .none }).sectionCa env n

/-- Block lock: the deframer starts HUNT (R209). -/
def Dev.frmHunt (d : Dev) (n : Nat) : Dev := d.updFrm n fun f => { f with st := .hunt, mf := .none }

/-- What the channels of a carrier have received goes; the last MFC accepted of each is kept (R359). -/
def Dev.chansGone (d : Dev) (n : Nat) : Dev := { d with chan := d.chan.map fun kv => if kv.1 / 128 = n then (kv.1, { Chan.reset with mfc := kv.2.mfc }) else kv }

/-- What a carrier has received of the frame of chapter 9 is of no use on an interop profile: its trace, its overhead and its channels start anew (R226). -/
def Dev.frameGone (d : Dev) (n : Nat) : Dev :=
  (d.updFrm n fun f => { f with ttiRx := none, tim := false, sbdi := false, rsRx := List.replicate 5 0 }).chansGone n

/-- TIM as it stands (R213): declared while an accepted TTI differs from the expected one and P_FRM_TIM_MODE is 1 or 2; mode 2 acts. -/
def Dev.timEval (d : Dev) (env : Env) (n : Nat) : Dev :=
  let f := d.frm n
  let mode := env.par.nat (pFrmTimMode + n)
  let now := decide (mode ≠ 0) && match f.ttiRx with
    | some t => decide (t ≠ f.ttiExp)
    | none => false
  let d1 := d.updFrm n fun f => { f with tim := now }
  let d2 := if now && !f.tim then d1.raise .tim n ((f.ttiRx.getD []).take 12 |>.map fun b => (1, (b.toNat : Int))) else d1
  if now && decide (mode = 2) then d2.sectionCa env n else d2

/-- Do the defects of a channel act on it? AIS, OCI and ENCM do, BMM with P_FRM_BMM_ACT (Table 9-6). -/
def Dev.defectsAct (env : Env) (ch : Nat) (x : Nat) : Bool :=
  bitAt x 0 || bitAt x 1 || bitAt x 2 || (bitAt x 3 && env.par.on (pFrmBmmAct + ch / 128))

/-- Do they act by all-ones: OCI, or BMM with P_FRM_BMM_ACT (Table 9-6)? -/
def Dev.defectsOnes (env : Env) (ch : Nat) (x : Nat) : Bool := bitAt x 1 || (bitAt x 3 && env.par.on (pFrmBmmAct + ch / 128))

/-- Report merged path defects, at most once every 10 ms per channel (R220). -/
def Dev.reportPath (d : Dev) (env : Env) (ch : Nat) : Dev :=
  let c := d.chanAt ch
  let due := match c.raisedAt with
    | none => true
    | some t => decide (t + 10 * ms ≤ env.now)
  if due && decide (c.raised ≠ 0 ∨ c.cleared ≠ 0) then
    (d.raise .pathDefect ch [(1, c.raised), (1, c.cleared)]).updChan ch fun c => { c with raised := 0, cleared := 0, raisedAt := some env.now }
  else d

end Sys2Proof.Machine
end

