-- ==== Sys2Proof/Machine/CalOps.lean ====
section
/-! DEFINITION. Machine/CalOps.lean: calibration rounds as operations (R169 to R183). -/

namespace Sys2Proof.Machine

def Cal.convAt (c : Cal) (k : Nat) : Conv := c.conv.get .factory k
def Cal.updConv (c : Cal) (k : Nat) (f : Conv → Conv) : Cal := { c with conv := c.conv.upd .factory k f }

/-- Converters 0 to 3 are ADCs with 64 working positions, 4 to 7 DACs with 32 (R169, R178). -/
def isAdc (k : Nat) : Bool := decide (k < 4)
def positions (k : Nat) : Nat := if isAdc k then 64 else 32

/-- The working position of sample `k` (R169). -/
def samplePosition (conv k : Nat) : Nat := k % positions conv

/-- The track-and-hold stage of an ADC behind which position `j` sits (Table 7-1). -/
def trackHold (j : Nat) : Nat := j % 4

/-- Is `x`/`y` kS/s the rate of one slice at a point: Fs over the number of positions (Table 7-1)? -/
def OpPoint.sliceRate (p : OpPoint) (conv : Nat) : Nat × Nat := (rhoNum p.osr * p.rsNum, rhoDen p.osr * p.rsDen * positions conv)

/-- Do two points have one Fs, exactly (R95, R177)? -/
def OpPoint.sameFs (p q : OpPoint) : Bool :=
  decide (rhoNum p.osr * p.rsNum * (rhoDen q.osr * q.rsDen) = rhoNum q.osr * q.rsNum * (rhoDen p.osr * p.rsDen))

/-- Does a converter's Fs change when its point becomes `q`? From no point it does (log entry 17). -/
def fsChanges (p : Option OpPoint) (q : OpPoint) : Bool := !(p.any fun p => p.sameFs q)

/-- Masks of the ADCs, the DACs and all eight converters (R178). -/
abbrev maskAdc : Nat := 0x0F
abbrev maskDac : Nat := 0xF0
abbrev maskAll : Nat := 0xFF

/-- Temperature of the die that carries carrier `n`: CV0 for C0 and C1, CV1 for C2 and C3 (R176). -/
def Dev.convTemp (d : Dev) (n : Nat) : Int := if n < 2 then d.pw.tjCv0 else d.pw.tjCv1

/-- A correction within the ranges of Table 7-2, in steps of its resolutions; skew in steps of 2 fs, linearity for each of the 256 codes (R169, R170). The
side taps are the bandwidth response's at 400 GS/s. Which neighbour an odd skew takes, and what a code without an entry has, is log entry 160. -/
def clampTo (lim : Nat) (v : Int) : Int := max (-(lim : Int)) (min lim v)
def evenFs (v : Int) : Int := 2 * (v / 2)
def heldCorr (c : Correction) : Correction :=
  { offset := clampTo 512 c.offset, gain := clampTo 1000 c.gain, skew := evenFs (clampTo 2000 c.skew), bwL := clampTo 512 c.bwL, bwR := clampTo 512 c.bwR,
    lin := (List.range 256).map fun i => clampTo 128 (c.lin.getD i 0) }

/-- The correction of a position; factory corrections come from fuses (R175). -/
def Conv.at_ (c : Conv) (n k pos : Nat) : Correction :=
  let f : Correction := ⟨Config.factoryCal n k pos 0, Config.factoryCal n k pos 1, Config.factoryCal n k pos 2, Config.factoryCal n k pos 3,
    Config.factoryCal n k pos 4, (List.range 256).map fun i => Config.factoryCal n k pos (5 + i)⟩
  c.corr.get (heldCorr f) pos

/-- What draw `f` gives as the correction of a position (log entry 161). -/
def foundAt (f k pos : Nat) : Correction :=
  heldCorr ⟨Config.calFound f k pos 0, Config.calFound f k pos 1, Config.calFound f k pos 2, Config.calFound f k pos 3, Config.calFound f k pos 4,
    (List.range 256).map fun i => Config.calFound f k pos (5 + i)⟩

def within (v : Int) (lim : Nat) : Bool := decide (v.natAbs ≤ lim)

/-- The first quantity out of the ranges of Table 7-2, as CAL_SLICE_FAIL_Cn codes it: offset and gain where they were found, skew and bandwidth where they
were estimated, linearity where it was measured. -/
def correctionOut (m : Correction) (adc og est lin : Bool) : Option Nat :=
  if og && !within m.offset 512 then some 0
  else if og && !within m.gain 1000 then some 1
  else if est && !within m.skew 2000 then some 2
  else if est && adc && !(within m.bwL 512 && within m.bwR 512) then some 3
  else if lin && !adc && !(m.lin.all fun v => within v 128) then some 4
  else none

/-- One round's step of a gradually applied correction: at most 20 fs of skew or 0.02 dB of gain (R173). -/
def stepTowards (old new : Int) : Int := old + max (-20) (min 20 (new - old))

/-- The correction after a round (R172, R173, R180): offset and gain where they were found, linearity where it was measured; gain and skew move by a step,
bandwidth moves whole. `goal` is where skew and bandwidth go, if anywhere. -/
def correctionFollow (old m : Correction) (og lin : Bool) (goal : Option (Int × Int × Int)) : Correction :=
  let (s, l, r) := goal.getD (old.skew, old.bwL, old.bwR)
  { offset := if og then m.offset else old.offset, gain := if og then stepTowards old.gain m.gain else old.gain, lin := if lin then (heldCorr m).lin else old.lin,
    skew := stepTowards old.skew s, bwL := l, bwR := r }

/-- Line frames `f` into a move over `a` frames: linear from the old value to the new (R173). How a fraction rounds is log entry 160. -/
def between (old new : Int) (f a : Nat) : Int := if a ≤ f then new else old + (new - old) * f / a

/-- The share of a move that is done: line frames since it began, or all of it where none is in progress (R173). -/
def Conv.moved (v : Conv) (now a : Nat) : Nat :=
  match v.applySince with
  | some t => framesIn (now - t)
  | none => a

/-- The operating point that fixes a converter's Fs. -/
def Dev.convPoint (d : Dev) (n k : Nat) : Option OpPoint := if isAdc k then (d.rx n).op else (d.tx n).op

/-- Side taps at the Fs of a point: those held are the taps at 400 GS/s (R170, R175). -/
def OpPoint.sideTaps (p : OpPoint) (l r : Int) : Int × Int :=
  let num := rhoNum p.osr * p.rsNum
  let den := rhoDen p.osr * p.rsDen
  if num = 400000000 * den then (l, r)
  else
    let t := Config.bandwidthAt num den l r
    (clampTo 512 t.1, clampTo 512 t.2)

/-- The correction in force at a position: gain, skew and bandwidth on their way since the end of the converter's last round, every position with the same
weight (R173), the bandwidth re-sampled for the current Fs (R170, R182). Offset is in LSB, gain in 0.001 dB and skew in fs at every rate. -/
def Dev.correctionNow (d : Dev) (env : Env) (n k pos : Nat) : Correction :=
  let v := (d.cal n).convAt k
  let new := v.at_ n k pos
  let old := v.was.get new pos
  let a := env.par.nat (pCalApply + n)
  let f := v.moved env.now a
  let l := between old.bwL new.bwL f a
  let r := between old.bwR new.bwR f a
  let taps := ((d.convPoint n k).map fun p => p.sideTaps l r).getD (l, r)
  { new with gain := between old.gain new.gain f a, skew := evenFs (between old.skew new.skew f a), bwL := taps.1, bwR := taps.2 }

/-- A slice measured out of range for the second round running is failed: the spare takes its position with the correction it was fitted to, or it stays
with its last good correction (R180). -/
def Dev.sliceFail (d : Dev) (n k pos q : Nat) : Dev :=
  let c := (d.cal n).convAt k
  if c.spareUsed = false then
    let (f, d1) := d.draw
    (d1.updCal n fun x => x.updConv k fun c =>
      { c with spareAt := some pos, failCount := c.failCount + 1, strikes := c.strikes.erase pos, corr := c.corr.set pos (foundAt f k pos) }).raise
      .calSliceFail n [(1, k), (1, pos), (1, q)]
  else if c.failed.contains pos then d
  else (d.updCal n fun x => x.updConv k fun c => { c with failed := pos :: c.failed, failCount := c.failCount + 1 }).raise
      .calConvFail n [(1, k), (1, pos)]

/-- A slice out of range: the second round running it has failed (R180). -/
def Dev.strike (d : Dev) (n k pos q : Nat) : Dev :=
  if ((d.cal n).convAt k).strikes.contains pos then d.sliceFail n k pos q
  else d.updCal n fun x => x.updConv k fun c => { c with strikes := pos :: c.strikes }

/-- Do the blind estimates of converter `k` count? Not on an ADC for which loss of signal was declared during the round (R172). -/
def Cal.estimates (c : Cal) (k : Nat) : Bool := !(isAdc k && c.losSeen)

/-- Does converter `k` keep its tone result (R172)? -/
def Cal.keepsTone (c : Cal) (env : Env) (n k : Nat) : Bool := isAdc k && env.par.on (pCalSkewSrc + n) && (c.convAt k).toneValid

/-- Where a round moves skew and bandwidth: to the tone result that is kept, to the blind estimate, or nowhere (R172). -/
def Cal.goal (c : Cal) (env : Env) (n k : Nat) (s : Nat × Correction) : Option (Int × Int × Int) :=
  if c.keepsTone env n k then some ((c.convAt k).tone.get ((heldCorr s.2).skew, s.2.bwL, s.2.bwR) s.1)
  else if c.estimates k then some ((heldCorr s.2).skew, s.2.bwL, s.2.bwR)
  else none

/-- One position of a converter's report at the end of its round. With the spare used steps 1 to 5 are skipped: offset and gain come from blind statistics,
linearity stays; a failed slice keeps its last good correction (R180). A position handed back before has its offset and linearity from then (R173). -/
def Dev.calSlice (d : Dev) (env : Env) (n k : Nat) (s : Nat × Correction) : Dev :=
  let x := d.cal n
  let c := x.convAt k
  let est := x.estimates k
  let og := est || !c.spareUsed
  let lin := !c.spareUsed
  if c.failed.contains s.1 then d
  else match correctionOut s.2 (isAdc k) og est lin with
  | some q => d.strike n k s.1 q
  | none =>
    let old := c.at_ n k s.1
    let goal := x.goal env n k s
    let moved := correctionFollow old s.2 og lin goal
    let new := if s.1 < c.handed then { moved with offset := old.offset, lin := old.lin } else moved
    d.updCal n fun x => x.updConv k fun c =>
      { c with strikes := c.strikes.erase s.1, corr := c.corr.set s.1 new, was := c.was.set s.1 old,
               pendingSkew := c.pendingSkew || goal.any fun g => decide (g.1 ≠ new.skew),
               pendingGain := c.pendingGain || (og && decide (s.2.gain ≠ new.gain)) }

/-- Does a report list every working position once, in the order a round visits them (R171)? -/
def reportWhole (r : ConvReport) : Bool := decide (r.slices.map (·.1) = List.range (positions r.conv))

/-- One converter's report at the end of its round, which starts its gradual application. What waits of a skew whose estimate does not count goes on
waiting (R173). -/
def Dev.calReport (d : Dev) (env : Env) (n : Nat) (r : ConvReport) : Dev :=
  let moves := (d.cal n).keepsTone env n r.conv || (d.cal n).estimates r.conv
  let d1 := d.updCal n fun x => x.updConv r.conv fun c => { c with was := [], applySince := some env.now, pendingSkew := c.pendingSkew && !moves, pendingGain := false }
  let d2 := r.slices.foldl (fun d s => d.calSlice env n r.conv s) d1
  d2.updCal n fun x => x.updConv r.conv fun c =>
    { c with rounds := c.rounds + 1, lastEnd := some env.now, tempLast := d.convTemp n, skewRms := r.skewRms, gainDev := r.gainDev, offsetDev := r.offsetDev }

/-- The converters of a mask. -/
def convs (mask : Nat) : List Nat := (List.range 8).filter fun k => bitAt mask k

/-- Is a converter's round one that takes slices out (R180)? -/
def Cal.rotating (c : Cal) (k : Nat) : Bool := decide (c.phase = .initial ∨ c.phase = .round) && bitAt c.left k && !(c.convAt k).spareUsed

/-- The fewest positions that converter `k` has done by now: 1.5 ms each at most, and what a status has shown already (R171). -/
def Cal.leastDone (c : Cal) (now k : Nat) : Nat := min (positions k) (max (max (c.convAt k).handed (c.convAt k).shown) ((now - c.roundSince) / (1500 * us)))

/-- A number from `lo` to `hi` as a free value gives it. -/
def pickFrom (f lo hi : Nat) : Nat := lo + f % (hi - lo + 1)

/-- May a round run on carrier `n`? (R175, R22) -/
def Dev.canCalibrate (d : Dev) (n : Nat) : Bool := d.inService && d.domOn (domCarrier n) && !(d.carrier n).heldDown

/-- A round on the converters of `mask` begins (R171, R179). -/
def Cal.begin (c : Cal) (now : Nat) (phase : CalPhase) (mask trigger : Nat) (los : Bool) : Cal :=
  { c with phase := phase, mask := mask, left := mask, trigger := trigger, losSeen := los, roundSince := now,
           conv := (convs mask).foldl (fun t k => t.upd .factory k fun v => { v with trigger := trigger, shown := 0, handed := 0 }) c.conv }

/-- A round starts on the converters of `mask`; a trigger during a round starts no second one (R171, R177). -/
def Dev.startRound (d : Dev) (env : Env) (n mask trigger : Nat) : Dev :=
  if (d.cal n).phase = .initial ∨ (d.cal n).phase = .round ∨ d.canCalibrate n = false then d
  else d.updCal n fun c => c.begin env.now .round mask trigger (d.rx n).los

/-- A position is handed back before its round's end: offset and linearity are the new ones, gain and skew wait for the end (R171, R173, R178). -/
def Conv.visited (v : Conv) (n k : Nat) (s : Nat × Correction) : Conv :=
  if s.1 < v.handed ∨ (correctionOut s.2 (isAdc k) true false true).isSome then v
  else
    let old := v.at_ n k s.1
    { v with corr := v.corr.set s.1 { old with offset := s.2.offset, lin := if isAdc k then old.lin else s.2.lin } }

/-- Positions of converter `k` are handed back, in a round's order from 0 (R171). -/
def Conv.handBack (v : Conv) (n k : Nat) (l : List (Nat × Correction)) : Conv :=
  { l.foldl (fun v s => v.visited n k s) v with handed := max v.handed l.length }

/-- Does a report list positions as a round visits them, from 0 on (R171)? -/
def prefixOk (r : ConvReport) : Bool :=
  decide (r.slices.length ≤ positions r.conv ∧ r.slices.map (·.1) = List.range r.slices.length)

/-- The positions a cut round has visited on converter `k`, the one that is handed back among them: as `got` reports them, in their order from 0, or free
values (log entry 161). -/
def Cal.handedBack (c : Cal) (now f k : Nat) (got : List ConvReport) : List (Nat × Correction) :=
  match got.find? fun r => decide (r.conv = k) && prefixOk r with
  | some r => r.slices
  | none => (List.range (pickFrom (Config.calFound f k 0 300).toNat (c.leastDone now k) (positions k))).map fun p => (p, foundAt f k p)

/-- A round is given up: the current position is handed back, positions visited keep their new offset and linearity, and skew, bandwidth and gain stay
(R173, R178, R182). -/
def Dev.stopRound (d : Dev) (env : Env) (n : Nat) (got : List ConvReport) : Dev :=
  if (d.cal n).phase = .initial ∨ (d.cal n).phase = .round then
    let (f, d1) := d.draw
    d1.updCal n fun c =>
      let c1 := ((List.range 8).filter c.rotating).foldl (fun x k => x.updConv k fun v => v.handBack n k (c.handedBack env.now f k got)) c
      { c1 with phase := .idle, left := 0, prevEnd := env.now, prevTemp := d.convTemp n }
  else d

/-- Domain Cn reaches ON (R175): for the first time since OFF the initial calibration starts; a DAC calibration that never ended starts again. -/
def Dev.calDomainOn (d : Dev) (env : Env) (n : Nat) : Dev :=
  if (d.cal n).phase = .factory then
    d.updCal n fun c => { c.begin env.now .initial maskAdc 5 (d.rx n).los with dacBusy := true, dacMask := maskDac }
  else d.updCal n fun c => { c with dacBusy := !c.dacDone, dacMask := if c.dacDone then c.dacMask else maskDac }

/-- A change of Fs: the round in progress is handed back, and a round starts 10 ms later (R177, R182). In hold mode only a round that was cut starts again
(R176, log entry 17). -/
def Dev.calFsChange (d : Dev) (env : Env) (n : Nat) : Dev :=
  let c := d.cal n
  let due := if env.par.val (pCalMode + n) ≠ 0 then [(env.now + 10 * ms, maskAll)]
    else if c.phase = .initial ∨ c.phase = .round then [(env.now + 10 * ms, c.mask)] else []
  (d.stopRound env n []).updCal n fun c => { c with fsDue := c.fsDue ++ due }

/-- Has a DAC initial calibration ended since domain Cn came ON, and does none run? (R116, R175) -/
def Dev.dacCalDone (d : Dev) (n : Nat) : Bool := (d.cal n).dacDone && !(d.cal n).dacBusy

/-- AGE of a converter in seconds, saturating; zero before the first completed round (Table 7-6). -/
def Conv.age (c : Conv) (now : Nat) : Nat :=
  match c.lastEnd with
  | some t => min 0xFFFFFFFF ((now - t) / sec)
  | none => 0

/-- P_CAL_AGE_MAX (R183). -/
def Dev.calAgeMax (d : Dev) (env : Env) (n : Nat) : Nat :=
  (List.range 8).foldl (fun m k => max m (((d.cal n).convAt k).age env.now)) 0

end Sys2Proof.Machine
end

