-- ==== Sys2Proof/Machine/LossOps.lean ====
section
/-! DEFINITION. Machine/LossOps.lean: what a lost receiver, a lost block lock and a failed rate step do downstream (R163, R195, R203, R220, R243). -/

namespace Sys2Proof.Machine

/-! ### FEC (R194, R195, R201) -/

/-- N and the latency mode come into force at CMD_CARRIER_SET and at the start of an acquisition (R203); an interop carrier uses
neither: LATMODE reads 0 (R200), and so does ITER (log entry 164). -/
def Dev.fecCapture (d : Dev) (env : Env) (n : Nat) : Dev :=
  d.updFec n fun f => { f with iter := if d.interop n then 0 else env.par.nat (pFecIter + n), latmode := if d.interop n then 0 else env.par.nat (pFecLatmode + n) }

/-- The decoder goes DOWN; a receive-point injection stops and is not resumed (R201, R203). -/
def Fec.toDown (f : Fec) : Fec :=
  { f with lock := .down, inj := match f.inj with
    | some i => if i.transmit then some i else none
    | none => none }

/-! ### A rate step that fails (R236, R243) -/

/-- STEPS_DONE and STEPS_FAILED of a carrier (Table 20-1). -/
def ctrStepsDone (n : Nat) : Nat := ckey 5 (256 + n)
def ctrStepsFailed (n : Nat) : Nat := ckey 5 (260 + n)

/-- Rate-step operations (R214). -/
abbrev opIdle : Nat := 0
abbrev opReq : Nat := 1
abbrev opAck : Nat := 2
abbrev opNak : Nat := 3
abbrev opCommit : Nat := 4
abbrev opAbort : Nat := 5

/-- Operating point as slots and h; zero where none is set. -/
def pointSlots (p : Option OpPoint) : Nat := match p with
  | some p => p.slots
  | none => 0
def pointH (p : Option OpPoint) : Nat := match p with
  | some p => p.h
  | none => 0

/-- The fields that carrier `n` sends at time `now`: NAK and ABORT give way to IDLE after 2 multiframes, with the point in force on this transmitter (Table 10-2). A
multiframe lasts 13,107.2 ns. -/
def Dev.rsSent (d : Dev) (n now : Nat) : RsFields :=
  let r := d.rate n
  if (r.tx.op = opNak ∨ r.tx.op = opAbort) ∧ r.txSince * 10 + 262144 ≤ now * 10 then ⟨opIdle, r.seq, pointSlots (d.tx n).op, pointH (d.tx n).op, 0⟩ else r.tx

/-- A transmitter sends new rate-step fields. -/
def Dev.sendRs (d : Dev) (env : Env) (n : Nat) (f : RsFields) : Dev := d.updRate n fun r => { r with tx := f, txSince := env.now }

/-- Reservations of a step are released and the allowance is restored (R237). -/
def Dev.releaseStep (d : Dev) (n : Nat) : Dev :=
  let d1 := if (d.rx n).build.any (fun b => decide (b.why = .rateStep)) then d.dropBuild n else d
  d1.updRate n fun r => { r with shadow := false, loading := false, throttling := false, throttled := false }

/-- Where a carrier stands when a step has failed: in SPLIT still, where its two directions still differ (R243). -/
def Dev.restState (d : Dev) (n : Nat) : RsState := if (d.rate n).split && decide ((d.tx n).op ≠ (d.rx n).op) then .split else .idle

/-- RATE_BLOCKED_Cn, at most once every 60 s (R245). -/
def Dev.rateBlocked (d : Dev) (env : Env) (n reason status : Nat) : Dev :=
  let due := match (d.rate n).blockedAt with
    | none => true
    | some t => decide (t + 60 * sec ≤ env.now)
  if due then (d.updRate n fun r => { r with blockedAt := some env.now }).raise .rateBlocked n [(1, reason), (1, status)] else d

/-- A step ends with RATE_STEP_FAIL_Cn: it is counted, and its command completes where it still runs (R236, R243). An automatic one that was refused, by the far end
or by an interlock, blocks its policy (R245). -/
def Dev.stepFail (d : Dev) (env : Env) (n cause : Nat) (st : Status) (detail : Nat) : Dev :=
  let r := d.rate n
  let d1 := (d.releaseStep n).updRate n fun r => { r with st := d.restState n, lastCause := cause, lastDuration := (env.now - r.start) / us, auto := false }
  let d2 := ((d1.count (ctrStepsFailed n) 1).raise .rateStepFail n [(1, cause)]).finish 0x0501 n st detail []
  if r.auto && r.uncommitted && decide (cause ≤ 8 ∨ cause = 14) then d2.rateBlocked env n 2 st.code else d2

/-- A step not yet committed is abandoned with ABORT sent (R243). -/
def Dev.stepAbandon (d : Dev) (env : Env) (n cause : Nat) (st : Status) (detail : Nat) : Dev :=
  let r := d.rate n
  (d.sendRs env n ⟨opAbort, r.seq, r.slots, r.h, 0⟩).stepFail env n cause st detail

/-- D = D_L + D_T (R128). -/
def Rx.cd (r : Rx) : Int := r.dL + r.dT

/-- A loaded set comes into use; the trim takes the value that keeps D (R133). -/
def Rx.takeSet (r : Rx) (b : Build) : Rx :=
  { r.setTrim (r.cd - b.dL) with build := none, stale := false, rebuild := false, dL := b.dL, recentreDeferred := false, trimLimitRaised := false }

/-- The ADCs change their Fs where the receive direction takes point `p` (R177, R241). -/
def Dev.calPoint (d : Dev) (env : Env) (n : Nat) (p : OpPoint) : Dev := if fsChanges (d.rx n).op p then d.calFsChange env n else d

/-- The receive direction takes the point of a step; a step that was to bring a set (`sh`) switches the CD stage to it (R241). Where the set was recalled, the
active one is unchanged: its contents are for the old Rs, and it may be short of the need (R134, R137). -/
def Dev.takePoint (d : Dev) (env : Env) (n : Nat) (sh : Bool) (p : OpPoint) : Dev :=
  let d1 := (d.calPoint env n p).updRx n fun x => { x with op := some p, repeatAt := none }
  if sh then
    match (d.rx n).build with
    | some b => (d1.switchSets n).updRx n fun r => r.takeSet b
    | none => d1.updRx n fun r => { r with stale := true, short := decide (d1.setSize n < d1.needOf n) }
  else d1

/-- The receiver misses the far end's switch (R243): RATE_STEP_FAIL_Cn with cause MISSED_SWITCH, and re-acquisition at the new point first. The
local transmitter's own switch is irrevocable: a countdown still running goes on. -/
def Dev.missSwitch (d : Dev) (env : Env) (n : Nat) : Dev :=
  let r := d.rate n
  let d2 := (d.takePoint env n r.shadow ⟨0, r.slots, r.h⟩).updRate n fun r =>
    { r with missed := some true, shadow := false, rxDone := true, split := false, st := if r.txDone then .idle else r.st, lastCause := 11,
             lastDuration := (env.now - r.start) / us }
  (d2.count (ctrStepsFailed n) 1).raise .rateStepFail n [(1, 11)]

/-- What a loss of frame, of lock or of block lock does to a rate step on the carrier (R243). -/
def Dev.stepLoss (d : Dev) (env : Env) (n : Nat) : Dev :=
  let r := d.rate n
  if r.uncommitted then d.stepAbandon env n 9 .timeout 0
  else if (r.st = .committed ∨ r.st = .txSwitched) ∧ r.rxDone = false then d.missSwitch env n
  else d

/-- A carrier is made DARK or its domain goes OFF during a step: cause DARK, and the local transmitter's point is kept for both directions (R243).
A running command completes as `st` says. -/
def Dev.stepDark (d : Dev) (env : Env) (n : Nat) (st : Status) : Dev :=
  if d.rateBusy n then
    ((((d.tx n).op.elim d fun p => d.calPoint env n p).stepFail env n 13 st 0).updCarrier n fun c => { c with rx := { c.rx with op := c.tx.op } }).updRate n fun r =>
      { r with st := .idle, split := false, tx := { r.tx with op := opIdle, cd := 0 } }
  else d

/-! ### The receiver leaves LOCKED (R163, R195, R220) -/

/-- Everything behind a receiver that has left LOCKED: the decoder goes DOWN, the deframer goes DOWN with all-ones, a step is abandoned or missed. -/
def Dev.rxLost (d : Dev) (env : Env) (n : Nat) : Dev :=
  ((d.updFec n Fec.toDown).frmDown env n).stepLoss env n

/-- The receiver enters LOCKED: the decoder begins its search (R194); a re-acquisition after a missed switch has found its point (R243). -/
def Dev.rxLocked (d : Dev) (n : Nat) : Dev :=
  (d.updFec n fun f => { f with lock := .search }).updRate n fun r => { r with missed := none }

/-- IDLE names the last sequence number and the point in force on this transmitter (Table 10-2). -/
def Dev.sendIdle (d : Dev) (env : Env) (n : Nat) : Dev :=
  d.sendRs env n ⟨opIdle, (d.rate n).seq, pointSlots (d.tx n).op, pointH (d.tx n).op, 0⟩

/-- CMD_CARRIER_SET has given both directions a new point: class O FEC settings come into force (R203), a change of Fs restarts calibration (R177), a
split carrier is at one point again, and the overhead names the new point (R243, Table 10-2). -/
def Dev.carrierConfigured (d : Dev) (env : Env) (n : Nat) (rateChanges : Bool) : Dev :=
  let rs := match (d.tx n).op with
    | some p => p.symrate
    | none => 0
  let d1 := (d.fecCapture env n).updRate n fun r => { r with setRate := rs, missed := none, split := false, st := if r.st = .split then .idle else r.st }
  let d2 := d1.sendIdle env n
  if rateChanges then d2.calFsChange env n else d2

/-- The framer and the encoder start at an edge of the device multiframe epoch: frame 0, block 0, no step (R116, R185, R205). -/
def Dev.txEpochStart (d : Dev) (env : Env) (n : Nat) : Dev := (d.sendIdle env n).updFrm n fun f => { f with txStart := env.now }

end Sys2Proof.Machine
end

