-- ==== Sys2Proof/Machine/BreezeOps.lean ====
section
/-! DEFINITION. Machine/BreezeOps.lean: packets, tone and contexts of Breeze (R432 to R438). -/

namespace Sys2Proof.Machine

def Dev.brz (d : Dev) (n : Nat) : Breeze := d.breeze.get .reset n
def Dev.updBrz (d : Dev) (n : Nat) (f : Breeze → Breeze) : Dev := { d with breeze := d.breeze.upd .reset n f }

/-- Counters of Breeze (Table 20-1): 0 RX_OK, 1 CRC_ERR, 2 CAPTURED, 3 FALSE, 4 IGNORED, 5 TX_PKTS, 6 TX_ABORTS. -/
def ctrBrz (k n : Nat) : Nat := ckey 12 (4 * k + n)

/-- One bit into the CRC of R432: polynomial 0x1021, most significant bit first. -/
def crc16Bit (crc : Nat) (bit : Bool) : Nat :=
  let top := xor (bitAt crc 15) bit
  let sh := crc * 2 % 65536
  if top then sh ^^^ 0x1021 else sh

def crc16Byte (crc : Nat) (b : Byte) : Nat :=
  ([7, 6, 5, 4, 3, 2, 1, 0] : List Nat).foldl (fun c k => crc16Bit c (bitAt b.toNat k)) crc

/-- The CRC over LEN and the payload: initial value 0xFFFF, no reflection, no final XOR (R432). -/
def brzCrc (bs : List Byte) : Nat := bs.foldl crc16Byte 0xFFFF

/-- A packet as sent: preamble, sync word, LEN, payload, CRC, each byte most significant bit first (R432). -/
def brzLine (c : BrzCfg) (data : List Byte) : List Byte :=
  let body := BitVec.ofNat 8 data.length :: data
  (if c.rate = 2 then List.replicate 8 (0x77 : Byte) else List.replicate 4 (0xAA : Byte)) ++ beBytes 4 c.sync ++ body ++ beBytes 2 (brzCrc body)

/-- A packet is aborted: 0 MUTED, 1 DARK, 2 DISABLED (R434). -/
def Dev.brzAborted (d : Dev) (n cause : Nat) (p : BrzPacket) : Dev :=
  (d.count (ctrBrz 6 n) 1).raise .breezeTxAbort n [(2, p.tag), (1, cause)]

/-- The queued packets are aborted (R434). -/
def Dev.brzFlush (d : Dev) (n cause : Nat) : Dev :=
  (d.brz n).queue.foldl (fun d p => d.brzAborted n cause p) (d.updBrz n fun b => { b with queue := [] })

/-- A running CMD_BRZ_TX_ENABLE ends. -/
def Dev.brzFinish (d : Dev) (n : Nat) (st : Status) : Dev := d.finish 0x0C01 n st 0 []

/-- A running CMD_BRZ_TX_ENABLE that an event ends is withdrawn (R16, R512). -/
def Dev.brzWithdrawn (d : Dev) (env : Env) (n : Nat) : Dev :=
  match env.runs 0x0C01 n with
  | some on => d.updBrz n fun b => { b with en := !on, disabling := false }
  | none => d

/-- The output stops with the carrier (R434): the packet in progress is aborted; in DARK the queue too. In MUTED a running enable or disable ends: the
tone starts with the output again, or the disable has nothing left to wait for (R439); DARK has withdrawn it before (R512). -/
def Dev.breezeAbort (d : Dev) (n cause : Nat) : Dev :=
  let b := d.brz n
  let d1 := d.updBrz n fun b => { b with tone := .off, cur := none, line := [], disabling := false }
  let d2 := match b.cur with
    | some p => d1.brzAborted n cause p
    | none => d1
  let d3 := if cause = 1 then d2.brzFlush n 1 else d2
  if b.tone = .off ∧ b.disabling = false then d3 else d3.brzFinish n .ok

/-- A context that is not listening. -/
def BrzCtx.busy : BrzCtx → Bool
  | .listening => false
  | .sync _ _ _ => true
  | .recv _ _ => true

/-- Loss of signal: a candidate or packet is abandoned and counted in CRC_ERR (R443). -/
def Dev.breezeRxLost (d : Dev) (n : Nat) : Dev :=
  let b := d.brz n
  (d.updBrz n fun b => { b with ctx0 := .listening, ctx1 := .listening }).count (ctrBrz 1 n) (b2n b.ctx0.busy + b2n b.ctx1.busy)

/-- A native operating point (R99). -/
def Dev.nativePoint (d : Dev) (n : Nat) : Bool := (d.rx n).op.any fun p => decide (p.profile = 0)

/-- Does the receiver work (R435)? -/
def Dev.brzListens (d : Dev) (env : Env) (n : Nat) : Bool :=
  d.inService && d.domOn (domCarrier n) && d.nativePoint n && env.par.on (pBrzRxEn + n) && !(d.rx n).los

/-- Is the output ON, with a tone that may use it (R107)? -/
def Dev.brzOutput (d : Dev) (n : Nat) : Bool := decide ((d.tx n).state = .on) && d.nativePoint n

/-- The settings in force by the parameters. -/
def Env.brzTx (env : Env) (n : Nat) : BrzCfg := ⟨env.par.nat (pBrzTxFreq + n), env.par.nat (pBrzRate + n), env.par.nat (pBrzSync + n)⟩
def Env.brzRx (env : Env) (n : Nat) : BrzCfg := ⟨env.par.nat (pBrzRxFreq + n), env.par.nat (pBrzRate + n), env.par.nat (pBrzSync + n)⟩

/-- What follows of itself: the tone ramps up where it is due and down where it is not (R433, R434), settings take effect at their boundaries (R437),
and the receiver stops with its carrier. -/
def Dev.brzFollow (d : Dev) (env : Env) (n : Nat) : Dev :=
  let b := d.brz n
  let burst := env.par.on (pBrzTxMode + n)
  let want := b.en && !b.disabling && (!burst || !b.queue.isEmpty) && d.brzOutput n
  let tone := if b.tone = .off ∧ want then .rampUp
    else if b.tone = .on ∧ (b.disabling ∨ (burst ∧ b.queue.isEmpty)) then .rampDown else b.tone
  let rx := d.brzListens env n
  let ctx0 := if rx then b.ctx0 else .listening
  let ctx1 := if rx then b.ctx1 else .listening
  d.updBrz n fun b => { b with
    tone := tone, ctx0 := ctx0, ctx1 := ctx1,
    txCfg := if b.cur.isNone && (!burst || decide (b.tone = .off)) then env.brzTx n else b.txCfg,
    rxCfg := if ctx0.busy || ctx1.busy then b.rxCfg else env.brzRx n }

/-- A carrier's ring and the place of an entry in it (R438). -/
def brzOffset (n seq : Nat) : Nat := 0x3F400000 + 0x1000 * n + 128 * (seq % 32)

/-- The modulation of a rate (Table 18-1): bits in 0.1 kb/s, symbols in 0.1 kBd, and the deviation in 0.1 kHz of each symbol, by the bits it carries. -/
def brzBitRate (rate : Nat) : Nat := if rate = 0 then 48 else if rate = 1 then 96 else 192
def brzSymbolRate (rate : Nat) : Nat := if rate = 0 then 48 else 96
def brzDeviation (rate : Nat) (first second : Bool) : Int :=
  if rate = 0 then (if first then 12 else -12)
  else if rate = 1 then (if first then 24 else -24)
  else if first then (if second then -72 else -24) else if second then 72 else 24

/-! ### A context's judgements (R435, R436) -/

/-- The preamble of a rate as symbols, from its first, in Hz: 1 and 0, or dibits 01 and 11 (R432). -/
def preambleSymbol (rate i : Nat) : Int :=
  100 * (if rate = 2 then brzDeviation rate (decide (i % 2 = 1)) true else brzDeviation rate (decide (i % 2 = 0)) false)

/-- A preamble is declared after 16 consecutive symbols that match it from either phase, at a depth of at least P_BRZ_RX_MIN (R435, step 1). -/
def preambleDeclared (rate minDepth level : Nat) (seen : List Int) : Bool :=
  decide (seen.length = 16 ∧ minDepth ≤ level)
    && ((decide (seen = (List.range 16).map (preambleSymbol rate))) || decide (seen = (List.range 16).map fun i => preambleSymbol rate (i + 1)))

/-- A tone that the receiver takes for the one of `khz`: an offset of up to 1 kHz is tolerated (Table 18-2); a tone further off is another's (log entry 187). -/
def toneAt (khz : Nat) (hz : Int) : Bool := decide ((hz - 1000 * khz).natAbs ≤ 1000)

/-- The sync word is found where the last 32 bits differ from P_BRZ_SYNC in at most two (R435, step 2). -/
def syncFound (sync : Nat) (last : List Bool) : Bool :=
  decide (last.length = 32) && decide (countTrue (List.zipWith xor last (natBits 32 sync)) ≤ 2)

/-- It ends within 64 symbol times of the declaration (step 2): so many 100 ps. -/
def syncInTime (rate ns : Nat) : Bool := decide (ns * brzSymbolRate rate ≤ 64 * 10000000)

end Sys2Proof.Machine
end

