-- ==== Sys2Proof/Machine/ClockOps.lean ====
section
/-! DEFINITION. Machine/ClockOps.lean: junction temperature, boost and its 60 s window (R89, R90). -/

namespace Sys2Proof.Machine

/-- The highest junction temperature over all dies, in 0.1 °C (R89). -/
def Power.tjMax (p : Power) : Int := max (max p.tjCore p.tjCv0) (max p.tjCv1 p.tjIo)

/-- The lowest die number that gives it: 0 core, 1 CV0, 2 CV1, 3 I/O. -/
def Power.tjDie (p : Power) : Nat :=
  if p.tjCore = p.tjMax then 0 else if p.tjCv0 = p.tjMax then 1 else if p.tjCv1 = p.tjMax then 2 else 3

/-- A temperature in whole °C, truncated towards zero (log entry 29). -/
def wholeDegrees (t : Int) : Int := Int.tdiv t 10

/-- Boost time used in the 60 s that end now, in ms (R90, R481). -/
def Power.boostUsed (p : Power) (now : Nat) : Nat :=
  let runs := match p.boostSince with
    | some t => p.boostRuns ++ [(t, now)]
    | none => p.boostRuns
  sumBy (fun r => r.2 - max r.1 (now - 60 * sec)) runs / ms

/-- 20 s of boost, in ms (R90). -/
def boostLimit : Nat := 20000

/-- Is boost granted (R90)? -/
def Dev.boostGranted (d : Dev) (env : Env) : Bool :=
  d.inService && env.par.on pBoostEnable && !d.pwrWarn && decide (d.pw.tjMax < (env.par.val pThermThrottle - 5) * 10) && !d.pw.throttle
    && !d.pw.boostSpent && decide (d.pw.boostUsed env.now < boostLimit)

/-- A window that holds 20 s of boost is spent, and BOOST_SPENT is raised, once until it frees boost time (R90, log entry 55). -/
def Dev.boostSpend (d : Dev) (env : Env) : Dev :=
  let spent := decide (boostLimit ≤ d.pw.boostUsed env.now)
  let due := d.pw.boost && !d.pw.boostSpent && spent
  Dev.raiseIf { d with pw := { d.pw with boostSpent := due || (d.pw.boostSpent && spent) } } due .boostSpent 0 []

/-- Boost follows its conditions; time at 2.0 GHz is kept as runs, those that have left the window dropped. -/
def Dev.boostFollow (d0 : Dev) (env : Env) : Dev :=
  let d := d0.boostSpend env
  let on := d.boostGranted env
  let runs := on && !d.pw.squall
  let p := d.pw
  let live := p.boostRuns.filter fun r => decide (env.now < r.2 + 60 * sec)
  { d with pw := { p with
      boost := on,
      boostSince := if runs then some (p.boostSince.getD env.now) else none,
      boostRuns := match p.boostSince with
        | some t => if runs then live else live ++ [(t, env.now)]
        | none => live } }

end Sys2Proof.Machine
end

