-- ==== Sys2Proof/Machine/LaneOps.lean ====
section
/-! DEFINITION. Machine/LaneOps.lean: lanes, quads and their modes, the check value, Ethernet port states (R283 to R305, R328). -/

namespace Sys2Proof.Machine

def Dev.lane (d : Dev) (l : Nat) : Lane := d.cli.lane.get .reset l
def Dev.updLane (d : Dev) (l : Nat) (f : Lane → Lane) : Dev := { d with cli := { d.cli with lane := d.cli.lane.upd .reset l f } }
def Dev.updLanes (d : Dev) (ls : List Nat) (f : Lane → Lane) : Dev := ls.foldl (fun d l => d.updLane l f) d

/-- Counters of a lane and of an Ethernet port (Table 20-1). -/
def ctrLane (k l : Nat) : Nat := ckey 6 (64 * k + l)
def ctrEth (k p : Nat) : Nat := ckey 6 (256 + 32 * k + p)
abbrev laneBits : Nat := 0
abbrev laneErr : Nat := 1
abbrev laneRelock : Nat := 2
abbrev laneLos : Nat := 3

/-! ### Check values (R328) -/

/-- One input bit through the register of width `w`. -/
def crcBit (w poly reg : Nat) (b : Bool) : Nat :=
  let sh := reg * 2 % 2 ^ w
  if bitAt reg (w - 1) != b then sh ^^^ poly else sh

/-- The bits of a byte in the order the unit processes them. -/
def crcBits (refin : Bool) (b : Byte) : List Bool :=
  (if refin then [0, 1, 2, 3, 4, 5, 6, 7] else [7, 6, 5, 4, 3, 2, 1, 0]).map (bitAt b.toNat)

/-- A value of `w` bits in reverse order. -/
def reflect : Nat → Nat → Nat
  | 0, _ => 0
  | w + 1, v => v % 2 * 2 ^ w + reflect w (v / 2)

/-- The check value of a byte string (R328). -/
def CvConfig.value (c : CvConfig) (bs : List Byte) : Nat :=
  let reg := bs.foldl (fun r b => (crcBits c.refin b).foldl (crcBit c.width c.poly) r) c.init
  (if c.refout then reflect c.width reg else reg) ^^^ c.xorout

/-! ### Ports and quads (R283 to R285) -/

/-- An Ethernet port that does not exist. -/
def EthPort.absent : EthPort := ⟨0, 0, 0, false, .disabled, false, false, 0, 0, false, false, 0, 0, [], [], 12⟩

def Dev.ethAt (d : Dev) (p : Nat) : EthPort := d.cli.eth.get .absent p
def Dev.hasEth (d : Dev) (p : Nat) : Bool := (d.cli.eth.map (·.1)).contains p
def Dev.updEth (d : Dev) (p : Nat) (f : EthPort → EthPort) : Dev :=
  if d.hasEth p then { d with cli := { d.cli with eth := d.cli.eth.set p (f (d.ethAt p)) } } else d

def Dev.stitch (d : Dev) (p : Nat) : Stitch := d.cli.stitch.get .absent p
def Dev.updStitch (d : Dev) (p : Nat) (f : Stitch → Stitch) : Dev :=
  { d with cli := { d.cli with stitch := d.cli.stitch.upd .absent p f } }
def Dev.hasStitch (d : Dev) (p : Nat) : Bool := decide (0 < (d.stitch p).lanes)

/-- Lanes, and channels, of each port type (Table 12-1). -/
def ethLanes (type : Nat) : Nat := 2 ^ type
def ethChans (type : Nat) : Nat := 8 * 2 ^ type

def EthPort.lanes (p : EthPort) : List Nat := (List.range (ethLanes p.type)).map fun i => p.first + i
/-- A Stitch port's lanes (R284). -/
def Dev.stitchLanes (d : Dev) (p : Nat) : List Nat := (List.range (d.stitch p).lanes).map fun i => 16 * p + i

/-- The Ethernet port, or the Stitch port, that lane `l` belongs to. -/
def Dev.ethOfLane (d : Dev) (l : Nat) : Option Nat := (d.cli.eth.find? fun kv => kv.2.lanes.contains l).map (·.1)
def Dev.stitchOfLane (d : Dev) (l : Nat) : Option Nat := if (d.stitchLanes (l / 16)).contains l then some (l / 16) else none

/-- LANE_MODE of quad `q`: 0 UNUSED, 1 ETH, 2 STITCH (R283). -/
def Dev.quadMode (d : Dev) (q : Nat) : Nat :=
  if d.cli.eth.any (fun kv => kv.2.lanes.any fun l => decide (l / 4 = q)) then 1
  else if (d.stitchLanes (q / 4)).any (fun l => decide (l / 4 = q)) then 2 else 0

/-- Is lane `l`'s quad ON? -/
def Dev.laneOn (d : Dev) (l : Nat) : Bool := d.domOn (domQuad (l / 4))

/-- Is a lane under test? -/
def Lane.underTest (l : Lane) : Bool := decide (l.loopback ≠ 0 ∨ l.gen ≠ 0 ∨ l.chk ≠ 0)

/-- A lane is powered in an ON quad while its port is enabled or it is under test; a Stitch lane needs its reference (R293, R301, R304). -/
def Dev.lanePowered (d : Dev) (l : Nat) : Bool :=
  d.laneOn l && ((d.lane l).underTest
    || (match d.ethOfLane l with
        | some p => (d.ethAt p).enabled
        | none => false)
    || (match d.stitchOfLane l with
        | some p => (d.stitch p).enabled
        | none => false))
    && !(match d.stitchOfLane l with
        | some p => (d.stitch p).srefLost
        | none => false)

/-- Reception on a lane stops: clock recovery, adaptation and the checker start anew when the signal returns (R296). Under NEP the checker sees the lane's own
data, past both analogue paths (Table 12-3). -/
def Lane.stopRx (l : Lane) : Lane :=
  { l with cdr := false, adapt := .off, chkLock := l.chkLock && decide (l.loopback = 2), chkInv := l.chkInv && decide (l.loopback = 2) }

/-- What a lane loses when it powers down or its quad leaves ON. -/
def Lane.powerDown (l : Lane) : Lane := { l.stopRx with los := false, fomLow := 0, chkLock := false, chkInv := false }

/-- Adaptation mode of P_LANE_CFG (R296). -/
def Env.adaptMode (env : Env) (l : Nat) : Nat := bitsAt (env.par.nat (pLaneCfg + l)) 2 2

/-- Initial adaptation starts on a lane whose CDR is locked (R296). -/
def Lane.startAdapt (l : Lane) : Lane := if l.cdr then { l with adapt := .initial } else l

/-- A lane whose receive path does not stand in the way of its port: under NEP both analogue paths are bypassed (Table 12-3, log entry 21). -/
def Lane.signalOk (l : Lane) : Bool := decide (l.loopback = 2) || (!l.los && l.cdr)
def Lane.adaptOk (l : Lane) : Bool := decide (l.loopback = 2) || decide (l.adapt = .tracking ∨ l.adapt = .frozen)

/-! ### The tuning sweep (R316) -/

/-- The 35 points of the sweep: PRE 0, 4, 8, 12, 16 with POST 0, 4, …, 24 (Table 13-3). -/
def sweepPoints : List (Nat × Nat) := [0, 4, 8, 12, 16].flatMap fun pre => [0, 4, 8, 12, 16, 20, 24].map fun post => (pre, post)
def sweepPoint (k : Nat) : Nat × Nat := sweepPoints.getD k (0, 0)

/-- The point with the best FOM; the first one where several are equal. -/
def bestPoint (foms : List Int) : Nat × Nat :=
  ((List.zip sweepPoints foms).foldl (fun (best : Option ((Nat × Nat) × Int)) x => match best with
    | none => some x
    | some b => if b.2 < x.2 then some x else best) none).elim (0, 0) (·.1)

/-- A lane requests a point of its peer, under the next REQ_SEQ; APPLIED_SEQ has yet to confirm it. -/
def Lane.request (x : Lane) (point : Nat × Nat) : Lane := { x with reqFir := point, reqSeq := (x.reqSeq + 1) % 256, confirmedAt := none }

/-- A 1 ms window of a tuning lane: one that began 0.1 ms after the confirmation or later measures the point in force, and the next one is requested, after the
35th the best (Table 13-3). -/
def Lane.sweepWindow (x : Lane) (now : Nat) (fom : Int) : Lane :=
  match x.confirmedAt with
  | none => x
  | some t =>
    if 35 ≤ x.sweep.length ∨ now < t + 1100000 then x
    else
      let all := x.sweep ++ [fom]
      { x with sweep := all }.request (if all.length = 35 then bestPoint all else sweepPoint all.length)

/-- Is the lane's Stitch port in TUNE? -/
def Dev.laneTunes (d : Dev) (l : Nat) : Bool := (d.stitchOfLane l).any fun p => decide ((d.stitch p).st = .tune)

/-! ### Ethernet port state (R305) -/

/-- PORT_STATE as Table 12-7 gives it; where several states apply, the earliest. -/
def Dev.ethState (d : Dev) (p : Nat) : EthState :=
  let x := d.ethAt p
  if !x.enabled then .disabled
  else if x.lanes.any (fun l => !d.laneOn l || !(d.lane l).signalOk) then .noSignal
  else if x.lanes.any (fun l => !(d.lane l).adaptOk) then .adapting
  else if !x.aligned then .noAlign
  else if x.lanes.any (fun l => decide ((d.lane l).gen ≠ 0)) then .test
  else .up

/-- Is the port's bundle carrying traffic? -/
def Dev.ethBundleOn (d : Dev) (p : Nat) : Bool := (d.bundleAt (d.ethAt p).bundle).on
def Dev.ethAdmits (d : Dev) (p : Nat) : Bool := (d.bundleAt (d.ethAt p).bundle).admits

/-- Client fail (R290): enabled and not UP, or disabled while its bundle is enabled, or a quad of it OFF, or in IDLE, which is as OFF for traffic (R308). -/
def Dev.clientFail (d : Dev) (p : Nat) : Bool :=
  let x := d.ethAt p
  d.hasEth p && ((x.enabled && decide (x.st ≠ .up)) || (!x.enabled && d.ethBundleOn p)
    || x.lanes.any fun l => !d.laneOn l && (x.enabled || d.ethBundleOn p))

/-- The UPI of the management frames a port sends now (R290): 0x01 or 0x02 in client fail, 0x02 while it receives Local Fault, 0xFD while it is UP
and receives Remote Fault; 0 for none. -/
def Dev.csfUpi (d : Dev) (p : Nat) : Nat :=
  let x := d.ethAt p
  if d.clientFail p then
    (if !x.enabled || x.lanes.any (fun l => (d.lane l).los || !d.laneOn l) then 1 else 2)
  else if x.enabled && decide (x.rxFault = 1) then 2
  else if decide (x.st = .up) && decide (x.rxFault = 2) then 0xFD
  else 0

/-- A cause of Local Fault toward the client (R291): a channel of the bundle, as delivered, under a consequent action (R252), or delivering none of its data because the
bundle is not enabled, or no longer (R225, R308); GFP delineation lost; a management frame with UPI 0x01 or 0x02 in force. -/
def Dev.lfCause (d : Dev) (p : Nat) : Bool :=
  let x := d.ethAt p
  let b := d.bundleAt x.bundle
  !b.admits || b.chans.any (fun ch => d.chanCa (d.delivered ch)) || !x.gfpSync || decide (x.csf ≠ 0)

/-- In far-end loopback the client sees its own data, whatever the bundle brings (R298, R308). -/
def Dev.ethEchoes (d : Dev) (p : Nat) : Bool := (d.ethAt p).lanes.any fun l => decide ((d.lane l).loopback = 3)

/-- TX_FAULT, what the client is sent: 0 data, 1 Local Fault, 2 Remote Fault (R291, R306, R308). -/
def Dev.txFault (d : Dev) (p : Nat) : Nat :=
  let x := d.ethAt p
  if d.ethEchoes p then 0 else if x.lf || d.lfCause p then 1 else if x.csfRf then 2 else 0

/-- A GFP frame has been delineated: with no cause left, Local Fault ends (R291). -/
def Dev.lfEnd (d : Dev) (p : Nat) : Dev := if d.lfCause p then d else d.updEth p fun x => { x with lf := false }

/-- What follows of itself for a port: lost signal loses alignment, without which no ordered set is received, PORT_STATE moves and is reported, Local Fault starts (R291, R305). -/
def Dev.ethFollow (d : Dev) (p : Nat) : Dev :=
  let old := (d.ethAt p).st
  let new := d.ethState p
  let d1 := d.updEth p fun x =>
    let al := x.aligned && decide (new ≠ .disabled ∧ new ≠ .noSignal ∧ new ≠ .adapting)
    { x with st := new, aligned := al, rxFault := if al then x.rxFault else 0 }
  let d2 := d1.updEth p fun x => { x with lf := x.lf || d1.lfCause p }
  (d2.raiseIf (decide (old = .up ∧ new ≠ .up)) .ethDown p [(1, new.code)]).raiseIf (decide (old ≠ .up ∧ new = .up)) .ethUp p []

end Sys2Proof.Machine
end

