-- ==== Sys2Proof/Machine/StitchOps.lean ====
section
/-! DEFINITION. Machine/StitchOps.lean: a Stitch port's states, flows, credits, Insole and its service by the line frame (R310 to R331). -/

namespace Sys2Proof.Machine

/-- Counters of a Stitch port (Table 20-1). -/
def ctrStitch (k p : Nat) : Nat := ckey 7 (4 * k + p)
abbrev stCellsRx : Nat := 0
abbrev stCellsTx : Nat := 1
abbrev stBad : Nat := 2
abbrev stCheckErr : Nat := 3
abbrev stMisdir : Nat := 4
abbrev stFormat : Nat := 5
abbrev stSeqLost : Nat := 6
abbrev stSeqStale : Nat := 7
abbrev stCreditViol : Nat := 8
abbrev stTxDrop : Nat := 9
abbrev stUnderrun : Nat := 10
abbrev stDownDiscard : Nat := 11

def Dev.stitchUp (d : Dev) (p : Nat) : Bool := decide ((d.stitch p).st = .up)
def Dev.anyStitchUp (d : Dev) : Bool := [0, 1, 2, 3].any d.stitchUp

/-- Is a generator running on a lane of the port? -/
def Dev.stitchTest (d : Dev) (p : Nat) : Bool := (d.stitchLanes p).any fun l => decide ((d.lane l).gen ≠ 0)

/-- PORT_STATE of Table 13-6. ALIGN has no code of its own and reads READY (log entry 22). -/
def Dev.stitchCode (d : Dev) (p : Nat) : Nat :=
  let s := d.stitch p
  if !s.enabled then 0
  else if s.srefLost then 1
  else if d.stitchTest p then 7
  else match s.st with
    | .down => 2
    | .training => 2
    | .tune => 3
    | .ready => 4
    | .align => 4
    | .up => 5
    | .mismatch => 6

/-- The channels of the port's flows, in the order of attachment (R318, R321). -/
def Dev.flowChans (d : Dev) (p : Nat) : List Nat := (d.stitch p).flows.flatMap fun f => (d.bundleAt f.bundle).chans

/-- Channels that a bundle has on receive: an elastic one ends at the top active slot of each direction, which moves at that direction's own frame 0 (R233, R242). -/
def Dev.rxCount (d : Dev) (b : Bundle) : Nat := if b.elastic then d.rxSlots b.carrier - b.first else b.count

/-- The bundle that channel `ch` belongs to on receive. -/
def Dev.rxBundleOf (d : Dev) (ch : Nat) : Option (Nat × Bundle) :=
  d.bundle.find? fun kv => decide (chanNo kv.2.carrier kv.2.first ≤ ch ∧ ch < chanNo kv.2.carrier kv.2.first + d.rxCount kv.2)

/-- The channels of the port's flows on receive, in the order of attachment. -/
def Dev.flowChansRx (d : Dev) (p : Nat) : List Nat := (d.stitch p).flows.flatMap fun f =>
  let b := d.bundleAt f.bundle
  (List.range (d.rxCount b)).map fun i => chanNo b.carrier (b.first + i)

/-- Is channel `ch` attached to port `p` on receive? -/
def Dev.attachedRx (d : Dev) (p ch : Nat) : Bool := (d.rxBundleOf ch).any fun kv => decide (kv.2.attach = .stitch p)

/-- Is channel `ch` attached to port `p`? -/
def Dev.attachedTo (d : Dev) (p ch : Nat) : Bool :=
  match d.bundleOf ch with
  | some kv => decide (kv.2.attach = .stitch p)
  | none => false

/-- Is the bundle of channel `ch` enabled? -/
def Dev.chanOn (d : Dev) (ch : Nat) : Bool :=
  match d.bundleOf ch with
  | some kv => kv.2.on
  | none => false

/-- Does the bundle of channel `ch` admit data toward the line, and does it deliver received data (R225)? -/
def Dev.chanAdmits (d : Dev) (ch : Nat) : Bool := (d.bundleOf ch).any fun kv => kv.2.admits
def Dev.chanDelivers (d : Dev) (ch : Nat) : Bool := (d.rxBundleOf ch).any fun kv => kv.2.admits

def Stitch.chan (s : Stitch) (ch : Nat) : SChan := s.chans.get .reset ch
def Dev.updSChan (d : Dev) (p ch : Nat) (f : SChan → SChan) : Dev :=
  d.updStitch p fun s => { s with chans := s.chans.upd .reset ch f }

/-- Extra allowance of a channel (R321). -/
def Stitch.extraOf (s : Stitch) (ch : Nat) : Nat := sumBy (fun f => f.extra.get 0 ch) s.flows

/-- Reserve cells in use by all ports (R321). -/
def Dev.reserveUsed (d : Dev) : Nat := sumBy (fun kv => sumBy (fun f => sumBy (·.2) f.extra) kv.2.flows) d.cli.stitch

/-- The reserve of Insole (R33). -/
def reserveCells : Nat := 1536

/-- Extra cells per channel that an RTT needs: max(13, ceil(RTT × 25 Gb/s ÷ 3,968 bit)), capped at 26, less 13 (R321). -/
def extraNeeded (rtt : Nat) : Nat := min 26 (max 13 (ceilDiv (rtt * 25) 3968)) - 13

/-- Give each channel of the port its extra cells, in the order of attachment, while the reserve lasts; an allowance is never lowered (R321). -/
def Dev.grantExtra (d : Dev) (p : Nat) : Dev :=
  (d.flowChans p).foldl (fun d ch =>
    let s := d.stitch p
    let want := extraNeeded s.rtt - s.extraOf ch
    let give := min want (reserveCells - d.reserveUsed)
    if give = 0 then d
    else d.updStitch p fun s => { s with flows := s.flows.map fun f =>
      if ((d.bundleAt f.bundle).chans).contains ch then { f with extra := f.extra.upd 0 ch (· + give) } else f }) d

/-! ### Codeword lock (R312) -/

/-- TYPE 2 to 15 is reserved: such a codeword is treated as uncorrectable (Table 13-1). -/
def cwUsable (a : CwArrival) : Option Codeword := a.got.filter fun c => decide (c.type < 2)

/-- Four consecutive codewords bring lane `l` codeword lock: none uncorrectable, LANE its own index, CWC advancing by 1 each time (R312). -/
def cwLocks (l : Nat) (as : List CwArrival) : Bool :=
  match as.map cwUsable with
  | [some a, some b, some c, some e] =>
    [a, b, c, e].all (fun x => decide (x.lane = l)) && decide (b.cwc = (a.cwc + 1) % 4096 ∧ c.cwc = (b.cwc + 1) % 4096 ∧ e.cwc = (c.cwc + 1) % 4096)
  | _ => false

/-- Sixteen consecutive uncorrectable codewords end it. -/
def cwUnlocks (as : List CwArrival) : Bool := decide (as.length = 16) && as.all fun a => (cwUsable a).isNone

/-- Every lane of a port locks, by what it has just received; a lane that names another index does not. -/
def allLock (k : Nat) (lanes : List (List CwArrival)) : Bool := (List.range k).all fun i => cwLocks i (lanes.getD i [])

/-! ### Down, disabled, retraining (R317) -/

/-- Cells in a queue. -/
def SChan.cells (c : SChan) : Nat := (c.queue.filter (·.cell)).length

/-- The flows' sequences, limits and extra cells go; the cells in Insole are discarded and counted (R317 steps 2, 3 and 5). -/
def Dev.stitchClear (d : Dev) (p : Nat) : Dev :=
  let n := sumBy (fun kv => kv.2.cells) (d.stitch p).chans
  (d.count (ctrStitch stDownDiscard p) n).updStitch p fun s =>
    { s with chans := [], flows := s.flows.map fun f => { f with extra := [] }, probes := [], token := none, above := [], echoes := [], checkRun := 0 }

/-- What training forgets: the peer's requests and readiness (R316). -/
def Lane.untrain (l : Lane) : Lane :=
  { l with peerFir := none, appliedSeq := 0, reqFir := (0, 0), reqSeq := 0, confirmedAt := none, sweep := [], peerReady := false }

/-- An attempt begins: training codewords are sent (R316, R317). -/
def Dev.stitchTrain (d : Dev) (p : Nat) : Dev :=
  (d.updStitch p fun s => { s with st := .training, tuneDone := false }).updLanes (d.stitchLanes p) Lane.untrain

/-- An UP port goes down (R317). -/
def Dev.stitchDown (d : Dev) (p cause : Nat) : Dev :=
  if d.stitchUp p then
    ((d.raise .stitchDown p [(1, cause)]).stitchClear p).updStitch p fun s =>
      { s with cause := cause, st := if cause = 6 then .mismatch else .down }
  else d

/-- The first cause of Table 13-6 that a port's lanes show. -/
def Dev.laneCause (d : Dev) (p : Nat) : Option Nat :=
  let ls := d.stitchLanes p
  if ls.any (fun l => !d.laneOn l) then some 8
  else if (d.stitch p).srefLost then some 4
  else if d.stitchTest p then some 9
  else if ls.any (fun l => decide ((d.lane l).loopback ≠ 2) && (d.lane l).los) then some 1
  else if ls.any (fun l => !(d.lane l).signalOk) then some 2
  else none

/-! ### Service by the line frame (R320, R323, R325) -/

/-- The framer takes `n` bytes of a queue: what is left, cells freed, and bytes that were not there. -/
def drain : Nat → List Seg → List Seg × Nat × Nat
  | n, [] => ([], 0, n)
  | n, s :: ss =>
    if n < s.bytes then ({ s with bytes := s.bytes - n } :: ss, 0, 0)
    else let (q, freed, miss) := drain (n - s.bytes) ss
      (q, freed + b2n s.cell, miss)

/-- Channels that an elastic flow has given up for a step down: at or above the new n, from the throttle on (R237, R327). -/
def Dev.surplus (d : Dev) (ch : Nat) : Bool :=
  let r := d.rate (ch / 128)
  (r.throttled || r.throttling) && decide (r.slots ≤ ch % 128)
    && (match d.bundleOf ch with
        | some kv => kv.2.elastic
        | none => false)

/-- Channels that a completed throttle has removed: no more of their line-to-client cells are sent, their bytes are discarded (R327). -/
def Dev.removed (d : Dev) (ch : Nat) : Bool := d.surplus ch && !(d.rate (ch / 128)).throttling

/-- Does the framer take the channel's bytes? Its transmitter runs and its bundle is enabled. -/
def Dev.framerTakes (d : Dev) (ch : Nat) : Bool := decide ((d.tx (ch / 128)).state ≠ .dark) && d.chanOn ch

/-- Does the deframer deliver the channel's bytes? The slot is active and its bundle enabled; channels removed by a completed throttle are discarded (R327). -/
def Dev.deframerGives (d : Dev) (ch : Nat) : Bool :=
  decide (d.delivered ch % 128 < d.rxSlots (d.delivered ch / 128)) && d.chanDelivers ch && !d.removed ch

/-- `k` line frames of one channel toward the line: 320 bytes each; what is missing is filled and counted as underrun, but for an idle flow and for
surplus channels (R325). The limit follows the cells freed, and stops rising for surplus channels (R319, R327). -/
def Dev.serveIn (d : Dev) (p k ch : Nat) : Dev :=
  let c := (d.stitch p).chan ch
  let (q, freed, miss) := drain (if d.framerTakes ch then 320 * k else 0) c.queue
  let lost := if c.idle || d.surplus ch then 0 else miss
  let allow := 13 + (d.stitch p).extraOf ch
  let c1 := { c with queue := q, freed := c.freed + freed, under := c.under + lost }
  let c2 := if d.surplus ch then c1 else { c1 with limit := c1.freed + allow }
  (d.updSChan p ch fun _ => c2).count (ctrStitch stUnderrun p) lost

/-- `k` line frames of one channel toward the mate: 496 bytes make a cell; a full egress queue of 16 drops it (R323). -/
def Dev.serveOut (d : Dev) (p k ch : Nat) : Dev :=
  if d.deframerGives ch then
    let c := (d.stitch p).chan ch
    let total := c.egBytes + 320 * k
    let have_ := c.egCells + total / 496
    (d.updSChan p ch fun c => { c with egBytes := total % 496, egCells := min 16 have_ }).count (ctrStitch stTxDrop p) (have_ - 16)
  else d

/-- What follows of itself for a Stitch port: a lane's failure takes it down or back to training; its queues are served by the line frames that have
passed; channels that are no longer attached are forgotten. -/
def Dev.stitchFollow (d : Dev) (frames p : Nat) : Dev :=
  let d1 : Dev := match d.laneCause p with
    | some c => if d.stitchUp p then d.stitchDown p c
        else if (d.stitch p).st = .tune ∨ (d.stitch p).st = .ready ∨ (d.stitch p).st = .align then d.stitchTrain p else d
    | none => d
  if d1.stitchUp p then
    let d2 := d1.updStitch p fun s => { s with chans := s.chans.filter fun kv => d1.attachedTo p kv.1 || d1.attachedRx p kv.1,
                                               flows := s.flows.map fun f => { f with extra := f.extra.filter fun kv => d1.attachedTo p kv.1 } }
    (d2.flowChansRx p).foldl (fun d ch => d.serveOut p frames ch) ((d2.flowChans p).foldl (fun d ch => d.serveIn p frames ch) d2)
  else d1

/-- Every Stitch port follows, by the line frames that have passed; the line frame's phase against the time base is the model's (log entry 23). -/
def Dev.stitchAll (d : Dev) (env : Env) : Dev :=
  let f := framesIn env.now
  let d1 := (d.cli.stitch.map (·.1)).foldl (fun d p => d.stitchFollow (f - d.cli.frame) p) d
  { d1 with cli := { d1.cli with frame := f } }

/-! ### Insole seen from elsewhere -/

/-- A parity error in Insole: a cell of the channel is discarded and freed, and leaves a gap to be revealed (R272, R337). -/
def Dev.insoleDrop (d : Dev) (ch : Nat) : Dev :=
  match d.bundleOf ch with
  | none => d
  | some kv => match kv.2.attach with
    | .stitch p =>
      let c := (d.stitch p).chan ch
      if d.stitchUp p && decide (0 < c.cells) then
        d.updSChan p ch fun c => { c with queue := c.queue.eraseP (·.cell), freed := c.freed + 1, hidden := c.hidden + 1 }
      else d
    | _ => d

/-- The Insole cells of a bundle that has been drained are discarded and freed (R225, R337). -/
def Dev.insoleClear (d : Dev) (b : Nat) : Dev :=
  match (d.bundleAt b).attach with
  | .stitch p => ((d.bundleAt b).chans).foldl (fun d ch =>
      d.updStitch p fun s => if (s.chans.map (·.1)).contains ch then
        { s with chans := s.chans.upd .reset ch fun c => { c with queue := [], freed := c.freed + c.cells, gap := 0, under := 0 } } else s) d
  | _ => d

/-- A flow's channels are in client fail toward the line: zeros and STAT = AIS (R326). -/
def Dev.flowFails (d : Dev) (b : Nat) : Bool :=
  match (d.bundleAt b).attach with
  | .stitch p => (d.bundleAt b).on && !d.stitchUp p
  | _ => false

end Sys2Proof.Machine
end

