-- ==== Sys2Proof/Machine/KeyOps.lean ====
section
/-! DEFINITION. Machine/KeyOps.lean: key slots and their activity, expiry, rolls, wiping, jobs' records (R340 to R359). -/

namespace Sys2Proof.Machine

def Dev.updKeys (d : Dev) (f : Keys → Keys) : Dev := { d with key := f d.key }
def Dev.keyChan (d : Dev) (ch : Nat) : KeyChan := d.key.chan.get .reset ch
def Dev.updKey (d : Dev) (ch : Nat) (f : KeyChan → KeyChan) : Dev := d.updKeys fun k => { k with chan := k.chan.upd .reset ch f }

def KeyChan.at_ (c : KeyChan) (s : Nat) : Option KeySlot := if s = 0 then c.slot0 else c.slot1
def KeyChan.put (c : KeyChan) (s : Nat) (v : Option KeySlot) : KeyChan := if s = 0 then { c with slot0 := v } else { c with slot1 := v }

/-- The slot the transmitter encrypts under. -/
def KeyChan.txSlot (c : KeyChan) : Option Nat :=
  match c.tx with
  | .slot s => some s
  | _ => none

/-- The TX slot, or the one whose expiry stopped encryption. -/
def KeyChan.named (c : KeyChan) : Option Nat :=
  match c.tx with
  | .slot s => some s
  | .expired s => some s
  | _ => none

/-- The RX flag of a slot (R343). -/
def KeyChan.rx (c : KeyChan) (s : Nat) : Bool := decide (c.kp1 = some s ∨ c.kp2 = some s)

/-- A slot is active while TX or RX is set (R343). -/
def KeyChan.active (c : KeyChan) (s : Nat) : Bool := (c.at_ s).isSome && (decide (c.txSlot = some s) || c.rx s)

/-- MFC_START + 2^L (R342). -/
def KeySlot.limit (k : KeySlot) : Nat := k.start + 2 ^ k.limitLog
def KeySlot.spent (k : KeySlot) : Bool := decide (k.limit ≤ k.mfc)

/-- Is a slot loaded and not expired? -/
def KeyChan.usable (c : KeyChan) (s : Nat) : Bool := (c.at_ s).any fun k => !k.spent

/-- Is any line key slot active? (Table 11-6) -/
def Dev.anyKeyActive (d : Dev) : Bool := d.key.chan.any fun kv => kv.2.active 0 || kv.2.active 1

/-- Multiframes of 13,107.2 ns in `t` ns (R94). -/
def multiframesIn (t : Nat) : Nat := t * 10 / 131072

/-! ### What a channel sends (R218, R225, R247, R326) -/

/-- The condition of a channel (rows of R218). -/
inductive ChanCond where
  | off | stopped | plain
  | keyed (slot : Nat) (k : KeySlot)
  deriving DecidableEq, Repr

/-- The channel whose client bytes ride channel `ch`: channel i of the protection bundle of an armed group is bridged from channel i of the working one (R247). -/
def Dev.bridgedFrom (d : Dev) (ch : Nat) : Nat :=
  match d.bundleOf ch with
  | none => ch
  | some kv => match d.group.find? fun g => decide (g.2.prot = kv.1 ∧ g.2.st ≠ .disarmed) with
    | none => ch
    | some g =>
      let w := d.bundleAt g.2.work
      chanNo w.carrier (w.first + (ch - chanNo kv.2.carrier kv.2.first))

/-- Is the client that feeds channel `ch` a Stitch flow in client fail (R326)? The bridge carries that too (R247). -/
def Dev.clientFails (d : Dev) (ch : Nat) : Bool :=
  match d.bundleOf (d.bridgedFrom ch) with
  | some kv => match kv.2.attach with
    | .stitch p => kv.2.on && !d.stitchUp p
    | _ => false
  | none => false

/-- The condition channel `ch` is sent in: until the boundary a drained bundle is sent as an enabled one, and a key's expiry goes before its fill (R218, R225,
R230). -/
def Dev.chanCond (d : Dev) (ch : Nat) : ChanCond :=
  match d.bundleOf ch with
  | none => .off
  | some kv =>
    if kv.2.st = .disabled ∨ kv.2.st = .enabling then .off
    else if d.clientFails ch then .stopped
    else match (d.keyChan ch).tx with
      | .plain => .plain
      | .slot s => match (d.keyChan ch).at_ s with
        | some k => if k.spent then .stopped else .keyed s k
        | none => .stopped
      | _ => .stopped

/-- Does the channel send ciphertext? -/
def ChanCond.isKeyed : ChanCond → Bool
  | .keyed _ _ => true
  | _ => false

/-- Does the transmitter encrypt multiframes of channel `ch`? Its framer has sent frame 0, the slot is active, the channel is sent under its key, the crypto
domain is ON (R116, R218, R340, R359); an interop carrier has no encryption (R226). -/
def Dev.encrypts (d : Dev) (ch : Nat) : Bool :=
  d.domOn domCrypto && !d.interop (ch / 128) && decide ((d.tx (ch / 128)).state ≠ .dark ∧ (d.tx (ch / 128)).state ≠ .starting)
    && decide (ch % 128 < d.txSlots (ch / 128)) && (d.chanCond ch).isKeyed

/-- `n` multiframes are encrypted under the TX slot, which stops at its limit (R340, R342). -/
def Dev.advanceMfc (d : Dev) (n ch : Nat) : Dev :=
  match (d.keyChan ch).txSlot with
  | some s => if d.encrypts ch then d.updKey ch fun c => c.put s ((c.at_ s).map fun k => { k with mfc := min (max k.mfc k.limit) (k.mfc + n) }) else d
  | none => d

/-! ### The line cipher (R339) -/

/-- The 96-bit IV: salt, then MFC, each most significant byte first. -/
def lineIv (salt mfc : Nat) : List Byte := beBytes 4 salt ++ beBytes 8 mfc

/-- The additional data: the slot number in one byte. -/
def lineAad (s : Nat) : List Byte := [BitVec.ofNat 8 s]

/-- Bytes of a channel's multiframe: 320 of each of its 128 frames, in frame order. -/
abbrev mfBytes : Nat := 40960

/-- Ciphertext of a multiframe's payload in slot `s`, byte for byte in the same positions, and the tag it sends: the leftmost 96 bits (R216, R339). -/
def lineSeal (k : KeySlot) (mfc s : Nat) (text : List Byte) : List Byte × List Byte :=
  let r := Config.gcm k.key (lineIv k.txSalt mfc) (lineAad s) text
  (r.1, padTo 12 r.2)

/-- Plaintext of a received multiframe, and the tag that it should have carried: the same computation under the receive salt and the received MFC. -/
def lineOpen (k : KeySlot) (mfc s : Nat) (text : List Byte) : List Byte × List Byte :=
  let r := Config.gcmOpen k.key (lineIv k.rxSalt mfc) (lineAad s) text
  (r.1, padTo 12 r.2)

/-- Contiguous channels of one bundle in a rising list, as first channel and count (R353). -/
def Dev.groupChans (d : Dev) : List Nat → List (Nat × Nat)
  | [] => []
  | ch :: rest => match d.groupChans rest with
    | [] => [(ch, 1)]
    | (f, n) :: more =>
      if f = ch + 1 ∧ (d.bundleOf ch).map (·.1) = (d.bundleOf f).map (·.1) then (ch, n + 1) :: more else (ch, 1) :: (f, n) :: more

/-- Raise one event for each group of channels (R353); `extra` gives the fields after the number of channels. -/
def Dev.raiseGroups (d : Dev) (ev : Evt) (chs : List Nat) (extra : Nat → List (Nat × Int)) : Dev :=
  (d.groupChans chs).foldl (fun d g => d.raise ev g.1 ((2, (g.2 : Int)) :: extra g.1)) d

/-- The transmitter's slot changes (R342, R350); a change from one slot to the other is counted. -/
def KeyChan.setTx (c : KeyChan) (t : KeyTx) : KeyChan :=
  { c with tx := t, rollAt := none, rolls := c.rolls + (match c.named, t with
    | some a, .slot b => b2n (decide (a ≠ b))
    | _, _ => 0) }

/-- The automatic roll to the other slot, where it is loaded and not expired (R342). -/
def KeyChan.canRoll (c : KeyChan) : Bool := c.txSlot.any fun s => c.usable (1 - s)
def KeyChan.roll (c : KeyChan) : KeyChan :=
  match c.txSlot with
  | some s => c.setTx (.slot (1 - s))
  | none => c

/-- Rolls of the channels that can; KEY_ROLLED with the new slot (R342). -/
def Dev.rollChans (d : Dev) (chs : List Nat) : Dev :=
  let ok := chs.filter fun ch => (d.keyChan ch).canRoll
  let d1 := ok.foldl (fun d ch => d.updKey ch KeyChan.roll) d
  d1.raiseGroups .keyRolled ok fun ch => [(1, ((d1.keyChan ch).txSlot.getD 0 : Nat))]

/-- A slot is erased: a TX slot leaves the channel sending zeros and AIS (R344). -/
def KeyChan.erase (c : KeyChan) (s : Nat) : KeyChan :=
  let c1 := c.put s none
  if c.named = some s then { c1 with tx := .erased, rollAt := none } else c1

/-! ### Jobs (R354 to R358) -/

/-- The job area in BAR2 (R354). -/
abbrev jobBase : Nat := 0x38000000
abbrev jobArea : Nat := 0x4000000

/-- Does the operation write DST? -/
def Job.hasDst (j : Job) : Bool := decide (j.op ≤ 1)

/-- The 32-byte completion record (Table 14-7). -/
def Job.record (j : Job) (now : Nat) (st : Status) (cancelled : Bool) (bytes : Nat) : List Byte :=
  leBytes 32 (packBits [(8, st.code), (8, j.id), (4, j.op), (1, b2n cancelled), (11, 0), (32, bytes), (96, if j.hasDst then leNat j.iv else 0), (32, 0), (64, now)])

/-- A job has ended: its output, its record, CRYPTO_JOB_DONE (R357). -/
def Dev.jobDone (d : Dev) (env : Env) (j : Job) (st : Status) (cancelled : Bool) (bytes : Nat) (out : List (Nat × List Byte)) : Dev :=
  let d1 := out.foldl (fun d o => d.emit (.dram (jobBase + o.1) o.2)) d
  (d1.emit (.dram (jobBase + j.recOff) (j.record env.now st cancelled bytes))).raise .cryptoJobDone j.id [(1, st.code)]

/-- The zeroed output area of a job that has started. -/
def Job.zeroed (j : Job) : List (Nat × List Byte) := if j.hasDst then [(j.dst, List.replicate j.len 0)] else []

/-- A running or suspended job is stopped at a block boundary: how far it had come the spec does not say, so BYTES is a free value (log entry 1). -/
def Dev.jobStop (d : Dev) (env : Env) (j : Job) (st : Status) (cancelled : Bool) : Dev :=
  let (n, d1) := d.draw
  d1.jobDone env j st cancelled (n % (j.len + 1)) j.zeroed

/-- All jobs end with a status (a forced crypto domain, R81, R357). -/
def Dev.jobsEnd (d : Dev) (env : Env) (st : Status) : Dev :=
  let k := d.key
  let d1 := d.updKeys fun k => { k with normal := [], urgent := [], running := none, suspended := none }
  let d2 := (k.running.toList ++ k.suspended.toList).foldl (fun d j => d.jobStop env j st false) d1
  (k.urgent ++ k.normal).foldl (fun d j => d.jobDone env j st false 0 j.zeroed) d2

/-- All key material is zeroed (R345): a channel that encrypted, or whose slot had expired, sends zeros and AIS. -/
def Dev.wipeKeys (d : Dev) : Dev :=
  d.updKeys fun k => { k with kek := none, kekHalf := none, job := [], chan := k.chan.map fun kv => (kv.1, (kv.2.erase 0).erase 1) }

/-- Has the automatic roll of a channel come to its boundary, `m` the multiframe that runs? -/
def KeyChan.rollDue (c : KeyChan) (m : Nat) : Bool := c.rollAt.any fun b => decide (b ≤ m)

/-- A load of the standby slot while a roll waits: it waits one more boundary and uses the new contents (R359). -/
def KeyChan.rollLater (c : KeyChan) (m : Nat) : KeyChan := { c with rollAt := c.rollAt.map fun b => if b ≤ m then m + 1 else b + 1 }

/-- Does a multiframe of channel `ch` come in, for KP to be read from it (R217, R343)? -/
def Dev.receivesMf (d : Dev) (ch : Nat) : Bool :=
  let n := ch / 128
  d.domOn (domCarrier n) && decide (ch % 128 < d.rxSlots n) && !d.interop n && decide ((d.frm n).st = .inFrame)

/-- `n` multiframes pass in which none comes in: KP has named no slot in them (R343). -/
def KeyChan.unnamed (c : KeyChan) (n : Nat) : KeyChan :=
  if n = 0 then c else if n = 1 then { c with kp1 := none, kp2 := c.kp1 } else { c with kp1 := none, kp2 := none }

/-- What follows of itself with time: transmit MFCs advance, the RX flags of channels that receive nothing go, automatic rolls are made from their boundary on
while MBX_STATE is READY (R340, R342, R343, R359). -/
def Dev.keyFollow (d : Dev) (env : Env) : Dev :=
  let m := multiframesIn env.now
  let n := m - d.key.mf
  let d1 := if n = 0 then d else (d.key.chan.map (·.1)).foldl (fun d ch =>
    (d.advanceMfc n ch).updKey ch fun c => if d.receivesMf ch then c else c.unnamed n) d
  let due := d1.key.chan.which (·.rollDue m)
  let d2 := d1.updKeys fun k => { k with mf := m }
  if env.mbx = .ready ∧ due ≠ [] then
    (d2.rollChans due).updKeys fun k => { k with chan := k.chan.map fun kv => (kv.1, if kv.2.rollDue m then { kv.2 with rollAt := none } else kv.2) }
  else d2

end Sys2Proof.Machine
end

