-- ==== Sys2Proof/Machine/RxOps.lean ====
section
/-! DEFINITION. Machine/RxOps.lean: acquisition, loss of lock, and the loading of lasts, and pre-emption, as operations (R132 to R137, R160 to R164). -/

namespace Sys2Proof.Machine

/-- RX_STATE (R166): a fast re-acquisition, or the reload of R136, reads FAST_REACQ; a candidate load is no RX_STATE of its own and reads as
the CD search it follows (log entry 12). -/
def Rx.stateCode (r : Rx) : Nat :=
  match r.acq with
  | .down => 0
  | .noSignal => 1
  | .search | .load => 2
  | .coarse => if r.fast then 8 else 3
  | .preconverge => if r.fast then 8 else 4
  | .pilotSync => if r.fast then 8 else 5
  | .track => if r.fast then 8 else 6
  | .locked => 7
  | .reload => 8
  | .wait => 9

/-- Coarse points of a search: every trial value from LO to HI by the step (R138, R139). -/
def Rx.points (r : Rx) : Nat := (r.hi - r.lo).toNat / r.step + 1

/-- Is a set being loaded for a CMD_CD_REACH? -/
def BuildWhy.isReach : BuildWhy → Bool
  | .reach _ _ => true
  | _ => false

/-- The conditions of R160 for acquisition, but for the lock itself. -/
def Dev.canAcquire (d : Dev) (n : Nat) : Bool :=
  d.inService && d.domOn (domCarrier n) && (d.rx n).op.isSome && !(d.carrier n).heldDown && !(d.rx n).los
    && !(d.rx n).preempted && !(d.rx n).short && decide (d.needOf n ≤ d.setSize n)

/-- Class O recovery parameters come into force at the next full acquisition too (R168). -/
def Rx.captureAcq (r : Rx) (par : Params) (n : Nat) : Rx :=
  { r with taps := par.nat (pRxMimoTaps + n), foRange := par.nat (pRxFoRange + n), pilotSeed := par.nat (pRxPilotSeed + n),
           pilotGain := par.nat (pRxPilotGain + n) }

/-- A full acquisition begins with a CD search, which needs a cluster; without one the attempt waits with cause NO_ENGINE (R139, R161, R164). -/
def Dev.startFull (d : Dev) (env : Env) (n : Nat) : Dev :=
  if d.canAcquire n then
    let d0 := (d.fecCapture env n).updRx n fun r => r.captureAcq env.par n
    let d1 := (d0.endRun .search n).startRun env .search n
    if d1.runPlaced .search n then
      d1.updRx n fun r => { r with acq := .search, fast := false, candidates := [], attemptStart := env.now }
    else
      d1.updRx n fun r => { r with acq := .wait, fast := false, candidates := [], attemptStart := env.now, failCause := .noEngine }
  else d

/-- A fast re-acquisition begins at COARSE with the current D and the last good taps (R164). -/
def Dev.goFast (d : Dev) (env : Env) (n : Nat) : Dev :=
  if d.canAcquire n then
    ((d.fecCapture env n).endRun .search n).updRx n fun r => { r with acq := .coarse, fast := true, attemptStart := env.now }
  else d

/-- A fast re-acquisition, or a full one where the set has no valid contents (R134). -/
def Dev.startFast (d : Dev) (env : Env) (n : Nat) : Dev := if (d.rx n).stale then d.startFull env n else d.goFast env n

/-- The load of a candidate is given up with its attempt (R167). -/
def Dev.endCandidate (d : Dev) (n : Nat) : Dev :=
  if (d.rx n).build.any fun b => decide (b.why = .candidate) then (d.endRun .builder n).updRx n fun r => { r with build := none } else d

/-- The reload in place of a last beside a shadow build is given up: the set is loaded again before it is used (R271). -/
def Dev.endRestore (d : Dev) (n : Nat) : Dev :=
  if (d.rx n).restoring then (d.endRun .builder n).updRx n fun r => { r with restoring := false, stale := true, rebuild := true } else d

/-- The receiver leaves LOCKED, or an attempt in progress stops. -/
def Dev.stopRx (d : Dev) (env : Env) (n : Nat) (goal : Acq) : Dev :=
  let d1 := if d.locked n then d.rxLost env n else d.endCandidate n
  (d1.endRun .search n).updRx n fun r => { r with acq := goal, fast := false, candidates := [] }

/-- A CMD_RX_REACQUIRE that runs on the carrier ends (R165). -/
def Dev.endReacq (d : Dev) (n : Nat) (st : Status) (detail : Nat) : Dev :=
  if (d.rx n).reacq then (d.updRx n fun r => { r with reacq := false }).finish 0x0313 n st detail [] else d

/-- The next candidate is loaded into the active set in place (R161). While another set is still being loaded for the carrier it waits: that load completes, and
the attempt then starts anew (R133, R143). -/
def Dev.loadCandidate (d : Dev) (env : Env) (n : Nat) (cand : Int) (rest : List Int) : Dev :=
  if (d.rx n).build.any fun b => decide (b.why ≠ .candidate) then d.updRx n fun r => { r with acq := .load, candidates := cand :: rest }
  else (d.updRx n fun r => { r with acq := .load, candidates := rest, build := some ⟨.candidate, true, cand, false⟩ }).startRun env .builder n

/-- A state of an attempt fails (R161, R164): a fast re-acquisition is followed by a full one; a full one tries the next candidate, and
with none left fails, waits, and raises ACQ_FAIL_Cn at the first failure after a lock or configuration and then at most every 60 s. -/
def Dev.acqFail (d : Dev) (env : Env) (n : Nat) (cause : FailCause) : Dev :=
  let d1 := d.updRx n fun r => { r with failCause := cause }
  if (d.rx n).fast then (d1.endReacq n .timeout cause.code).startFull env n
  else match (d.rx n).candidates with
    | cand :: rest => d1.loadCandidate env n cand rest
    | [] =>
      let due := match (d.rx n).acqFailAt with
        | none => true
        | some t => decide (t + 60 * sec ≤ env.now)
      let d2 := (d1.endRun .search n).updRx n fun r => { r with acq := .wait }
      let d3 := if due then (d2.updRx n fun r => { r with acqFailAt := some env.now }).raise .acqFail n [(1, cause.code)] else d2
      d3.endReacq n .timeout cause.code

/-- A window in force and in the parameters (R141). -/
def Dev.setWindow (d : Dev) (n : Nat) (lo hi : Int) : Dev :=
  (d.updRx n fun r => { r with lo := lo, hi := hi }).emit (.params [(pCdRangeLo + n, lo), (pCdRangeHi + n, hi)])

/-- A shadow build starts: the builder run is asked for (R133 steps 1 and 2). -/
def Dev.startBuild (d : Dev) (env : Env) (n : Nat) (b : Build) : Dev :=
  (d.updRx n fun r => { r with build := some b }).startRun env .builder n

/-- What a completed change of set does besides the switch itself (R133, R140, R141). -/
def Dev.afterSwitch (d : Dev) (n : Nat) (b : Build) : Dev :=
  match b.why with
  | .reach lo hi => ((d.updRx n fun r => { r with build := none, stale := false, rebuild := false }).setWindow n lo hi).finish 0x0310 n .ok 0 []
  | _ => d.updRx n fun r => r.takeSet b

/-- A load that waited for another one, which has been given up, begins. -/
def Dev.loadFollow (d : Dev) (env : Env) (n : Nat) : Dev :=
  if (d.rx n).acq = .load ∧ (d.rx n).build.isNone then
    match (d.rx n).candidates with
    | cand :: rest => d.loadCandidate env n cand rest
    | [] => d
  else d

/-- A carrier that was short or pre-empted has its full need again: LAST_RESTORED_Cn (R135, R137). -/
def Dev.restored (d : Dev) (n h : Nat) : Dev :=
  if (d.rx n).short || (d.rx n).preempted then
    (d.updRx n fun r => { r with short := false, preempted := false }).raise .lastRestored n [(1, h)]
  else d

/-- In a load in place, lasts taken for a larger set join the active set, and the surplus of a smaller one becomes FREE (R141): the highest-numbered ones (log
entry 154). -/
def Dev.settleInPlace (d : Dev) (n h : Nat) : Dev :=
  let d1 := d.setLasts (d.shadowLasts n) (.active n)
  d1.setLasts ((d1.activeLasts n).drop h) .free

/-- A resize in place that does not end with E_OK: the lasts taken return to FREE, the old set is rebuilt before it is used (R141). -/
def Dev.undoResize (d : Dev) (n : Nat) : Dev :=
  match (d.rx n).build with
  | some b => if b.inPlace ∧ b.why ≠ .candidate then
      ((d.setLasts (d.lastsWhere fun s => decide (s = .shadow n)) .free).endRun .builder n).updRx n fun r => { r with build := none, stale := true, rebuild := true }
    else d
  | none => d

/-! ### Pre-emption and the policies (R132, R135) -/

/-- From the local COMMIT of a rate step until its receive switch, the step's shadow set is not available for pre-emption (R243). -/
def RsState.protects : RsState → Bool
  | .committed => true
  | .txSwitched => true
  | _ => false

/-- A carrier's active set is taken by `by_` (R135): its receive side goes down with cause NO_LAST, what is being built for it is given up, and a step not
committed that was to use it is abandoned; a committed step keeps its shadow set (R243); the next attempt is a full one (R160, R167). -/
def Dev.preempt (d : Dev) (env : Env) (by_ n : Nat) : Dev :=
  let taken := d.activeLasts n
  let d1 := if (d.rate n).uncommitted && (d.rate n).shadow then d.stepAbandon env n 14 .noLast 0 else d
  let d2 := ((if (d.rate n).st.protects then d1 else (d1.endRestore n).dropBuild n).stopRx env n .down).setLasts taken .free
  let d3 := d2.updRx n fun r => { r with failCause := .noLast, preempted := true, stale := true, recentreDeferred := false, trimLimitRaised := false }
  (d3.endReacq n .state 0).raise .lastPreempted n [(1, by_), (1, taken.length)]

/-- The victims of a pre-emption for carrier `n`, in order: shadow sets, but for those of a committed rate step, then active sets, of carriers of strictly lower
priority (R135, R243). `true` marks an active set. Among shadow sets the order of the active ones is taken (log entry 154). -/
def Dev.victims (d : Dev) (env : Env) (n : Nat) : List (Nat × Bool) :=
  let low := env.takeOrder.filter fun m => decide (env.prio m < env.prio n)
  (low.filter fun m => (d.rx m).build.any (fun b => !b.inPlace) && !(d.rate m).st.protects).map (fun m => (m, false))
    ++ (low.filter fun m => !(d.activeLasts m).isEmpty).map (fun m => (m, true))

/-- Take one victim. -/
def Dev.takeVictim (d : Dev) (env : Env) (n : Nat) (v : Nat × Bool) : Dev := if v.2 then d.preempt env n v.1 else d.dropBuild v.1

/-- Take victims one after another until `try_` succeeds; take none where it never does (R135). -/
def Dev.withVictims (try_ : Dev → Option Dev) (env : Env) (n : Nat) : List (Nat × Bool) → Dev → Option Dev
  | vs, d => match try_ d with
    | some d' => some d'
    | none => match vs with
      | [] => none
      | v :: vs => Dev.withVictims try_ env n vs (d.takeVictim env n v)

/-- A shadow set of `h` lasts under the policy in force (R132, R134, R135). A resting carrier's set is lent, not taken. -/
def Dev.allocShadow (d : Dev) (env : Env) (n h : Nat) : Option Dev :=
  Dev.withVictims (fun d => d.shadowFrom env n h) env n
    (if env.policy = 2 then (d.victims env n).filter fun v => !(v.2 && d.resting v.1) else []) d

/-- An active set of `h` lasts, resized in place from what the carrier holds (R133): the surplus becomes FREE, the highest numbers first (log entry 154), what
lacks is taken from FREE ones; static policy grants a need within the quota only (Table 5-6). -/
def Dev.activeFrom (d : Dev) (env : Env) (n h : Nat) : Option Dev :=
  let own := d.activeLasts n
  if env.grants n h ∧ h - own.length ≤ d.freeLasts.length then
    some ((d.setLasts (own.drop h) .free).setLasts (d.freeLasts.take (h - own.length)) (.active n))
  else none

/-- An active set under the policy in force; under priority policy it may pre-empt (R132, R135). -/
def Dev.allocActive (d : Dev) (env : Env) (n h : Nat) : Option Dev :=
  Dev.withVictims (fun d => d.activeFrom env n h) env n (if env.policy = 2 then d.victims env n else []) d

end Sys2Proof.Machine
end

