-- ==== Sys2Proof/Machine/TxOps.lean ====
section
/-! DEFINITION. Machine/TxOps.lean: muting, unmuting and darkening a carrier's transmitter (R115 to R119). -/

namespace Sys2Proof.Machine

/-- Counter TX_MUTES_Cn (Table 20-1). -/
def ctrTxMutes (n : Nat) : Nat := ckey 3 (44 + n)
/-- Counter TX_CLIP_SAMPLES_Cn. -/
def ctrTxClip (n : Nat) : Nat := ckey 3 n

/-- The causes of Table 4-8 as TX_MUTED_Cn carries them: [0] HOST, [1] INTERLOCK, [2] PRESENCE, [3] CLOCK. -/
def Tx.causes (t : Tx) : Nat :=
  b2n t.muteHost + 2 * b2n t.muteInterlock + 4 * b2n t.mutePresence + 8 * b2n t.muteClock

/-- Does the output carry signal? (R115) -/
def Tx.carries (t : Tx) : Bool := decide (t.state = .rampUp ∨ t.state = .on ∨ t.state = .rampDown)

/-- The transmit commands that run on carrier `n` end with E_OK: an enable or disable, a mute or unmute (R116, R117, R119). -/
def Dev.finishTx (d : Dev) (n : Nat) (st : Status) : Dev := (d.finish 0x0305 n st 0 []).finish 0x0306 n st 0 []

/-- A transition into MUTED: counted, reported with its causes, Breeze packets aborted (R117, R118, R434); a running enable or mute ends with
E_OK (R119). -/
def Dev.enterMuted (d : Dev) (n : Nat) : Dev :=
  let d1 := (d.updTx n fun t => { t with state := .muted }).count (ctrTxMutes n) 1
  ((d1.raise .txMuted n [(1, (d1.tx n).causes)]).breezeAbort n 0).finishTx n .ok

/-- The pipeline stops and the carrier is DARK. It is enabled no more and its clock is not in use, so PRESENCE and CLOCK clear; HOST and a latched INTERLOCK stay
until what clears them (R117). A running Breeze enable or disable is withdrawn (R512). -/
def Dev.goDark (d : Dev) (env : Env) (n : Nat) : Dev :=
  (((d.brzWithdrawn env n).brzFinish n .state).updTx n fun t =>
    { t with state := .dark, rampToDark := false, mutePresence := false, muteClock := false }).breezeAbort n 1

/-- A commanded disable: DARK, and every mute cause clears (R116, R119; from STARTING and from a ramp as from MUTED, log entry 173). -/
def Dev.enterDark (d : Dev) (env : Env) (n : Nat) : Dev :=
  (d.goDark env n).updTx n fun t => { t with muteHost := false, muteInterlock := false }

/-- The class O values from before the last enable are in force again (R16). -/
def Tx.restoreO (t : Tx) : Tx := { t with rolloff := t.classOWas.1, pilotGain := t.classOWas.2.1, pilotSeed := t.classOWas.2.2 }

/-- A running CMD_TX_ENABLE that an event ends is withdrawn (R16, R512). -/
def Dev.txWithdrawn (d : Dev) (env : Env) (n : Nat) : Dev :=
  match env.runs 0x0305 n with
  | some true => d.updTx n Tx.restoreO
  | _ => d

/-- An event makes the carrier DARK at once, without a ramp (R117): a running transmit command ends as R512 states. -/
def Dev.darken (d : Dev) (env : Env) (n : Nat) (st : Status) : Dev :=
  if (d.tx n).state = .dark then d else ((d.goDark env n).txWithdrawn env n).finishTx n st

/-- A mute cause other than the host's is present: the output is muted at once, without a ramp (R117). A disable in progress then leaves the
carrier DARK (R119). -/
def Dev.muteNow (d : Dev) (env : Env) (n : Nat) : Dev :=
  if (d.tx n).carries then
    let toDark := decide ((d.tx n).state = .rampDown) && (d.tx n).rampToDark
    let d1 := d.enterMuted n
    if toDark then d1.enterDark env n else d1
  else d

/-- When no cause remains, a MUTED carrier returns to ON by RAMP_UP (R117). -/
def Dev.unmute (d : Dev) (n : Nat) : Dev :=
  if (d.tx n).state = .muted ∧ (d.tx n).causes = 0 then d.updTx n fun t => { t with state := .rampUp } else d

/-- The INTERLOCK cause arises on a carrier that is not DARK (R117). -/
def Dev.interlock (d : Dev) (n : Nat) : Dev :=
  if (d.tx n).muteInterlock then d
  else (d.updTx n fun t => { t with muteInterlock := true }).raise .txInterlock n []

/-- Class O transmit parameters come into force (R120). P_TX_ROLLOFF is not judged again by R95 where it does: no status names it at CMD_TX_ENABLE (log entry
174). -/
def Tx.capture (t : Tx) (par : Params) (n : Nat) : Tx :=
  { t with classOWas := (t.rolloff, t.pilotGain, t.pilotSeed), rolloff := par.nat (pTxRolloff + n), pilotGain := par.nat (pTxPilotGain + n), pilotSeed := par.nat (pTxPilotSeed + n) }

/-- Pilots a running transmitter has sent since `pilotSince` (R102). An interop profile has no native pilots (R99). -/
def Tx.pilotsSent (t : Tx) (now : Nat) : Nat :=
  match t.op with
  | some p => if p.profile = 0 ∧ t.state ≠ .dark ∧ t.state ≠ .starting then p.pilotsIn (now - t.pilotSince) else 0
  | none => 0

/-- The pilot PRBS and the reload count as they stand now (R102). -/
def Tx.pilotNow (t : Tx) (now : Nat) : BitVec 15 := pilotAfter (t.pilotsSent now % 32767) t.pilotState
def Tx.pilotsNow (t : Tx) (now : Nat) : Nat := t.pilotCount + t.pilotsSent now

/-- The generator is loaded with the seed in force (R102). -/
def Tx.pilotLoad (t : Tx) (now : Nat) : Tx := { t with pilotState := BitVec.ofNat 15 t.pilotSeed, pilotCount := 0, pilotSince := now }

/-- The transmit direction takes a new operating point in mid-traffic: the pilot grid and the reload count run on unchanged (R102). -/
def Tx.switchPoint (t : Tx) (now : Nat) (p : OpPoint) : Tx :=
  { t with op := some p, pilotState := t.pilotNow now, pilotCount := t.pilotsNow now, pilotSince := now }

/-- Does the carrier's transmitter send native pilots? -/
def Tx.native (t : Tx) : Bool := t.op.any fun p => decide (p.profile = 0)

/-- After a reset or a domain OFF the tables return to bypass (R104). -/
def Tx.tablesOff (t : Tx) : Tx := { t with nlc := .bypass, taps := .bypass }

/-- COEF_STATE: 0 idle, 1 cross-fading, 2 cross-fading with a commit waiting (R118). -/
def Tx.coefState (t : Tx) : Nat :=
  if t.nlc.waiting.isSome || t.taps.waiting.isSome then 2
  else if t.nlc.fading.isSome || t.taps.fading.isSome then 1 else 0

/-- A tap of a pre-emphasis table: bypass is a centre tap of 1,024 and zeros (R104, R109). -/
def tapAt (t : Tbl Nat) (i : Nat) : Int := toSigned 16 (t.get (if i % 17 = 8 then 1024 else 0) i)

/-- The four fields of a triplet entry (Table 4-5). -/
def tripletM (v : Nat) : Int := toSigned 8 (bitsAt v 0 8)
def tripletN (v : Nat) : Int := toSigned 8 (bitsAt v 8 8)
def tripletRe (v : Nat) : Int := toSigned 16 (bitsAt v 16 16)
def tripletIm (v : Nat) : Int := toSigned 16 (bitsAt v 32 16)

/-- A complex number of the compensators, in whole units. -/
abbrev Cplx := Int × Int
def Cplx.mul (a b : Cplx) : Cplx := (a.1 * b.1 - a.2 * b.2, a.1 * b.2 + a.2 * b.1)
def Cplx.conj (a : Cplx) : Cplx := (a.1, -a.2)
def Cplx.add (a b : Cplx) : Cplx := (a.1 + b.1, a.2 + b.2)

/-- The perturbation ΔX_k of R103 in units of 2⁻²⁰: Σ C(m,n) × [X_(k+m)·X*_(k+m+n) + Y_(k+m)·Y*_(k+m+n)] × X_(k+n). -/
def perturbation (x y : Int → Cplx) (k : Int) : List Nat → Cplx
  | [] => (0, 0)
  | v :: vs =>
    let m := tripletM v
    let n := tripletN v
    let pair := Cplx.add (Cplx.mul (x (k + m)) (Cplx.conj (x (k + m + n)))) (Cplx.mul (y (k + m)) (Cplx.conj (y (k + m + n))))
    Cplx.add (Cplx.mul (Cplx.mul (tripletRe v, tripletIm v) pair) (x (k + n))) (perturbation x y k vs)

end Sys2Proof.Machine
end

