-- ==== Sys2Proof/Machine/EngHosted.lean ====
section
/-! DEFINITION. Machine/EngHosted.lean: hosted programs and system runs as operations: progress, stops, faults, moves (R362 to R373, R384). -/

namespace Sys2Proof.Machine

/-- Counters of a handle (Table 20-1): 0 TILES, 1 BUSY_CYCLES, 2 DENIED. -/
def ctrProg (k h : Nat) : Nat := ckey 9 (256 + 32 * k + h)

/-- BAR2 offset of the 1 MiB unit `u` of the output area (R374). -/
def outBase (u : Nat) : Nat := 0x3E000000 + 0x100000 * u

/-- A program writes its windows in DRAM: the spill window it has, and with PERM bit 10 its output window (R369). What it writes is a free value (log entry 1). -/
def Dev.writesWindows (d : Dev) (h : Nat) (p : Prog) : Dev :=
  let (bs, d1) := d.drawBytes (0x100000 * p.spillMib)
  let d2 := d1.updProg h fun p => { p with spill := bs }
  match p.out with
  | some u => if bitAt p.perm 10 then (let (out, d3) := d2.drawBytes (0x100000 * p.outMib); d3.emit (.dram (outBase u) out)) else d2
  | none => d2

/-- A running program gets on by tiles: how many have ended, how many cycles they took, how many messages it has read, and what it has written, the spec leaves to
the program; free values (log entry 1). -/
def Dev.progRuns (d : Dev) (h : Nat) : Dev :=
  match d.prog h with
  | none => d
  | some p =>
    if p.placed then
      let (tiles, d1) := d.draw
      let (cycles, d2) := d1.draw
      let (msgs, d3) := d2.draw
      let d4 := ((d3.count (ctrProg 0 h) tiles).count (ctrProg 1 h) cycles).updProg h fun p => { p with inbox := p.inbox.drop (msgs % (p.inbox.length + 1)) }
      (d4.writesPlace p.cluster p.engs p.shared).writesWindows h p
    else d

/-- Every running program gets on. -/
def Dev.progsRun (d : Dev) : Dev := (d.eng.prog.map (·.1)).foldl Dev.progRuns d

/-- A program gives up its engines and pages, zeroed, and its captures (R367, R368). Staged writes it has not committed are discarded: ENG_TX_TABLE_COMMIT
brings each program's writes with their commit, so that the staging copy holds none of them, and what the host has staged stays (R370). -/
def Dev.progRelease (d : Dev) (h : Nat) : Dev :=
  match d.prog h with
  | none => d
  | some p =>
    let d1 := d.zeroPlace p.cluster p.engs p.shared
    { d1 with eng := { d1.eng with capture := d1.eng.capture.filter fun kv => decide (kv.2 ≠ .hosted h) } }

/-- A program's output window is zeroed (R378). -/
def Dev.zeroWindow (d : Dev) (h : Nat) : Dev :=
  match d.prog h with
  | none => d
  | some p => match p.out with
    | none => d
    | some u => d.emit (.dram (outBase u) (List.replicate (0x100000 * p.outMib) 0))

/-- What a program holds no longer once it has stopped. -/
def Prog.released (p : Prog) : Prog := { p with engs := [], shared := [], perm := 0, cntMask := 0, out := none, spill := [], inbox := [] }

/-- A placed program stops at its tile ends: engines, pages and windows are zeroed and released, ENG_STOPPED is raised (R378, R383). -/
def Dev.progStop (d : Dev) (h cause : Nat) : Dev :=
  if (d.prog h).any Prog.placed then
    (((((d.progRuns h).progRelease h).zeroWindow h).updProg h fun p => { p.released with st := .loaded }).raise
      .engStopped h [(1, cause)])
  else d

/-- A program fault (R368): the program's resources are released, STATE becomes FAULTED, ENG_FAULT is minor; a CMD_ENG_STOP that runs ends, for the
program has stopped. -/
def Dev.countFault (d : Dev) : Dev := { d with eng := { d.eng with faults := min 65535 (d.eng.faults + 1) } }

def Dev.progFaultAt (d : Dev) (h cause pc : Nat) : Dev :=
  match d.prog h with
  | none => d
  | some p =>
    if p.placed then
      let d1 := ((d.progRuns h).progRelease h).updProg h fun p =>
        { p.released with st := .faulted, fault := cause, faultPc := pc }
      (d1.countFault.emit (.event .engFault h 3 [(1, cause), (1, p.cluster), (4, pc)])).finish 0x0903 h .ok 0 []
    else d

/-- The causes that memory errors give (Table 15-4). -/
inductive ProgCause where
  | parity | memory
  deriving DecidableEq, Repr

def ProgCause.code : ProgCause → Nat
  | .parity => 5
  | .memory => 6

def Dev.progFault (d : Dev) (_env : Env) (h : Nat) (c : ProgCause) (pc : Nat) : Dev := d.progFaultAt h c.code pc

/-! ### System runs -/

/-- The system program of a row of Table 15-2. -/
def sysRow : Nat → SysProg
  | 0 => .search
  | 1 => .builder
  | 2 => .trainer
  | 3 => .ratePolicy
  | _ => .front

/-- A run takes a place, or waits for one; the one it has is given up, zeroed. -/
def Dev.placeRun (d : Dev) (p : SysProg) (c : Nat) (k : Option Nat) : Dev :=
  let engs := d.enginesFor p k
  let pages := d.pagesFor p k
  let d1 := match d.runs.find? (isRun p c) with
    | some r => d.leavePlace r
    | none => d
  ({ d1 with runs := d.runs.map fun r => if isRun p c r then { r with cluster := k, engs := engs, shared := pages } else r } : Dev).takePlace engs pages k

/-- A run that has obtained a cluster: an acquisition that waited for it begins its search (R164, R366). -/
def Dev.runStarted (d : Dev) (env : Env) (p : SysProg) (c : Nat) : Dev :=
  if p = .search ∧ (d.rx c).acq = .wait then
    d.updRx c fun r => { r with acq := .search, fast := false, candidates := [], attemptStart := env.now }
  else d

/-- A search that has lost its place and finds no other waits with cause NO_ENGINE (R139, R164). -/
def Dev.searchStranded (d : Dev) (p : SysProg) (c : Nat) : Dev :=
  if p = .search ∧ (d.rx c).acq = .search ∧ d.runWaiting .search c = true then d.updRx c fun r => { r with acq := .wait, failCause := .noEngine } else d

/-- The function of a run that has faulted twice keeps its last applied coefficients until its next scheduled run (R368): an attempt fails, a build is given
up, a training run ends without a commit. -/
def Dev.runLost (d : Dev) (env : Env) (p : SysProg) (c : Nat) : Dev :=
  let d1 := d.endRun p c
  match p with
  | .search => d1.acqFail env c .noCd
  | .builder =>
    if (d.rx c).restoring then (d1.updRx c fun r => { r with restoring := false, stale := true, rebuild := true }).acqFail env c .noCd
    else match (d.rx c).build with
    | none => d1
    | some b =>
      if b.inPlace then (d1.updRx c fun r => { r with build := none, stale := true, rebuild := true, candidates := [] }).acqFail env c .noCd
      else (d1.finish 0x0310 c .internal 0 []).dropBuild c
  | .trainer => d1.updRx c fun r => { r with nlcTraining := false }
  | _ => d1

/-- A system program faults (R368): ENG_FAULT is major; the run is repeated once on another placement, and a second fault within 60 s ends it. -/
def Dev.runFault (d : Dev) (env : Env) (p : SysProg) (c cause pc : Nat) : Dev :=
  match d.runs.find? (isRun p c) with
  | none => d
  | some r =>
    match r.cluster with
    | none => d
    | some k =>
      let d1 := d.countFault.emit (.event .engFault (256 + p.row) 4 [(1, cause), (1, k), (4, pc)])
      if r.again && decide (env.now < r.since + 60 * sec) then d1.runLost env p c
      else
        let d2 := d1.endRun p c
        let k2 := d2.placeFor env (d2.onClusters.filter fun x => decide (x ≠ k)) p
        (d2.newRun env p c k2 true).searchStranded p c

/-- A cluster leaves ON: hosted programs on it stop with cause 1, system runs move or wait, and a training run stops (R81, R167, R384). -/
def Dev.clusterDown (d : Dev) (env : Env) (k : Nat) : Dev :=
  let d1 := ((d.hostedOn k).map (·.1)).foldl (fun d h => (d.progStop h 1).finish 0x0903 h .ok 0 []) d
  (d1.runs.filter fun r => decide (r.cluster = some k)).foldl (fun d r =>
    if r.prog = .trainer then (d.endRun .trainer r.carrier).updRx r.carrier fun x => { x with nlcTraining := false }
    else
      let d' := d.placeRun r.prog r.carrier none
      (d'.placeRun r.prog r.carrier (d'.placeFor env (d'.onClusters.filter fun x => decide (x ≠ k)) r.prog)).searchStranded r.prog r.carrier) d1

/-- Calm: every program stops, ENG_STOPPED cause 2 for those placed, and every handle becomes EMPTY (R374, R384); a running CMD_ENG_STOP has its
program stopped (R378). -/
def Dev.engCalm (d : Dev) : Dev :=
  let d1 := (d.eng.prog.map (·.1)).foldl (fun d h => (d.progStop h 2).finish 0x0903 h .ok 0 []) d
  { d1 with eng := { d1.eng with prog := [], capture := [], local_ := [], page := [] }, runs := [] }

/-- Is no program placed on engine `u` of the array, or on cluster `k`? (Table 11-6) -/
def Dev.engineFree (d : Dev) (u : Nat) : Bool := (d.freeEngines (u / 16)).contains (u % 16)
def Dev.clusterFree (d : Dev) (k : Nat) : Bool := (d.freeEngines k).length == 16

/-- The cluster that holds an engine (R361). -/
def clusterOf (engine : Nat) : Nat := engine / 16

/-- The engine clock in MHz: 1.6 GHz, 2.0 GHz in boost, half of it under Squall, PWRWARN# or thermal throttling (R90). -/
def Dev.engClock (d : Dev) : Nat := (if d.pw.boost then 2000 else 1600) / (if d.halfClock then 2 else 1)

/-- Throughput in 10⁶ multiply-accumulates a second of so many engines (Table 15-1). -/
def Dev.engThroughput (d : Dev) (engines : Nat) (float : Bool) : Nat := engines * engMacs float * d.engClock

end Sys2Proof.Machine
end

