-- ==== Sys2Proof/Machine/MemOps.lean ====
section
/-! DEFINITION. Machine/MemOps.lean: the error log, error tracking and row retirement as operations (R274 to R276, R280). -/

namespace Sys2Proof.Machine

/-- Counters of family 0x0F (Table 20-1). -/
abbrev ctrCeDram : Nat := 2048 * 15
abbrev ctrUeDram : Nat := 2048 * 15 + 1
abbrev ctrParityCfg : Nat := 2048 * 15 + 2
abbrev ctrParityData : Nat := 2048 * 15 + 3
abbrev ctrRetired : Nat := 2048 * 15 + 4
def ctrBufOverflow (b : Nat) : Nat := ckey 15 (256 + b)

def Dev.updMsys (d : Dev) (f : MemSys → MemSys) : Dev := { d with msys := f d.msys }

/-- One error, as the log describes it (Table 11-6a): TYPE, MEM, UNIT, ADDR, SYNDROME, BITPOS, COUNT, REGION. -/
structure LogEntry where
  type : Nat
  mem : Nat
  unit : Nat
  addr : Nat
  syndrome : Nat
  bitpos : Nat
  count : Nat
  region : Nat
  deriving DecidableEq, Repr

/-- The 32 bytes of a log entry (R276). -/
def LogEntry.bytes (x : LogEntry) (seq now : Nat) : List Byte :=
  leBytes 32 (packBits [(32, seq), (8, x.type), (8, x.mem), (16, x.unit), (64, x.addr), (16, x.syndrome), (8, x.bitpos), (4, min 15 x.count),
    (3, x.region), (1, 0), (32, 0), (64, now)])

/-- BAR2 offset of log entry SEQ: a ring of 65,536 entries (R276). -/
def logOffset (seq : Nat) : Nat := 0x3F000000 + 32 * (seq % 65536)

/-- An entry is written to the error log (R276); with no stack ON it takes its SEQ and cannot be stored (log entry 30). -/
def Dev.log (d : Dev) (env : Env) (x : LogEntry) : Dev :=
  (if d.inService && d.anyStack then d.emit (.dram (logOffset d.msys.logSeq) (x.bytes d.msys.logSeq env.now)) else d).updMsys fun m => { m with logSeq := (m.logSeq + 1) % 2 ^ 32 }

/-- Is a merged event due: none raised yet, or the last one at least `gap` ago? -/
def Merged.due (m : Merged) (now gap : Nat) : Bool :=
  match m.at_ with
  | none => true
  | some t => decide (t + gap ≤ now)

/-- Spare rows each bank or macro has (Table 11-1). -/
abbrev spareRows : Nat := 4

/-- Rows of a bank already retired. -/
def MemSys.used (m : MemSys) (mem unit bank : Nat) : Nat :=
  (m.retired.filter fun r => decide (r.mem = mem ∧ r.unit = unit ∧ r.bank = bank)).length

/-- Is the row that holds an address retired? -/
def MemSys.isRetired (m : MemSys) (mem unit addr : Nat) : Bool :=
  m.retired.any fun r => decide (r.mem = mem ∧ r.unit = unit ∧ r.bank = Config.memBank mem unit addr ∧ r.row = Config.memRow mem unit addr)

def MemSys.hasSpare (m : MemSys) (mem unit addr : Nat) : Bool := decide (m.used mem unit (Config.memBank mem unit addr) < spareRows)

/-- Spare rows left in the bank or macro of a target that has the fewest (R277). -/
def MemSys.sparesLeft (m : MemSys) (mem unit : Nat) : Nat :=
  ((m.retired.filter fun r => decide (r.mem = mem ∧ r.unit = unit)).map fun r => m.used mem unit r.bank).foldl (fun l u => min l (spareRows - u)) spareRows

/-- Banks and macros without a spare row left (Table 11-7). -/
def MemSys.spareOut (m : MemSys) : Nat :=
  ((m.retired.map fun r => (r.mem, r.unit, r.bank)).eraseDups.filter fun b => decide (spareRows ≤ m.used b.1 b.2.1 b.2.2)).length

/-- Window of repeat errors in ns (P_MEM_SCRUB_WINDOW). -/
def Env.repeatWindow (env : Env) : Nat := env.par.nat pMemScrubWindow * sec

/-- The addresses still tracked: those with a correction within the window (R274). -/
def liveTracks (env : Env) (l : List Track) : List Track :=
  (l.map fun t => { t with times := t.times.filter fun x => decide (env.now < x + env.repeatWindow) }).filter fun t => !t.times.isEmpty

/-- Corrections at an address within the window: COUNT of its log entries (Table 11-6a). -/
def Dev.tracked (d : Dev) (env : Env) (mem unit addr : Nat) : Nat :=
  sumBy (fun t => if t.mem = mem ∧ t.unit = unit ∧ t.addr = addr then t.times.length else 0) (liveTracks env d.msys.track)

/-- REGION of an address that a command or a test names: not DRAM, or one of the three regions, where the spec gives no address map (log entry 1). -/
def Dev.drawRegion (d : Dev) (mem : Nat) : Nat × Dev := if mem < 2 then (let (v, d1) := d.draw; (v % 3, d1)) else (7, d)

/-- Insole gives up cells of channel `ch` of port `p`: how many of its cells the row held is free (R274, log entry 181). -/
def Dev.insoleRow (d : Dev) (p ch : Nat) : Dev :=
  let (f, d1) := d.draw
  (List.range (f % (((d1.stitch p).chan ch).cells + 1))).foldl (fun d _ => d.insoleDrop ch) d1

/-- What a data SRAM's row held at its retirement is handled as in Table 11-5 (R274). Whose words those were the spec leaves to the device: a free value says it
of each channel with cells in Insole, each channel that decrypts, each program on the engine or the cluster (log entry 181). -/
def Dev.rowLost (d : Dev) (env : Env) (mem unit : Nat) : Dev :=
  let perhaps (f : Dev → Dev) (d : Dev) : Dev := let (v, d1) := d.draw; if v % 2 = 1 then f d1 else d1
  let programs (mine : Nat → List Nat → Bool) : Dev :=
    let d1 := (d.eng.prog.filter fun kv => kv.2.placed && mine kv.2.cluster kv.2.engs).foldl (fun d kv => perhaps (fun d => d.progFault env kv.1 .parity 0) d) d
    (d1.runs.filter fun r => r.cluster.any fun k => mine k r.engs).foldl (fun d r => perhaps (fun d => d.runFault env r.prog r.carrier ProgCause.parity.code 0) d) d1
  match mem with
  | 0x20 => ([0, 1, 2, 3] : List Nat).foldl (fun d p => ((d.stitch p).chans.map (·.1)).foldl (fun d ch => d.insoleRow p ch) d) d
  | 0x21 => ((d.key.chan.filter fun kv => kv.2.kp1.isSome).map (·.1)).foldl (fun d ch => perhaps (fun d => d.updChan ch fun c => { c with zeros := true }) d) d
  | 0x22 => programs fun k engs => decide (k = unit / 16) && engs.contains (unit % 16)
  | 0x23 => programs fun k _ => decide (k = unit)
  | _ => d

/-- The row of an address goes to a spare row: MEM_RETIRE, a log entry of the given type, and what a data SRAM's row held is lost
(R274, R277). Its addresses are no longer tracked: a later error there is one of the spare row. -/
def Dev.retireRow (d : Dev) (env : Env) (type mem unit addr region : Nat) : Dev :=
  let bank := Config.memBank mem unit addr
  let row := Config.memRow mem unit addr
  let d1 := ((d.updMsys fun m => { m with
    retired := ⟨mem, unit, bank, row⟩ :: m.retired,
    hard := m.hard.filter fun h => !decide (h.mem = mem ∧ h.unit = unit ∧ Config.memBank mem unit h.addr = bank ∧ Config.memRow mem unit h.addr = row) }).count
      ctrRetired 1).rowLost env mem unit
  ((d1.log env ⟨type, mem, unit, addr, 0, 0xFF, d1.tracked env mem unit addr, region⟩).raise .memRetire 0
    [(1, mem), (2, unit), (8, addr), (1, (spareRows - d1.msys.used mem unit bank : Nat))]).updMsys fun m =>
      { m with track := m.track.filter fun t => !decide (t.mem = mem ∧ t.unit = unit ∧ Config.memBank mem unit t.addr = bank ∧ Config.memRow mem unit t.addr = row) }

/-- A hard-failed word: its row, or the spare row in its place, is retired, or with no spare left MEM_SPARE_EXHAUSTED is raised once for the bank and the word stays in service
(R274, R275). -/
def Dev.hardFail (d : Dev) (env : Env) (mem unit addr region : Nat) : Dev :=
  let bank := Config.memBank mem unit addr
  if d.msys.hasSpare mem unit addr then d.retireRow env 5 mem unit addr region
  else
    let d1 := d.updMsys fun m => { m with hard := ⟨mem, unit, addr, env.now⟩ :: m.hard }
    if d1.msys.exhausted.contains (mem, unit, bank) then d1
    else ((d1.updMsys fun m => { m with exhausted := (mem, unit, bank) :: m.exhausted }).log env
      ⟨6, mem, unit, addr, 0, 0xFF, d1.tracked env mem unit addr, region⟩).raise .memSpareExhausted 0 [(1, mem), (2, unit)]

/-- A correction is tracked, while Frelvo runs (R281). At most 4,096 addresses are; beyond them the oldest is dropped and MEM_CE_STORM raised at most once per minute
(R274, R275). -/
def Dev.trackIt (d : Dev) (env : Env) (mem unit addr : Nat) : Dev :=
  let live := liveTracks env d.msys.track
  let mine := (live.filter fun t => decide (t.mem = mem ∧ t.unit = unit ∧ t.addr = addr)).flatMap Track.times
  let rest := live.filter fun t => !decide (t.mem = mem ∧ t.unit = unit ∧ t.addr = addr)
  let all := ⟨mem, unit, addr, env.now :: mine⟩ :: rest
  if env.mbx = .activating then d else
  let d1 := d.updMsys fun m => { m with track := all.take 4096 }
  if 4096 < all.length then
    let since := d.msys.storm.since + 1
    if d.msys.storm.due env.now (60 * sec) then
      (d1.updMsys fun m => { m with storm := ⟨0, some env.now⟩ }).raise .memCeStorm 0 [(4, since)]
    else d1.updMsys fun m => { m with storm := { m.storm with since := since } }
  else d1

/-- A correction at an address: logged with its count, tracked, and at the third within the window the word is hard-failed (R274). At an address already
known to have no spare it is logged once per window (R275). -/
def Dev.correction (d : Dev) (env : Env) (x : LogEntry) : Dev :=
  let n := d.tracked env x.mem x.unit x.addr + 1
  let d0 := d.trackIt env x.mem x.unit x.addr
  match d.msys.hard.find? fun h => decide (h.mem = x.mem ∧ h.unit = x.unit ∧ h.addr = x.addr) with
  | some h =>
    if h.loggedAt + env.repeatWindow ≤ env.now then
      (d0.log env { x with count := n }).updMsys fun m => { m with hard := m.hard.map fun k => if k = h then { k with loggedAt := env.now } else k }
    else d0
  | none =>
    let d1 := d0.log env { x with count := n }
    if 3 ≤ n then d1.hardFail env x.mem x.unit x.addr x.region else d1

/-! ### Scrubbing (R273) -/

/-- Has the present pass of a stack that is ON passed twice its period without having been reported late? -/
def Dev.scrubOverdue (d : Dev) (env : Env) (k : Nat) : Bool :=
  d.domOn (domStack k) && !d.msys.scrubLate.contains k
    && decide (d.msys.scrubStart.get env.now k + 2 * env.par.nat pMemScrubPeriod * sec < env.now)

/-- MEM_SCRUB_LATE, once per late pass (R273, R280). -/
def Dev.scrubFollow (d : Dev) (env : Env) (k : Nat) : Dev :=
  if d.scrubOverdue env k then (d.updMsys fun m => { m with scrubLate := k :: m.scrubLate }).raise .memScrubLate 0 [(1, k)] else d

end Sys2Proof.Machine
end

