-- ==== Sys2Proof/Machine/ProtOps.lean ====
section
/-! DEFINITION. Machine/ProtOps.lean: leg conditions, requests and selection of protection groups (R246 to R255). -/

namespace Sys2Proof.Machine

def Group.absent : Group := ⟨0, 0, false, false, 0, 0, .disarmed, false, false, 0, false, false, false, false, false, false, none, 0, 0, false, false, false, false,
  none, none, none, none, 0, 0, 0⟩

def Dev.groupAt (d : Dev) (g : Nat) : Group := d.group.get .absent g
def Dev.hasGroup (d : Dev) (g : Nat) : Bool := (d.group.map (·.1)).contains g
def Dev.updGroup (d : Dev) (g : Nat) (f : Group → Group) : Dev := { d with group := d.group.set g (f (d.groupAt g)) }

/-- Counters of a group (Table 20-1). -/
def ctrProt (k g : Nat) : Nat := ckey 5 (64 * k + g)
abbrev protSubst : Nat := 0
abbrev protDamaged : Nat := 1
abbrev protSwitches : Nat := 2
abbrev protGapUs : Nat := 3

/-- Is the group armed? -/
def Group.armed (g : Group) : Bool := decide (g.st ≠ .disarmed)

/-- The bundle of a leg. -/
def Group.leg (g : Group) (prot : Bool) : Nat := if prot then g.prot else g.work

/-- The leg's carrier has failed (Table 10-6, SF), but for its alignment. -/
def Dev.carrierFails (d : Dev) (env : Env) (n : Nat) : Bool :=
  (d.rx n).los || !d.locked n || decide ((d.fec n).lock ≠ .locked) || (d.frm n).lof || (d.frm n).lom
    || ((d.frm n).tim && decide (env.par.val (pFrmTimMode + n) = 2)) || (d.carrier n).heldDown || (d.rx n).preempted
    || !d.domOn (domCarrier n) || decide ((d.tx n).state = .dark)

/-- A leg has failed: its carrier, or a path defect with action on any channel of its bundle (R253). -/
def Dev.legFails (d : Dev) (env : Env) (b : Nat) : Bool :=
  let x := d.bundleAt b
  d.carrierFails env x.carrier || x.chans.any fun ch => Dev.defectsAct env ch (d.chanAt ch).defects

/-- SF of a leg: it has failed, or it is not aligned. -/
def Dev.legSf (d : Dev) (env : Env) (g : Group) (prot : Bool) : Bool :=
  d.legFails env (g.leg prot) || !(if prot then g.pAligned else g.wAligned)

/-- SD of a leg: FEC_DEG_Cn of its carrier (R197, R253). -/
def Dev.legSd (d : Dev) (g : Group) (prot : Bool) : Bool := (d.fec (d.bundleAt (g.leg prot)).carrier).deg

/-- Neither leg has SF or SD: what a MANUAL request needs, whatever SD_EN is (R253). -/
def Group.quiet (g : Group) : Bool := !g.wSf && !g.pSf && !g.wSd && !g.pSd

/-- The highest request in force and the leg it selects (Table 10-6); `true` is the protection leg. SD counts where SD_EN is 1; with SD on both legs
SEL stays (log entry 18). -/
def Group.winner (g : Group) : Nat × Bool :=
  if g.host = 1 then (1, false)
  else if g.pSf then (2, false)
  else if g.host = 2 then (3, true)
  else if g.wSf then (4, true)
  else if g.sdEn && (g.wSd || g.pSd) then (5, if g.wSd && g.pSd then g.selProt else g.wSd)
  else if g.host = 3 ∧ g.quiet = true then (6, true)
  else if g.host = 4 ∧ g.quiet = true then (6, false)
  else if g.revert && g.wtrEnd.isSome then (7, true)
  else (0, if g.revert then false else g.selProt)

/-- A failed or degraded working leg of a revertive group has recovered while the protection leg is selected: WTR starts (R253). -/
def Group.startsWtr (old new : Group) : Bool :=
  old.revert && old.selProt && old.wtrEnd.isNone && (old.wSf || (old.sdEn && old.wSd)) && !(new.wSf || (new.sdEn && new.wSd))

/-- SEL follows the requests; a change is reported and counted (R253). -/
def Dev.protSelect (d : Dev) (g : Nat) : Dev :=
  let x := d.groupAt g
  let (rank, sel) := x.winner
  let d1 := d.updGroup g fun x => { x with rank := rank, selProt := sel }
  if sel ≠ x.selProt then (d1.raise .protSwitch g [(1, b2n x.selProt), (1, b2n sel), (1, rank)]).count (ctrProt protSwitches g) 1 else d1

/-- Since when a condition has stood. -/
def onset (holds : Bool) (now : Nat) (since : Option Nat) : Option Nat := if holds then some (since.getD now) else none

/-- Does a condition act: it does already, or it has persisted for HOLDOFF (R253)? -/
def Group.acting (g : Group) (now : Nat) (acts : Bool) (since : Option Nat) : Bool := acts || since.any fun t => decide (t + g.holdoff * ms ≤ now)

/-- After any change: an aligned leg that fails is no longer aligned and its group DEGRADED (R255); the onset of each condition
is kept, one that has ended no longer acts, and SEL follows (R253). -/
def Dev.protFollow (d : Dev) (env : Env) (g : Nat) : Dev :=
  let x := d.groupAt g
  if x.armed then
    let w := x.wAligned && !d.legFails env x.work
    let p := x.pAligned && !d.legFails env x.prot
    let st := if x.st = .filling then .filling else if w && p then .aligned else .degraded
    let y := { x with wAligned := w, pAligned := p, st := st }
    let y := { y with wSfAt := onset (d.legSf env y false) env.now x.wSfAt, pSfAt := onset (d.legSf env y true) env.now x.pSfAt,
                      wSdAt := onset (d.legSd y false) env.now x.wSdAt, pSdAt := onset (d.legSd y true) env.now x.pSdAt }
    let z := { y with wSf := x.wSf && d.legSf env y false, pSf := x.pSf && d.legSf env y true,
                      wSd := x.wSd && d.legSd y false, pSd := x.pSd && d.legSd y true }
    let z' := if x.startsWtr z then { z with wtrEnd := some (env.now + z.wtr * sec) } else z
    (d.updGroup g fun _ => z').protSelect g
  else d

/-- A group that no longer protects (R81, R251). -/
def Group.rest (x : Group) : Group :=
  { x with st := .disarmed, host := 0, wSf := false, wSd := false, pSf := false, pSd := false, wSfAt := none, wSdAt := none, pSfAt := none, pSdAt := none,
           wAligned := false, pAligned := false, wtrEnd := none, rank := 0, ambig := false, stuck := false }

/-- The group is disarmed: the working leg is delivered without delay, the protection bundle is disabled at the next boundary (R251). Where an arming is
withdrawn, a bundle that was enabled before it stays so (R16). -/
def Dev.disarm (d : Dev) (g : Nat) : Dev :=
  let x := d.groupAt g
  let d1 := d.updGroup g fun x => { x.rest with selProt := false }
  if x.st = .filling ∧ x.protWas = true then d1
  else d1.updBundle x.prot fun b => { b with st := if b.st = .disabled then .disabled else .closing }

/-- Frames the selector has substituted, and damaged frames it has delivered, since it last told (R252). -/
def Dev.countFrames (d : Dev) (g subst damaged : Nat) : Dev := (d.count (ctrProt protSubst g) subst).count (ctrProt protDamaged g) damaged

/-- An armed group's selector works on every frame, and not every row tells what it did: what it has counted since the last look is free (R252, log entry
121). -/
def Dev.framesRun (d : Dev) (g : Nat) : Dev :=
  if (d.groupAt g).armed then (let (a, d1) := d.draw; let (b, d2) := d1.draw; d2.countFrames g a b) else d

/-- The selectors of every group. -/
def Dev.selectorsRun (d : Dev) : Dev := (d.group.map (·.1)).foldl Dev.framesRun d

/-- Differential delay `v` in ns, positive where the protection leg is the earlier: the later leg sets the delivered latency, and the earlier is held for the
difference beside what both are held for (R250, R255). -/
def Group.setDiff (x : Group) (now : Nat) (v : Int) : Group :=
  let both := min x.wHold x.pHold
  { x with diff := v.natAbs, earlierProt := if v = 0 then x.earlierProt else decide (0 < v), wHold := both + (-v).toNat, pHold := both + v.toNat, diffAt := now }

/-- The signed differential delay of the last look. -/
def Group.lead (x : Group) : Int := if x.earlierProt then x.diff else -x.diff

/-- The aligner follows a differential delay that changes by up to 1 µs/s (R250): by how much it has since the last look is free within that (log entry 180). -/
def Dev.diffRuns (d : Dev) (env : Env) (g : Nat) : Dev :=
  let x := d.groupAt g
  let most := (env.now - x.diffAt) / 1000000
  if x.st = .aligned then
    let (f, d1) := d.draw
    d1.updGroup g fun x => x.setDiff env.now (x.lead + (f % (2 * most + 1) : Nat) - (most : Int))
  else d

end Sys2Proof.Machine
end

