-- ==== Sys2Proof/Machine/SenseOps.lean ====
section
/-! DEFINITION. Machine/SenseOps.lean: decimation, compensator sets and the life of a telemetry chain (R410 to R418, R428). -/

namespace Sys2Proof.Machine

def Dev.sense (d : Dev) (n : Nat) : Sense := d.sen.get .reset n
def Dev.updSense (d : Dev) (n : Nat) (f : Sense → Sense) : Dev := { d with sen := d.sen.upd .reset n f }

/-- One input sample through the four integrators, modulo 2⁵⁶ (R412). -/
def cicIn : List Nat → Nat → List Nat
  | [], _ => []
  | i :: is, x => (i + x) % 2 ^ 56 :: cicIn is ((i + x) % 2 ^ 56)

/-- One output through the combs, modulo 2⁵⁶: the combs' new contents and the output. -/
def cicOut : List Nat → Nat → List Nat × Nat
  | [], y => ([], y)
  | z :: zs, y =>
    let r := cicOut zs ((y + 2 ^ 56 - z % 2 ^ 56) % 2 ^ 56)
    (y :: r.1, r.2)

/-- Divided by R⁴ (a right shift of 4k bits), rounded to nearest, held as 16 bits (R412). -/
def cicRound (k y : Nat) : Int := toSigned 16 (ofSigned 16 ((toSigned 56 y + (2 ^ (4 * k - 1) : Nat)) / (2 ^ (4 * k) : Nat)))

/-- Samples through the integrators. -/
def cicIns (ints : List Nat) (xs : List Int) : List Nat := xs.foldl (fun is x => cicIn is (ofSigned 56 x)) ints

/-- Of the R frames that end with frame mR + 15R/16, those up to frame mR + qR/16, at which stream `q` has its turn at the combs (R413). -/
def turnFrames (k q : Nat) : Nat := (q + 1) * 2 ^ k / 16

/-- The decimator of stream `q` takes the R frames of an output period: at its turn it gives one output, and the frames after it stay in the integrators for the
next (R412, R413); the filters behind it need the last 36 outputs. -/
def Cic.run (c : Cic) (k q : Nat) (xs : List Int) : Cic :=
  let ints := cicIns c.ints (xs.take (turnFrames k q))
  let (combs, y) := cicOut c.combs (ints.getLastD 0)
  ⟨cicIns ints (xs.drop (turnFrames k q)), combs, (cicRound k y :: c.hist).take 36⟩

/-- How far, in sixteenths of an output period, the deskew delays stream `q` (R413). -/
def deskewDelay (q : Nat) : Nat := 15 - q

/-- The taps of a set: those of a default set are Frelvo's own (R414). -/
def CompSet.taps (k : Nat) : CompSet → List Int
  | .dflt m => Config.senseDefault k m
  | .host l => l

/-- The sample that the compensator takes `i` periods back: with deskew from the four-tap interpolator of stream `q` (R413). -/
def deskewed (deskew : Bool) (q : Nat) (hist : List Int) (i : Nat) : Int :=
  if deskew then Config.senseInterp (deskewDelay q) ((List.range 4).map fun a => hist.getD (i + a) 0) else hist.getD i 0

/-- The 32-tap FIR, tap 0 on the newest sample, in units of 2⁻¹⁴ (R414). -/
def firSum (taps : List Int) (x : Nat → Int) : Int := ((List.range 32).map fun i => taps.getD i 0 * x i).sum

/-- A value as a signed 16-bit field: exact where it is a whole number that fits (R414). -/
def senseField (num : Int) (den : Nat) : Nat :=
  if num % (den : Int) = 0 ∧ -32768 ≤ num / (den : Int) ∧ num / (den : Int) ≤ 32767 then ofSigned 16 (num / (den : Int))
  else Config.senseNarrow num den % 65536

/-- The record's value of stream `j` of carrier `n`: deskewed, filtered, and linear between the sets in a cross-fade of P_SENSE_XFADE samples (R413, R414). -/
def Sense.out (s : Sense) (env : Env) (n j : Nat) : Nat :=
  let x := deskewed s.deskew (4 * n + j) (s.cic.get .reset j).hist
  let fade := max 1 (env.par.nat pSenseXfade)
  let f := min s.faded fade
  senseField (firSum (s.set.taps s.k) x * ((fade - f : Nat) : Int) + firSum ((s.fading.getD s.set).taps s.k) x * (f : Int)) (2 ^ 14 * fade)

/-- A set becomes the one to use: it starts its cross-fade, or waits; a waiting one is replaced, never applied, and counted (R26, R414). -/
def Dev.senseLoad (d : Dev) (n : Nat) (c : CompSet) : Dev :=
  let s := d.sense n
  match s.fading, s.waiting with
  | none, _ => d.updSense n fun s => { s with fading := some c, faded := 0 }
  | some _, none => d.updSense n fun s => { s with waiting := some c }
  | some _, some _ => (d.updSense n fun s => { s with waiting := some c, superseded := s.superseded + 1 }).countSuperseded (some none)

/-- A carrier's chain works: sensing on, the domain ON and not held down by a Seam failure (R410, R428). -/
def Dev.senseWanted (d : Dev) (env : Env) (n : Nat) : Bool :=
  d.inService && d.domOn (domCarrier n) && !(d.carrier n).heldDown && env.par.on (pSenseEn + n)

/-- Front of a carrier starts afresh (R428). -/
def Sense.frontReset (s : Sense) : Sense :=
  { s with ph := { FrontMeasure.reset with last := s.ph.last }, sop := { FrontMeasure.reset with last := s.sop.last }, window := [] }

/-- A new k comes into force, with the default set for it, not cross-faded (R414). -/
def Sense.decim (s : Sense) (k : Nat) (minphase : Bool) : Sense :=
  if s.k = k then s else { s with k := k, set := .dflt minphase, fading := none, waiting := none, faded := 0 }

/-- The chain starts or restarts: integrators cleared, records numbered from 0, the first one marked (R413). -/
def Sense.restart (s : Sense) (deskew : Bool) : Sense :=
  { s.frontReset with running := true, seq := 0, discont := true, restValid := true, cic := [], deskew := deskew }

/-- P_SENSE_DECIM changes, whether or not the chain runs: the set that waits then is never applied: it is replaced and counted (R26, R414, R419). -/
def Dev.senseDecim (d : Dev) (n k : Nat) (minphase : Bool) : Dev :=
  let s := d.sense n
  let lost := decide (s.k ≠ k) && s.waiting.isSome
  (d.updSense n fun s => { s.decim k minphase with superseded := s.superseded + b2n lost }).countSuperseded (if lost then some none else none)

/-- What follows of the parameters and of the carrier's state for its chain. -/
def Dev.senseFollow (d : Dev) (env : Env) (n : Nat) : Dev :=
  let k := env.par.nat pSenseDecim
  let deskew := env.par.on pSenseDeskew
  let m := env.par.on (pSenseMinphase + n)
  let d1 := if (d.sense n).minphase ≠ m then (d.updSense n fun s => { s with minphase := m }).senseLoad n (.dflt m) else d
  let s := d1.sense n
  let d2 := d1.senseDecim n k m
  if d1.senseWanted env n then
    if !s.running then (d2.updSense n (·.restart deskew)).startRun env .front n
    else if s.k ≠ k ∨ s.deskew ≠ deskew then d2.updSense n (·.restart deskew)
    else d2
  else if s.running then (d2.updSense n fun s => { s.frontReset with running := false }).endRun .front n
  else d2

end Sys2Proof.Machine
end

