-- ==== Sys2Proof/Machine/TimOps.lean ====
section
/-! DEFINITION. Machine/TimOps.lean: qualification, vote, selection and the states of the timing DPLL (R388 to R398, R408). -/

namespace Sys2Proof.Machine

def Dev.updTim (d : Dev) (f : Tim → Tim) : Dev := { d with tim := f d.tim }
def Dev.timRef (d : Dev) (r : Nat) : TimRef := d.tim.refs.get .reset r
def Dev.updRef (d : Dev) (r : Nat) (f : TimRef → TimRef) : Dev := d.updTim fun t => { t with refs := t.refs.upd .reset r f }
def Dev.timOut (d : Dev) (o : Nat) : TimOut := d.tim.outs.get .reset o
def Dev.updOut (d : Dev) (o : Nat) (f : TimOut → TimOut) : Dev := d.updTim fun t => { t with outs := t.outs.upd .reset o f }

/-- Does a step add to the output's OFFSET: is it a pulse output aligned to an input (R401)? -/
def TimOut.stepsOffset (x : TimOut) (o : Nat) : Bool := decide (4 ≤ o ∧ x.source ≠ 0)

/-- The four references. -/
def timRefs : List Nat := [0, 1, 2, 3]

/-- Eligible for selection (R392). -/
def TimRef.eligible (r : TimRef) : Bool := r.enable && r.qualified && !r.suspect && decide (r.ql ≠ 15) && r.wtrEnd.isNone
/-- Forced mode ignores wait-to-restore and SUSPECT (R404). -/
def TimRef.forcible (r : TimRef) : Bool := r.enable && r.qualified && decide (r.ql ≠ 15)

/-- A reference whose QL or PRIO has improved is eligible without waiting: a wait-to-restore that runs ends (R393). -/
def TimRef.improved (x : TimRef) (ql prio : Nat) : TimRef := if ql < x.ql ∨ prio < x.prio then { x with wtrEnd := none } else x

/-- Lower QL, then lower PRIO, then the lower number (R392). -/
def timBetter (a b : TimRef) : Bool := decide (a.ql < b.ql ∨ (a.ql = b.ql ∧ a.prio < b.prio))

/-- The best of a list of references, ties to the earlier. -/
def Dev.timBest (d : Dev) : List Nat → Option Nat
  | [] => none
  | r :: rs => match d.timBest rs with
    | none => some r
    | some b => if timBetter (d.timRef b) (d.timRef r) then some b else some r

/-- May the reference be selected in the mode in force? -/
def Dev.timAllowed (d : Dev) (r : Nat) : Bool :=
  match d.tim.mode with
  | .auto => (d.timRef r).eligible
  | .forced => decide (r = d.tim.forced) && (d.timRef r).forcible
  | .holdover => false
  | .freerun => false

/-- What selection names now. -/
def Dev.timWanted (d : Dev) : Option Nat := d.timBest (timRefs.filter d.timAllowed)

/-! ### The core frequency (R386, R390, R394, R396 to R398) -/

/-- How far the core may move in `ns`, at the slope limit, in 0.001 ppb: P_TIM_SLOPE is in ppb/s. -/
def slopeMove (env : Env) (ns : Nat) : Int := (env.par.nat pTimSlope * ns / 1000000 : Nat)

/-- Within ±P_TIM_REJECT of a reference (R390). -/
def clampCore (env : Env) (r : Nat) (x : Int) : Int :=
  let limit := env.par.val (pTimReject + r) * 10000
  max (-limit) (min limit x)

/-- A value moved toward 0 by no more than `m`. -/
def towardZero (m x : Int) : Int := if x.natAbs ≤ m.toNat then 0 else x - x.sign * m

/-- The core frequency brought up to now, by the state it has been in (Table 16-2): FREERUN ramps to nominal at the slope limit; HOLDOVER has the holdover value;
LOCKED follows its reference within the clamp, and ACQUIRING and SWITCHING pull at no more than the slope limit, within the clamp. A reference's frequency now
is no state: within those bounds the value is free (log entry 185). -/
def Dev.coreNow (d : Dev) (env : Env) : Dev :=
  let t := d.tim
  let m := slopeMove env (env.now - t.coreAt)
  let at_ (d : Dev) (x : Int) : Dev := d.updTim fun t => { t with core := x, coreAt := env.now }
  if t.coreAt = env.now then d
  else if !d.domOn domDpll then at_ d t.core
  else match t.st, t.sel with
    | .holdover, _ => at_ d t.ho
    | .locked, some r => let (v, d1) := d.draw; at_ d1 (clampCore env r (toSigned 32 v))
    | .acquiring, some r => let (v, d1) := d.draw; at_ d1 (clampCore env r (t.core - m + (v % (2 * m.toNat + 1) : Nat)))
    | .switching, some r => let (v, d1) := d.draw; at_ d1 (clampCore env r (t.core - m + (v % (2 * m.toNat + 1) : Nat)))
    | _, _ => at_ d (towardZero m t.core)

/-- The DPLL leaves a state: its core frequency is brought up to now, and out of LOCKED with history the holdover value is kept, which lies within ±5 ppb of the
last locked frequency (R397): a free value there (log entry 185). -/
def Dev.timLeave (d : Dev) (env : Env) : Dev :=
  let d1 := d.coreNow env
  if d.tim.st = .locked ∧ d.tim.history = true then
    let (v, d2) := d1.draw
    d2.updTim fun t => { t with ho := t.core - 5000 + (v % 10001 : Nat) }
  else d1

/-! ### States -/

/-- The DPLL has nothing to follow: HOLDOVER with history, else FREERUN at once (R394, R396, R408). -/
def Dev.timRest (d0 : Dev) (env : Env) : Dev :=
  if d0.tim.history ∧ d0.tim.mode ≠ .freerun ∧ d0.tim.st = .holdover then d0
  else
    let d := d0.timLeave env
    let t := d.tim
    if t.history ∧ t.mode ≠ .freerun then
      (d.updTim fun t => { t with st := .holdover, sel := none, lastSel := t.sel.getD t.lastSel, hoSince := env.now, core := t.ho }).raise
        .timHoldover 0 [(1, t.sel.getD t.lastSel)]
    else d.updTim fun t => { t with st := .freerun, sel := none, lastSel := t.sel.getD t.lastSel }

/-- The start of a switch: the phase difference between the new reference and the outputs is measured, a free value in ps, and with
P_TIM_ABSORB = 1 held as an offset (R395). -/
def Dev.absorb (d : Dev) (env : Env) : Dev :=
  let (diff, d1) := d.draw
  d1.updTim fun t => { t with phaseDiff := toSigned 64 diff, phaseAt := env.now, phaseHeld := decide (env.par.val pTimAbsorb = 1) }

/-- The DPLL begins to follow reference `r`, from the frequency in force: ACQUIRING from FREERUN and HOLDOVER, else SWITCHING with TIM_SWITCH (R394, R396,
R398); an output that ran at the XOIN nominal follows the core from here on (R399). -/
def Dev.timTo (d0 : Dev) (env : Env) (r : Nat) : Dev :=
  let d := (d0.timLeave env).updTim fun t => { t with outs := t.outs.map fun kv => (kv.1, { kv.2 with atNominal := false }) }
  match d.tim.sel with
  | none => (d.absorb env).updTim fun t => { t with st := .acquiring, sel := some r, lastSel := r }
  | some old =>
    (((d.absorb env).updTim fun t => { t with st := .switching, sel := some r, lastSel := r }).count (ckey 10 0) 1).raise .timSwitch 0 [(1, old), (1, r)]

/-- Selection is evaluated (R392 to R394). `gain`: the only change is that references became eligible, which waits while a switch is in progress. -/
def Dev.timSelect (d : Dev) (env : Env) (gain : Bool) : Dev :=
  if !d.domOn domDpll then d
  else match d.timWanted, d.tim.sel with
    | none, none => if d.tim.st = .holdover ∧ d.tim.mode = .freerun then d.timRest env else d
    | none, some _ => d.timRest env
    | some r, none => d.timTo env r
    | some r, some cur =>
      if r = cur then d
      else if gain && decide (d.tim.st ≠ .locked) && d.timAllowed cur then d
      else d.timTo env r

/-- A reference is disqualified (R388, R389, R402): cause 0 activity, 1 frequency, 2 configuration. -/
def Dev.timDisq (d : Dev) (r cause : Nat) : Dev :=
  let x := d.timRef r
  let d1 := d.updRef r fun x => { x with qualified := false, okSince := none, wtrEnd := none, wasDisq := x.wasDisq || x.qualified }
  d1.raiseIf x.qualified .timRefDisqual r [(1, cause), (4, x.offset)]

/-- A full 1 s window has been seen: the reference is measured (R389). -/
def TimRef.measured (r : TimRef) (now : Nat) : Bool := r.enable && !r.lost && decide (r.since + sec ≤ now)

/-- One reference's measurement of `off` (R389, R393). -/
def Dev.timMeasure (d : Dev) (env : Env) (r : Nat) (off : Int) : Dev :=
  if (d.timRef r).measured env.now = false then d
  else
    let d := d.updRef r fun x => { x with offset := off }
    let x := d.timRef r
    let accept := env.par.val (pTimAccept + r)
    let reject := env.par.val (pTimReject + r)
    if (off.natAbs : Int) ≤ accept then
      let from_ := x.okSince.getD env.now
      if !x.qualified && decide (from_ + env.par.nat pTimQualTime * sec ≤ env.now) then
        let wtr := env.par.nat pTimWtr
        let owed := if x.wasDisq && decide (0 < wtr) then some (env.now + wtr * sec) else none
        (d.updRef r fun x => { x with qualified := true, okSince := some from_, wasDisq := false, wtrEnd := owed }).raise .timRefQual r [(4, off)]
      else d.updRef r fun x => { x with okSince := some from_ }
    else if x.qualified then if reject < off.natAbs then d.timDisq r 1 else d.updRef r fun x => { x with okSince := none }
    else d.updRef r fun x => { x with okSince := none }

/-- Do two offsets differ by more than the vote limit? -/
def apart (v a b : Int) : Bool := decide (v < ((a - b).natAbs : Int))

/-- The qualified references, with their offsets. -/
def Dev.timVoters (d : Dev) : List (Nat × Int) :=
  (timRefs.filter fun r => (d.timRef r).qualified).map fun r => (r, (d.timRef r).offset)

/-- Is `r` named by the vote: apart from two others that agree with each other (R391)? -/
def voteNames (v : Int) (l : List (Nat × Int)) (r : Nat × Int) : Bool :=
  l.any fun a => l.any fun b =>
    decide (a.1 ≠ b.1 ∧ a.1 ≠ r.1 ∧ b.1 ≠ r.1) && apart v r.2 a.2 && apart v r.2 b.2 && !apart v a.2 b.2

/-- The one reference the vote names, where three or more are qualified and exactly one stands out; and whether the references disagree
in a way that names no single outlier (R391). -/
def vote (v : Int) (l : List (Nat × Int)) : Option Nat × Bool :=
  if l.length < 3 then (none, false)
  else match l.filter (voteNames v l) with
    | [r] => (some r.1, false)
    | _ => (none, l.any fun a => l.any fun b => apart v a.2 b.2)

/-- One reference's vote counts: ten in a row set the flag, ten in a row without clear it (R391). -/
def Dev.timCount (d : Dev) (named : Bool) (r : Nat) : Dev :=
  let d1 := d.updRef r fun x => if named then { x with named := x.named + 1, unnamed := 0 } else { x with named := 0, unnamed := x.unnamed + 1 }
  let x := d1.timRef r
  if !x.suspect && decide (10 ≤ x.named) then (d1.updRef r fun x => { x with suspect := true }).raise .timRefSuspect r [(4, x.offset)]
  else if x.suspect && decide (10 ≤ x.unnamed) then (d1.updRef r fun x => { x with suspect := false }).raise .timRefSuspectClr r [(4, x.offset)]
  else d1

/-- The cross-reference vote of one measurement (R391). -/
def Dev.timVote (d : Dev) (env : Env) : Dev :=
  let (named, split) := vote (env.par.val pTimVote) d.timVoters
  let d1 := timRefs.foldl (fun d r => d.timCount (decide (named = some r)) r) d
  let due : Bool := match d1.tim.splitAt with
    | none => true
    | some t => decide (t + 60 * sec ≤ env.now)
  if split && due then
    (d1.updTim fun t => { t with splitAt := some env.now }).raise .timVoteSplit 0 (timRefs.map fun r => (2, (d1.timRef r).offset))
  else d1

/-- The monitors of one reference start afresh: the reference is new, or its domain has just come ON. -/
def TimRef.watch (r : TimRef) (now : Nat) : TimRef :=
  { TimRef.reset with enable := r.enable, prio := r.prio, ql := r.ql, freq := r.freq, since := now, wasDisq := r.wasDisq }

/-- A pulse output starts: where its first edge falls within the second the spec leaves open, a free value (log entry 185). -/
def Dev.ppsStart (d : Dev) (env : Env) (o : Nat) : Dev :=
  if (d.timOut o).enable then
    let (v, d1) := d.draw
    d1.updOut o fun x => { x with next := env.now * 1000 + (v % 10 ^ 12 : Nat), last := none }
  else d

/-- Domain 0x41 comes ON: from OFF in FREERUN with no history at the XOIN nominal, from IDLE in HOLDOVER with the state and the holdover value it kept (R396,
R408). -/
def Dev.timOn (d : Dev) (env : Env) (wasIdle : Bool) : Dev :=
  let d1 := ((d.updTim fun t => { t with
    outs := t.outs.map fun kv => (kv.1, { kv.2 with aligning := kv.2.enable && decide (kv.2.source ≠ 0), above := 0, lowUntil := 0 }), pps := [],
    core := 0, coreAt := env.now }).ppsStart env 4).ppsStart env 5
  if wasIdle then
    (if d1.tim.st = .freerun then d1 else d1.timRest env).restartCounter (ckey 10 0)
  else (d1.updTim fun t => { t with
      refs := t.refs.map fun kv => (kv.1, { (kv.2.watch env.now) with wasDisq := false }), outs := t.outs.map fun kv => (kv.1, { kv.2 with atNominal := kv.2.enable }),
      st := .freerun, sel := none, history := false, splitAt := none }).restartCounter (ckey 10 0)

/-- A slewing phase step moves the outputs of its mask by `by_` ps more; an aligned pulse output's OFFSET with it (R401). -/
def Dev.moveOuts (d : Dev) (mask : Nat) (by_ : Int) : Dev :=
  ((List.range 6).filter fun o => bitAt mask o).foldl (fun d o => d.updOut o fun x =>
    { x with phasePs := x.phasePs + by_, offsetPs := if x.stepsOffset o then x.offsetPs + by_ else x.offsetPs, next := x.next + by_ }) d

/-- A phase step that runs is taken back (R16). -/
def Dev.undoStep (d : Dev) : Dev :=
  match d.tim.step with
  | some r => (d.moveOuts r.mask (-r.moved)).updTim fun t => { t with step := none }
  | none => d

/-- Domain 0x41 goes down: a running phase step ends (R512). -/
def Dev.stepGone (d : Dev) (st : Status) : Dev :=
  match d.tim.step with
  | some r => d.undoStep.finish 0x0A04 r.mask st 0 []
  | none => d

/-- Domain 0x41 loses its state: OFF, or a passage through Calm (R408). -/
def Dev.timOff (d : Dev) (st : Status) : Dev :=
  (d.stepGone st).updTim fun t => { t with
    refs := t.refs.map fun kv => (kv.1, { (kv.2.watch 0) with wasDisq := false }),
    st := .freerun, sel := none, history := false, pps := [] }

/-- Domain 0x41 goes to IDLE: its state and holdover value are kept (R408). -/
def Dev.timIdle (d : Dev) (env : Env) : Dev := (d.stepGone .state).timLeave env

/-- Is a reference selected, or an output enabled? (Table 3-6) -/
def Dev.timInUse (d : Dev) : Bool := d.tim.outs.any (fun kv => kv.2.enable) || decide (d.tim.st ≠ .freerun)

/-- PPS_STATE of an output (R407). -/
def Dev.ppsState (d : Dev) (o : Nat) : Nat :=
  let x := d.timOut o
  if !x.enable || !d.domOn domDpll then 0
  else if x.source = 0 ∨ (d.tim.pps.get .reset (x.source - 1)).lost then 1
  else if x.aligning then 2
  else 3

/-- How far a second's slewing moves an aligned pulse output with error `e` ps: an error beyond ±2 ns goes out at P_TIM_PPS_SLEW (R400, item 4). -/
def ppsSlewed (env : Env) (e : Int) : Int :=
  if e.natAbs ≤ 2000 then 0 else -(e.sign * (min e.natAbs (env.par.nat pTimPpsSlew * 1000) : Nat))

/-- The next edge of a pulse output moves by `by_` ps; where that would make the interval since the last one shorter than 500 ms, one pulse is left out
(R400, item 3). -/
def TimOut.jump (x : TimOut) (by_ : Int) : TimOut :=
  { x with next := if x.last.any fun l => decide (x.next + by_ < l + 500000000000) then x.next + by_ + 1000000000000 else x.next + by_ }

/-- A valid edge of pulse input `p` reaches output `o`: `raw` is the output edge minus the input edge in ps (R400, items 1, 3, 4). -/
def Dev.ppsEdge (d : Dev) (env : Env) (p : Nat) (raw : Int) (o : Nat) : Dev :=
  let x := d.timOut o
  if !x.enable || decide (x.source ≠ p + 1) then d
  else
    let e := raw - x.offsetPs
    let above := if env.par.val pTimPpsJump * 1000 < e.natAbs then x.above + 1 else 0
    if x.aligning || decide (4 ≤ above) then
      (d.updOut o fun x => { (x.jump (-e)) with aligning := false, above := 0, err := e }).raise .timPpsAligned o [(4, Int.tdiv (-e) 1000)]
    else d.updOut o fun x => { x with above := above, err := e, next := x.next + ppsSlewed env e }

/-- An edge of a pulse input, `gap` ns after the one before (R400, item 2). -/
def Dev.ppsIn (d : Dev) (env : Env) (p gap : Nat) (raw0 raw1 : Int) : Dev :=
  let x := d.tim.pps.get .reset p
  let onTime := decide (sec ≤ gap + 10 * us ∧ gap ≤ sec + 10 * us)
  let edges := if onTime then min 3 (x.edges + 1) else if x.valid then x.edges else 1
  let valid := x.valid || decide (3 ≤ edges)
  let d1 := d.updTim fun t => { t with pps := t.pps.set p ⟨edges, valid, x.lost && !valid⟩ }
  let d2 := d1.raiseIf (x.lost && valid) .timPpsClr p []
  if valid && (onTime || !x.valid) then (d2.ppsEdge env p raw0 4).ppsEdge env p raw1 5 else d2

/-! ### With time -/

/-- How far a phase step of `step` ps has moved an output after `ns`, at P_TIM_STEP_RATE in ns/s (R401). -/
def stepMoved (rate : Nat) (step : Int) (ns : Nat) : Int := step.sign * (min step.natAbs (rate * ns / 1000000) : Nat)

/-- A slewing phase step goes on; the command ends when it has been applied (R401, R406). -/
def Dev.stepFollow (d : Dev) (env : Env) : Dev :=
  match d.tim.step with
  | none => d
  | some r =>
    let m := stepMoved r.rate r.step (env.now - r.since)
    let d1 := d.moveOuts r.mask (m - r.moved)
    if m = r.step then (d1.updTim fun t => { t with step := none }).finish 0x0A04 r.mask .ok 0 []
    else d1.updTim fun t => { t with step := some { r with moved := m } }

/-- A pulse output emits its rising edge, and the next one is due a second of the core time scale later (R400). -/
def Dev.ppsFollow (d : Dev) (env : Env) (o : Nat) : Dev :=
  let x := d.timOut o
  if x.enable && d.domOn domDpll && decide (x.next ≤ env.now * 1000) then
    let d1 := d.coreNow env
    d1.updOut o fun x => { x with last := some x.next, next := x.next + (10 ^ 24) / (10 ^ 12 + d1.tim.core) }
  else d

/-- What the timing block does with time. -/
def Dev.timFollow (d : Dev) (env : Env) : Dev := ((d.stepFollow env).ppsFollow env 4).ppsFollow env 5

end Sys2Proof.Machine
end

