-- ==== Sys2Proof/Machine/Follow.lean ====
section
/-! DEFINITION. Machine/Follow.lean: what follows of itself from any change of the device: rate steps that have lost their shadow set (R243),
protection groups (R253, R255), client ports (R305, R317), keys (R340), telemetry chains (R413, R428), Breeze tones (R433, R437), boost (R90),
late scrub passes (R273). -/

namespace Sys2Proof.Machine

/-- A step before its COMMIT whose shadow set has been taken or recalled is abandoned with cause NO_LAST (R134, R135, R243). -/
def Dev.rateFollow (d : Dev) (env : Env) (n : Nat) : Dev :=
  let r := d.rate n
  if r.uncommitted && r.shadow && !((d.rx n).build.any fun b => decide (b.why = .rateStep)) then d.stepAbandon env n 14 .noLast 0 else d

/-- Each second the rate policy program of a carrier with P_RS_POLICY 1 or 2 is started (R244, R364): a run that finds no room waits, a decision is blocked by that,
and the hold of an up step is broken (R245). While one is pending no other is started. With P_RS_POLICY 0 there is none. The seconds are those of the time base,
which is the model's choice (log entry 184). -/
def Dev.policyFollow (d : Dev) (env : Env) (n : Nat) : Dev :=
  let s := env.now / sec
  let d0 := if env.par.val (pRsPolicy + n) = 0 then d.endRun .ratePolicy n else d
  if s ≤ (d0.rate n).policySec then d0
  else
    let d1 := d0.updRate n fun r => { r with policySec := s }
    if env.par.val (pRsPolicy + n) = 0 || !d1.inService || !d1.domOn (domCarrier n) then d1
    else
      let d2 := if d1.runs.any (isRun .ratePolicy n) then d1 else d1.startRun env .ratePolicy n
      if d2.runPlaced .ratePolicy n || decide (env.mbx ≠ .ready) then d2
      else (d2.updRate n fun r => { r with upSince := none }).rateBlocked env n 1 0

/-- Everything that follows. -/
def Dev.follow (d : Dev) (env : Env) : Dev :=
  let d1 := ([0, 1, 2, 3] : List Nat).foldl (fun d n => ((d.rateFollow env n).loadFollow env n).policyFollow env n) d
  let d2 := (d1.group.map (·.1)).foldl (fun d g => d.protFollow env g) d1
  let d3 := (d2.cli.eth.map (·.1)).foldl Dev.ethFollow d2
  let d4 := ((d3.stitchAll env).keyFollow env).timFollow env
  ((((([0, 1, 2, 3] : List Nat).foldl (fun d n => (d.senseFollow env n).brzFollow env n) d4).boostFollow env).scrubFollow env 0).scrubFollow env 1)

end Sys2Proof.Machine
end

