-- ==== Sys2Proof/Machine/Operands.lean ====
section
/-! DEFINITION. Machine/Operands.lean: the operand forms of a command entry: header flags, PLEN and count fields, payload fields (R9, R42, R477, R510, R511). -/

namespace Sys2Proof.Machine

/-- FORCE, IRQ, FENCE of byte 4 (R42). -/
def force (e : CmdEntry) : Bool := bitAt e.flags.toNat 0
def fenced (e : CmdEntry) : Bool := bitAt e.flags.toNat 2

/-- PAYLOAD as Frelvo reads it: the first PLEN bytes (R42). -/
def payload (e : CmdEntry) : List Byte := padTo e.plen.toNat e.payload

/-- Unsigned fields of the payload by byte offset. -/
def u8 (e : CmdEntry) (k : Nat) : Nat := fieldAt (payload e) k 1
def u16 (e : CmdEntry) (k : Nat) : Nat := fieldAt (payload e) k 2
def u32 (e : CmdEntry) (k : Nat) : Nat := fieldAt (payload e) k 4
def i16 (e : CmdEntry) (k : Nat) : Int := toSigned 16 (fieldAt (payload e) k 2)
def i32 (e : CmdEntry) (k : Nat) : Int := toSigned 32 (fieldAt (payload e) k 4)
def i64 (e : CmdEntry) (k : Nat) : Int := toSigned 64 (fieldAt (payload e) k 8)

/-- One field of a payload layout: byte offset and size, the bits the layout names, and the range of the value. -/
structure Fld where
  off : Nat
  size : Nat
  mask : Nat
  lo : Int
  hi : Int
  signed : Bool
  deriving DecidableEq, Repr

/-- An unsigned field of `size` bytes from `lo` to `hi`. -/
def fldU (off size : Nat) (lo hi : Int) : Fld := ⟨off, size, 2 ^ (8 * size) - 1, lo, hi, false⟩
/-- A signed field. -/
def fldI (off size : Nat) (lo hi : Int) : Fld := ⟨off, size, 2 ^ (8 * size) - 1, lo, hi, true⟩
/-- A field that takes any value. -/
def fldAny (off size : Nat) : Fld := ⟨off, size, 2 ^ (8 * size) - 1, 0, 2 ^ (8 * size), false⟩
/-- Bytes of which only the bits of `mask` are named; any value of those. -/
def fldBits (off size mask : Nat) : Fld := ⟨off, size, mask, 0, 2 ^ (8 * size), false⟩
/-- Reserved bytes (R9). -/
def fldRsv (off size : Nat) : Fld := ⟨off, size, 0, 0, 0, false⟩

/-- The index of the lowest bit that is 1, below a bound. -/
def lowBit : Nat → Nat → Nat
  | 0, _ => 0
  | n + 1, v => if v % 2 = 1 then 0 else 1 + lowBit n (v / 2)

/-- What is wrong with one field: DETAIL is the entry offset of the byte with the lowest reserved bit set, or of the field out of
range (R9, R511). Payload byte b has entry offset 8 + b. -/
def Fld.fault (pl : List Byte) (f : Fld) : Option Nat :=
  let raw := fieldAt pl f.off f.size
  let extra := raw - (raw &&& f.mask)
  if extra ≠ 0 then some (8 + f.off + lowBit (8 * f.size) extra / 8)
  else
    let v : Int := if f.signed then toSigned (8 * f.size) raw else raw
    if v < f.lo ∨ f.hi < v then some (8 + f.off) else none

/-- The first fault of a layout, in ascending offset (log entry 6). -/
def layoutFault (pl : List Byte) : List Fld → Option Nat
  | [] => none
  | f :: fs => match f.fault pl with
    | some k => some k
    | none => layoutFault pl fs

/-- Header checks in ascending byte offset: an undefined FORCE or a reserved bit of byte 4, byte 5, PLEN above 248, byte 7 (R510). -/
def headerFault (forceDefined : Bool) (e : CmdEntry) : Option Nat :=
  if (force e && !forceDefined) || decide (8 ≤ e.flags.toNat) then some 4
  else if e.resv5 ≠ 0 then some 5
  else if 248 < e.plen.toNat then some 6
  else if e.resv7 ≠ 0 then some 7
  else none

/-- How a command's PLEN is judged (R477). -/
inductive PlenRule where
  | fixed (n : Nat)
  /-- `base + unit × COUNT`, COUNT a byte at payload offset `at_` from `lo` to `hi` -/
  | counted (base unit at_ lo hi : Nat)
  | oneOf (l : List Nat)
  /-- the command's own rule judges PLEN -/
  | own
  deriving DecidableEq, Repr

/-- PLEN and count faults: a PLEN too short to hold the count, or a wrong PLEN, give 0x0006; a count out of range names the count field (R477). -/
def PlenRule.fault (r : PlenRule) (e : CmdEntry) : Option Nat :=
  match r with
  | .fixed n => if e.plen.toNat = n then none else some 6
  | .oneOf l => if l.contains e.plen.toNat then none else some 6
  | .own => none
  | .counted base unit at_ lo hi =>
    if e.plen.toNat ≤ at_ then some 6
    else
      let c := u8 e at_
      if c < lo ∨ hi < c then some (8 + at_)
      else if e.plen.toNat = base + unit * c then none else some 6

/-- What Table 21-1 and a command's rule say of its entry. -/
structure CmdForm where
  op : Nat
  /-- the home rule states an effect of FORCE (R42) -/
  force : Bool
  plen : PlenRule
  layout : List Fld
  /-- waits for every command consumed before it (R51: a firmware activation) -/
  alone : Bool
  deriving DecidableEq, Repr

/-- A form without FORCE that waits for its own family only. -/
def form (op : Nat) (plen : PlenRule) (layout : List Fld) : CmdForm := ⟨op, false, plen, layout, false⟩
/-- A form whose opcode defines FORCE. -/
def formF (op : Nat) (plen : PlenRule) (layout : List Fld) : CmdForm := ⟨op, true, plen, layout, false⟩

/-- The first fault of an entry in the order of R510, items 3 to 5. -/
def CmdForm.fault (f : CmdForm) (e : CmdEntry) : Option Nat :=
  match headerFault f.force e with
  | some k => some k
  | none => match f.plen.fault e with
    | some k => some k
    | none => layoutFault (payload e) f.layout

/-- Carrier number in a payload byte, and in byte 0. -/
def fldCarrierAt (k : Nat) : Fld := fldU k 1 0 3
def fldCarrier : Fld := fldCarrierAt 0

end Sys2Proof.Machine
end

