-- ==== Sys2Proof/Machine/FspOps.lean ====
section
/-! DEFINITION. Machine/FspOps.lean: the words of the fast status port (R472 to R474) and the conditions of programmable counters (Table 20-2). -/

namespace Sys2Proof.Machine

/-- A word from its bits, bit 0 first. -/
def wordOf (bs : List Bool) : Nat := packBits (bs.map fun b => (1, b2n b))

/-- Is a consequent action in force on the received slot of channel `ch`, of a carrier whose domain is ON (R472, R474)? -/
def Dev.chanAlarm (d : Dev) (ch : Nat) : Bool :=
  d.domOn (domCarrier (ch / 128)) && decide (ch % 128 < d.rxSlots (ch / 128)) && d.chanCa ch

/-- Is any channel of carrier `n` under a consequent action (Table 20-9, bit 15)? -/
def Dev.anyChanAlarm (d : Dev) (n : Nat) : Bool :=
  (decide (0 < d.rxSlots n) && (d.frm n).ca)
    || d.chan.any fun kv => decide (kv.1 / 128 = n) && decide (kv.1 % 128 < d.rxSlots n) && (kv.2.ca || kv.2.zeros)

/-- The bits of source F of a carrier word (Table 20-9): FEC_DEG, rate step, SPLIT, pre-empted or LAST_SHORT, Front. -/
def Dev.carrierF (d : Dev) (n : Nat) : Nat :=
  let s := d.sense n
  2 ^ 10 * wordOf [(d.fec n).deg, d.rateBusy n, decide ((d.rate n).st = .split), (d.rx n).preempted || (d.rx n).short, s.ph.active || s.sop.active]

/-- The bits of source F of the device word (Table 20-8): thermal throttling, THERM_TRIP since the last Service entry. -/
def Dev.deviceF (d : Dev) : Nat := 4 * wordOf [d.pw.throttle, d.pw.tripped]

/-- The bits of source H of a carrier word whose domain is ON. -/
def Dev.carrierH (d : Dev) (n : Nat) : Nat :=
  let f := d.frm n
  let t := (d.tx n).state
  wordOf [false, decide (t = .dark), decide (t = .muted), (d.rx n).los, !d.locked n, decide ((d.fec n).lock ≠ .locked), f.lof, f.lom, f.tim, f.sbdi]
    + 2 ^ 15 * b2n (d.anyChanAlarm n)

/-- A carrier word (R473, R474). -/
def State.fspCarrier (s : State) (n : Nat) : Nat :=
  if s.dev.domOn (domCarrier n) then s.dev.carrierH n + s.io.fspF.get 0 n else 1

/-- Is a bundle's port or flow in client fail? -/
def Dev.bundleClientFail (d : Dev) (b : Nat) : Bool :=
  match (d.bundleAt b).attach with
  | .eth p => d.clientFail p
  | .stitch _ => d.flowFails b
  | .none => false

/-- A bundle's bit (R472). -/
def Dev.bundleAlarm (d : Dev) (b : Nat) : Bool :=
  let x := d.bundleAt b
  d.hasBundle b && d.domOn (domCarrier x.carrier) && (x.chans.any d.chanAlarm || (x.on && d.bundleClientFail b))

/-- A Stitch port's bit: enabled and not UP. -/
def Dev.stitchAlarm (d : Dev) (p : Nat) : Bool := (d.stitch p).enabled && !d.stitchUp p

/-- Groups with SEL = protection, and groups armed and not ALIGNED. -/
def Dev.groupSel (d : Dev) (g : Nat) : Bool := (d.groupAt g).armed && (d.groupAt g).selProt
def Dev.groupUnaligned (d : Dev) (g : Nat) : Bool := (d.groupAt g).armed && decide ((d.groupAt g).st ≠ .aligned)

/-- An authentication failure in the last multiframe of 13,107.2 ns (Table 20-8, bit 11). -/
def State.authFails (s : State) : Bool := s.dev.key.failAt.any fun t => decide (s.now * 10 < t * 10 + 131072)

/-- Any channel with an expired key or an erased transmit slot (bit 10). -/
def Dev.keyAlarm (d : Dev) : Bool :=
  d.key.chan.any fun kv => match kv.2.tx with
    | .expired _ => true
    | .erased => true
    | _ => false

/-- The device word (Table 20-8). -/
def State.fspDevice (s : State) : Nat :=
  let d := s.dev
  let dpll := d.domOn domDpll
  wordOf [([0, 1, 2, 3] : List Nat).any (fun n => decide (2 ≤ s.fspCarrier n)), d.pwrWarn, false, false, d.pw.squall,
      dpll && decide (d.tim.st = .holdover), dpll && decide (d.tim.st = .freerun) && d.tim.refs.any (fun kv => kv.2.enable),
      d.seam.any (fun kv => kv.2.failed), decide (s.io.mbxState ≠ .ready), !d.inService,
      d.keyAlarm, s.authFails, d.cli.eth.any (fun kv => d.clientFail kv.1), d.cli.stitch.any (fun kv => d.stitchAlarm kv.1),
      d.group.any (fun kv => d.groupUnaligned kv.1), false]
    + s.io.fspF.get 0 4

/-- Bits 16 × k to 16 × k + 15 of a per-object map. -/
def mapWord (f : Nat → Bool) (k : Nat) : Nat := wordOf ((List.range 16).map fun i => f (16 * k + i))

/-- The FSP word at an address (Table 20-7). -/
def State.fspWord (s : State) (a : Nat) : Nat :=
  if a = 0 then s.fspDevice
  else if a ≤ 4 then s.fspCarrier (a - 1)
  else if a ≤ 6 then mapWord s.dev.clientFail (a - 5)
  else if a = 7 then wordOf (([0, 1, 2, 3] : List Nat).map s.dev.stitchAlarm)
  else if a ≤ 0x0F then mapWord s.dev.bundleAlarm (a - 8)
  else if a ≤ 0x2F then mapWord s.dev.chanAlarm (a - 0x10)
  else if a ≤ 0x33 then mapWord s.dev.groupSel (a - 0x30)
  else if a ≤ 0x37 then mapWord s.dev.groupUnaligned (a - 0x34)
  else if a = 0xFE then 0x1600
  else if a = 0xFF then 0xA55A
  else 0

/-- The condition of a programmable counter's source; pulse sources have none (Table 20-2). -/
def Dev.pcCondition (d : Dev) (cond inst : Nat) : Bool :=
  match cond with
  | 1 => (d.rx inst).los
  | 2 => !d.locked inst
  | 3 => (d.frm inst).lof
  | 4 => (d.frm inst).lom
  | 5 => decide ((d.tx inst).state ≠ .on)
  | 8 => d.chanAlarm inst
  | 10 => (d.ethAt inst).enabled && decide ((d.ethAt inst).st ≠ .up)
  | 11 => d.stitchAlarm inst
  | 12 => d.groupSel inst
  | 13 => (d.lane inst).los
  | 14 => d.pw.squall
  | 15 => d.pwrWarn
  | 16 => decide (d.tim.st ≠ .locked)
  | _ => false

end Sys2Proof.Machine
end

