-- ==== Sys2Proof/Machine/Settle.lean ====
section
/-! DEFINITION. Machine/Settle.lean: what follows every change of the device on the I/O die: alarm summaries and their interrupt sources (R473, R474), edges of
programmable counters (R459). -/

namespace Sys2Proof.Machine

/-- Frelvo evaluates the bits of source F while MBX_STATE is READY; they hold otherwise (R473). -/
def State.refreshF (s : State) : State :=
  if s.io.mbxState = .ready then
    { s with io := { s.io with fspF := [(0, s.dev.carrierF 0), (1, s.dev.carrierF 1), (2, s.dev.carrierF 2), (3, s.dev.carrierF 3), (4, s.dev.deviceF)] } }
  else s

/-- A counter whose source lies in a domain that is OFF holds at zero (R460). -/
def Dev.pcOff (d : Dev) (p : ProgCounter) : Bool := (sourceDomain p.cond p.inst).any fun x => decide (d.domState x = .off)

/-- One programmable counter after a change of the device: an edge in its mode counts one, once per 10 ns tick (R459). -/
def ProgCounter.edge (p : ProgCounter) (old new : Dev) (now : Nat) : ProgCounter :=
  if new.pcOff p then { p with v := 0, ovf := false, edgeAt := none }
  else
    let a := old.pcCondition p.cond p.inst
    let b := new.pcCondition p.cond p.inst
    if ((p.mode = 1 ∧ a = false ∧ b = true) ∨ (p.mode = 2 ∧ a = true ∧ b = false)) ∧ p.edgeAt ≠ some (now / 10) then
      { p.add 1 with edgeAt := some (now / 10) }
    else p

/-- A tick of 10 ns: level-mode counters count while their condition holds (R459). -/
def ProgCounter.level (p : ProgCounter) (d : Dev) : ProgCounter :=
  if p.mode = 3 ∧ d.pcCondition p.cond p.inst ∧ d.pcOff p = false then p.add 1 else p

/-- Raise an alarm summary's source where its word has changed (R474). -/
def Io.raiseOn (io : Io) (src : Nat) (changed : Bool) : Io := if changed then io.raiseInt src else io

/-- The programmable counters after a change (R459). -/
def countEdges (old new : State) : Tbl ProgCounter := new.io.pcs.map fun kv => (kv.1, kv.2.edge old.dev new.dev new.now)

/-- The alarm summaries' sources after a change (R474). -/
def raiseSummaries (old new : State) : Io :=
  let io1 := ([0, 1, 2, 3] : List Nat).foldl (fun (io : Io) n => io.raiseOn (intFspC0 + n) (decide (old.fspCarrier n ≠ new.fspCarrier n))) new.io
  io1.raiseOn intFspDev (decide (old.fspDevice ≠ new.fspDevice))

/-- What follows a change from `old` to `new`. -/
def settle (old new : State) : State :=
  let n1 := new.refreshF
  let n2 : State := { n1 with io := { n1.io with pcs := countEdges old n1 } }
  { n2 with io := raiseSummaries old n2 }

end Sys2Proof.Machine
end

