-- ==== Sys2Proof/Machine/Run.lean ====
section
/-! DEFINITION. Machine/Run.lean: how a command's or an event's effect becomes the next state; the mailbox's ordering of commands (R46 to R51, R510). -/

namespace Sys2Proof.Machine

/-- The device after what follows of itself from its change; its requests carried out in order, its request list left empty. -/
def State.carryOut (s : State) (d : Dev) : State :=
  let d1 := d.follow s.env
  d1.out.foldl State.apply { s with dev := { d1 with out := [] } }

/-- The state after the device has changed to `d`. -/
def State.commit (s : State) (d : Dev) : State := settle s (s.carryOut d)

/-- An event's effect on the device. -/
def onDev (s : State) (f : Env → Dev → Dev) : State := s.commit (f s.env s.dev)

/-- An effect on the interface block. -/
def onIo (s : State) (f : Io → Io) : State := { s with io := f s.io }

/-- What a command answers once its entry has passed the checks of R510: a refusal that leaves the device as it was (R16), an end with a
result, an end with another status and its stated partial effects, or the start of an action that a later event ends within `bound` ns. -/
inductive CmdRes where
  | refuse (st : Status) (detail : Nat)
  | done (result : List Byte) (d : Dev)
  | fail (st : Status) (detail : Nat) (d : Dev)
  | start (bound : Nat) (d : Dev)

/-- What the mailbox does with a command when it is to be executed. -/
inductive Admit where
  /-- it waits: for room (R46), or for earlier commands (R48) -/
  | wait
  /-- it completes at once with this status and DETAIL -/
  | complete (st : Status) (detail : Nat)
  /-- it runs -/
  | run
  deriving DecidableEq, Repr

/-- The waiting entry of a command: consumed, not started. -/
def isWaiting (op : Nat) (e : CmdEntry) (r : Inflight) : Bool := !r.started && !r.cut && decide (r.op = op) && decide (r.e = e)

/-- The commands consumed before the waiting one. -/
def earlier (op : Nat) (e : CmdEntry) (l : List Inflight) : List Inflight := l.takeWhile fun r => !isWaiting op e r

/-- The ordering rule of R48: an earlier command of the family or an earlier FENCE holds a command back, and a FENCE command (or a
firmware activation, R51) waits for every earlier one. -/
def heldBack (op : Nat) (e : CmdEntry) (alone : Bool) (before : List Inflight) : Bool :=
  before.any fun r => decide (r.op / 256 = op / 256) || fenced r.e || fenced e || alone

/-- The decision for a command whose entry waits behind `before` (R47, R48, R51, R510). -/
def admission (mbx : MbxState) (f : CmdForm) (e : CmdEntry) (before : List Inflight) : Admit :=
  match mbx with
  | .activating => .complete .busy 1
  | .booting => .complete .state 0
  | .fault => .complete .state 0
  | .ready =>
    if heldBack f.op e f.alone before then .wait
    else if before.any fun r => decide (r.e.tag = e.tag) then .complete .badParam 2
    else match f.fault e with
      | some k => .complete .badParam k
      | none => .run

/-- The state with the command's entry among those consumed: as COMMAND_CONSUME left it, or consumed now where none waits and the limit of
R46 leaves room (log entry 5). -/
def State.consumed (s : State) (op : Nat) (e : CmdEntry) : Option State :=
  if s.io.inflight.any (isWaiting op e) then some s
  else if s.io.outstanding < 64 then
    some { s with io := { s.io with inflight := s.io.inflight ++ [⟨op, e, s.now, false, 0, false⟩] } }
  else none

/-- The waiting entry leaves the list and its completion is written. -/
def State.completeWaiting (s : State) (op : Nat) (e : CmdEntry) (st : Status) (detail : Nat) (result : List Byte) : State :=
  let at_ := match s.io.inflight.find? (isWaiting op e) with
    | some r => r.at_
    | none => s.now
  { s with io := { s.io with inflight := s.io.inflight.eraseP (isWaiting op e) }.complete s.par s.now op e at_ st detail result }

/-- Mark the first waiting entry started, with its class C bound. -/
def markStarted (op : Nat) (e : CmdEntry) (deadline : Nat) : List Inflight → List Inflight
  | [] => []
  | r :: rs => if isWaiting op e r then { r with started := true, deadline := deadline } :: rs else r :: markStarted op e deadline rs

/-- Carry out what a command answered. The completion follows the command's own events. -/
def State.answer (s : State) (op : Nat) (e : CmdEntry) : CmdRes → State
  | .refuse st detail => (if st = .internal then s.dump op else s).completeWaiting op e st detail []
  | .done result d => settle s ((s.carryOut d).completeWaiting op e .ok 0 result)
  | .fail st detail d =>
    let s1 := s.carryOut d
    settle s ((if st = .internal then s1.dump op else s1).completeWaiting op e st detail [])
  | .start bound d =>
    settle s (State.carryOut { s with io := { s.io with inflight := markStarted op e (s.now + bound) s.io.inflight } } d)

/-- An entry as Frelvo reads it: of PAYLOAD the first PLEN bytes (R42). -/
def canonEntry (e : CmdEntry) : CmdEntry := { e with payload := padTo e.plen.toNat (e.payload.take 248) }

/-- Nothing answers on the mailbox: the rails are gone, the device is in Doldrums, or SYSRST# holds it in reset (R68, R74, R77, R84). -/
def Dev.deaf (d : Dev) : Bool := decide (d.pw.state = .off ∨ d.pw.state = .doldrums) || d.pw.inReset

/-- Frelvo executes a mailbox command (R48, R510); `body` may set parameters beside what it answers. -/
def runCmdWith (f : CmdForm) (e0 : CmdEntry) (body : State → Params × CmdRes) (s : State) : State :=
  let e := canonEntry e0
  if s.dev.deaf then s
  else match s.consumed f.op e with
    | none => s
    | some s1 =>
      match admission s1.io.mbxState f e (earlier f.op e s1.io.inflight) with
      | .wait => s1
      | .complete st detail => s1.completeWaiting f.op e st detail []
      | .run =>
        let r := body s1
        State.answer { s1 with par := r.1 } f.op e r.2

/-- A command that reads the device and the parameters, and changes the device. -/
def runCmd (f : CmdForm) (e : CmdEntry) (body : Env → Dev → CmdRes) (s : State) : State :=
  runCmdWith f e (fun s1 => (s1.par, body s1.env s1.dev)) s

/-- A command aimed at carrier `n` whose domain is OFF completes with E_DOMAIN_OFF (R62, R478). -/
def Dev.ifPowered (d : Dev) (n : Nat) (r : CmdRes) : CmdRes := if d.domState (domCarrier n) = .off then .refuse .domainOff 0 else r

/-- A refusal for a field that breaks the command's rule: E_BAD_PARAM with the field's entry offset (R511). -/
def badField (payloadByte : Nat) : CmdRes := .refuse .badParam (8 + payloadByte)

/-- A result laid out as bit fields from bit 0. -/
def resultBits (fs : List (Nat × Nat)) : List Byte := leBytes 52 (packBits fs)

end Sys2Proof.Machine
end

