-- ==== Sys2Proof/Machine/BreezeRows.lean ====
section
/-! DEFINITION. Machine/BreezeRows.lean: Breeze commands and events (R433 to R442). -/

namespace Sys2Proof.Machine

/-- The disable of R434: queued packets are aborted, the packet in progress is completed, the tone ramps down. -/
def Dev.brzDisable (d : Dev) (n : Nat) : Dev :=
  let b := d.brz n
  (d.brzFlush n 2).updBrz n fun x => { x with en := false, disabling := decide (b.tone ≠ .off) }

/-- CMD_BRZ_TX_ENABLE (R439, R443). -/
def brzTxEnable (env : Env) (e : CmdEntry) (d : Dev) : CmdRes :=
  let n := u8 e 0
  let en := bitAt (u8 e 1) 0
  let b := d.brz n
  let ramp := env.par.nat (pBrzRamp + n) * ms
  if !d.inService || (d.rx n).op.any (fun p => decide (p.profile ≠ 0)) then .refuse .state 0
  else if !d.domOn (domCarrier n) then .refuse .domainOff 0
  else if (d.rx n).op.isNone then .refuse .sequence 0
  else if b.tone = .rampUp ∨ b.tone = .rampDown then .refuse .busy 0
  else if b.en = en then .done [] d
  else if en then
    if !env.par.on (pBrzTxMode + n) && d.brzOutput n then .start (ramp + ms) (d.updBrz n fun b => { b with en := true })
    else .done [] (d.updBrz n fun b => { b with en := true })
  else if b.tone = .off then .done [] (d.brzDisable n)
  else .start (134 * ms) (d.brzDisable n)

def formBrzTxEnable : CmdForm := form 0x0C01 (.fixed 2) [fldCarrier, fldBits 1 1 1]

def execCmdBrzTxEnable (e : CmdEntry) (s : State) : Host.Outcome State Fault Refusal :=
  .next (runCmd formBrzTxEnable e (fun env d => brzTxEnable env e d) s)

/-- CMD_BRZ_SEND (R440). -/
def brzSend (e : CmdEntry) (d : Dev) : CmdRes :=
  let n := u8 e 0
  let b := d.brz n
  if d.domState (domCarrier n) = .off then .refuse .domainOff 0
  else if !b.en then .refuse .sequence 0
  else if (d.rx n).op.any (fun p => decide (p.profile ≠ 0)) then .refuse .state 0
  else if 4 ≤ b.queue.length then .refuse .busy 0
  else .done [] (d.updBrz n fun b => { b with queue := b.queue ++ [⟨u16 e 2, ((payload e).drop 4).take (u8 e 1)⟩] })

def formBrzSend : CmdForm := form 0x0C02 (.counted 4 1 1 1 64) [fldCarrier]

def execCmdBrzSend (e : CmdEntry) (s : State) : Host.Outcome State Fault Refusal :=
  .next (runCmd formBrzSend e (fun _ d => brzSend e d) s)

/-- Is entry `seq` held: written, and not overwritten (R441)? SEQ counts modulo 2³². -/
def Breeze.holds (b : Breeze) (seq : Nat) : Bool :=
  let back := (b.wrSeq % 2 ^ 32 + 2 ^ 32 - 1 - seq % 2 ^ 32) % 2 ^ 32
  decide (back < 32 ∧ back < b.wrSeq)

/-- CMD_BRZ_RECV (R441). -/
def brzRecv (env : Env) (e : CmdEntry) (d : Dev) : CmdRes :=
  let n := u8 e 0
  let seq := u32 e 2
  if (d.brz n).holds seq then .done (env.mem.readAll (brzOffset n seq + 48 * u8 e 1) 48) d else badField 2

def formBrzRecv : CmdForm := form 0x0C03 (.fixed 6) [fldCarrier, fldU 1 1 0 1, fldAny 2 4]

def execCmdBrzRecv (e : CmdEntry) (s : State) : Host.Outcome State Fault Refusal :=
  .next (runCmd formBrzRecv e (fun env d => brzRecv env e d) s)

/-- TONE_STATE (R442). -/
def Tone.code : Tone → Nat
  | .off => 0
  | .rampUp => 1
  | .on => 2
  | .sending => 3
  | .rampDown => 1

/-- RX_STATE as one context shows it. -/
def BrzCtx.code : BrzCtx → Nat
  | .listening => 1
  | .sync _ _ _ => 2
  | .recv _ _ => 3

/-- CMD_BRZ_STATUS (R442). -/
def brzStatus (env : Env) (e : CmdEntry) (d : Dev) : CmdRes :=
  let n := u8 e 0
  let b := d.brz n
  if !d.domOn (domCarrier n) then .refuse .domainOff 0
  else .done (resultBits ([(1, b2n (b.en || b.disabling)), (2, b.tone.code), (3, b.queue.length),
      (2, if d.brzListens env n then max b.ctx0.code b.ctx1.code else 0), (24, 0), (32, b.wrSeq % 2 ^ 32), (16, b.level), (16, 0)]
    ++ (List.range 7).map fun k => (32, d.counter (ctrBrz k n)))) d

def formBrzStatus : CmdForm := form 0x0C04 (.fixed 1) [fldCarrier]

def execCmdBrzStatus (e : CmdEntry) (s : State) : Host.Outcome State Fault Refusal :=
  .next (runCmd formBrzStatus e (fun env d => brzStatus env e d) s)

/-- BRZ_RAMP_END (R433, R439): a running enable or disable ends. -/
def brzRampEnd (n : Nat) (d : Dev) : Dev :=
  match (d.brz n).tone with
  | .rampUp => (d.updBrz n fun b => { b with tone := .on }).brzFinish n .ok
  | .rampDown =>
    let d1 := d.updBrz n fun b => { b with tone := .off, disabling := false }
    if (d.brz n).disabling then d1.brzFinish n .ok else d1
  | _ => d

def execBrzRampEnd (c : Fin 4) (s : State) : Host.Outcome State Fault Refusal := .next (onDev s fun _ d => brzRampEnd c d)

/-- BRZ_PACKET_TX_START (R433): the packet's fields go out in the settings of its boundary. -/
def brzTxStart (env : Env) (n : Nat) (d : Dev) : Dev :=
  let b := d.brz n
  match b.tone, b.queue with
  | .on, p :: ps => if d.brzOutput n then
      let cfg := if env.par.on (pBrzTxMode + n) then b.txCfg else env.brzTx n
      d.updBrz n fun b => { b with tone := .sending, queue := ps, cur := some p, txCfg := cfg, line := brzLine cfg p.data } else d
  | _, _ => d

def execBrzPacketTxStart (c : Fin 4) (s : State) : Host.Outcome State Fault Refusal := .next (onDev s fun env d => brzTxStart env c d)

/-- BRZ_PACKET_TX_END (R433): in burst mode the ramp down follows every packet. -/
def brzTxEnd (env : Env) (n : Nat) (d : Dev) : Dev :=
  match (d.brz n).cur with
  | none => d
  | some p =>
    ((d.updBrz n fun b => { b with
        cur := none, line := [], tone := if env.par.on (pBrzTxMode + n) then .rampDown else .on }).count (ctrBrz 5 n) 1).raise .breezeTxDone n [(2, p.tag)]

def execBrzPacketTxEnd (c : Fin 4) (s : State) : Host.Outcome State Fault Refusal := .next (onDev s fun env d => brzTxEnd env c d)

/-- The two contexts by number. -/
def Breeze.ctx (b : Breeze) (k : Nat) : BrzCtx := if k = 0 then b.ctx0 else b.ctx1
def Breeze.setCtx (b : Breeze) (k : Nat) (x : BrzCtx) : Breeze := if k = 0 then { b with ctx0 := x } else { b with ctx1 := x }

/-- Is a level at least 6 dB above another: 20 log₁₀ of the ratio (R436)? -/
def sixDbAbove (a b : Nat) : Bool := decide (1000 * b ^ 10 ≤ a ^ 10)

/-- Does a context declare a preamble: of the configured rate, at the configured frequency and depth (R435, step 1)? -/
def Breeze.declares (b : Breeze) (env : Env) (n : Nat) (h : BrzHeard) : Bool :=
  toneAt b.rxCfg.freq h.tone && preambleDeclared b.rxCfg.rate (env.par.nat (pBrzRxMin + n)) h.level.toNat h.symbols

/-- BRZ_PREAMBLE_DETECT (R435, R436). -/
def brzPreamble (env : Env) (n k : Nat) (h : BrzHeard) (d : Dev) : Dev :=
  let b := d.brz n
  let level := h.level.toNat
  if !d.brzListens env n || (b.ctx k).busy || !b.declares env n h then d
  else match b.ctx (1 - k) with
    | .recv other _ =>
      if sixDbAbove level other then
        (d.updBrz n fun b => (b.setCtx (1 - k) .listening).setCtx k (.sync env.now level true)).count (ctrBrz 2 n) 1
      else d.count (ctrBrz 4 n) 1
    | _ => d.updBrz n fun b => b.setCtx k (.sync env.now level false)

def execBrzPreambleDetect (c : Fin 4) (k : Fin 2) (heard : BrzHeard) (s : State) : Host.Outcome State Fault Refusal :=
  .next (onDev s fun env d => brzPreamble env c k heard d)

/-- BRZ_SYNC_FOUND (R435, R436): the last 32 bits are P_BRZ_SYNC with at most two errors, in time; the other candidate in sync search is dropped without a count. -/
def brzSync (env : Env) (n k : Nat) (last : BitVec 32) (d : Dev) : Dev :=
  let cfg := (d.brz n).rxCfg
  match (d.brz n).ctx k with
  | .sync since level cap =>
    if syncFound cfg.sync (natBits 32 last.toNat) && syncInTime cfg.rate (env.now - since) then
      d.updBrz n fun b =>
        let b1 := b.setCtx k (.recv level cap)
        match b.ctx (1 - k) with
        | .sync _ _ _ => b1.setCtx (1 - k) .listening
        | _ => b1
    else d
  | _ => d

def execBrzSyncFound (c : Fin 4) (k : BrzSync) (s : State) : Host.Outcome State Fault Refusal :=
  .next (onDev s fun env d => brzSync env c k.ctx k.last d)

/-- BRZ_SYNC_TIMEOUT (R435): a false preamble. -/
def brzTimeout (n k : Nat) (d : Dev) : Dev :=
  match (d.brz n).ctx k with
  | .sync _ _ _ => (d.updBrz n fun b => b.setCtx k .listening).count (ctrBrz 3 n) 1
  | _ => d

def execBrzSyncTimeout (c : Fin 4) (k : Fin 2) (s : State) : Host.Outcome State Fault Refusal := .next (onDev s fun _ d => brzTimeout c k d)

/-- A ring entry (Table 18-3). -/
def brzEntry (seq len rate level now : Nat) (cap : Bool) (rateErr freqErr : Int) (data : List Byte) : List Byte :=
  leBytes 32 (packBits [(32, seq), (8, len), (2, rate), (1, b2n cap), (5, 0), (16, level), (16, ofSigned 16 rateErr), (16, ofSigned 16 freqErr),
    (32, 0), (64, now)]) ++ padTo 64 data ++ List.replicate 32 0

/-- BRZ_PACKET_RX_END (R435, R438): `bytes` are LEN, the payload and the CRC as received. -/
def brzRxEnd (env : Env) (n k : Nat) (bytes : List Byte) (rateErr freqErr : Int) (d : Dev) : Dev :=
  let b := d.brz n
  match b.ctx k with
  | .recv level cap =>
    let d1 := d.updBrz n fun b => b.setCtx k .listening
    let len := fieldAt bytes 0 1
    let body := padTo (1 + len) bytes
    if len = 0 ∨ 64 < len ∨ beNat (padTo 2 (bytes.drop (1 + len))) ≠ brzCrc body then d1.count (ctrBrz 1 n) 1
    else
      let entry := brzEntry (b.wrSeq % 2 ^ 32) len b.rxCfg.rate level env.now cap rateErr freqErr (body.drop 1)
      let d2 := if d1.anyStack then d1.emit (.dram (brzOffset n b.wrSeq) entry) else d1
      ((d2.updBrz n fun b => { b with wrSeq := b.wrSeq + 1, level := level }).count (ctrBrz 0 n) 1).raise
        .breezeRx n [(4, (b.wrSeq % 2 ^ 32 : Nat)), (1, len), (2, level)]
  | _ => d

def execBrzPacketRxEnd (c : Fin 4) (k : Fin 2) (bytes : List Byte) (rateErr freqErr : Int) (s : State) : Host.Outcome State Fault Refusal :=
  .next (onDev s fun env d => brzRxEnd env c k bytes rateErr freqErr d)

end Sys2Proof.Machine
end

