-- ==== Sys2Proof/Machine/Calibration.lean ====
section
/-! DEFINITION. Machine/Calibration.lean: the calibration commands and events (R171 to R180). -/

namespace Sys2Proof.Machine

/-- A background round is due (R176): in continuous mode as soon as the previous round has ended; in periodic mode when the die has moved more than
P_CAL_TEMP_TRIG from its temperature then, or P_CAL_PERIOD has passed. The answer is TRIGGER. -/
def Dev.roundDue (d : Dev) (env : Env) (n : Nat) : Option Nat :=
  let c := d.cal n
  if c.phase = .factory then none
  else match env.par.nat (pCalMode + n) with
    | 1 =>
      if 10 * env.par.nat (pCalTempTrig + n) < (d.convTemp n - c.prevTemp).natAbs then some 2
      else if c.prevEnd + env.par.nat (pCalPeriod + n) * sec ≤ env.now then some 1
      else none
    | 2 => some 6
    | _ => none

/-- Frelvo schedules rounds while MBX_STATE is READY (R182). -/
def calRoundTrigger (env : Env) (n : Nat) (d : Dev) : Dev :=
  if env.mbx ≠ .ready then d
  else match d.roundDue env n with
  | some t => d.startRound env n maskAll t
  | none => d

def execCalRoundTrigger (c : Fin 4) (s : State) : Host.Outcome State Fault Refusal :=
  .next (onDev s fun env d => calRoundTrigger env c d)

/-- 10 ms after a change of Fs a round starts; one that runs counts for it (R177). -/
def calFsTrigger (env : Env) (n : Nat) (d : Dev) : Dev :=
  match (d.cal n).fsDue.find? fun t => decide (t.1 ≤ env.now ∧ env.mbx = .ready) with
  | some t => (d.updCal n fun c => { c with fsDue := c.fsDue.erase t }).startRound env n t.2 4
  | none => d

def execCalFsChangeTrigger (c : Fin 4) (s : State) : Host.Outcome State Fault Refusal :=
  .next (onDev s fun env d => calFsTrigger env c d)

/-- Does `found` report every converter of the mask, every position of each in ascending order (R171)? -/
def roundWhole (mask : Nat) (found : List ConvReport) : Bool := decide (found.map (·.conv) = convs mask) && found.all reportWhole

/-- Does `found` report, of converters of the mask, positions as a round visits them (R171)? -/
def roundPart (mask : Nat) (found : List ConvReport) : Bool :=
  decide (found.map (·.conv)).Nodup && found.all fun r => decide (r.conv < 8) && bitAt mask r.conv && prefixOk r

/-- The converters of `mask` whose round `found` does not report whole. -/
def roundLeft (mask : Nat) (found : List ConvReport) : Nat :=
  ((convs mask).filter fun k => !found.any fun r => decide (r.conv = k) && reportWhole r).foldl (fun m k => m + 2 ^ k) 0

/-- What one converter reports during a round: its end, where every position is done, or the positions handed back by now (R171, R173). -/
def Dev.roundReport (d : Dev) (env : Env) (n : Nat) (r : ConvReport) : Dev :=
  if reportWhole r then d.calReport env n r
  else if (d.cal n).rotating r.conv then d.updCal n fun c => c.updConv r.conv fun v => v.handBack n r.conv r.slices
  else d

/-- A carrier's round has ended on every converter; a CMD_CAL_RUN that waits for it completes (R176, R178). -/
def Dev.roundOver (d : Dev) (env : Env) (n : Nat) : Dev :=
  let d1 := d.updCal n fun c => { c with phase := .idle, left := 0, prevEnd := env.now, prevTemp := d.convTemp n }
  if (d.cal n).action = 0 then d1.finish 0x0318 n .ok 0 [] else d1

/-- Converters of a round report: each ends its own, the DACs before the ADCs if they have done (R171), with new estimates, failed slices and gradual
application (R172, R173, R180); the last of them ends the carrier's. What reports positions otherwise than a round visits them changes nothing (log entry
162). -/
def calRoundEnd (env : Env) (n : Nat) (found : List ConvReport) (d : Dev) : Dev :=
  let c := d.cal n
  if (c.phase = .initial ∨ c.phase = .round) ∧ roundPart c.left found = true then
    let left := roundLeft c.left found
    let d1 := (found.foldl (fun d r => d.roundReport env n r) d).updCal n fun c => { c with left := left }
    if left = 0 then d1.roundOver env n else d1
  else d

def execCalRoundEnd (c : Fin 4) (found : List ConvReport) (s : State) : Host.Outcome State Fault Refusal :=
  .next (onDev s fun env d => calRoundEnd env c found d)

/-- Is a converter's gradual application over: P_CAL_APPLY line frames after the end of its round (R173)? -/
def Conv.applied (v : Conv) (now a : Nat) : Bool := v.applySince.any fun t => decide (a ≤ framesIn (now - t))

/-- The corrections of a converter's last round are wholly in force. -/
def Conv.settle (v : Conv) : Conv := { v with was := [], applySince := none }

/-- P_CAL_APPLY line frames after a converter's round its corrections are wholly in force (R173). -/
def calApplyEnd (env : Env) (n : Nat) (d : Dev) : Dev :=
  d.updCal n fun c => ((List.range 8).filter fun k => (c.convAt k).applied env.now (env.par.nat (pCalApply + n))).foldl (fun c k => c.updConv k Conv.settle) c

def execCalApplyEnd (c : Fin 4) (s : State) : Host.Outcome State Fault Refusal :=
  .next (onDev s fun env d => calApplyEnd env c d)

/-- Store a DAC position's initial correction where it lies in the ranges of Table 7-2; a slice out of range is handled as R180 (R170, R175). -/
def Dev.initSlice (d : Dev) (n k : Nat) (s : Nat × Correction) : Dev :=
  if ((d.cal n).convAt k).failed.contains s.1 then d
  else match correctionOut s.2 false true true true with
  | some q => d.strike n k s.1 q
  | none => d.updCal n fun x => x.updConv k fun c => { c with corr := c.corr.set s.1 (heldCorr s.2), strikes := c.strikes.erase s.1, was := c.was.drop s.1 }

/-- Does `found` report a DAC initial calibration: every DAC of the mask, all 32 positions of each in turn (R175)? -/
def dacWhole (mask : Nat) (found : List ConvReport) : Bool := roundWhole (mask &&& maskDac) found

/-- DAC initial calibration ends: CAL_READY_Cn (R175), and the CMD_CAL_RUN that repeated it completes (R178). -/
def dacInitEnd (n : Nat) (found : List ConvReport) (d : Dev) : Dev :=
  if (d.cal n).dacBusy ∧ d.domOn (domCarrier n) = true ∧ dacWhole (d.cal n).dacMask found = true then
    let c := d.cal n
    let d1 := found.foldl (fun d r => r.slices.foldl (fun d s => d.initSlice n r.conv s) d) d
    let d2 := (d1.updCal n fun c => { c with dacBusy := false, dacDone := true }).raise .calReady n []
    if c.action = 2 then d2.finish 0x0318 n .ok 0 [] else d2
  else d

def execDacInitCalEnd (c : Fin 4) (found : List ConvReport) (s : State) : Host.Outcome State Fault Refusal :=
  .next (onDev s fun _ d => dacInitEnd c found d)

/-! ### CMD_CAL_RUN (R178) -/

/-- P_CAL_TONE_FREQ, in MHz, within 50 MHz of a multiple of Fs/128 or above 0.45 × Fs (Table 7-5); Fs = rho × Rs in kS/s is num/den. -/
def toneRefused (num den f : Nat) : Bool :=
  let x := f * 1000 * 128 * den
  let gap := min (x % num) (num - x % num)
  decide (gap ≤ 50 * 1000 * 128 * den) || decide (45 * num < f * 1000 * den * 100)

/-- Where the carrier has no operating point the spec gives no Fs, and no frequency is refused (log entry 15). -/
def Dev.toneBad (d : Dev) (n f : Nat) : Bool :=
  match (d.rx n).op with
  | some p => toneRefused (rhoNum p.osr * p.rsNum) (rhoDen p.osr * p.rsDen) f
  | none => false

/-- Skew and bandwidth of one position from the tone (R178); a slice out of range is handled as R180 (R182). -/
def Dev.toneSlice (d : Dev) (n k : Nat) (s : Nat × Correction) : Dev :=
  let c := (d.cal n).convAt k
  let new := { c.at_ n k s.1 with skew := s.2.skew, bwL := s.2.bwL, bwR := s.2.bwR }
  if c.failed.contains s.1 then d
  else match correctionOut new true false true false with
  | some q => d.strike n k s.1 q
  | none => d.updCal n fun x => x.updConv k fun c =>
      { c with corr := c.corr.set s.1 (heldCorr new), tone := c.tone.set s.1 ((heldCorr new).skew, new.bwL, new.bwR), was := c.was.drop s.1 }

/-- A lane's tone result. A slice that fails is listed again for the spare in its place (R182). -/
def Dev.toneReport (d : Dev) (n : Nat) (r : ConvReport) : Dev :=
  ((r.slices.filter fun s => decide (s.1 < 64)).foldl (fun d s => d.toneSlice n r.conv s)
    (d.updCal n fun x => x.updConv r.conv fun c => { c with tone := [] })).updCal n fun x =>
    x.updConv r.conv fun c => { c with toneValid := true, pendingSkew := false, skewRms := r.skewRms }

/-- Lanes of `mask` on which no tone was found: those that the evidence names, and those it does not report at every position. -/
def toneMissing (mask : Nat) (ev : CalEvidence) : Nat :=
  let found (k : Nat) := !bitAt ev.notFound.toNat k &&
    ev.reports.any fun r => decide (r.conv = k) && (List.range 64).all fun p => r.slices.any fun s => decide (s.1 = p)
  (((convs mask).filter isAdc).filter fun k => !found k).foldl (fun m k => m + 2 ^ k) 0

/-- ACTION 1: reference-tone calibration of the selected ADCs. With FORCE the receiver stops first and re-acquires fast afterwards, whatever the
tone gave (R178). -/
def calTone (env : Env) (e : CmdEntry) (n mask : Nat) (ev : CalEvidence) (d : Dev) : CmdRes :=
  if (d.locked n || d.anyBundleEnabled n) && !force e then .refuse .trafficPresent 0
  else if d.toneBad n (env.par.nat (pCalToneFreq + n)) then .refuse .badParam (pCalToneFreq + n)
  else
    let stop (d : Dev) : Dev := if force e then (d.stopRx env n (if (d.rx n).los then .noSignal else .down)).frmDown env n else d
    let restart (d : Dev) : Dev := if force e then d.startFast env n else d
    let missing := toneMissing mask ev
    if missing ≠ 0 then .fail .timeout missing (restart (stop d))
    else
      let use := ev.reports.filter fun r => bitAt (mask &&& maskAdc) r.conv && decide (r.conv < 4)
      .done [] (restart (use.foldl (fun d r => d.toneReport n r) (stop d)))

/-- ACTION 3: the round in progress is handed back; positions already visited keep their new offsets (R178). -/
def calAbort (env : Env) (n : Nat) (ev : CalEvidence) (d : Dev) : CmdRes :=
  .done [] (d.stopRound env n ev.reports)

/-- CMD_CAL_RUN (R178, R483). -/
def calRun (env : Env) (e : CmdEntry) (ev : CalEvidence) (d : Dev) : CmdRes :=
  let n := u8 e 0
  let mask := if u8 e 2 = 0 then maskAll else u8 e 2
  if !d.inService || (d.carrier n).heldDown then .refuse .state 0
  else if !d.domOn (domCarrier n) then .refuse .domainOff 0
  else match u8 e 1 with
    | 0 => .start (200 * ms) ((d.startRound env n mask 3).updCal n fun c => { c with action := 0 })
    | 1 => calTone env e n mask ev d
    | 2 => if (d.tx n).state = .dark then .start (40 * ms) (d.updCal n fun c =>
        { c with dacBusy := true, dacMask := (if c.dacBusy then c.dacMask else 0) ||| (mask &&& maskDac), action := 2,
                 conv := (convs (mask &&& maskDac)).foldl (fun t k => t.upd .factory k fun v => { v with shown := 0 }) c.conv }) else .refuse .state 0
    | _ => calAbort env n ev d

def formCalRun : CmdForm := formF 0x0318 (.fixed 3) [fldCarrier, fldU 1 1 0 3, fldAny 2 1]

def execCmdCalRun (e : CmdEntry) (ev : CalEvidence) (s : State) : Host.Outcome State Fault Refusal :=
  .next (runCmd formCalRun e (fun env d => calRun env e ev d) s)

/-! ### CMD_CAL_STATUS (R179) -/

/-- CAL_STATE of converter `k` (Table 7-6). -/
def calStateCode (env : Env) (n k : Nat) (d : Dev) : Nat :=
  let c := d.cal n
  let rest := if (c.convAt k).applySince.isSome then 4 else if env.par.val (pCalMode + n) = 0 then 6 else 2
  if !isAdc k && c.dacBusy && bitAt c.dacMask k then 1
  else match c.phase with
    | .factory => 0
    | .initial => if bitAt c.left k then 1 else rest
    | .idle => rest
    | .round => if bitAt c.left k then 3 else rest

/-- Positions that converter `k` has done when its status is read, if it takes positions out: a DAC initial calibration or a round, each of which visits them
in ascending order; how fast it moves below its bound is a free value (R171, R175, log entry 1). -/
def Cal.doneBy (c : Cal) (now f k : Nat) : Option Nat :=
  if !isAdc k && c.dacBusy && bitAt c.dacMask k then some (pickFrom f (min (positions k) (c.convAt k).shown) (positions k))
  else if c.rotating k then some (pickFrom f (c.leastDone now k) (positions k))
  else none

/-- RESULT of CMD_CAL_STATUS (Table 7-6). A converter that has done all its positions has none under calibration. -/
def calStatus (env : Env) (n k : Nat) (d : Dev) : List Byte × Dev :=
  let c := d.cal n
  let v := c.convAt k
  let (free, d1) := d.draw
  let done := c.doneBy env.now free k
  let pos := match done with
    | some p => if p < positions k then p else 0xFF
    | none => 0xFF
  let d2 := match done with
    | some p => d1.updCal n fun x => x.updConv k fun v => { v with shown := p }
    | none => d
  (resultBits [(3, calStateCode env n k d), (5, 0), (8, pos), (4, min 15 v.failCount),
    (2, if v.spareUsed then 2 else if c.rotating k && decide (pos ≠ 0xFF) then 1 else 0), (1, b2n v.toneValid), (9, 0), (32, v.rounds), (64, v.lastEnd.getD 0),
    (32, v.age env.now), (16, v.skewRms), (16, v.gainDev), (16, v.offsetDev), (16, ofSigned 16 v.tempLast), (16, ofSigned 16 (d.convTemp n)),
    (4, v.trigger), (1, b2n (v.pendingSkew || v.pendingGain))], d2)

def formCalStatus : CmdForm := form 0x0319 (.fixed 2) [fldCarrier, fldU 1 1 0 7]

def execCmdCalStatus (e : CmdEntry) (s : State) : Host.Outcome State Fault Refusal :=
  .next (runCmd formCalStatus e (fun env d => let (r, d1) := calStatus env (u8 e 0) (u8 e 1) d; d.ifPowered (u8 e 0) (.done r d1)) s)

end Sys2Proof.Machine
end

