-- ==== Sys2Proof/Machine/Client.lean ====
section
/-! DEFINITION. Machine/Client.lean: lane events, lane tests, Ethernet port commands and events (R283 to R309). -/

namespace Sys2Proof.Machine

/-! ### Lane events (R293, R296, R297, R300) -/

/-- Loss of signal asserts or releases on a powered lane; an assertion is counted, and adaptation starts anew when the signal returns. -/
def laneLosChange (l : Nat) (on : Bool) (d : Dev) : Dev :=
  if d.lanePowered l ∧ (d.lane l).los ≠ on then
    if on then (d.updLane l fun x => { x.stopRx with los := true }).count (ctrLane laneLos l) 1
    else d.updLane l fun x => { x with los := false }
  else d

def execLaneLosChange (l : Fin 64) (on : Bool) (s : State) : Host.Outcome State Fault Refusal :=
  .next (onDev s fun _ d => laneLosChange l on d)

/-- The CDR locks: initial adaptation starts (R296). -/
def laneCdrLock (l : Nat) (d : Dev) : Dev :=
  if d.lanePowered l ∧ (d.lane l).los = false then d.updLane l fun x => { x with cdr := true, adapt := .initial } else d

def execLaneCdrLock (l : Fin 64) (s : State) : Host.Outcome State Fault Refusal :=
  .next (onDev s fun _ d => laneCdrLock l d)

/-- The CDR loses lock (R296). -/
def laneCdrLockLoss (l : Nat) (d : Dev) : Dev := if (d.lane l).cdr then d.updLane l Lane.stopRx else d

def execLaneCdrLockLoss (l : Fin 64) (s : State) : Host.Outcome State Fault Refusal :=
  .next (onDev s fun _ d => laneCdrLockLoss l d)

/-- Initial adaptation ends: mode 1 freezes every coefficient, the others track (R296). The peaking its sweep has chosen and the tap its LMS has reached are
free values (log entry 182). -/
def laneAdaptEnd (env : Env) (l : Nat) (d : Dev) : Dev :=
  if (d.lane l).adapt = .initial then
    let (v, d1) := d.draw
    d1.updLane l fun x => { x with adapt := if env.adaptMode l = 1 then .frozen else .tracking, ctle := v % 41, dfe1 := (v / 41 % 256 : Nat) - 128 }
  else d

/-- What a window's report changes of the coefficients: initial adaptation sweeps the CTLE and adapts the DFE, tracking adapts the DFE, in mode 1 every one is
frozen after the former (R296). -/
def Lane.coefficients (x : Lane) (r : LaneReport) : Nat × Int :=
  match x.adapt with
  | .initial => (r.ctle.toNat, r.dfe1)
  | .tracking => (x.ctle, r.dfe1)
  | .frozen => (x.ctle, x.dfe1)
  | .off => (x.ctle, x.dfe1)

def execLaneAdaptEnd (l : Fin 64) (s : State) : Host.Outcome State Fault Refusal :=
  .next (onDev s fun env d => laneAdaptEnd env l d)

/-- A 1 ms window: the lane's measures, in TUNE the sweep's next (R316); 10 windows in a row below P_LANE_FOM_MIN raise LANE_FOM_LOW_Lnn, at most once every 60 s (R297); a locked
checker's counts (R300). -/
def laneFomWindow (env : Env) (l : Nat) (r : LaneReport) (d : Dev) : Dev :=
  let x := d.lane l
  if d.lanePowered l = false then d
  else
    let d2 := if x.chkLock then (d.count (ctrLane laneBits l) r.bits).count (ctrLane laneErr l) r.errs else d
    if x.cdr = false then d2 else
    let low := if r.fom < env.par.val pLaneFomMin then x.fomLow + 1 else 0
    let due := decide (10 ≤ low) && match x.fomLowAt with
      | none => true
      | some t => decide (t + 60 * sec ≤ env.now)
    let new := { x with fom := r.fom, fomLow := low, ctle := (x.coefficients r).1, dfe1 := (x.coefficients r).2, freq := r.freq,
                        fomLowAt := if due then some env.now else x.fomLowAt }
    (d2.updLane l fun _ => if d.laneTunes l then new.sweepWindow env.now r.fom else new).raiseIf
      due .laneFomLow l [(2, r.fom)]

def execLaneFomWindow (l : Fin 64) (r : LaneReport) (s : State) : Host.Outcome State Fault Refusal :=
  .next (onDev s fun env d => laneFomWindow env l r d)

/-- 1,024 matching symbols lock the checker, possibly to inverted data (R300). -/
def prbsLock (l : Nat) (inv : Bool) (d : Dev) : Dev :=
  if d.lanePowered l ∧ (d.lane l).chk ≠ 0 ∧ (d.lane l).chkLock = false then d.updLane l fun x => { x with chkLock := true, chkInv := inv } else d

def execPrbsCheckerLock (l : Fin 64) (inv : Bool) (s : State) : Host.Outcome State Fault Refusal :=
  .next (onDev s fun _ d => prbsLock l inv d)

/-- 256 of 1,024 symbols in error: the lock is lost and a relock counted (R300). -/
def prbsLoss (l : Nat) (d : Dev) : Dev :=
  if (d.lane l).chkLock then (d.updLane l fun x => { x with chkLock := false, chkInv := false }).count (ctrLane laneRelock l) 1 else d

def execPrbsCheckerLoss (l : Fin 64) (s : State) : Host.Outcome State Fault Refusal :=
  .next (onDev s fun _ d => prbsLoss l d)

/-! ### Lane commands (R301, R307) -/

/-- Fields of CMD_LANE_TEST (Table 12-5). -/
def ltLoopback (e : CmdEntry) : Nat := bitsAt (u32 e 0) 16 2
def ltGen (e : CmdEntry) : Nat := bitsAt (u32 e 0) 18 4
def ltChk (e : CmdEntry) : Nat := bitsAt (u32 e 0) 22 4

/-- The lanes selected. -/
def ltLanes (e : CmdEntry) : List Nat := (List.range (u8 e 1)).map fun i => u8 e 0 + i

/-- The lanes of every port, Ethernet and Stitch. -/
def Dev.portLanes (d : Dev) : List (List Nat) := d.cli.eth.map (fun kv => kv.2.lanes) ++ [0, 1, 2, 3].map d.stitchLanes

/-- Would a port be left with a loopback on a part of its lanes? (R298, R301) -/
def Dev.partLoopback (d : Dev) (ls : List Nat) (mode : Nat) : Bool :=
  d.portLanes.any fun pl =>
    let modes := pl.map fun l => if ls.contains l then mode else (d.lane l).loopback
    pl.any ls.contains && modes.any fun m => decide (m ≠ modes.headD 0)

/-- Is lane `l` in an enabled port whose bundle (for a Stitch port, a flow's bundle) is enabled? -/
def Dev.laneTraffic (d : Dev) (l : Nat) : Bool :=
  (match d.ethOfLane l with
    | some p => (d.ethAt p).enabled && d.ethBundleOn p
    | none => false)
  || (match d.stitchOfLane l with
    | some p => (d.stitch p).enabled && (d.stitch p).flows.any fun f => (d.bundleAt f.bundle).on
    | none => false)

/-- The complete test state of the selected lanes (R301). -/
def Dev.setTest (d : Dev) (ls : List Nat) (lb gen chk : Nat) (inject : Bool) : Dev :=
  d.updLanes ls fun x =>
    let same := decide (x.chk = chk)
    { x with loopback := lb, gen := gen, chk := chk, chkLock := x.chkLock && same, chkInv := x.chkInv && same,
             flips := x.flips + b2n (inject && decide (gen ≠ 0)) }

/-- CMD_LANE_TEST (R301). -/
def laneTest (e : CmdEntry) (d : Dev) : CmdRes :=
  let ls := ltLanes e
  if 64 < u8 e 0 + u8 e 1 then badField 1
  else if 6 < ltGen e ∨ 5 < ltChk e then badField 2
  else if !d.inService then .refuse .state 0
  else if ls.any (fun l => !d.laneOn l) then .refuse .domainOff 0
  else if d.partLoopback ls (ltLoopback e) then badField 2
  else if (ltLoopback e ≠ 0 ∨ ltGen e ≠ 0) ∧ ls.any d.laneTraffic = true ∧ force e = false then .refuse .trafficPresent 0
  else
    let tested := d.portLanes.filter fun pl => pl.any fun l => decide ((d.lane l).gen ≠ 0)
    let d1 := d.setTest ls (ltLoopback e) (ltGen e) (ltChk e) (bitAt (u8 e 3) 2)
    let d2 := ls.foldl (fun d l => if d.lanePowered l then d else d.updLane l Lane.powerDown) d1
    let d3 := tested.foldl (fun d pl => if pl.any (fun l => decide ((d.lane l).gen ≠ 0)) then d else d.updLanes pl Lane.startAdapt) d2
    .done [] (if bitAt (u8 e 3) 3 then
      ls.foldl (fun d l => ((d.restartCounter (ctrLane laneBits l)).restartCounter (ctrLane laneErr l)).restartCounter (ctrLane laneRelock l)) d3
      else d3)

def formLaneTest : CmdForm := formF 0x0611 (.fixed 4) [fldU 0 1 0 63, fldU 1 1 1 64, fldAny 2 1, fldBits 3 1 0x0F]

def execCmdLaneTest (e : CmdEntry) (s : State) : Host.Outcome State Fault Refusal :=
  .next (runCmd formLaneTest e (fun _ d => laneTest e d) s)

/-- PRE and POST in use on a lane: on a Stitch lane the peer's last request since training began, else P_LANE_TX (R295, R316). -/
def Dev.firInUse (d : Dev) (env : Env) (l : Nat) : Nat × Nat :=
  match d.stitchOfLane l, (d.lane l).peerFir with
  | some _, some f => f
  | _, _ => (bitsAt (env.par.nat (pLaneTx + l)) 0 6, bitsAt (env.par.nat (pLaneTx + l)) 8 6)

/-- Peaking in use: CTLE_FIX in mode 2, else as adapted (R296). -/
def Dev.ctleInUse (d : Dev) (env : Env) (l : Nat) : Nat :=
  if env.adaptMode l = 2 then bitsAt (env.par.nat (pLaneCfg + l)) 4 8 else (d.lane l).ctle

/-- RESULT of CMD_LANE_STATUS (Table 12-9). -/
def laneStatus (env : Env) (l : Nat) (d : Dev) : List Byte :=
  let x := d.lane l
  let port := match d.ethOfLane l, d.stitchOfLane l with
    | some p, _ => p
    | none, some p => p
    | none, none => 0
  resultBits [(2, d.quadMode (l / 4)), (1, b2n x.los), (1, b2n x.cdr), (2, x.adapt.code), (2, x.loopback), (5, port), (3, 0), (4, x.gen), (4, x.chk),
    (1, b2n x.chkLock), (1, b2n x.chkInv), (6, 0), (16, ofSigned 16 x.fom), (8, d.ctleInUse env l), (8, ofSigned 8 x.dfe1),
    (6, (d.firInUse env l).1), (2, 0), (6, (d.firInUse env l).2), (18, 0), (16, ofSigned 16 x.freq), (48, d.counter (ctrLane laneBits l)),
    (48, d.counter (ctrLane laneErr l)), (32, d.counter (ctrLane laneRelock l)), (32, d.counter (ctrLane laneLos l))]

def formLaneStatus : CmdForm := form 0x0610 (.fixed 1) [fldU 0 1 0 63]

def execCmdLaneStatus (e : CmdEntry) (s : State) : Host.Outcome State Fault Refusal :=
  .next (runCmd formLaneStatus e (fun env d => if d.laneOn (u8 e 0) then .done (laneStatus env (u8 e 0) d) d else .refuse .domainOff 0) s)

/-! ### Ethernet port commands (R302 to R306) -/

/-- CMD_ETH_PORT_CREATE (R226, R302). -/
def ethCreate (e : CmdEntry) (d : Dev) : CmdRes :=
  let p := u8 e 0
  let b := d.bundleAt (u8 e 3)
  let x : EthPort := { EthPort.absent with type := u8 e 1, first := u8 e 2, bundle := u8 e 3 }
  if d.hasEth p then badField 0
  else if x.first % ethLanes x.type ≠ 0 ∨ 64 < x.first + ethLanes x.type then badField 2
  else if x.lanes.any (fun l => (d.ethOfLane l).isSome || (d.stitchOfLane l).isSome || decide (d.quadMode (l / 4) = 2)) then badField 2
  else if !d.hasBundle x.bundle || decide (b.count ≠ ethChans x.type) || decide (b.attach ≠ .none) || b.elastic || d.interop b.carrier && !d.interopFits x.bundle (d.rxSlots b.carrier)
      || d.group.any (fun kv => decide (kv.2.prot = x.bundle)) then badField 3
  else if d.rateBusy b.carrier then .refuse .busy 0
  else
    let d1 := (List.range 8).foldl (fun d k => d.restartCounter (ctrEth k p)) d
    .done [] ({ d1 with cli := { d1.cli with eth := d1.cli.eth.set p x } }.updBundle x.bundle fun b => { b with attach := .eth p })

def formEthCreate : CmdForm := form 0x0601 (.fixed 4) [fldU 0 1 0 31, fldU 1 1 0 3, fldU 2 1 0 63, fldU 3 1 0 127]

def execCmdEthPortCreate (e : CmdEntry) (s : State) : Host.Outcome State Fault Refusal :=
  .next (runCmd formEthCreate e (fun _ d => ethCreate e d) s)

/-- CMD_ETH_PORT_DELETE (R303). -/
def ethDelete (e : CmdEntry) (d : Dev) : CmdRes :=
  let p := u8 e 0
  let x := d.ethAt p
  if !d.hasEth p then badField 0
  else if x.enabled || d.ethBundleOn p then .refuse .trafficPresent 0
  else .done [] ({ d with cli := { d.cli with eth := d.cli.eth.drop p } }.updBundle x.bundle fun b => { b with attach := .none })

def formEthDelete : CmdForm := form 0x0602 (.fixed 1) [fldU 0 1 0 31]

def execCmdEthPortDelete (e : CmdEntry) (s : State) : Host.Outcome State Fault Refusal :=
  .next (runCmd formEthDelete e (fun _ d => ethDelete e d) s)

/-- CMD_ETH_PORT_ENABLE (R304). The lanes power up, or go to electrical idle and power down unless a test keeps them. -/
def ethEnable (e : CmdEntry) (d : Dev) : CmdRes :=
  let p := u8 e 0
  let x := d.ethAt p
  let on := bitAt (u8 e 1) 0
  if !d.hasEth p then badField 0
  else if x.enabled = on then .done [] d
  else if on then
    if !d.inService then .refuse .state 0
    else if x.lanes.any (fun l => !d.laneOn l) then .refuse .domainOff 0
    else .done [] (d.updEth p fun x => { x with enabled := true })
  else if d.ethBundleOn p && !force e then .refuse .trafficPresent 0
  else
    let d1 := d.updEth p fun x => { x with enabled := false }
    .done [] (x.lanes.foldl (fun d l => if d.lanePowered l then d else d.updLane l Lane.powerDown) d1)

def formEthEnable : CmdForm := formF 0x0603 (.fixed 2) [fldU 0 1 0 31, fldBits 1 1 1]

def execCmdEthPortEnable (e : CmdEntry) (s : State) : Host.Outcome State Fault Refusal :=
  .next (runCmd formEthEnable e (fun _ d => ethEnable e d) s)

/-- CSF_RX of Table 12-8. -/
def EthPort.csfCode (x : EthPort) : Nat := if x.csf ≠ 0 then x.csf else if x.csfRf then 3 else 0

/-- RESULT of CMD_ETH_PORT_STATUS (Table 12-8). -/
def ethStatus (p : Nat) (d : Dev) : List Byte :=
  let x := d.ethAt p
  let c (k : Nat) : Nat × Nat := (48, d.counter (ctrEth k p))
  resultBits [(3, x.st.code), (2, x.type), (3, 0), (6, x.first), (2, 0), (7, x.bundle), (1, b2n x.gfpSync), (2, d.txFault p), (2, x.rxFault),
    (2, x.csfCode), (2, 0), c 0, c 1, c 2, c 3, c 4, c 5, c 6, c 7]

def formEthStatus : CmdForm := form 0x0604 (.fixed 1) [fldU 0 1 0 31]

def execCmdEthPortStatus (e : CmdEntry) (s : State) : Host.Outcome State Fault Refusal :=
  .next (runCmd formEthStatus e (fun _ d => if d.hasEth (u8 e 0) then .done (ethStatus (u8 e 0) d) d else badField 0) s)

/-! ### Ethernet port events (R287 to R291, R305) -/

/-- What the PCS finds over 1 ms: alignment of every lane, and codewords corrected and uncorrectable (Table 12-7). -/
def ethStateChange (env : Env) (p : Nat) (locked : Bool) (corr uncorr : Nat) (d : Dev) : Dev :=
  if (d.ethAt p).enabled then
    ((d.updEth p fun x => { x with aligned := locked && decide (uncorr ≤ env.par.nat pEthUncorrThr) }).count (ctrEth 6 p) corr).count (ctrEth 7 p) uncorr
  else d

def execEthPortStateChange (p : Fin 32) (locked : Bool) (corr uncorr : Nat) (s : State) : Host.Outcome State Fault Refusal :=
  .next (onDev s fun env d => ethStateChange env p locked corr uncorr d)

/-- Is the FCS of a MAC frame good? The CRC-32 of IEEE 802.3 over all but the last four bytes, least significant byte first. -/
def fcsOk (frame : List Byte) : Bool :=
  decide (leNat (frame.drop (frame.length - 4)) = CvConfig.crc32.value (frame.take (frame.length - 4)))

/-- A frame with its last four bytes inverted, which guarantees a bad FCS (R288, R291). -/
def spoilFcs (frame : List Byte) : List Byte :=
  frame.take (frame.length - 4) ++ (frame.drop (frame.length - 4)).map fun b => ~~~b

/-- A MAC frame from the client of an UP port (R287, R288): too long or too short it is discarded; else it is mapped, unchanged or, with an error
control character, with a spoiled FCS; its bundle takes it, and RX_FRAMES counts it, while it admits data (R225, R306). Management frames take the place of data in client fail and while Local Fault is received (R290). -/
def ethFrameRx (env : Env) (p : Nat) (frame : List Byte) (err : Bool) (d : Dev) : Dev :=
  let x := d.ethAt p
  if x.st = .up ∧ x.rxFault ≠ 1 then
    if env.par.nat (pEthMaxFrame + p) < frame.length ∨ frame.length < 64 then d.count (ctrEth 2 p) 1
    else
      let d1 := if d.ethAdmits p then (d.updEth p fun x => { x with mapped := if err then spoilFcs frame else frame }).count (ctrEth 0 p) 1 else d
      if err || !fcsOk frame then d1.count (ctrEth 1 p) 1 else d1
  else d

def execEthFrameRx (p : Fin 32) (frame : List Byte) (err : Bool) (s : State) : Host.Outcome State Fault Refusal :=
  .next (onDev s fun env d => ethFrameRx env p frame err d)

/-- Do the port's lanes carry its own transmit data? Not under a generator or far-end loopback (R298, R299). -/
def Dev.ethSends (d : Dev) (p : Nat) : Bool :=
  (d.ethAt p).enabled && (d.ethAt p).lanes.all fun l => decide ((d.lane l).gen = 0 ∧ (d.lane l).loopback ≠ 3)

/-- A frame delineated from the bundle, with `held` bytes in the egress buffer of 2 × P_ETH_MAX_FRAME (R289): it is dropped whole where it does not
fit; else sent with a new preamble, and a shorter average gap while the buffer is more than half full. With no cause left it ends Local Fault (R291). -/
def ethFrameTx (env : Env) (p : Nat) (frame : List Byte) (held : Nat) (d : Dev) : Dev :=
  if (d.ethAt p).gfpSync then
    let d1 := d.lfEnd p
    let max := env.par.nat (pEthMaxFrame + p)
    if d1.txFault p ≠ 0 ∨ d1.ethSends p = false then d1
    else if 2 * max < held + frame.length then d1.count (ctrEth 4 p) 1
    else (d1.updEth p fun x => { x with sent := List.replicate 7 0x55 ++ 0xD5 :: frame, gap := if max < held then 9 else 12 }).count (ctrEth 3 p) 1
  else d

def execEthFrameTx (p : Fin 32) (frame : List Byte) (held : Nat) (s : State) : Host.Outcome State Fault Refusal :=
  .next (onDev s fun env d => ethFrameTx env p frame held d)

/-- GFP delineation is lost: counted, Local Fault starts (R287, R291). -/
def gfpLoss (p : Nat) (d : Dev) : Dev :=
  if (d.ethAt p).gfpSync then (d.updEth p fun x => { x with gfpSync := false }).count (ctrEth 5 p) 1 else d

def execGfpLossOfDelineation (p : Fin 32) (s : State) : Host.Outcome State Fault Refusal :=
  .next (onDev s fun _ d => gfpLoss p d)

/-- GFP is delineated by core-header check; Local Fault ends where no cause is left (R287, R291). -/
def gfpGain (p : Nat) (d : Dev) : Dev :=
  if (d.ethAt p).gfpSync then d else (d.updEth p fun x => { x with gfpSync := true }).lfEnd p

def execGfpDelineationGain (p : Fin 32) (s : State) : Host.Outcome State Fault Refusal :=
  .next (onDev s fun _ d => gfpGain p d)

/-- A management frame is sent into the bundle in client fail or for a received fault, with P_ETH_CSF_EN (R290). -/
def csfTimer (env : Env) (p : Nat) (d : Dev) : Dev :=
  let u := d.csfUpi p
  if env.par.on pEthCsfEn ∧ u ≠ 0 then d.updEth p fun x => { x with csfSent := u, csfCount := x.csfCount + 1 } else d

def execCsfFrameTimer (p : Fin 32) (s : State) : Host.Outcome State Fault Refusal :=
  .next (onDev s fun env d => csfTimer env p d)

/-- A management frame is received: its cause holds for 300 ms (R291). Other UPI values carry no cause. -/
def csfRx (p upi : Nat) (d : Dev) : Dev :=
  if (d.ethAt p).gfpSync then
    if upi = 1 ∨ upi = 2 then d.updEth p fun x => { x with csf := upi }
    else if upi = 0xFD then (d.updEth p fun x => { x with csfRf := true }).lfEnd p
    else d.lfEnd p
  else d

def execCsfFrameRx (p : Fin 32) (upi : Byte) (s : State) : Host.Outcome State Fault Refusal :=
  .next (onDev s fun _ d => csfRx p upi.toNat d)

/-- 300 ms after the last frame the cause of Local Fault, or of Remote Fault, ends (R291). -/
def csfExpiry (p : Nat) (rf : Bool) (d : Dev) : Dev :=
  d.updEth p fun x => if rf then { x with csfRf := false } else { x with csf := 0 }

def execCsfHoldExpiry (p : Fin 32) (rf : Bool) (s : State) : Host.Outcome State Fault Refusal :=
  .next (onDev s fun _ d => csfExpiry p rf d)

/-- Ordered sets from the client: none, Local Fault or Remote Fault (R290). -/
def clientFault (p fault : Nat) (d : Dev) : Dev :=
  if (d.ethAt p).enabled then d.updEth p fun x => { x with rxFault := fault } else d

def execClientFaultRx (p : Fin 32) (fault : Fin 3) (s : State) : Host.Outcome State Fault Refusal :=
  .next (onDev s fun _ d => clientFault p fault d)

end Sys2Proof.Machine
end

