-- ==== Sys2Proof/Machine/Counters.lean ====
section
/-! DEFINITION. Machine/Counters.lean: counter commands, snapshots (R457 to R469). -/

namespace Sys2Proof.Machine

/-- CID `k` of CMD_CNT_READ, and whether Table 20-1 names it (R458). -/
def cidAt (e : CmdEntry) (k : Nat) : Nat := u32 e (1 + 4 * k)
def cidNamed (cid : Nat) : Bool :=
  decide (bitsAt cid 11 5 = 0 ∧ bitsAt cid 24 8 = 0) && (counterBlock (bitsAt cid 16 8) (bitsAt cid 0 11)).isSome

/-- An 8-byte entry (Table 20-4). -/
def cntEntry (v : Nat) (ovf off : Bool) : List Byte := leBytes 8 (packBits [(48, v), (1, b2n ovf), (1, b2n off)])

/-- What the counters that run by themselves have counted since the last look. -/
def Dev.countersRun (d : Dev) : Dev := d.progsRun.parityRun.selectorsRun

/-- CMD_CNT_READ (R461). -/
def cntRead (env : Env) (e : CmdEntry) (d0 : Dev) : CmdRes :=
  let d := d0.countersRun
  let n := u8 e 0
  match (List.range n).find? fun k => !cidNamed (cidAt e k) with
  | some k => badField (1 + 4 * k)
  | none => .done ((List.range n).flatMap fun k =>
      let r := d.readCounter env.pcs (bitsAt (cidAt e k) 16 8) (bitsAt (cidAt e k) 0 11)
      cntEntry r.1 r.2.1 r.2.2) d

def formCntRead : CmdForm := form 0x0D01 (.counted 1 4 0 1 6) []

def execCmdCntRead (e : CmdEntry) (s : State) : Host.Outcome State Fault Refusal :=
  .next (runCmd formCntRead e (fun env d => cntRead env e d) s)

/-- A counter read (R372): the live value, counters brought up to now first, with its overflow bit, or zero and DENIED without the family's bit. -/
def counterRead (env : Env) (h cid : Nat) (d0 : Dev) : Dev :=
  let d := d0.countersRun
  match d.prog h with
  | none => d
  | some p =>
    if !p.placed then d
    else
      let f := cid / 65536
      if f < 16 ∧ bitAt p.cntMask f = true ∧ cid % 65536 < 2048 then
        let (v, ovf, _) := d.readCounter env.pcs f (cid % 2048)
        d.updProg h fun p => { p with answer := v + 2 ^ 48 * b2n ovf }
      else (d.updProg h fun p => { p with answer := 0 }).count (ctrProg 2 h) 1

def execEngCounterRead (h : Fin 32) (cid : BitVec 32) (s : State) : Host.Outcome State Fault Refusal :=
  .next (onDev s fun env d => counterRead env h cid.toNat d)

/-- Instances of each condition of Table 20-2; 0 for an unknown condition. -/
def sourceCount (cond : Nat) : Nat :=
  if 1 ≤ cond ∧ cond ≤ 7 then 4
  else if cond = 8 ∨ cond = 9 then 512
  else if cond = 10 then 32
  else if cond = 11 then 4
  else if cond = 12 ∨ cond = 13 then 64
  else if 14 ≤ cond ∧ cond ≤ 16 then 1
  else 0

/-- CMD_CNT_SELECT (R459, R460): a change on the interface block. -/
def cntSelect (e : CmdEntry) (d : Dev) : CmdRes :=
  if sourceCount (u16 e 2 / 1024) ≤ u16 e 2 % 1024 then badField 2
  else .done [] (d.emit (.select (u8 e 0) (u8 e 1) (u16 e 2 / 1024) (u16 e 2 % 1024)))

def formCntSelect : CmdForm := form 0x0D02 (.fixed 4) [fldU 0 1 0 63, fldU 1 1 0 3, fldAny 2 2]

def execCmdCntSelect (e : CmdEntry) (s : State) : Host.Outcome State Fault Refusal :=
  .next (runCmd formCntSelect e (fun _ d => cntSelect e d) s)

/-- CMD_CNT_CLEAR (R462): OVF of every counter of the families named; for family 0x0D the values too. -/
def cntClear (e : CmdEntry) (d : Dev) : CmdRes :=
  let mask := u16 e 0
  let d1 := { d with cnt := d.cnt.map fun kv => if bitAt mask (kv.1 / 2048) then (kv.1, { kv.2 with ovf := false }) else kv }
  .done [] (if bitAt mask 13 then d1.emit .clearPcs else d1)

def formCntClear : CmdForm := form 0x0D03 (.fixed 2) [fldAny 0 2]

def execCmdCntClear (e : CmdEntry) (s : State) : Host.Outcome State Fault Refusal :=
  .next (runCmd formCntClear e (fun _ d => cntClear e d) s)

/-! ### Snapshots -/

/-- Indices of a family that Table 20-1 names. -/
def namedIndices (family : Nat) : List Nat := (List.range 2048).filter fun i => (counterBlock family i).isSome

/-- Every counter as latched by a strobe, less those that read all zeros (R464, R466). -/
def Dev.latch (d : Dev) (pcs : Tbl ProgCounter) : List SnapCell :=
  (List.range 16).flatMap fun f => (namedIndices f).filterMap fun i =>
    let r := d.readCounter pcs f i
    if r.1 = 0 && !r.2.1 && !r.2.2 then none else some ⟨2048 * f + i, r.1, r.2.1, r.2.2⟩

/-- Can a snapshot be taken: in Service with a stack ON (R469)? -/
def Dev.snapReady (d : Dev) : Bool := d.inService && d.anyStack

/-- A strobe begins a dump; the values are latched, and each counter's progress so far is in them. -/
def snapBegin (trig : Bool) (s : State) : State :=
  let d := s.dev.countersRun
  let x := s.io.snap
  { s with dev := d, io := { s.io with snap := { x with
      since := 0, busy := some ⟨x.next.toNat, s.now, trig, min (2 ^ 24 - 1) x.since, x.period.toNat, d.latch s.io.pcs⟩ } } }

/-- A strobe is skipped: counted, SKIP set, CNT_SNAP_SKIP at most once per second (R467). -/
def snapSkip (s : State) : State :=
  let x := s.io.snap
  let n := x.sinceEvent + 1
  let due : Bool := match x.eventAt with
    | none => true
    | some t => decide (t + sec ≤ s.now)
  let x1 := { x with skip := true, skipped := BitVec.ofNat 32 (satAdd 32 x.skipped.toNat 1), since := x.since + 1,
                     sinceEvent := if due then 0 else n, eventAt := if due then some s.now else x.eventAt }
  let io1 := { s.io with snap := x1 }
  { s with io := if due then io1.event s.par s.now .cntSnapSkip 0 Evt.cntSnapSkip.severity [(4, n)] else io1 }

/-- SNAPSHOT_STROBE (R464, R467, R469): the periodic strobe. -/
def snapStrobe (s : State) : State :=
  if !s.io.snap.run || !s.dev.snapReady then s
  else if s.io.snap.busy.isSome then snapSkip s
  else snapBegin false s

def execSnapshotStrobe (s : State) : Host.Outcome State Fault Refusal := .next (snapStrobe s)

/-- A write of 1 to TRIG (R465, R469). -/
def snapTrig (s : State) : State :=
  if !s.dev.snapReady then { s with io := { s.io with snap := { s.io.snap with skip := true } } }
  else if s.io.snap.busy.isSome then snapSkip s
  else snapBegin true s

/-- The header of a snapshot (Table 20-4). -/
def SnapDump.header (x : SnapDump) (late : Bool) : List Byte :=
  leBytes 64 (packBits [(32, x.seq), (1, b2n x.trig), (1, b2n late), (6, 0), (24, x.skipped), (64, x.time), (16, x.period)])

/-- Where a snapshot lies in the ring (R466). -/
def snapOffset (seq : Nat) : Nat := 0x40000 * (seq % 2048)

/-- The ring copy: the old contents of the place go, header and entries are written. -/
def snapWrite (x : SnapDump) (late : Bool) (m : Mem) : Mem :=
  let base := snapOffset x.seq
  let m1 := m.filter fun c => decide (c.1 < base ∨ base + 0x40000 ≤ c.1)
  x.cells.foldl (fun (m : Mem) c => Mem.writeAll m (base + 8 * c.slot) (cntEntry c.v c.ovf c.off)) (Mem.writeAll m1 base (x.header late))

/-- The host copy (R468): a full host ring is counted, a write error ends DMA. -/
def Snap.dma (x : Snap) (ok : Bool) (seq : Nat) : Snap :=
  if !x.dmaEn then x
  else
    let next : Byte := if x.dmaCount = 0 then 0 else BitVec.ofNat 8 ((x.dmaTail.toNat + 1) % x.dmaCount.toNat)
    if next = x.dmaHead then { x with dmaSkipped := BitVec.ofNat 32 (satAdd 32 x.dmaSkipped.toNat 1) }
    else if !ok then { x with dmaErr := true, dmaEn := false }
    else { x with dmaTail := next, copied := some (x.dmaBase.toNat + 0x40000 * x.dmaTail.toNat, seq) }

/-- SNAPSHOT_DUMP_END (R466 to R469): `dmaOk` says whether the PCIe writes went through. With no stack ON any more nothing is written: the dump is given up, and
its SEQ is not taken (log entry 194). -/
def snapEnd (dmaOk : Bool) (s : State) : State :=
  match s.io.snap.busy with
  | none => s
  | some x =>
    if s.dev.anyStack = false then { s with io := { s.io with snap := { s.io.snap with busy := none } } }
    else
      let late := decide (x.time + ms < s.now)
      let y := { s.io.snap with busy := none, seq := BitVec.ofNat 32 x.seq, next := BitVec.ofNat 32 (x.seq + 1), late := s.io.snap.late || late }
      { s with mem := snapWrite x late s.mem, io := { s.io with snap := y.dma dmaOk x.seq }.raiseInt intSnapshot }

def execSnapshotDumpEnd (dmaOk : Bool) (s : State) : Host.Outcome State Fault Refusal := .next (snapEnd dmaOk s)

end Sys2Proof.Machine
end

