-- ==== Sys2Proof/Machine/Crypto.lean ====
section
/-! DEFINITION. Machine/Crypto.lean: key commands, the line cipher's events, memory-to-memory jobs (R339 to R360). -/

namespace Sys2Proof.Machine

/-! ### Key commands (R348 to R352) -/

/-- FIRST and COUNT of the key commands. -/
def kFirst (e : CmdEntry) : Nat := u32 e 0 % 1024
def kCount (e : CmdEntry) : Nat := u8 e 2
def kChans (e : CmdEntry) : List Nat := (List.range (kCount e)).map fun i => kFirst e + i

/-- Do the channels lie on one carrier? -/
def kOneCarrier (e : CmdEntry) : Bool := decide (kFirst e / 128 = (kFirst e + kCount e - 1) / 128)

/-- Does a channel's carrier run an interop profile? (R226) -/
def Dev.interopChan (d : Dev) (ch : Nat) : Bool := (d.tx (ch / 128)).op.any fun p => decide (p.profile ≠ 0)

/-- The key a KEY_LOAD delivers: in the clear, or unwrapped under the KEK. -/
def keyOf (d : Dev) (e : CmdEntry) (wrapped : Bool) : Option (List Byte) :=
  if wrapped then (match d.key.kek with
    | some k => Config.kwUnwrap k (((payload e).drop 20).take 40)
    | none => none)
  else some (((payload e).drop 20).take 32)

/-- Do two ranges of `n` salts overlap, modulo 2³²? -/
def saltsOverlap (tx rx n : Nat) : Bool :=
  decide ((tx + 2 ^ 32 - rx) % 2 ^ 32 < n) || decide ((rx + 2 ^ 32 - tx) % 2 ^ 32 < n)

/-- Is a job key slot used by a queued or running job? -/
def Dev.jobKeyUsed (d : Dev) (k : Nat) : Bool :=
  (d.key.normal ++ d.key.urgent ++ d.key.running.toList ++ d.key.suspended.toList).any fun j => decide (j.kslot = k)

/-- A channel's slot is loaded (R340, R344); a roll that waits for it waits on (R359). -/
def Dev.loadSlot (d : Dev) (env : Env) (ch s : Nat) (k : KeySlot) : Dev := d.updKey ch fun c => (c.put s (some k)).rollLater (multiframesIn env.now)

/-- CMD_KEY_LOAD (R349). -/
def keyLoad (env : Env) (e : CmdEntry) (d : Dev) : CmdRes :=
  let flags := u8 e 3
  let slot := b2n (bitAt flags 0)
  let wrapped := bitAt flags 1
  let job := bitAt flags 2
  let start := fieldAt (payload e) 12 8
  let lim := env.par.nat pKeyLimitLog2
  let lay := layoutFault (payload e) [⟨0, 2, 0x3FF, 0, if job then 15 else 511, false⟩, fldU 2 1 1 (if job then 1 else 128),
    ⟨3, 1, if job then 6 else 7, 0, 7, false⟩, fldAny 4 4, if job then fldU 8 4 0 0 else fldAny 8 4]
  if e.plen.toNat ≠ (if wrapped then 60 else 52) then .refuse .badParam 6
  else match lay with
  | some k => .refuse .badParam k
  | none =>
    if !d.domOn domCrypto then .refuse .domainOff 0
    else if !job && (kChans e).any d.interopChan then .refuse .state 0
    else if !wrapped && env.par.on pKeyWrapOnly then .refuse .state 0
    else if wrapped && d.key.kek.isNone then .refuse .state 0
    else if !job && !kOneCarrier e then badField 2
    else if !job && saltsOverlap (u32 e 4) (u32 e 8) (kCount e) then badField 8
    else if 2 ^ 64 - 1 < start + 2 ^ lim then badField 12
    else if (if job then d.jobKeyUsed (kFirst e) else (kChans e).any fun ch => (d.keyChan ch).active slot) then .refuse .slotActive 0
    else match keyOf d e wrapped with
    | none => .refuse .authFail 0
    | some key =>
      if job then .done [] (d.updKeys fun k => { k with job := k.job.set (kFirst e) ⟨key, u32 e 4, start, lim, start⟩ })
      else .done [] ((List.range (kCount e)).foldl (fun d i =>
        d.loadSlot env (kFirst e + i) slot ⟨key, (u32 e 4 + i) % 2 ^ 32, (u32 e 8 + i) % 2 ^ 32, start, lim, start, none, false⟩) d)

def formKeyLoad : CmdForm := form 0x0801 (.oneOf [52, 60]) []

def execCmdKeyLoad (e : CmdEntry) (s : State) : Host.Outcome State Fault Refusal :=
  .next (runCmd formKeyLoad e (fun env d => keyLoad env e d) s)

/-- TX_SLOT and RX_EXPECT of CMD_KEY_ACTIVATE (Table 14-3). -/
def kaTx (e : CmdEntry) : Nat := bitsAt (u8 e 3) 0 2
def kaRx (e : CmdEntry) : Nat := bitsAt (u8 e 3) 2 2

/-- Would the command take a channel of an enabled bundle out of encryption, or out of RX_EXPECT 1? -/
def Dev.weakens (d : Dev) (e : CmdEntry) (ch : Nat) : Bool :=
  ((d.bundleOf ch).any fun kv => kv.2.on)
    && ((decide (kaTx e = 2) && (d.keyChan ch).txSlot.isSome) || (decide ((d.keyChan ch).expect = 1) && decide (kaRx e = 0 ∨ kaRx e = 2)))

/-- CMD_KEY_ACTIVATE (R350). The step takes in the multiframe boundary at which the setting applies (log entry 26). -/
def keyActivate (e : CmdEntry) (d : Dev) : CmdRes :=
  if !kOneCarrier e then badField 2
  else if !d.domOn domCrypto then .refuse .domainOff 0
  else if (kChans e).any d.interopChan then .refuse .state 0
  else if kaTx e < 2 ∧ (kChans e).any (fun ch => !(d.keyChan ch).usable (kaTx e)) = true then .refuse .sequence 0
  else if (kChans e).any (d.weakens e) && !force e then .refuse .trafficPresent 0
  else .done [] ((kChans e).foldl (fun d ch => d.updKey ch fun c =>
    let c1 := if kaTx e < 2 then c.setTx (.slot (kaTx e)) else if kaTx e = 2 then c.setTx .plain else c
    { c1 with expect := if kaRx e < 3 then kaRx e else c.expect }) d)

def formKeyActivate : CmdForm := formF 0x0802 (.fixed 4) [⟨0, 2, 0x3FF, 0, 511, false⟩, fldU 2 1 1 128, fldBits 3 1 0x0F]

def execCmdKeyActivate (e : CmdEntry) (s : State) : Host.Outcome State Fault Refusal :=
  .next (runCmd formKeyActivate e (fun _ d => keyActivate e d) s)

/-- CMD_KEY_ERASE (R344, R351). Job key slots have no standing activity but a job that uses them. -/
def keyErase (e : CmdEntry) (d : Dev) : CmdRes :=
  let job := bitAt (u8 e 3) 2
  let slots := [0, 1].filter fun s => bitAt (u8 e 3) s
  if d.domState domCrypto = .off then .refuse .domainOff 0
  else if job then
    if 15 < kFirst e then badField 0
    else if 16 < kFirst e + kCount e then badField 2
    else if (kChans e).any d.jobKeyUsed && !force e then .refuse .slotActive 0
    else .done [] (d.updKeys fun k => { k with job := k.job.filter fun kv => !(kChans e).contains kv.1 })
  else if 512 < kFirst e + kCount e then badField 2
  else if (kChans e).any (fun ch => slots.any fun s => (d.keyChan ch).active s) && !force e then .refuse .slotActive 0
  else .done [] ((kChans e).foldl (fun d ch => d.updKey ch fun c => slots.foldl KeyChan.erase c) d)

def formKeyErase : CmdForm := formF 0x0803 (.fixed 4) [⟨0, 2, 0x3FF, 0, 511, false⟩, fldU 2 1 1 128, fldBits 3 1 0x07]

def execCmdKeyErase (e : CmdEntry) (s : State) : Host.Outcome State Fault Refusal :=
  .next (runCmd formKeyErase e (fun _ d => keyErase e d) s)

/-- RESULT of CMD_KEY_STATUS (Table 14-4). -/
def keyStatus (ch : Nat) (d : Dev) : List Byte :=
  let c := d.keyChan ch
  let t := c.named.bind c.at_
  let flag (s : Nat) : List (Nat × Nat) := [(1, b2n (c.at_ s).isSome), (1, b2n (decide (c.txSlot = some s))), (1, b2n (c.rx s))]
  resultBits (flag 0 ++ flag 1 ++ [(2, c.tx.code), (2, c.expect), (1, b2n (t.any (·.near))), (21, 0), (64, (t.map (·.mfc)).getD 0), (64, (t.map (·.limit)).getD 0),
    (64, (d.chanAt ch).mfc), (48, d.counter (ckey 8 ch)), (32, d.counter (ckey 8 (512 + ch))), (32, d.counter (ckey 8 (1024 + ch))), (32, c.rolls)])

def formKeyStatus : CmdForm := form 0x0804 (.fixed 2) [fldU 0 2 0 511]

def execCmdKeyStatus (e : CmdEntry) (s : State) : Host.Outcome State Fault Refusal :=
  .next (runCmd formKeyStatus e (fun _ d => if d.domOn domCrypto then .done (keyStatus (u16 e 0) d) d else .refuse .domainOff 0) s)

/-- CMD_KEK_LOAD (R347, R348). -/
def kekLoad (env : Env) (e : CmdEntry) (d : Dev) : CmdRes :=
  let half := ((payload e).drop 2).take 192
  if !d.domOn domCrypto then .refuse .domainOff 0
  else if 1 < u8 e 0 then badField 0
  else if u8 e 0 = 0 then .done [] (d.updKeys fun k => { k with kekHalf := some (half, env.cmds8 + 1) })
  else match d.key.kekHalf with
  | none => .refuse .sequence 0
  | some (first, n) =>
    if n ≠ env.cmds8 then .refuse .sequence 0
    else match Config.oaepDecode (first ++ half) with
    | none => .refuse .authFail 0
    | some k => .done [] (d.updKeys fun x => { x with kek := some k, kekHalf := none })

def formKekLoad : CmdForm := form 0x0805 (.fixed 194) [fldAny 0 1, fldRsv 1 1]

def execCmdKekLoad (e : CmdEntry) (s : State) : Host.Outcome State Fault Refusal :=
  .next (runCmd formKekLoad e (fun env d => kekLoad env e d) s)

/-! ### The line cipher's events (R342, R345, R346) -/

/-- Channels of an event that arises on `n` contiguous channels from `ch`. -/
def eventChans (ch n : Nat) : List Nat := (List.range (min n (512 - ch))).map fun i => ch + i

/-- P_KEY_WARN per cent of a slot's limit. -/
def KeySlot.warnAt (k : KeySlot) (pct : Nat) : Nat := k.start + ceilDiv (2 ^ k.limitLog * pct) 100

/-- The TX slots of channels reach their warning point (R342): KEY_NEAR_LIMIT; with P_KEY_ROLL_AUTO, and the other slot loaded and not expired, the roll is due
from the next multiframe boundary on. While MBX_STATE is not READY, the slot is judged when it is again (R359). -/
def nearLimit (env : Env) (ch n : Nat) (d : Dev) : Dev :=
  let hit := (eventChans ch n).filter fun c => (d.keyChan c).txSlot.any fun s => ((d.keyChan c).at_ s).any fun k => !k.near
  let mark (c : KeyChan) : KeyChan := match c.txSlot with
    | some s => { c.put s ((c.at_ s).map fun k => { k with near := true, mfc := max k.mfc (k.warnAt (env.par.nat pKeyWarn)) }) with
                  rollAt := if env.par.on pKeyRollAuto && (c.canRoll || decide (env.mbx ≠ .ready)) then some (multiframesIn env.now + 1) else none }
    | none => c
  (hit.foldl (fun d c => d.updKey c mark) d).raiseGroups .keyNearLimit hit fun c => [(1, ((d.keyChan c).txSlot.getD 0 : Nat))]

def execKeyNearLimitReached (ch : Fin 512) (n : Nat) (s : State) : Host.Outcome State Fault Refusal :=
  .next (onDev s fun env d => nearLimit env ch n d)

/-- TX slots of channels reach their limit with no other slot activated: the channels send zeros with AIS (R342). A roll due at that boundary takes effect instead
(R359). -/
def keyExpiry (env : Env) (ch n : Nat) (d : Dev) : Dev :=
  let rolls (c : KeyChan) : Bool := c.rollDue (multiframesIn env.now) && c.canRoll && decide (env.mbx = .ready)
  let hit := (eventChans ch n).filter fun c => (d.keyChan c).txSlot.isSome && !rolls (d.keyChan c)
  let slotOf (c : Nat) : Nat := (d.keyChan c).txSlot.getD 0
  (hit.foldl (fun d c => d.updKey c fun k =>
    { k.put (slotOf c) ((k.at_ (slotOf c)).map fun x => { x with mfc := max x.mfc x.limit }) with tx := .expired (slotOf c), rollAt := none }) d).raiseGroups
      .keyExpired hit fun c => [(1, (slotOf c : Nat))]

def execKeyLimitExpiry (ch : Fin 512) (n : Nat) (s : State) : Host.Outcome State Fault Refusal :=
  .next (onDev s fun env d => keyExpiry env ch n d)

/-- Is the channel's multiframe exempt from the tag check: a section action touched it or its tag frames, or path AIS (R24, R221, R359)? The check
comes one multiframe and four frames after the multiframe began. -/
def Dev.notChecked (d : Dev) (env : Env) (ch : Nat) : Bool :=
  let f := d.frm (ch / 128)
  f.ca || f.dirtyAt.any (fun t => decide (env.now * 10 < t * 10 + 135168)) || bitAt (d.chanAt ch).defects 0

/-- What becomes of a received multiframe (R217, R339, R346). -/
inductive MfOutcome where
  | skipped | delivered | zeros | noKey | mfcReject | authFail | accepted
  deriving DecidableEq, Repr

def Dev.mfOutcome (d : Dev) (env : Env) (ch : Nat) (m : MfReport) : MfOutcome :=
  let c := d.keyChan ch
  if d.notChecked env ch then .skipped
  else if !m.enc then (if c.expect = 1 then .zeros else .delivered)
  else if c.expect = 0 then .zeros
  else match c.at_ m.kp with
    | none => .noKey
    | some k =>
      if (match k.rxLast with
          | none => decide (m.mfc.toNat < k.start)
          | some x => decide (m.mfc.toNat ≤ x)) then .mfcReject
      else if (lineOpen k m.mfc.toNat (ch % 128) m.text).2 = padTo 12 m.tag then .accepted else .authFail

/-- One channel's multiframe is delivered, decrypted, or replaced by zeros with AIS, and counted. -/
def Dev.checkMf (d : Dev) (env : Env) (ch : Nat) (m : MfReport) : Dev :=
  let o := d.mfOutcome env ch m
  let named := if o = .skipped ∨ m.enc = false then none else some m.kp.val
  let d1 := d.updKey ch fun c => { c with kp1 := named, kp2 := c.kp1 }
  let d2 := d1.updChan ch fun c => { c with zeros := decide (o = .zeros ∨ o = .noKey ∨ o = .mfcReject ∨ o = .authFail),
                                            kp := if o = .skipped then c.kp else decide (m.kp.val = 1) }
  match o with
  | .noKey => d2.count (ckey 8 (1024 + ch)) 1
  | .mfcReject => d2.count (ckey 8 (512 + ch)) 1
  | .authFail =>
    ((d2.count (ckey 8 ch) 1).emit (.pulse 9 ch)).updKeys fun k =>
      { k with failAt := some env.now, chan := k.chan.upd .reset ch fun c => { c with failSince := c.failSince + 1 } }
  | .accepted =>
    (d2.updKey ch fun c => c.put m.kp ((c.at_ m.kp).map fun k => { k with rxLast := some m.mfc.toNat })).updChan ch fun c => { c with mfc := m.mfc.toNat }
  | _ => d2

/-- Is an AUTH_FAIL event due for a channel: failures not reported, the last event a second ago or more (R346)? -/
def KeyChan.failDue (c : KeyChan) (now : Nat) : Bool :=
  decide (0 < c.failSince) && match c.failAt with
    | none => true
    | some t => decide (t + sec ≤ now)

/-- The multiframes of contiguous channels that end together are checked (R346, R353). -/
def authCheck (env : Env) (ch : Nat) (mfs : List MfReport) (d : Dev) : Dev :=
  let on := (List.zip (eventChans ch mfs.length) mfs).filter fun x => d.domOn (domCarrier (x.1 / 128)) && decide (x.1 % 128 < d.rxSlots (x.1 / 128)) && !d.interop (x.1 / 128)
  let d1 := on.foldl (fun d x => d.checkMf env x.1 x.2) d
  let due := (on.map (·.1)).filter fun c => (d1.keyChan c).failDue env.now
  let d2 := (d1.groupChans due).foldl (fun d g => d.raise .authFail g.1
    [(2, (g.2 : Int)), (4, (sumBy (fun c => (d1.keyChan c).failSince) (eventChans g.1 g.2) : Nat))]) d1
  due.foldl (fun d c => d.updKey c fun k => { k with failSince := 0, failAt := some env.now }) d2

def execMultiframeAuthCheck (ch : Fin 512) (mfs : List MfReport) (s : State) : Host.Outcome State Fault Refusal :=
  .next (onDev s fun env d => authCheck env ch mfs d)

/-- An uncorrectable word of the key-slot memory: its slot counts as erased, with the effects of a forced erase (R260, R345); it is logged (R276). -/
def keySlotUe (env : Env) (w : KeyWhere) (word : Nat) (d : Dev) : Dev :=
  let d1 := d.log env ⟨2, 0x30, 0, word, 0, 0xFF, 0, 7⟩
  match w with
  | .line ch s => d1.updKey ch fun c => c.erase s
  | .job k => d1.updKeys fun x => { x with job := x.job.drop k }
  | .kek => d1.updKeys fun x => { x with kek := none }

def execKeySlotUe (at_ : KeyWhere) (word : Nat) (s : State) : Host.Outcome State Fault Refusal :=
  .next (onDev s fun env d => keySlotUe env at_ word d)

/-! ### Memory-to-memory jobs (R354 to R358) -/

/-- Range of TAGLEN (Table 14-5). -/
def tagRange (op : Nat) : Nat × Nat := if op ≤ 1 then (12, 16) else if op ≤ 3 then (8, 16) else (16, 32)

/-- Fields of CMD_CRYPTO_JOB (Table 14-6). -/
def cjOp (e : CmdEntry) : Nat := bitsAt (u8 e 1) 0 4
def cjUrgent (e : CmdEntry) : Bool := bitAt (u8 e 1) 4
def cjAuto (e : CmdEntry) : Bool := bitAt (u8 e 1) 5
def cjSlot (e : CmdEntry) : Nat := bitsAt (u8 e 2) 0 4
def cjTagLen (e : CmdEntry) : Nat := bitsAt (u16 e 2) 4 6
def cjAead (e : CmdEntry) : Bool := decide (cjOp e ≤ 1)

/-- Range and grid faults of the fields, in ascending offset. -/
def cjField (e : CmdEntry) : Option Nat :=
  let nonce := ((payload e).drop 32).take 12
  if 5 < cjOp e then some 9
  else if 64 ≤ u8 e 1 then some 9
  else if cjTagLen e < (tagRange (cjOp e)).1 ∨ (tagRange (cjOp e)).2 < cjTagLen e then some 10
  else if 4 ≤ u8 e 3 then some 11
  else if u32 e 4 % 16 ≠ 0 then some 12
  else if u32 e 8 % 16 ≠ 0 ∨ (cjAead e = false ∧ u32 e 8 ≠ 0) then some 16
  else if jobArea < u32 e 12 then some 20
  else if u32 e 16 % 16 ≠ 0 then some 24
  else if 1048576 < u32 e 20 then some 28
  else if u32 e 24 % 16 ≠ 0 then some 32
  else if u32 e 28 % 32 ≠ 0 then some 36
  else if (cjAead e = false ∨ cjAuto e = true) ∧ nonce.any (fun b => decide (b ≠ 0)) = true then some 40
  else none

/-- The regions of a job: offset, length, and the highest entry offset of the fields that give them. -/
def cjRegions (e : CmdEntry) : List (Nat × Nat × Nat) :=
  [(u32 e 4, u32 e 12, 20)] ++ (if cjAead e then [(u32 e 8, u32 e 12, 20), (u32 e 16, u32 e 20, 28)] else [])
    ++ [(u32 e 24, cjTagLen e, 32), (u32 e 28, 32, 36)]

/-- Do two regions share a byte? -/
def regionsMeet (a b : Nat × Nat × Nat) : Bool := decide (0 < a.2.1 ∧ 0 < b.2.1 ∧ a.1 < b.1 + b.2.1 ∧ b.1 < a.1 + a.2.1)

/-- The first overlap of a list of regions, by the highest offset involved. -/
def overlapOf : List (Nat × Nat × Nat) → Option Nat
  | [] => none
  | r :: rs => match rs.find? (regionsMeet r) with
    | some q => some (max r.2.2 q.2.2)
    | none => overlapOf rs

/-- Regions that may not overlap: DST may equal SRC, and is then left out. -/
def cjChecked (e : CmdEntry) : List (Nat × Nat × Nat) :=
  if cjAead e ∧ u32 e 4 = u32 e 8 then (cjRegions e).drop 1 else cjRegions e

/-- All jobs known: running, suspended and queued. -/
def Keys.jobs (k : Keys) : List Job := k.running.toList ++ k.suspended.toList ++ k.urgent ++ k.normal

/-- The job as queued: an automatic nonce takes the slot's counter (R355, log entry 27). -/
def jobOf (e : CmdEntry) (k : JobKey) : Job where
  id := u8 e 0
  op := cjOp e
  urgent := cjUrgent e
  key := k.key
  kslot := cjSlot e
  tagLen := cjTagLen e
  src := u32 e 4
  dst := u32 e 8
  len := u32 e 12
  aadOff := u32 e 16
  aadLen := u32 e 20
  tagOff := u32 e 24
  recOff := u32 e 28
  iv := if cjAuto e then beBytes 4 k.salt ++ beBytes 8 k.counter else ((payload e).drop 32).take 12
  input := []
  aad := []
  tag := []

/-- CMD_CRYPTO_JOB (R355). -/
def cryptoJob (e : CmdEntry) (d : Dev) : CmdRes :=
  match cjField e with
  | some k => .refuse .badParam k
  | none =>
    if !d.domOn domCrypto then .refuse .domainOff 0
    else if !(d.key.job.map (·.1)).contains (cjSlot e) then .refuse .sequence 0
    else
      let k := d.key.job.get ⟨[], 0, 0, 0, 0⟩ (cjSlot e)
      let q := if cjUrgent e then d.key.urgent.length else d.key.normal.length
      if cjAuto e && decide (k.start + 2 ^ k.limitLog ≤ k.counter) then .refuse .state 0
      else match (cjRegions e).find? fun r => decide (jobArea < r.1 + r.2.1) with
      | some r => .refuse .badParam r.2.2
      | none => match overlapOf (cjChecked e) with
        | some o => .refuse .badParam o
        | none =>
          if cjAuto e && decide (cjOp e ≠ 0) then badField 1
          else if d.key.jobs.any fun j => decide (j.id = u8 e 0) then badField 0
          else if (if cjUrgent e then 2 else 8) ≤ q then .refuse .busy 0
          else
            let d1 := if cjAuto e then d.updKeys fun x => { x with job := x.job.set (cjSlot e) { k with counter := k.counter + 1 } } else d
            .done [] (d1.updKeys fun x => if cjUrgent e then { x with urgent := x.urgent ++ [jobOf e k] } else { x with normal := x.normal ++ [jobOf e k] })

def formCryptoJob : CmdForm := form 0x0810 (.fixed 44) []

def execCmdCryptoJob (e : CmdEntry) (s : State) : Host.Outcome State Fault Refusal :=
  .next (runCmd formCryptoJob e (fun _ d => cryptoJob e d) s)

/-- CMD_CRYPTO_CANCEL (R358). -/
def cryptoCancel (env : Env) (e : CmdEntry) (d : Dev) : CmdRes :=
  let is (j : Job) : Bool := decide (j.id = u8 e 0)
  let k := d.key
  match (k.running.toList ++ k.suspended.toList).find? is, (k.urgent ++ k.normal).find? is with
  | some j, _ => .done [] ((d.updKeys fun k => { k with running := k.running.filter fun j => !is j, suspended := k.suspended.filter fun j => !is j }).jobStop env j .state true)
  | none, some j =>
    .done [] ((d.updKeys fun k => { k with urgent := k.urgent.filter fun j => !is j, normal := k.normal.filter fun j => !is j }).jobDone env j .state true 0 [])
  | none, none => badField 0

def formCryptoCancel : CmdForm := form 0x0811 (.fixed 1) []

def execCmdCryptoCancel (e : CmdEntry) (s : State) : Host.Outcome State Fault Refusal :=
  .next (runCmd formCryptoCancel e (fun env d => cryptoCancel env e d) s)

/-- A job starts: it reads its input; until its record is written DST holds undefined data, a free value (R357). -/
def Dev.jobStart (d : Dev) (env : Env) (j : Job) : Dev :=
  let j1 := { j with input := env.mem.readAll (jobBase + j.src) j.len, aad := if j.hasDst then env.mem.readAll (jobBase + j.aadOff) j.aadLen else [],
                     tag := env.mem.readAll (jobBase + j.tagOff) j.tagLen }
  let d1 := d.updKeys fun k => { k with running := some j1 }
  if j.hasDst then (let (junk, d2) := d1.drawBytes j.len; d2.emit (.dram (jobBase + j.dst) junk)) else d1

/-- The next job starts: an urgent one first, suspending a normal one; then the suspended one; then a normal one (R356). -/
def jobStart (env : Env) (d : Dev) : Dev :=
  if !d.domOn domCrypto then d
  else match d.key.running, d.key.urgent with
  | some r, u :: us =>
    if r.urgent then d else (d.updKeys fun k => { k with suspended := some r, urgent := us }).jobStart env u
  | some _, [] => d
  | none, u :: us => (d.updKeys fun k => { k with urgent := us }).jobStart env u
  | none, [] => match d.key.suspended, d.key.normal with
    | some r, _ => d.updKeys fun k => { k with running := some r, suspended := none }
    | none, n :: ns => (d.updKeys fun k => { k with normal := ns }).jobStart env n
    | none, [] => d

def execCryptoJobStart (s : State) : Host.Outcome State Fault Refusal :=
  .next (onDev s fun env d => jobStart env d)

/-- What a job computes: its status and its output (Table 14-5, R357). A tag or MAC is its leftmost TAGLEN bytes. -/
def Job.outcome (j : Job) : Status × List (Nat × List Byte) :=
  match j.op with
  | 0 =>
    let (c, t) := Config.gcm j.key j.iv j.aad j.input
    (.ok, [(j.dst, padTo j.len c), (j.tagOff, padTo j.tagLen t)])
  | 1 =>
    let (p, t) := Config.gcmOpen j.key j.iv j.aad j.input
    if padTo j.tagLen t = j.tag then (.ok, [(j.dst, padTo j.len p)]) else (.authFail, j.zeroed)
  | 2 => (.ok, [(j.tagOff, padTo j.tagLen (Config.cmac j.key j.input))])
  | 3 => (if padTo j.tagLen (Config.cmac j.key j.input) = j.tag then .ok else .authFail, [])
  | 4 => (.ok, [(j.tagOff, padTo j.tagLen (Config.hmac j.key j.input))])
  | _ => (if padTo j.tagLen (Config.hmac j.key j.input) = j.tag then .ok else .authFail, [])

/-- The running job ends (R357); `bad` where it read an uncorrectable DRAM word. -/
def jobEnd (env : Env) (bad : Bool) (d : Dev) : Dev :=
  match d.key.running with
  | none => d
  | some j =>
    let d1 := d.updKeys fun k => { k with running := none }
    if bad then d1.jobStop env j .internal false
    else d1.jobDone env j j.outcome.1 false j.len j.outcome.2

def execCryptoJobEnd (bad : Bool) (s : State) : Host.Outcome State Fault Refusal :=
  .next (onDev s fun env d => jobEnd env bad d)

end Sys2Proof.Machine
end

