-- ==== Sys2Proof/Machine/FecCode.lean ====
section
/-! DEFINITION. Machine/FecCode.lean: the two codes of the native SD-FEC and the layout of a coding block (R184 to R189, R193). -/

namespace Sys2Proof.Machine

/-! ### Staircase component code (R185) -/

/-- One step of the division by g(x) = x⁹ + x⁴ + 1, with c₀ first: the register is multiplied by x and the incoming bit enters at x⁹. -/
def crc9Step (r : Nat) (b : Bool) : Nat :=
  let top := bitAt r 8 != b
  let s := r * 2 % 512
  if top then s ^^^ 0x11 else s

/-- The remainder of c(x) × x⁹ modulo g(x). -/
def crc9 (bits : List Bool) : Nat := bits.foldl crc9Step 0

/-- The ten parity bits of a component codeword's 310 information bits: the nine of the remainder, highest power first, and even parity. -/
def componentParity (info : List Bool) : List Bool :=
  let r := crc9 info
  let nine := [8, 7, 6, 5, 4, 3, 2, 1, 0].map fun k => bitAt r k
  nine ++ [(info ++ nine).foldl xor false]

/-- Does a component codeword of 320 bits satisfy its checks? (R198) -/
def componentOk (c : List Bool) : Bool := decide (c.drop 310 = componentParity (c.take 310))

/-! ### Coding blocks (R186 to R188) -/

/-- f = floor(2.304 × h), the inner parity P = f − 16, and the outer-coded bits C = 32h − f of a block. -/
def blockF (h : Nat) : Nat := 2304 * h / 1000
def blockP (h : Nat) : Nat := blockF h - 16
def blockC (h : Nat) : Nat := 32 * h - blockF h

/-- Bits to each matcher, K = 8h − 1,024. -/
def blockK (h : Nat) : Nat := 8 * h - 1024

/-- D_j, the outer-coded bits of block j. -/
def blockD (h j : Nat) : Nat := 29696 * h * (j + 1) / 1000 - 29696 * h * j / 1000

/-- F: one fill bit when D_j = C − 1. -/
def blockFill (h j : Nat) : Bool := decide (blockD h j + 1 = blockC h)

/-- The block header of sign positions 0 to 15: F, SB_START most significant first, a zero (Table 8-1). -/
def blockHeader (fill : Bool) (sbStart : Nat) : List Bool :=
  fill :: ((List.range 14).map fun k => bitAt sbStart (13 - k)) ++ [false]

/-- Sign position of data symbol `k` on lane `l`. -/
def signPosition (k l : Nat) : Nat := 4 * k + l

/-- The outer-coded position of framed bit `x` (R240). -/
def outerPosition (x : Nat) : Nat := 25600 * (x / 24000) + 160 * (x % 24000 / 150) + x % 150

/-! ### Inner code (R189) -/

/-- The rows that information column `i` joins: (g·i + o) mod P for the three pairs, a row once. -/
def innerRows (P i : Nat) : List Nat := ([(1, 0), (97, 13), (1031, 511)].map fun go => (go.1 * i + go.2) % P).eraseDups

/-- Information columns of a block. -/
def innerInfo (h : Nat) : Nat := 12288 + 4112 - blockF h

/-- The information sum of check row `r`. -/
def innerRowSum (P r : Nat) (info : List Bool) : Bool :=
  ((List.range info.length).filter fun i => (innerRows P i).contains r && (info.getD i false)).length % 2 == 1

/-- The parity bits p₀ … p_(P−1): each the running sum of the rows' information sums. -/
def innerParity (P : Nat) (info : List Bool) : List Bool :=
  (List.range P).map fun r => ((List.range (r + 1)).map fun k => innerRowSum P k info).foldl xor false

/-! ### Thresholds (R193) -/

/-- A row of Table 8-3 in units of 10⁻⁵: standard and short thresholds. -/
def thresholdRow : Nat → Nat × Nat
  | 4 => (2100, 1850)
  | 6 => (2350, 2050)
  | 8 => (2500, 2150)
  | 10 => (2600, 2220)
  | 12 => (2650, 2260)
  | _ => (2700, 2300)

/-- SNR shift against Table 6-3 of a row, standard mode, in 0.01 dB. -/
def shiftRow : Nat → Int
  | 4 => 45
  | 6 => 25
  | 8 => 10
  | 10 => 0
  | 12 => -4
  | _ => -8

/-- Linear interpolation in N between the rows above and below, times 4. -/
def interp4 (row : Nat → Int) (n : Nat) : Int :=
  if n ≤ 12 then (if n % 2 = 0 then 4 * row n else 2 * (row (n - 1) + row (n + 1)))
  else 4 * row 12 + (row 16 - row 12) * ((n : Int) - 12)

/-- The pre-FEC BER threshold for N and the latency mode, in units of 2.5 × 10⁻⁶. -/
def berThreshold4 (n latmode : Nat) : Nat :=
  (interp4 (fun k => if latmode = 0 then (thresholdRow k).1 else (thresholdRow k).2) n).toNat

/-- The SNR shift for N and the latency mode, in 0.0025 dB: the short mode adds 0.35 dB. -/
def snrShift4 (n latmode : Nat) : Int := interp4 shiftRow n + (if latmode = 0 then 0 else 140)

/-- Staircase window and passes of a latency mode (R191). -/
def fecWindow (latmode : Nat) : Nat × Nat := if latmode = 0 then (4, 3) else (2, 1)

end Sys2Proof.Machine
end

