-- ==== Sys2Proof/Machine/Points.lean ====
section
/-! DEFINITION. Machine/Points.lean: the operating point a command asks for, its checks and its RESULT (R95, R96, R235). -/

namespace Sys2Proof.Machine

/-- SLOTS, ENTROPY, SYMRATE and RS_MODE of CMD_CARRIER_SET (Table 4-3). -/
def csProfile (e : CmdEntry) : Nat := u8 e 1
def csSlots (e : CmdEntry) : Nat := u8 e 2
def csMode1 (e : CmdEntry) : Bool := bitAt (u8 e 3) 0
def csEntropy (e : CmdEntry) : Nat := u16 e 4
def csRate (e : CmdEntry) : Nat := u32 e 6

/-- The layout with the ranges that PROFILE and RS_MODE select (R96). -/
def csLayout (e : CmdEntry) : List Fld :=
  [fldCarrier, fldU 1 1 0 2, (if csProfile e = 0 then fldU 2 1 16 128 else fldU 2 1 0 0), fldBits 3 1 1, fldU 4 2 128 448,
   (if csMode1 e then fldU 6 4 96000000 322000000 else fldU 6 4 0 0), fldRsv 10 2]

/-- The operating point a native target asks for: H given, or the smallest H with Rs ≤ SYMRATE (R96). -/
def targetPoint (slots : Nat) (mode1 : Bool) (entropy rate : Nat) : OpPoint :=
  ⟨0, slots, if mode1 then smallestH slots rate else entropy⟩

/-- A breach of R95, R105 or R129 by a point for carrier `n`, as DETAIL (R96, R511), with roll-off, pre-compensation and window given; offsets 12 and 14
name ENTROPY and SYMRATE. -/
def pointFaultAt (rolloff : Nat) (pre lo hi : Int) (n : Nat) (p : OpPoint) (mode1 : Bool) (entropy : Nat) : Option Nat :=
  if p.profile = 0 ∧ mode1 = true ∧ entropy < p.h then some 12
  else if p.profile = 0 ∧ (p.rateOk && p.entropyOk) = false then some (if mode1 then 14 else 12)
  else if p.profile = 0 ∧ p.rolloffOk rolloff = false then some (pTxRolloff + n)
  else if p.preOk pre = false then some (pTxCdPre + n)
  else if 20 < p.need lo hi then some (if hi.natAbs < lo.natAbs then pCdRangeLo + n else pCdRangeHi + n)
  else none

/-- The check of CMD_CARRIER_SET, at which the class O parameters come into force (R96, R120, R144). -/
def pointFault (env : Env) (n : Nat) (p : OpPoint) (mode1 : Bool) (entropy : Nat) : Option Nat :=
  pointFaultAt (env.par.nat (pTxRolloff + n)) (env.par.val (pTxCdPre + n)) (env.par.val (pCdRangeLo + n)) (env.par.val (pCdRangeHi + n)) n p mode1 entropy

/-- The check of a rate step, with the class O values in force (R120, R144, R235). -/
def Dev.stepFault (d : Dev) (env : Env) (n : Nat) (p : OpPoint) (mode1 : Bool) (entropy : Nat) : Option Nat :=
  pointFaultAt (d.tx n).rolloff (env.par.val (pTxCdPre + n)) (d.rx n).lo (d.rx n).hi n p mode1 entropy

/-- RESULT of CMD_CARRIER_SET (Table 4-4). For an interop profile the shaping fields have no stated value: they are drawn free (log entry 13). -/
def carrierSetResult (p : OpPoint) (d : Dev) : List Byte × Dev :=
  let rates := leBytes 4 p.symrate ++ leBytes 4 p.sampleRate
  if p.profile = 0 then
    let (counts, stuff) := shaping p.h
    (rates ++ leBytes 2 p.h ++ leBytes 1 p.osr ++ [0] ++ counts.flatMap (leBytes 2) ++ leBytes 2 stuff, d)
  else
    let (h, d1) := d.drawBytes 2
    let (shape, d2) := d1.drawBytes 18
    (rates ++ h ++ leBytes 1 p.osr ++ [0] ++ shape, d2)

end Sys2Proof.Machine
end

