-- ==== Sys2Proof/Machine/RateOps.lean ====
section
/-! DEFINITION. Machine/RateOps.lean: a rate step's interlocks and handshake as operations (R232 to R242). -/

namespace Sys2Proof.Machine

/-- The sections a carrier must have for a step: TX ON, receiver LOCKED and multiframe-aligned, native (R235). -/
def Dev.stepReady (d : Dev) (n : Nat) : Bool :=
  d.inService && decide ((d.tx n).state = .on) && d.locked n && decide ((d.frm n).mf = .aligned) && !(d.carrier n).heldDown
    && (d.tx n).op.any fun p => decide (p.profile = 0)

/-- R234: a bundle other than the elastic one holds a channel at or above the new n, or the elastic bundle would keep none. -/
def Dev.stepTraffic (d : Dev) (n slots : Nat) : Bool :=
  (d.bundlesOf n).any fun kv => if kv.2.elastic then decide (slots ≤ kv.2.first) else decide (slots < kv.2.first + kv.2.count)

/-- Channels that a step to `slots` adds to the buffered traffic (R30). -/
def Dev.stepAdds (d : Dev) (n slots : Nat) : Nat :=
  match d.elasticOf n with
  | some kv => if kv.2.buffered then (slots - kv.2.first) - kv.2.count else 0
  | none => 0

/-- Step 1 of R237: causes of Table 10-3 with the initiator's status; thermal throttling refuses a step that adds buffered rate (R89). -/
def Dev.stepCheck (d : Dev) (n : Nat) (p : OpPoint) : Option (Nat × Status) :=
  if d.stepTraffic n p.slots then some (3, .trafficPresent)
  else if d.pw.throttleHeld && decide (0 < d.stepAdds n p.slots) then some (8, .state)
  else if decide (0 < d.stepAdds n p.slots) && !fitsBandwidth d.stacksFor (d.bufferedChans + d.stepAdds n p.slots) d.protectedChans then
    some (5, .dramBw)
  else none

/-- Does the step need free space in the elastic bundle's own ring? (R237 step 4) -/
def Dev.stepNeedsRoom (d : Dev) (n : Nat) : Bool := (d.elasticOf n).any fun kv => kv.2.buffered

/-- An interlock has failed after its check: all that is reserved is released, and a responder answers NAK with the cause (R237, Table 10-3). -/
def Dev.stepRefused (d : Dev) (env : Env) (n cause : Nat) (st : Status) : Dev :=
  let r := d.rate n
  let d1 := d.stepFail env n cause st 0
  if r.responder then d1.sendRs env n ⟨opNak, r.seq, r.slots, r.h, cause⟩ else d1

/-- The ends of the handshake send REQ or ACK once the interlocks are met, the last of them the room in the elastic bundle's ring (R237, R239). -/
def Dev.stepSend (d : Dev) (env : Env) (n : Nat) : Dev :=
  let r := d.rate n
  if d.stepNeedsRoom n && !r.room then d.stepRefused env n 5 .dramBw
  else
    let d1 := d.updRate n fun r => { r with st := if r.responder then .ackSent else .reqSent }
    d1.sendRs env n ⟨if r.responder then opAck else opReq, r.seq, r.slots, r.h, 0⟩

/-- Has the step something to wait for before its last interlock: a throttle on a port that is UP (R237, R327)? -/
def Dev.stepThrottles (d : Dev) (n slots : Nat) : Bool :=
  (d.elasticOf n).any fun kv => decide (slots < kv.2.first + kv.2.count) && match kv.2.attach with
    | .stitch p => d.stitchUp p
    | _ => false

/-- Is the throttle complete? The queues of the channels given up are empty, and the others within their allowance (R237, R327). -/
def Dev.throttleMet (d : Dev) (n : Nat) : Bool :=
  (d.elasticOf n).all fun kv => match kv.2.attach with
    | .stitch p => !d.stitchUp p || kv.2.chans.all fun ch =>
        if d.surplus ch then ((d.stitch p).chan ch).queue.isEmpty else decide (((d.stitch p).chan ch).cells ≤ 13 + (d.stitch p).extraOf ch)
    | _ => true

/-- Step 3 of R237: a step down that shrinks an elastic bundle on a Stitch flow lowers its allowance and waits; a port that is not UP is done at once
(R327). -/
def Dev.stepThrottle (d : Dev) (env : Env) (n : Nat) : Dev :=
  match d.elasticOf n with
  | some kv =>
    if (d.rate n).slots < kv.2.first + kv.2.count then
      match kv.2.attach with
      | .stitch p =>
        let d1 := d.updRate n fun r => { r with throttled := true, throttling := d.stitchUp p }
        if d.stitchUp p then d1 else d1.stepSend env n
      | _ => d.stepSend env n
    else d.stepSend env n
  | none => d.stepSend env n

/-- Steps 2 to 4 of R237 begin: the shadow set for a new Rs is obtained and loads, else the throttle starts, else ring space is required; the shadow also
re-centres where a re-centring is deferred (R143). An error with
the cause where one fails; nothing is then reserved. In SPLIT it is the receive point that a new Rs is judged against (R243). -/
def Dev.stepPrepare (d : Dev) (env : Env) (n : Nat) (p : OpPoint) (responder : Bool) (seq : Nat) (roomOk : Bool) : Except (Nat × Status) Dev :=
  let old := (d.rx n).op
  let changes := decide (old.map OpPoint.symrate ≠ some p.symrate)
  let begin_ (d : Dev) : Dev := d.updRate n fun r =>
    { r with st := .prepare, responder := responder, seq := seq, slots := p.slots, h := p.h, oldSlots := pointSlots old, oldH := pointH old,
             txDone := false, rxDone := false, shadow := changes, loading := changes, throttling := false, throttled := false, room := roomOk,
             auto := false, start := env.now, missed := none }
  match d.stepCheck n p with
  | some c => .error c
  | none =>
    if changes then
      if (d.rx n).build.isSome then .error (6, .busy)
      else match d.allocShadow env n (p.need (d.rx n).lo (d.rx n).hi) with
        | none => .error (4, .noLast)
        | some d1 => .ok ((begin_ d1).startBuild env n ⟨.rateStep, false, if (d.rx n).recentreDeferred then (d.rx n).cd else (d.rx n).dL, false⟩)
    else if d.stepNeedsRoom n && !roomOk && !d.stepThrottles n p.slots then .error (5, .dramBw)
    else .ok ((begin_ d).stepThrottle env n)

/-- A rate step's shadow set has been loaded: the interlocks go on (R237). -/
def Dev.rateShadowReady (d : Dev) (env : Env) (n : Nat) : Dev :=
  if (d.rate n).st = .prepare ∧ (d.rate n).loading then (d.updRate n fun r => { r with loading := false }).stepThrottle env n else d

/-- This transmitter sends COMMIT: its switch is irrevocable (R239). -/
def Dev.stepCommit (d : Dev) (env : Env) (n : Nat) : Dev :=
  let r := d.rate n
  (d.updRate n fun r => { r with st := .committed }).sendRs env n ⟨opCommit, r.seq, r.slots, r.h, env.par.nat (pRsCountdown + n)⟩

/-- The step ends with RATE_STEP_DONE_Cn (R242). -/
def Dev.stepDone (d : Dev) (env : Env) (n : Nat) : Dev :=
  let dur := (env.now - (d.rate n).start) / us
  let d1 := (d.updRate n fun r => { r with st := .idle, lastCause := 0, lastDuration := dur, throttled := false, shadow := false, split := false }).count (ctrStepsDone n) 1
  d1.raise .rateStepDone n [(1, (d.rate n).slots), (2, (d.rate n).h), (4, dur)]

/-- The elastic bundle's last channel follows the top active slot (R233); channels that a Stitch flow gains receive their allowance (R327). -/
def Dev.growElastic (d : Dev) (n slots : Nat) : Dev :=
  match d.elasticOf n with
  | some kv =>
    let d1 := d.updBundle kv.1 fun b => { b with count := slots - b.first }
    match kv.2.attach with
    | .stitch p => if d.stitchUp p then d1.grantExtra p else d1
    | _ => d1
  | none => d

/-- A receiver that has missed a switch re-acquires (R243). -/
def Dev.reacquireMissed (d : Dev) (env : Env) (n : Nat) : Dev :=
  if (d.rate n).missed.isSome && d.locked n then (d.stopRx env n .down).startFast env n else d

end Sys2Proof.Machine
end

