-- ==== Sys2Proof/Machine/Recovery.lean ====
section
/-! DEFINITION. Machine/Recovery.lean: acquisition, lock, signal quality and the receive nonlinear table (R148 to R166). -/

namespace Sys2Proof.Machine

/-- CYCLE_SLIPS_Cn (Table 20-1). -/
def ctrSlips (n : Nat) : Nat := ckey 3 (8 + n)

/-! ### Quality figures (R158) -/

/-- Does the ratio num/den reach 10^(e/scale)? Compared exactly: num^scale ≥ 10^e × den^scale. -/
def ratioReaches (num den scale : Nat) (e : Int) : Bool :=
  if 0 ≤ e then decide (10 ^ e.toNat * den ^ scale ≤ num ^ scale) else decide (den ^ scale ≤ num ^ scale * 10 ^ (-e).toNat)

/-- The largest k in a span of 2^fuel from `lo` with 2·`unit`·k − `unit` ≤ value, found by halving: 10^((2·unit·k − unit + off)/scale) ≤ num/den. -/
def dbSearch (num den scale : Nat) (unit off : Int) : Nat → Int → Int
  | 0, lo => lo
  | fuel + 1, lo =>
    let mid := lo + (2 ^ fuel : Nat)
    if ratioReaches num den scale (2 * unit * mid - unit + off) then dbSearch num den scale unit off fuel mid
    else dbSearch num den scale unit off fuel lo

/-- 10·log₁₀(num/den) − ref dB in units of 0.01 dB, rounded to the nearest, halves away from zero (R158); `ref64` is the reference in units of
0.01 dB / 64, so that a margin is rounded once, on exact values. With no power in one of the two the spec states no value: zero is not claimed,
the caller draws it free. -/
def dbRound (num den : Nat) (ref64 : Nat) : Int :=
  if ref64 = 0 then
    let k := dbSearch num den 2000 1 0 16 (-32768)
    if k ≤ 0 ∧ ratioReaches den num 2000 (-(2 * k - 1)) = true then k - 1 else k
  else
    let off : Int := 2 * (ref64 : Int)
    let k := dbSearch num den 128000 64 off 16 (-32768)
    if k ≤ 0 ∧ ratioReaches den num 128000 (-(128 * k - 64 + off)) = true then k - 1 else k

/-- The four figures of a window: SNR, SNR_X, SNR_Y and MARGIN; the carrier SNR is the mean of the two linear values (R158, R159). -/
def qualitySnr (p : OpPoint) (q : QualityReport) : Int × Int × Int × Int :=
  let num := q.sigX * q.errY + q.sigY * q.errX
  let den := 2 * (q.errX * q.errY)
  (dbRound num den 0, dbRound q.sigX q.errX 0, dbRound q.sigY q.errY 0, dbRound num den p.requiredSnr64)

/-- Each 1 ms a LOCKED receiver measures its quality (R148, R158). Where a polarisation shows no signal or no error the logarithm has no stated
value, and the four figures are drawn free (log entry 14). The equaliser's figures are taken from its taps (R148). -/
def qualityWindow (n : Nat) (q : QualityReport) (d : Dev) : Dev :=
  match (d.rx n).op with
  | none => d
  | some p =>
    if d.locked n then
      let put (d : Dev) (f : Int × Int × Int × Int) : Dev := d.updRx n fun r =>
        { r with mimo := q.taps,
                 meas := ⟨f.1, f.2.1, f.2.2.1, f.2.2.2, Config.eqDgd q.taps, q.freq, q.clock, Config.eqResidual q.taps, Config.eqPdl q.taps,
                          Config.eqSopRate r.mimo q.taps, q.pilotBer⟩ }
      if q.sigX = 0 ∨ q.sigY = 0 ∨ q.errX = 0 ∨ q.errY = 0 then
        let (a, d1) := d.draw
        let (b, d2) := d1.draw
        let (x, d3) := d2.draw
        let (m, d4) := d3.draw
        put d4 (toSigned 16 a, toSigned 16 b, toSigned 16 x, toSigned 16 m)
      else put d (qualitySnr p q)
    else d

def execQualityWindow (c : Fin 4) (q : QualityReport) (s : State) : Host.Outcome State Fault Refusal :=
  .next (onDev s fun _ d => qualityWindow c q d)

/-! ### Acquisition (R160 to R164) -/

/-- Once every condition of R160 holds on a receiver that is down, a full acquisition begins. -/
def acqStart (env : Env) (n : Nat) (d : Dev) : Dev :=
  if (d.rx n).acq = .down ∨ (d.rx n).acq = .noSignal then d.startFull env n else d

def execAcqStart (c : Fin 4) (s : State) : Host.Outcome State Fault Refusal :=
  .next (onDev s fun env d => acqStart env c d)

/-- A candidate has been loaded: D_L takes it, the trim returns to zero, COARSE begins (R161). -/
def candidateLoadEnd (n : Nat) (d : Dev) : Dev :=
  match (d.rx n).build with
  | none => d
  | some b =>
    if (d.rx n).acq = .load ∧ b.why = .candidate ∧ d.runPlaced .builder n = true then
      (d.endRun .builder n).updRx n fun r => { r.setTrim 0 with acq := .coarse, dL := b.dL, build := none, stale := false, rebuild := false }
    else d

def execCandidateLoadEnd (c : Fin 4) (s : State) : Host.Outcome State Fault Refusal :=
  .next (onDev s fun _ d => candidateLoadEnd c d)

/-- The centroid of a spectrum as a fraction in MHz (R151). -/
def centroid (sp : Spectrum) : Int × Nat := ((sp.map fun p => p.1 * (p.2 : Int)).sum, (sp.map fun p => p.2).sum)

/-- COARSE ends: the centroid of the spectrum is loaded into the derotator; an estimate outside ±P_RX_FO_RANGE fails with NO_FREQ, an unsettled timing loop with
NO_TIMING (R151, R161). Where both hold NO_FREQ is the cause (log entry 192). A spectrum without power has no centroid: the estimate is a free value (log entry 158). -/
def coarseEnd (env : Env) (n : Nat) (sp : Spectrum) (timingOk : Bool) (d : Dev) : Dev :=
  if (d.rx n).acq = .coarse then
    let (free, d0) := if (centroid sp).2 = 0 then d.draw else (0, d)
    let (num, den) := if (centroid sp).2 = 0 then (toSigned 32 free, 1) else centroid sp
    if (d.rx n).foRange * den < num.natAbs then d0.acqFail env n .noFreq
    else
      let d1 := d0.updRx n fun r => { r with derot := roundHalfAway (1000 * num) den }
      if !timingOk then d1.acqFail env n .noTiming else d1.updRx n fun r => { r with acq := .preconverge }
  else d

def execCoarseEnd (c : Fin 4) (sp : Spectrum) (timingOk : Bool) (s : State) : Host.Outcome State Fault Refusal :=
  .next (onDev s fun env d => coarseEnd env c sp timingOk d)

/-- PRECONVERGE ends and PILOT_SYNC begins (R161). -/
def preconvergeEnd (n : Nat) (d : Dev) : Dev :=
  if (d.rx n).acq = .preconverge then d.updRx n fun r => { r with acq := .pilotSync } else d

def execPreconvergeEnd (c : Fin 4) (s : State) : Host.Outcome State Fault Refusal :=
  .next (onDev s fun _ d => preconvergeEnd c d)

/-! Pilot synchronisation (R152) -/

/-- The position of least variance, the first of equal ones (step 1; log entry 191). -/
def pilotPosition (r : PilotReport) : Nat :=
  (r.variance.zipIdx.foldl (fun b p => if p.1 < b.1 then p else b) (r.variance.headD 0, 0)).2

/-- A lane pair's sign bits turned by a quarter turn: I′ = −Q, Q′ = I. -/
def quarterTurn (iq : Bool × Bool) : Bool × Bool := (!iq.2, iq.1)
def quarterTurns : Nat → Bool × Bool → Bool × Bool
  | 0, iq => iq
  | k + 1, iq => quarterTurns k (quarterTurn iq)

/-- The 32 combinations: whether the polarisations are exchanged, and the quarter turns of X and of Y (step 2). -/
def pilotCombos : List (Bool × Nat × Nat) :=
  [false, true].flatMap fun sw => [0, 1, 2, 3].flatMap fun a => [0, 1, 2, 3].map fun b => (sw, a, b)

/-- A pilot's four sign bits, in the order XI, XQ, YI, YQ, under a combination. -/
def turnPilot (c : Bool × Nat × Nat) (bits : List Bool) : List Bool :=
  let p := (bits.getD 0 false, bits.getD 1 false)
  let q := (bits.getD 2 false, bits.getD 3 false)
  let x := quarterTurns c.2.1 (if c.1 then q else p)
  let y := quarterTurns c.2.2 (if c.1 then p else q)
  [x.1, x.2, y.1, y.2]

/-- The generator loaded from the bits of 15 pilots: as the register holds the last 15 bits it has yielded (log entry 151). -/
def genFrom (pilots : List (List Bool)) : BitVec 15 := BitVec.ofNat 15 (bitsNat (pilots.flatten.drop (pilots.flatten.length - 15)))

def bitErrors (a b : List Bool) : Nat := countTrue ((a.zip b).map fun p => p.1 != p.2)

/-- Errors of the predictions of the next pilots from generator `g`, whose last pilot was `last`: without a repeat so far, and with one somewhere so far, after
which every pilot matches the prediction delayed by one (step 3). The generator goes on at the end. -/
def predictErrors : List (List Bool) → BitVec 15 → List Bool → Nat → Option Nat → Nat × Option Nat × BitVec 15
  | [], g, _, e, r => (e, r, g)
  | p :: ps, g, last, e, r =>
    let (g', bits) := pilotBits g
    predictErrors ps g' bits (e + bitErrors p bits) (some (min e (r.getD e) + bitErrors p last))

/-- What one combination gives: errors among the 4,096 bits of 1,024 pilots, and the receiver's generator after them. -/
def comboResult (pilots : List (List Bool)) (c : Bool × Nat × Nat) : Nat × BitVec 15 :=
  let turned := pilots.map (turnPilot c)
  let head := turned.take 15
  let tail := (turned.drop 15).take 1024
  let (e, r, g) := predictErrors tail (genFrom head) (head.getLastD []) 0 none
  match r with
  | some k => if k < e then (k, pilotAfter (tail.length - 1) (genFrom head)) else (e, g)
  | none => (e, g)

/-- The combination accepted: of those with a pilot bit error ratio below 5 %, the one of fewest errors, the first of equal ones (step 4; log entry
191). Fewer than 15 + 1,024 pilots give none. -/
def pilotAccepted (r : PilotReport) : Option ((Bool × Nat × Nat) × BitVec 15) :=
  let pilots := r.bits.getD (pilotPosition r) []
  if pilots.length < 1039 then none
  else
    let ok := (pilotCombos.map fun c => (c, comboResult pilots c)).filter fun p => decide (p.2.1 * 100 < 5 * 4096)
    match ok with
    | [] => none
    | p :: ps => let b := ps.foldl (fun b p => if p.2.1 < b.2.1 then p else b) p; some (b.1, b.2.2)

/-- A rotation and order combination is accepted, corrected for, and TRACK begins; where none matches the state fails with NO_PILOT (R152, R161). An interop carrier
synchronises to its profile's own structure (R167), of which the spec tells no more: the event says that it has. -/
def pilotSyncEnd (env : Env) (n : Nat) (rep : PilotReport) (d : Dev) : Dev :=
  if (d.rx n).acq = .pilotSync then
    if (d.rx n).op.any fun p => decide (p.profile ≠ 0) then d.updRx n fun r => { r with acq := .track }
    else match pilotAccepted rep with
      | none => d.acqFail env n .noPilot
      | some (c, g) => d.updRx n fun r =>
          { r with acq := .track, pilotPos := pilotPosition rep, pilotSwap := c.1, pilotTurn := (c.2.1, c.2.2), pilotGen := g, repeatAt := none }
  else d

def execPilotSyncEnd (r : PilotReport) (s : State) : Host.Outcome State Fault Refusal :=
  .next (onDev s fun env d => pilotSyncEnd env r.car r d)

/-- The criteria of R162 in one pilot window. -/
def windowGood (w : PilotWindow) : Bool :=
  decide (w.errs * 100 < 5 * 4096) && decide (w.timing.natAbs ≤ 150000) && decide (w.resid.natAbs < 50) && decide (w.corr < 500)

/-- Have they held for 16 consecutive windows? -/
def lockHolds (r : LockReport) : Bool := decide (16 ≤ r.windows.length) && (r.windows.take 16).all windowGood

/-- The receive count in force once its cross-fade has ended: none in mode 0 (R156). -/
def Env.nlcTarget (env : Env) (n : Nat) : Int := if env.par.val (pRxNlcMode + n) = 0 then 0 else env.par.val (pRxNlcTriplets + n)

/-- The lock criteria have held: LOCKED, RX_LOCK_Cn with ACQ_TIME in µs; a running CMD_RX_REACQUIRE completes (R162, R165). A change of the triplets in use that a
loss of lock has cut off begins anew (R167, log entry 157). -/
def rxLock (env : Env) (n : Nat) (rep : LockReport) (d : Dev) : Dev :=
  if (d.rx n).acq = .track ∧ lockHolds rep = true then
    let t := (env.now - (d.rx n).attemptStart) / us
    let d1 := d.updRx n fun r => { r.setCount (env.nlcTarget n) with
      acq := .locked, fast := false, acqTime := t, acqCount := r.acqCount + 1, lockedSince := env.now, seedsSeen := [], acqFailAt := none, candidates := [] }
    ((d1.raise .rxLock n [(4, t)]).endReacq n .ok 0).rxLocked n
  else d

def execRxLock (r : LockReport) (s : State) : Host.Outcome State Fault Refusal :=
  .next (onDev s fun env d => rxLock env r.car r d)

/-- The cause with which each acquisition state fails when its time is over (Table 6-4; of COARSE's two, log entry 192). -/
def stateCause : Acq → Option FailCause
  | .search => some .noCd
  | .coarse => some .noTiming
  | .preconverge => some .noConverge
  | .pilotSync => some .noPilot
  | .track => some .noConverge
  | _ => none

/-- An acquisition state exceeds its maximum time and fails (R161, R164). -/
def acqTimeout (env : Env) (n : Nat) (d : Dev) : Dev :=
  match stateCause (d.rx n).acq with
  | none => d
  | some cause => (if (d.rx n).acq = .search then d.endRun .search n else d).acqFail env n cause

def execAcqStateTimeout (c : Fin 4) (s : State) : Host.Outcome State Fault Refusal :=
  .next (onDev s fun env d => acqTimeout env c d)

/-- P_RX_ACQ_RETRY is over: a new full acquisition (R164). One that waits for a cluster resumes with SYS_RUN_PLACE instead. -/
def acqWaitEnd (env : Env) (n : Nat) (d : Dev) : Dev :=
  if (d.rx n).acq = .wait ∧ d.runWaiting .search n = false then d.startFull env n else d

def execAcqWaitEnd (c : Fin 4) (s : State) : Host.Outcome State Fault Refusal :=
  .next (onDev s fun env d => acqWaitEnd env c d)

/-- The payload code of a loss-of-lock cause (Table 21-5). -/
def lolCode : LolCause → Nat
  | .pilotBer => 0
  | .timing => 1
  | .frequency => 2
  | .correlation => 3

/-- Is `p` met in the four newest pilot windows? -/
def inFour (ws : List PilotWindow) (p : PilotWindow → Bool) : Bool := decide (4 ≤ ws.length) && (ws.take 4).all p

/-- The timing integrator, in 0.001 ppm, has reached ±200 ppm (R150, R163). -/
def timingLost (clock : Int) : Bool := decide (200000 ≤ clock.natAbs)

/-- The criterion of R163 that the windows meet, in the order of its list: more than 15 % errors in four, the integrator at ±200 ppm, the derotator at ±5 GHz, a
correlation above 0.9 in four. Of several the first is the cause (log entry 192). -/
def lolCause (ws : List PilotWindow) : Option LolCause :=
  if inFour ws fun w => decide (15 * 4096 < w.errs * 100) then some .pilotBer
  else if (ws.take 1).any fun w => timingLost w.timing then some .timing
  else if (ws.take 1).any fun w => decide (5000 ≤ w.derot.natAbs) then some .frequency
  else if inFour ws fun w => decide (900 < w.corr) then some .correlation
  else none

/-- Loss of lock (R163): RX_LOL_Cn, the symbols invalid, fast re-acquisition; a nonlinear cross-fade is abandoned, and a training run ends: training resumes after
1 s LOCKED (R167). A table that waits is dropped too (log entry 157). -/
def Dev.loseLock (d : Dev) (env : Env) (n : Nat) (why : LolCause) : Dev :=
  let d1 := ((d.raise .rxLol n [(1, lolCode why)]).stopRx env n .down).endRun .trainer n
  (d1.updRx n fun r => { r with nlc := { r.nlc with fading := none, waiting := none }, nlcCount := { r.nlcCount with fading := none, waiting := none },
                                nlcTraining := false }).startFast env n

/-- The receiver loses its lock where the windows meet a criterion. -/
def lossOfLock (env : Env) (n : Nat) (ws : List PilotWindow) (d : Dev) : Dev :=
  match lolCause ws with
  | some why => if d.locked n then d.loseLock env n why else d
  | none => d

def execLossOfLock (c : Fin 4) (ws : List PilotWindow) (s : State) : Host.Outcome State Fault Refusal :=
  .next (onDev s fun env d => lossOfLock env c ws d)

/-! ### Pilot seed and cycle slips (R152, R154) -/

/-- The check of the far-end seed: the first two repeats after LOCKED, and two consecutive matches to clear (R152). `seen` has the newest first. -/
def seedCheck (want : Nat) (seen : List Nat) (mm : Bool) : Bool :=
  match seen with
  | [a, b] => if a ≠ want ∧ b ≠ want then true else if a = want ∧ b = want then false else mm
  | a :: b :: _ => if a = want ∧ b = want then false else mm
  | _ => mm

/-- Is a repeat expected now? One every 32,768 pilots from the last one met, which lies in this ns or the one beside it; the first one at any time (R152; log entry
177). -/
def Rx.repeatDue (r : Rx) (now : Nat) : Bool :=
  match r.repeatAt, r.op with
  | some t, some p =>
    let most := p.pilotsIn (now - t + 1) / 32768
    decide (0 < most ∧ p.pilotsIn (now - t - 1) ≤ 32768 * most)
  | _, _ => true

/-- A repeat of the far-end pilot seed, where one is expected (R152): the repeated state is the seed, and the receiver's own generator holds there for one pilot. The
last three seeds since LOCKED are kept. -/
def seedRepeat (env : Env) (n seed : Nat) (d : Dev) : Dev :=
  let r := d.rx n
  if (r.acq = .pilotSync ∨ r.acq = .track ∨ r.acq = .locked) ∧ r.repeatDue env.now = true then
    let seen := if r.acq = .locked then (seed :: r.seedsSeen).take 3 else []
    let mm := if r.pilotSeed = 0 then r.seedMm else seedCheck r.pilotSeed seen r.seedMm
    let d1 := d.updRx n fun r => { r with seedRx := seed, seedsSeen := seen, seedMm := mm, pilotGen := BitVec.ofNat 15 seed, repeatAt := some env.now }
    d1.raiseIf (decide (r.pilotSeed ≠ 0) && decide (seen.length = 2) && seen.all (fun x => decide (x ≠ r.pilotSeed)))
      .rxSeedMismatch n [(2, seed), (2, r.pilotSeed)]
  else d

def execPilotSeedRepeat (c : Fin 4) (seed : BitVec 15) (s : State) : Host.Outcome State Fault Refusal :=
  .next (onDev s fun env d => seedRepeat env c seed.toNat d)

/-- Do the two phases differ by π/4 or more? -/
def phaseSlips (r : SlipReport) : Bool := decide (8192 ≤ (r.directed - r.pilot).toInt.natAbs)

/-- Slips are counted (R154); each is a pulse of a source of the programmable counters (Table 20-2). -/
def Dev.countSlips (d : Dev) (n k : Nat) : Dev :=
  (List.replicate k ()).foldl (fun d _ => d.emit (.pulse 6 n)) ((d.count (ctrSlips n) k).updRx n fun r => { r with slips := r.slips + k })

/-- At a pilot the decision-directed phase is compared with the pilot phase: from π/4 on a slip is counted, and the estimate is reset to the pilot phase (R154). -/
def cycleSlip (n : Nat) (rep : SlipReport) (d : Dev) : Dev :=
  if d.locked n then
    if phaseSlips rep then (d.countSlips n 1).updRx n fun r => { r with ddPhase := rep.pilot } else d.updRx n fun r => { r with ddPhase := rep.directed }
  else d

def execCycleSlip (r : SlipReport) (s : State) : Host.Outcome State Fault Refusal :=
  .next (onDev s fun _ d => cycleSlip r.car r d)

/-- A 1 s window of slips ends (R154): `more` of its slips have not been counted one by one. -/
def slipWindow (env : Env) (n more : Nat) (d : Dev) : Dev :=
  let d1 := if d.locked n then d.countSlips n more else d
  let slips := (d1.rx n).slips
  (d1.updRx n fun r => { r with slips := 0 }).raiseIf (decide (env.par.nat (pRxSlipAlarm + n) < slips)) .cycleSlip n [(4, slips)]

def execCycleSlipWindow (c : Fin 4) (slips : Nat) (s : State) : Host.Outcome State Fault Refusal :=
  .next (onDev s fun env d => slipWindow env c slips d)

/-! ### Nonlinear compensation (R155 to R157) -/

/-- A training run is due in mode 1 on a native carrier that has been LOCKED for 1 s, then every P_RX_NLC_PERIOD seconds (R156, R167). -/
def nlcTrainStart (env : Env) (n : Nat) (d : Dev) : Dev :=
  if env.par.val (pRxNlcMode + n) = 1 ∧ d.locked n = true ∧ (d.rx n).nlcTraining = false ∧ (d.rx n).op.any (fun p => decide (p.profile = 0)) ∧
      (d.rx n).lockedSince + sec ≤ env.now ∧ (d.rx n).trainFrom ≤ env.now then
    (d.updRx n fun r => { r with nlcTraining := true, trainFrom := env.now + env.par.nat (pRxNlcPeriod + n) * sec }).startRun env .trainer n
  else d

def execNlcTrainStart (c : Fin 4) (s : State) : Host.Outcome State Fault Refusal :=
  .next (onDev s fun env d => nlcTrainStart env c d)

/-- The cluster a run is placed on. -/
def Dev.runCluster (d : Dev) (p : SysProg) (c : Nat) : Option Nat :=
  match d.runs.find? fun r => decide (r.prog = p) && decide (r.carrier = c) with
  | some r => r.cluster
  | none => none

/-- |C|² of a triplet. -/
def tripletPower (v : Nat) : Nat := (tripletRe v).natAbs ^ 2 + (tripletIm v).natAbs ^ 2

/-- The table of a fit: of the pairs with |m| and |n| at most 32, the `count` triplets of largest |C|, the first of equal ones first (R156 steps 2 and 3;
log entry 191). -/
def fitTable (fit : List (BitVec 48)) (count : Nat) : Tbl Nat :=
  let ok := (fit.map BitVec.toNat).filter fun v => decide ((tripletM v).natAbs ≤ 32 ∧ (tripletN v).natAbs ≤ 32)
  (((ok.mergeSort fun a b => decide (tripletPower b ≤ tripletPower a)).take count).zipIdx).map fun p => (p.2, p.1)

/-- A training run ends: the P_RX_NLC_TRIPLETS triplets of largest |C| are committed only for a gain of at least 0.05 dB (R156). SNRs in 0.01 dB. -/
def nlcTrainEnd (env : Env) (n : Nat) (fit : List (BitVec 48)) (snrNew snrOld : Int) (d : Dev) : Dev :=
  if (d.rx n).nlcTraining ∧ d.runPlaced .trainer n = true then
    let cluster := d.runCluster .trainer n
    let d1 := (d.endRun .trainer n).updRx n fun r => { r with nlcTraining := false }
    if snrOld + 5 ≤ snrNew ∧ env.par.val (pRxNlcMode + n) = 1 then
      let (r, displaced) := (d1.rx n).commitNlc (fitTable fit (env.par.nat (pRxNlcTriplets + n))) cluster
      (d1.updRx n fun _ => r).countSuperseded displaced
    else d1
  else d

def execNlcTrainEnd (c : Fin 4) (fit : List (BitVec 48)) (snrNew snrOld : Int) (s : State) : Host.Outcome State Fault Refusal :=
  .next (onDev s fun env d => nlcTrainEnd env c fit snrNew snrOld d)

/-- A receive cross-fade ends: NLC_APPLIED_Cn, and a waiting table begins its own (R155, R156). -/
def nlcFadeEnd (n : Nat) (d : Dev) : Dev :=
  let r := d.rx n
  if r.nlc.fading.isSome ∨ r.nlcCount.fading.isSome then
    let k := r.nlcUpdates + b2n r.nlc.fading.isSome
    (d.updRx n fun r => { r.endNlcFade with nlcUpdates := k }).raise .nlcApplied n [(4, k)]
  else d

def execNlcXfadeEnd (c : Fin 4) (s : State) : Host.Outcome State Fault Refusal :=
  .next (onDev s fun _ d => nlcFadeEnd c d)

/-- Header and entry faults of CMD_RX_NLC_LOAD (R157, Table 4-5). -/
def nlcLoadFault (e : CmdEntry) : Option Nat :=
  if e.plen.toNat < 4 then some 6
  else if 30 < u8 e 3 then some 11
  else if e.plen.toNat ≠ 8 + 8 * u8 e 3 then some 6
  else match layoutFault (payload e) [fldCarrier, fldU 1 1 0 0, fldU 2 1 0 95, fldAny 3 1, fldBits 4 4 1] with
    | some k => some k
    | none =>
      if 96 < u8 e 2 + u8 e 3 then some 11
      else layoutFault (payload e) ((List.range (u8 e 3)).flatMap fun k =>
        [fldI (8 + 8 * k) 1 (-32) 32, fldI (9 + 8 * k) 1 (-32) 32, fldAny (10 + 8 * k) 4, fldRsv (14 + 8 * k) 2])

/-- CMD_RX_NLC_LOAD (R157): stages triplets and, with COMMIT, starts or queues the cross-fade (R155, R26). -/
def nlcLoad (env : Env) (e : CmdEntry) (d : Dev) : CmdRes :=
  match nlcLoadFault e with
  | some k => .refuse .badParam k
  | none =>
    let n := u8 e 0
    if env.par.val (pRxNlcMode + n) ≠ 2 then .refuse .state 0
    else if !d.domOn (domCarrier n) then .refuse .domainOff 0
    else
      let old := d.rx n
      let staged := (List.range (u8 e 3)).foldl (fun t k => t.set (u8 e 2 + k) (fieldAt (payload e) (8 + 8 * k) 8)) old.nlc.staged
      let r : Rx := { old with nlc := { old.nlc with staged := staged } }
      let (r', displaced) := if bitAt (u8 e 4) 0 then r.commitNlc staged none else (r, none)
      .done [] ((d.updRx n fun _ => r').countSuperseded displaced)

def formRxNlcLoad : CmdForm := form 0x0314 .own []

def execCmdRxNlcLoad (e : CmdEntry) (s : State) : Host.Outcome State Fault Refusal :=
  .next (runCmd formRxNlcLoad e (fun env d => nlcLoad env e d) s)

/-! ### Commands (R165, R166) -/

/-- NLC_STATE (R166): 0 off, 1 training or waiting, 2 applied, 3 cross-fading, be it a table, a count or the way to bypass. An interop carrier has none (R167). A
run in progress reads 1 although a table is applied (log entry 154). -/
def nlcState (env : Env) (n : Nat) (r : Rx) : Nat :=
  if r.op.any fun p => decide (p.profile ≠ 0) then 0
  else if r.nlc.fading.isSome || r.nlcCount.fading.isSome then 3
  else if env.par.val (pRxNlcMode + n) = 0 then 0
  else if r.nlcTraining then 1
  else if r.nlc.active.isEmpty then (if env.par.val (pRxNlcMode + n) = 1 then 1 else 0) else 2

/-- RESULT of CMD_RX_STATUS (Table 6-5). -/
def rxStatus (env : Env) (n : Nat) (d : Dev) : List Byte :=
  let r := d.rx n
  let m := r.meas
  resultBits [(4, r.stateCode), (4, r.failCause.code), (2, nlcState env n r), (6, 0), (16, ofSigned 16 m.snr), (16, ofSigned 16 m.snrX),
    (16, ofSigned 16 m.snrY), (16, ofSigned 16 m.margin), (16, m.dgd), (32, ofSigned 32 m.freq), (32, ofSigned 32 m.clock),
    (32, ofSigned 32 m.resid), (16, m.pdl), (16, m.sop), (16, min 0xFFFF m.pilotBer), (32, r.acqTime), (48, d.counter (ctrSlips n)),
    (32, r.acqCount), (32, r.nlcUpdates), (15, r.seedRx), (1, b2n r.seedMm)]

def formRxStatus : CmdForm := form 0x0312 (.fixed 1) [fldCarrier]

def execCmdRxStatus (e : CmdEntry) (s : State) : Host.Outcome State Fault Refusal :=
  .next (runCmd formRxStatus e (fun env d => d.ifPowered (u8 e 0) (.done (rxStatus env (u8 e 0) d) d)) s)

/-- The bound of a full acquisition (R161, R139): the search over N points, and three tries of 6.0 ms + 0.25 ms × H; search and loads double at
half clock. -/
def fullBound (d : Dev) (n : Nat) : Nat :=
  let r := d.rx n
  let points := r.points
  let f := if d.halfClock then 2 else 1
  f * (2 * ms + 60 * us * (points + 63)) + 3 * (5500 * us + f * (500 * us + 250 * us * d.needOf n))

/-- CMD_RX_REACQUIRE (R165, R483): restarts an attempt from its first state, fast (MODE 0) or full (MODE 1); it completes at lock or failure. While the set is
being reloaded in place, MODE 0 goes on with that reload, and MODE 1 ends the reload of a re-centring. A fast attempt that has to be a full one has its
bound (log entry 155). -/
def reacquire (env : Env) (e : CmdEntry) (d : Dev) : CmdRes :=
  let n := u8 e 0
  let full := bitAt (u8 e 1) 0
  if !d.inService || (d.carrier n).heldDown then .refuse .state 0
  else if !d.domOn (domCarrier n) then .refuse .domainOff 0
  else if (d.rx n).op.isNone then .refuse .sequence 0
  else if d.rateBusy n || (d.rx n).build.any (fun b => !b.inPlace) then .refuse .busy 0
  else if d.locked n && d.anyBundleEnabled n && !force e then .refuse .trafficPresent 0
  else
    let goal : Acq := if (d.rx n).los then .noSignal else .down
    let bound := if full || (d.rx n).stale then fullBound d n else 5500 * us
    if (d.rx n).build.any (fun b => b.why.isReach || (!full && decide (b.why = .recentre))) || (!full && (d.rx n).restoring) then .start bound (d.updRx n fun r => { r with reacq := true })
    else
      let d1 := (((d.endRestore n).endRun .builder n).stopRx env n goal).updRx n fun r => { r with reacq := true, build := none }
      .start bound (if full then d1.startFull env n else d1.startFast env n)

def formRxReacquire : CmdForm := formF 0x0313 (.fixed 2) [fldCarrier, fldBits 1 1 1]

def execCmdRxReacquire (e : CmdEntry) (s : State) : Host.Outcome State Fault Refusal :=
  .next (runCmd formRxReacquire e (fun env d => reacquire env e d) s)

end Sys2Proof.Machine
end

