-- ==== Sys2Proof/Machine/Dispersion.lean ====
section
/-! DEFINITION. Machine/Dispersion.lean: operating points, receive windows, loss of signal, the loading and switching of lasts, the CD search and the trim
(R96 to R98, R125, R126, R133 to R142). -/

namespace Sys2Proof.Machine

/-- The lasts for a new operating point: a locked receiver whose rate or need changes needs a shadow set beside its active one; any other set is
resized in place (R133, R136). `none` where they cannot be had. -/
def lastsForPoint (env : Env) (n h : Nat) (rateChanges : Bool) (d : Dev) : Option Dev :=
  if d.locked n then
    if rateChanges = false ∧ d.setSize n = h then some d
    else (d.allocShadow env n h).map fun d1 => d1.switchSets n
  else d.allocActive env n h

/-- Class O receive parameters come into force (R144, R168). -/
def Rx.capture (r : Rx) (par : Params) (n : Nat) : Rx :=
  { r with lo := par.val (pCdRangeLo + n), hi := par.val (pCdRangeHi + n), step := par.nat (pCdSearchStep + n),
           taps := par.nat (pRxMimoTaps + n), foRange := par.nat (pRxFoRange + n), pilotSeed := par.nat (pRxPilotSeed + n),
           pilotGain := par.nat (pRxPilotGain + n) }

/-- Another carrier that runs an interop profile (R98, Table 0-1). -/
def Dev.otherInterop (d : Dev) (n : Nat) : Option Nat :=
  [0, 1, 2, 3].find? fun m => decide (m ≠ n) && (d.tx m).op.any fun p => decide (p.profile ≠ 0)

/-- CMD_CARRIER_SET (R29, R96 to R98, R160, R226; log entry 179): sets both directions of a DARK carrier and obtains its lasts; the lock ends, and the next attempt is
full. -/
def carrierSet (env : Env) (e : CmdEntry) (d : Dev) : CmdRes :=
  let n := u8 e 0
  let p : OpPoint := if csProfile e = 0 then targetPoint (csSlots e) (csMode1 e) (csEntropy e) (csRate e)
    else ⟨csProfile e, if csProfile e = 1 then 16 else 32, csEntropy e⟩
  match layoutFault (payload e) (csLayout e) with
  | some k => .refuse .badParam k
  | none => match pointFault env n p (csMode1 e) (csEntropy e) with
  | some k => .refuse .badParam k
  | none =>
    if (d.tx n).state ≠ .dark then .refuse .state 0
    else if !d.inService then .refuse .state 0
    else if p.profile ≠ 0 ∧ (d.otherInterop n).isSome then .refuse .state ((d.otherInterop n).getD 0)
    else if !d.domOn (domCarrier n) then .refuse .domainOff 0
    else if d.bundleAbove n p.slots then .refuse .trafficPresent 0
    else if decide (p.profile ≠ 0) && d.interopBroken n p.slots then badField 1
    else if decide (0 < d.stepAdds n p.slots) && !fitsBandwidth d.stacksFor (d.bufferedChans + d.stepAdds n p.slots) d.protectedChans then
      .refuse .dramBw 0
    else
      let h := p.need (env.par.val (pCdRangeLo + n)) (env.par.val (pCdRangeHi + n))
      let changes := decide ((d.rx n).op.map OpPoint.symrate ≠ some p.symrate)
      match lastsForPoint env n h changes ((if (d.rx n).build.isSome then (d.endRestore n).dropBuild n else d.endRestore n)) with
      | none => .refuse .noLast 0
      | some d1 =>
        let d2 := (d1.stopRx env n .down).restored n h
        let d3 := d2.updCarrier n fun c => { c with
          tx := { c.tx.capture env.par n with op := some p },
          rx := { c.rx.capture env.par n with op := some p, build := none, preempted := false, short := false, stale := true, acqFailAt := none,
                                              recentreDeferred := false, trimLimitRaised := false } }
        let d3 := if p.profile ≠ 0 then d3.frameGone n else d3
        let (result, d4) := carrierSetResult p ((d3.growElastic n p.slots).carrierConfigured env n (fsChanges (d.rx n).op p || fsChanges (d.tx n).op p))
        .done result d4

def formCarrierSet : CmdForm := form 0x0301 (.fixed 12) []

def execCmdCarrierSet (e : CmdEntry) (s : State) : Host.Outcome State Fault Refusal :=
  .next (runCmd formCarrierSet e (fun env d => carrierSet env e d) s)

/-! ### CMD_CD_REACH (R141) -/

/-- More lasts for a load in place, from FREE ones under the policy; none are freed before the load has ended (R141). Under static policy the quota
governs every change of size (R132). -/
def growInPlace (env : Env) (n h : Nat) (d : Dev) : Option Dev :=
  let extra := h - d.setSize n
  if h = d.setSize n then some d
  else if !env.grants n h then none
  else Dev.withVictims (fun d => if extra ≤ d.freeLasts.length then some (d.setLasts (d.freeLasts.take extra) (.shadow n)) else none)
    env n (if env.policy = 2 then d.victims env n else []) d

/-- DETAIL of a need above 20 lasts, or of a window with RANGE_HI below RANGE_LO: RANGE_LO when its magnitude is the greater, else RANGE_HI (R141). -/
def reachNeedDetail (lo hi : Int) : Nat := if hi.natAbs < lo.natAbs then 12 else 16

/-- CMD_CD_REACH (R141). A second one while the first one's load in place runs is E_BUSY too (log entry 155). -/
def cdReach (env : Env) (e : CmdEntry) (d : Dev) : CmdRes :=
  let n := u8 e 0
  let lo := i32 e 4
  let hi := i32 e 8
  let r := d.rx n
  if hi < lo then .refuse .badParam (reachNeedDetail lo hi)
  else if !d.inService then .refuse .state 0
  else if !d.domOn (domCarrier n) then .refuse .domainOff 0
  else match r.op with
    | none => .refuse .sequence 0
    | some p =>
      if 20 < p.need lo hi then .refuse .badParam (reachNeedDetail lo hi)
      else if d.rateBusy n || r.build.any (fun b => !b.inPlace || b.why.isReach) then .refuse .busy 0
      else
        let outside := decide (r.cd < lo ∨ hi < r.cd)
        let h := p.need lo hi
        let why := BuildWhy.reach lo hi
        if d.locked n && outside && !force e then .refuse .trafficPresent 0
        else if p.profile ≠ 0 then .done [] (d.setWindow n lo hi)
        else if d.locked n && !outside then
          if h = d.setSize n then .done [] (d.setWindow n lo hi)
          else match d.allocShadow env n h with
            | none => .refuse .noLast 0
            | some d1 => .start (50 * ms) (d1.startBuild env n ⟨why, false, r.dL, false⟩)
        else match growInPlace env n h d with
          | none => .refuse .noLast 0
          | some d1 =>
            let d2 := (((d1.endRestore n).endRun .builder n).stopRx env n .down).updRx n fun r => { r with build := none, stale := r.stale || r.build.isSome }
            if h = d.setSize n then .done [] (((d2.setWindow n lo hi).restored n h).startFull env n)
            else .start (50 * ms) (d2.startBuild env n ⟨why, true, r.dL, false⟩)

def formCdReach : CmdForm :=
  formF 0x0310 (.fixed 12) [fldCarrier, fldRsv 1 3, fldI 4 4 (-200000) 200000, fldI 8 4 (-200000) 200000]

def execCmdCdReach (e : CmdEntry) (s : State) : Host.Outcome State Fault Refusal :=
  .next (runCmd formCdReach e (fun env d => cdReach env e d) s)

/-! ### Status of the pool -/

/-- The OWNER nibble of a last (Table 5-8). -/
def LastState.owner : LastState → Nat
  | .free => 0
  | .active n => 8 + n % 4
  | .shadow n => 12 + n % 4
  | .lent _ m => 12 + m % 4

/-- The LENDER nibble of a last (Table 5-8). -/
def LastState.lender : LastState → Nat
  | .lent l _ => 8 + l % 4
  | _ => 0

/-- RESULT of CMD_LAST_STATUS (Table 5-8). -/
def lastStatus (env : Env) (d : Dev) : List Byte :=
  resultBits ((List.range 32).map (fun i => (4, (d.last i).owner)) ++ (List.range 32).map (fun i => (4, (d.last i).lender))
    ++ [0, 1, 2, 3].map (fun n => (8, d.needOf n)) ++ [(8, d.freeLasts.length), (2, env.policy)])

def formLastStatus : CmdForm := form 0x0311 (.fixed 0) []

def execCmdLastStatus (e : CmdEntry) (s : State) : Host.Outcome State Fault Refusal :=
  .next (runCmd formLastStatus e (fun env d => .done (lastStatus env d) d) s)

/-! ### Loss of signal and clipping (R125, R126) -/

/-- Counter RX_CLIP_SAMPLES_Cn. -/
def ctrRxClip (n : Nat) : Nat := ckey 3 (4 + n)

/-- The threshold of R126 in 0.01 per cent of full scale. -/
def Env.losThr (env : Env) (n : Nat) : Nat := 100 * env.par.nat (pRxLosThr + n)

/-- Is a level at least 3 dB above the threshold? Amplitudes: 20·log₁₀(level/threshold) ≥ 3, compared exactly. -/
def threeDbAbove (level thr : Nat) : Bool := decide (thr ^ 20 * 10 ^ 3 ≤ level ^ 20)

/-- Loss of signal is declared: the attempt or the lock ends, the lasts and the CD estimate are held (R126, R160, R167); `rms` is the greatest
level of any lane over ten measurements. -/
def losDeclare (env : Env) (n rms : Nat) (d : Dev) : Dev :=
  if (d.rx n).los || !d.domOn (domCarrier n) || decide (env.losThr n ≤ rms) then d
  else ((((d.raise .rxLos n []).stopRx env n (if (d.rx n).op.isSome then .noSignal else .down)).updRx n fun r => { r with los := true }).updCal n fun c => { c with losSeen := true }).breezeRxLost n

def execRxLosDeclare (r : LevelReport) (s : State) : Host.Outcome State Fault Refusal :=
  .next (onDev s fun env d => losDeclare env r.car r.rms d)

/-- Loss of signal clears once the smallest level of any lane, `rms`, has been 3 dB above the threshold for 1 ms: fast re-acquisition is the first step (R126,
R164, R167). -/
def losClear (env : Env) (n rms : Nat) (d : Dev) : Dev :=
  if (d.rx n).los && threeDbAbove rms (env.losThr n) then
    let d1 := (d.updRx n fun r => { r with los := false, acq := .down }).raise .rxLosClr n []
    if (d.rx n).rebuild then d1.startFull env n else d1.goFast env n
  else d

def execRxLosClear (r : LevelReport) (s : State) : Host.Outcome State Fault Refusal :=
  .next (onDev s fun env d => losClear env r.car r.rms d)

/-- A 1 s clip window of the ADCs ends (R125). -/
def adcClipWindow (env : Env) (n clipped samples : Nat) (d : Dev) : Dev :=
  let frac := if samples = 0 then 0 else clipped * 1000000 / samples
  ((d.count (ctrRxClip n) clipped).updRx n fun r => { r with clipPpm := frac }).raiseIf
    (decide (samples * env.par.nat (pRxAdcClipAlarm + n) < clipped * 1000000)) .adcClip n [(4, frac)]

def execAdcClipWindow (c : Fin 4) (clipped samples : Nat) (s : State) : Host.Outcome State Fault Refusal :=
  .next (onDev s fun env d => adcClipWindow env c clipped samples d)

/-! ### Loading and switching (R133, R136, R137) -/

/-- A last builder has loaded a set. A last reloaded in place beside a shadow build comes first, and the receiver re-acquires (R271). A shadow for a locked receiver waits for a frame boundary; else the switch is made at once, in place, and the
attempt in progress restarts. A load in place ends a resize (R141) or a re-centring with a hit (R136). -/
def loadEnd (env : Env) (n : Nat) (d : Dev) : Dev :=
  if (d.rx n).restoring && d.runPlaced .builder n then ((d.endRun .builder n).updRx n fun r => { r with restoring := false }).startFast env n
  else match (d.rx n).build with
  | none => d
  | some b =>
    if b.why = .candidate ∨ d.runPlaced .builder n = false then d
    else
      let d1 := d.endRun .builder n
      if b.inPlace then
        match b.why with
        | .reach lo hi =>
          let h := match (d.rx n).op with
            | some p => p.need lo hi
            | none => d.setSize n
          ((((d1.settleInPlace n h).afterSwitch n b).restored n h).updRx n fun r => { r with stale := true }).startFull env n
        | _ => (d1.afterSwitch n b).startFast env n
      else if d.locked n then
        let d2 := d1.updRx n fun r => { r with build := some { b with loaded := true } }
        if b.why = .rateStep then d2.rateShadowReady env n else d2
      else
        let d2 := (d1.switchSets n).afterSwitch n b
        if (d.rx n).fast then d2.startFast env n else d2.startFull env n

def execLastLoadEnd (c : Fin 4) (s : State) : Host.Outcome State Fault Refusal :=
  .next (onDev s fun env d => loadEnd env c d)

/-- At a received frame boundary the CD stage switches to a loaded shadow; a rate step's shadow switches with the step instead (R133, R241). -/
def shadowSwitch (n : Nat) (d : Dev) : Dev :=
  match (d.rx n).build with
  | none => d
  | some b => if b.loaded ∧ d.locked n = true ∧ b.why ≠ .rateStep then (d.switchSets n).afterSwitch n b else d

def execShadowSwitch (c : Fin 4) (s : State) : Host.Outcome State Fault Refusal :=
  .next (onDev s fun _ d => shadowSwitch c d)

/-- A short or pre-empted carrier obtains its need (R135, R137). A short one may pre-empt under priority policy. -/
def reallocate (env : Env) (n : Nat) (d : Dev) : Dev :=
  let r := d.rx n
  if (r.short || r.preempted) && d.domOn (domCarrier n) && r.build.isNone then
    let h := d.needOf n
    match (if r.short then d.allocActive env n h else d.activeFrom env n h) with
    | none => d
    | some d1 => ((d1.updRx n fun r => { r with stale := true }).restored n h).startFull env n
  else d

def execLastReallocate (c : Fin 4) (s : State) : Host.Outcome State Fault Refusal :=
  .next (onDev s fun env d => reallocate env c d)

/-! ### CD search and trim (R138, R140) -/

/-- Is the strength at point `i` a local maximum that exceeds the noise-floor threshold by 6 dB? Strengths are powers (log entry 156); the comparison is exact. -/
def searchPeak (f : SearchReport) (n i : Nat) : Bool :=
  let s (k : Nat) : Nat := f.coarse.getD k 0
  (decide (i = 0) || decide (s (i - 1) < s i)) && (decide (n ≤ i + 1) || decide (s (i + 1) ≤ s i)) && decide (f.floor ^ 10 * 10 ^ 6 < s i ^ 10)

/-- The three strongest maxima of `n` coarse points, strongest first; of equal ones the lower first. -/
def searchPeaks (f : SearchReport) (n : Nat) : List Nat :=
  (((List.range n).filter (searchPeak f n)).mergeSort fun a b => decide (f.coarse.getD b 0 ≤ f.coarse.getD a 0)).take 3

/-- The vertex of the parabola fitted by least squares to strengths at −10 to 10 tenths of a step, as a fraction of a tenth; the strongest point where the
fit has no maximum. It is held to the span of the points (R138 step 3). -/
def parabolaTop (ys : List Nat) : Int × Nat :=
  let pts := ys.zipIdx.map fun p => ((p.2 : Int) - 10, (p.1 : Int))
  let s0 := (pts.map fun p => p.2).sum
  let s1 := (pts.map fun p => p.1 * p.2).sum
  let s2 := (pts.map fun p => p.1 * p.1 * p.2).sum
  let bend := 770 * s0 - 21 * s2
  if 0 < bend then
    let den := 1540 * bend
    (max (-10 * den) (min (10 * den) (s1 * 471086)), den.toNat)
  else ((pts.foldl (fun b p => if b.2 < p.2 then p else b) (pts.headD (0, 0))).1, 1)

/-- The candidate of a maximum, in whole ps/nm within the window. -/
def Rx.candidate (r : Rx) (i : Nat) (fine : List Nat) : Int :=
  let (num, den) := parabolaTop fine
  max r.lo (min r.hi (r.lo + i * r.step + roundHalfAway (num * r.step) (10 * den)))

/-- The candidates that a search finds, strongest first (R138). -/
def Rx.candidatesOf (r : Rx) (f : SearchReport) : List Int :=
  (searchPeaks f r.points).zipIdx.map fun p => r.candidate p.1 (f.fine.getD p.2 [])

/-- The CD search ends: its candidates go to acquisition, strongest first, at most three; without one the search has failed (R138, R161). -/
def searchEnd (env : Env) (n : Nat) (found : SearchReport) (d : Dev) : Dev :=
  if (d.rx n).acq = .search ∧ d.runPlaced .search n = true then
    let d1 := d.endRun .search n
    match (d.rx n).candidatesOf found with
    | [] => (d1.raise .cdSearchFail n [(4, (d.rx n).lo), (4, (d.rx n).hi)]).acqFail env n .noCd
    | cand :: rest => (d1.raise .cdSearchDone n [(4, cand), (1, (rest.length + 1 : Nat))]).loadCandidate env n cand rest
  else d

def execCdSearchEnd (c : Fin 4) (found : SearchReport) (s : State) : Host.Outcome State Fault Refusal :=
  .next (onDev s fun env d => searchEnd env c found d)

/-- A move of the trim: at most 50 ps/nm towards the residual (R140). -/
def trimMove (resid : Int) : Int := max (-50) (min 50 resid)

/-- A re-centring: D_L becomes the current D through a shadow; without a shadow it is deferred, or reloaded in place with a hit (R136, R140). -/
def recentre (env : Env) (n : Nat) (d : Dev) : Dev :=
  let r := d.rx n
  match d.allocShadow env n (d.setSize n) with
  | some d1 => d1.startBuild env n ⟨.recentre, false, r.cd, false⟩
  | none =>
    if env.par.on (pLastInplace + n) then
      let d1 := d.stopRx env n .reload
      (d1.startBuild env n ⟨.recentre, true, r.cd, false⟩).raise .cdReloadHit n []
    else d.updRx n fun r => { r with recentreDeferred := true }

/-- Each 100 ms the trim follows the residual dispersion; past 80% of its range Frelvo re-centres. A deferred re-centring holds the trim at its limit
and raises CD_TRIM_LIMIT_Cn once (R140). While a rate step runs on the carrier none is begun (log entry 154). -/
def trimUpdate (env : Env) (n : Nat) (d : Dev) : Dev :=
  match (d.rx n).op with
  | none => d
  | some p =>
    if d.locked n then
      let t := (d.rx n).dT + trimMove (d.rx n).meas.resid
      let lim : Int := p.trimMax
      let t' := max (-lim) (min lim t)
      let d1 := d.updRx n fun r => r.moveTrim env.now t'
      let d2 := if (d1.rx n).build.isNone && !d.rateBusy n && !p.trimWithin t' 80 then recentre env n d1 else d1
      if (d2.rx n).recentreDeferred ∧ t'.natAbs = p.trimMax ∧ (d.rx n).trimLimitRaised = false then
        (d2.updRx n fun r => { r with trimLimitRaised := true }).raise .cdTrimLimit n [(4, t')]
      else d2
    else d

/-- At every hundredth quality window, whose report `q` is, the trim follows the residual dispersion reported (R140, R148). -/
def execCdTrimUpdate (c : Fin 4) (q : QualityReport) (s : State) : Host.Outcome State Fault Refusal :=
  .next (onDev s fun env d => trimUpdate env c (qualityWindow c q d))

end Sys2Proof.Machine
end

