-- ==== Sys2Proof/Machine/Engines.lean ====
section
/-! DEFINITION. Machine/Engines.lean: engine commands and events (R361 to R385). -/

namespace Sys2Proof.Machine

/-! ### Loading (R374 to R376) -/

/-- A field of the image header: byte offset, size, range, and multiple. -/
structure HdrField where
  off : Nat
  size : Nat
  lo : Nat
  hi : Nat
  step : Nat
  deriving DecidableEq, Repr

/-- Ranges of Table 15-5, in ascending offset. -/
def hdrFields : List HdrField :=
  [⟨0, 4, 0x48454E47, 0x48454E47, 1⟩, ⟨4, 1, 1, 1, 1⟩, ⟨5, 1, 0, 4, 1⟩, ⟨6, 2, 0, 0, 1⟩, ⟨8, 4, 0, 2 ^ 32, 1⟩, ⟨12, 4, 1024, 33554432, 1⟩,
   ⟨16, 4, 16, 65536, 16⟩, ⟨20, 4, 0, 131072, 1⟩, ⟨24, 4, 0, 2097152, 1⟩, ⟨28, 1, 0, 32, 1⟩, ⟨29, 1, 1, 16, 1⟩, ⟨30, 1, 1, 16, 1⟩, ⟨31, 1, 0, 0, 1⟩,
   ⟨32, 4, 1000, 1600000, 1⟩, ⟨36, 2, 0, 256, 1⟩, ⟨38, 1, 0, 16, 1⟩, ⟨39, 1, 0, 0, 1⟩, ⟨40, 4, 0, 0x7FF, 1⟩, ⟨44, 2, 0, 0x7FFE, 1⟩]

/-- A header field out of range, by its byte offset. -/
def hdrRange (img : List Byte) : Option Nat :=
  (hdrFields.find? fun f =>
    let v := fieldAt img f.off f.size
    decide (v < f.lo) || decide (f.hi < v) || decide (v % f.step ≠ 0)).map (·.off)

/-- Relations of Table 15-5 and R375, by the offset of the field whose row states them; of the sum of the lengths, by the field at the highest offset (R511). -/
def hdrRelation (img : List Byte) : Option Nat :=
  let f (o n : Nat) : Nat := fieldAt img o n
  if f 12 4 ≠ 512 + f 16 4 + f 20 4 + f 24 4 then some 24
  else if f 28 1 * 65536 < f 24 4 then some 24
  else if f 30 1 < f 29 1 then some 30
  else if bitAt (f 44 2) 0 || bitAt (f 44 2) 15 then some 44
  else if ((img.drop 46).take 82).any (fun b => decide (b ≠ 0)) then some 46
  else none

/-- The digest of the key that a signer's images are verified against; a customer's position may be empty (R375). -/
def Dev.signerKey (d : Dev) (signer : Nat) : Option (List Byte) :=
  if signer = 0 then some Config.engineKey
  else if d.nv.revoked.contains signer then none
  else (d.nv.keyDigest.find? fun kv => decide (kv.1 = signer)).map (·.2)

/-- The hosted-image store holds 64 MiB (R374). -/
abbrev storeBytes : Nat := 67108864

/-- The program a verified image gives. -/
def progOf (img : List Byte) : Prog where
  st := .loaded
  len := fieldAt img 12 4
  signer := fieldAt img 5 1
  svn := fieldAt img 8 4
  pages := fieldAt img 28 1
  engMin := fieldAt img 29 1
  engMax := fieldAt img 30 1
  tileMax := fieldAt img 32 4
  spillMib := fieldAt img 36 2
  outMib := fieldAt img 38 1
  permReq := fieldAt img 40 4
  cntReq := fieldAt img 44 2
  digest := Config.sha256 img
  image := img
  bad := false
  cluster := 0
  engs := []
  shared := []
  perm := 0
  cntMask := 0
  arg := 0
  out := none
  spill := []
  fault := 0
  faultPc := 0
  commits := 0
  superseded := 0
  records := 0
  inbox := []
  userTimes := []
  answer := 0

/-- CMD_ENG_LOAD (R374 to R376): copies, verifies, stores. -/
def engLoad (env : Env) (e : CmdEntry) (d : Dev) : CmdRes :=
  let h := u8 e 0
  let len := u32 e 8
  let img := env.mem.readAll (0x3C000000 + u32 e 4) (min len 0x2000000)
  if (d.prog h).isSome then badField 0
  else if u32 e 4 % 4096 ≠ 0 then badField 4
  else if 0x2000000 < u32 e 4 + len ∨ len ≠ fieldAt img 12 4 then badField 8
  else match hdrRange img with
  | some o => .refuse .badParam (0x1000 + o)
  | none => match hdrRelation img with
    | some o => .refuse .badParam (0x1000 + o)
    | none => match d.signerKey (fieldAt img 5 1) with
      | none => .refuse .authFail 0
      | some key =>
        if !Config.pssOk key (img.take 128 ++ img.drop 512) ((img.drop 128).take 384) then .refuse .authFail 0
        else if fieldAt img 8 4 < d.nv.engMin.get 0 (fieldAt img 5 1) then .refuse .fuse 0
        else if storeBytes < sumBy (fun kv => kv.2.len) d.eng.prog + len then .refuse .busy 0
        else
          let d1 := [0, 1, 2].foldl (fun d k => d.restartCounter (ctrProg k h)) { d with eng := { d.eng with prog := d.eng.prog.set h (progOf img) } }
          .done (leBytes 4 (progOf img).svn ++ leBytes 4 (progOf img).signer ++ (progOf img).digest.take 16) d1

def formEngLoad : CmdForm := form 0x0901 (.fixed 12) [fldU 0 1 0 31, fldRsv 1 3, fldAny 4 4, fldAny 8 4]

def execCmdEngLoad (e : CmdEntry) (s : State) : Host.Outcome State Fault Refusal :=
  .next (runCmd formEngLoad e (fun env d => engLoad env e d) s)

/-! ### Starting, stopping (R377 to R379) -/

/-- A run of `n` 1 MiB units of the 16 of the output area that no placed program holds, lowest first (R374). -/
def Dev.outUnits (d : Dev) (n : Nat) : Option Nat :=
  let taken (u : Nat) : Bool := d.eng.prog.any fun kv => kv.2.placed && kv.2.out.any fun o => decide (o ≤ u ∧ u < o + kv.2.outMib)
  (List.range (17 - n)).find? fun u => (List.range n).all fun i => !taken (u + i)

/-- Spill windows come from a pool of 2 GiB (R374). -/
def Dev.spillUsed (d : Dev) : Nat := sumBy (fun kv => if kv.2.placed then kv.2.spillMib else 0) d.eng.prog

/-- Has a cluster room for a program with `n` engines? -/
def Dev.hasRoom (d : Dev) (p : Prog) (n k : Nat) : Bool := d.domOn (domCluster k) && decide (n ≤ (d.room k).1) && decide (p.pages ≤ (d.room k).2)

/-- The cluster a start asks for; 0xFF takes the lowest of the mask with room. -/
def Dev.startCluster (d : Dev) (env : Env) (e : CmdEntry) (p : Prog) : Option Nat :=
  if u8 e 1 = 0xFF then (List.range 16).find? fun k => bitAt env.mask k && d.hasRoom p (u8 e 2) k
  else if d.hasRoom p (u8 e 2) (u8 e 1) then some (u8 e 1) else none

/-- The engines and pages of a start are zeroed; code and initial data go into every engine, the shared data into the first pages (R377). Code lies at local
address 0 with the data after it, which is the model's choice (log entry 183). -/
def Dev.loadImage (d : Dev) (p : Prog) (k : Nat) (engs pages : List Nat) : Dev :=
  let body := p.image.drop 512
  let code := fieldAt p.image 16 4
  let data := fieldAt p.image 20 4
  let shared := (body.drop (code + data)).take (fieldAt p.image 24 4)
  let d1 := engs.foldl (fun d e => d.setLocal (16 * k + e) (padTo engLocalBytes (body.take (code + data)))) (d.zeroPlace k engs pages)
  pages.zipIdx.foldl (fun d x => d.setPage k x.1 (padTo pageBytes ((shared.drop (pageBytes * x.2)).take pageBytes))) d1

/-- Does the stored image still match its digest? A lost word is a mismatch (R269, R374). -/
def Prog.intact (p : Prog) : Bool := !p.bad && decide (Config.sha256 p.image = p.digest)

/-- CMD_ENG_START (R377). -/
def engStart (env : Env) (e : CmdEntry) (d : Dev) : CmdRes :=
  let h := u8 e 0
  if 15 < u8 e 1 ∧ u8 e 1 ≠ 0xFF then badField 1
  else if !d.inService then .refuse .state 0
  else match d.prog h with
  | none => .refuse .sequence 0
  | some p =>
    if p.placed then .refuse .state 0
    else if u8 e 1 ≠ 0xFF ∧ bitAt env.mask (u8 e 1) = false then badField 1
    else if u8 e 2 < p.engMin ∨ p.engMax < u8 e 2 then badField 2
    else if u32 e 4 - (u32 e 4 &&& p.permReq) ≠ 0 then badField 4
    else if u16 e 8 - (u16 e 8 &&& p.cntReq) ≠ 0 then badField 8
    else if u8 e 1 ≠ 0xFF ∧ d.domOn (domCluster (u8 e 1)) = false then .refuse .domainOff 0
    else match d.startCluster env e p with
    | none => .refuse .busy 0
    | some k =>
      let out := d.outUnits p.outMib
      if [0, 1, 2, 3].any fun n => bitAt (u32 e 4) n && d.txTableGranted n 0 then .refuse .busy 0
      else if (decide (0 < p.outMib) && out.isNone) || decide (2048 < d.spillUsed + p.spillMib) then .refuse .busy 0
      else if !p.intact then .fail .authFail 0 { d with eng := { d.eng with prog := d.eng.prog.drop h } }
      else
        let engs := (d.freeEngines k).take (u8 e 2)
        let pages := (d.freePages k).take p.pages
        .done [] ((d.loadImage p k engs pages).updProg h fun p =>
          { p with st := .running, cluster := k, engs := engs, shared := pages, perm := u32 e 4, cntMask := u16 e 8, arg := fieldAt (payload e) 12 8,
                   out := if p.outMib = 0 then none else out, spill := [], records := 0, inbox := [], userTimes := [] })

/-- PERM[31:11] and CNT_MASK bits 0 and 15 are reserved (Table 15-3, R372). -/
def formEngStart : CmdForm :=
  form 0x0902 (.fixed 20) [fldU 0 1 0 31, fldAny 1 1, fldAny 2 1, fldRsv 3 1, fldBits 4 4 0x7FF, fldBits 8 2 0x7FFE, fldRsv 10 2, fldAny 12 8]

def execCmdEngStart (e : CmdEntry) (s : State) : Host.Outcome State Fault Refusal :=
  .next (runCmd formEngStart e (fun env d => engStart env e d) s)

/-- CMD_ENG_STOP (R378): bound TILE_MAX cycles at 0.8 GHz. -/
def engStop (e : CmdEntry) (d : Dev) : CmdRes :=
  match d.prog (u8 e 0) with
  | none => .refuse .sequence 0
  | some p => if p.placed then .start (p.tileMax * 5 / 4) (d.updProg (u8 e 0) fun p => { p with st := .stopping }) else .done [] d

def formEngStop : CmdForm := form 0x0903 (.fixed 1) [fldU 0 1 0 31]

def execCmdEngStop (e : CmdEntry) (s : State) : Host.Outcome State Fault Refusal :=
  .next (runCmd formEngStop e (fun _ d => engStop e d) s)

/-- A program being stopped reaches its tile ends (R378). -/
def tileEndStop (h : Nat) (d : Dev) : Dev :=
  if (d.prog h).any (fun p => decide (p.st = .stopping)) then (d.progStop h 0).finish 0x0903 h .ok 0 [] else d

def execEngTileEndStop (h : Fin 32) (s : State) : Host.Outcome State Fault Refusal :=
  .next (onDev s fun _ d => tileEndStop h d)

/-- CMD_ENG_UNLOAD (R379). -/
def engUnload (e : CmdEntry) (d : Dev) : CmdRes :=
  if (d.prog (u8 e 0)).any Prog.placed then .refuse .state 0 else .done [] { d with eng := { d.eng with prog := d.eng.prog.drop (u8 e 0) } }

def formEngUnload : CmdForm := form 0x0904 (.fixed 1) [fldU 0 1 0 31]

def execCmdEngUnload (e : CmdEntry) (s : State) : Host.Outcome State Fault Refusal :=
  .next (runCmd formEngUnload e (fun _ d => engUnload e d) s)

/-! ### Messages and status (R380 to R382) -/

/-- CMD_ENG_MSG (R380). How many messages the program has read by now is free. -/
def engMsg (e : CmdEntry) (d : Dev) : CmdRes :=
  let h := u8 e 0
  let d1 := d.progRuns h
  match d1.prog h with
  | none => .refuse .state 0
  | some p =>
    if p.st ≠ .running then .refuse .state 0
    else if 4 ≤ p.inbox.length then .fail .busy 0 d1
    else .done [] (d1.updProg h fun p => { p with inbox := p.inbox ++ [(payload e).drop 1] })

def formEngMsg : CmdForm := form 0x0905 (.fixed 17) [fldU 0 1 0 31]

def execCmdEngMsg (e : CmdEntry) (s : State) : Host.Outcome State Fault Refusal :=
  .next (runCmd formEngMsg e (fun _ d => engMsg e d) s)

/-- RESULT of CMD_ENG_STATUS (Table 15-8). -/
def engStatus (h : Nat) (d : Dev) : List Byte :=
  match d.prog h with
  | none => []
  | some p => resultBits [(3, p.st.code), (4, p.fault), (1, 0), (4, p.cluster), (5, p.engs.length), (7, 0), (8, p.signer), (32, p.svn), (32, p.perm),
      (16, p.cntMask), (16, 0), (48, d.counter (ctrProg 0 h)), (48, d.counter (ctrProg 1 h)), (32, d.counter (ctrProg 2 h)), (32, p.commits),
      (32, p.superseded), (32, p.faultPc), (32, match p.out with
        | some u => 0x3E000000 + 0x100000 * u
        | none => 0), (3, p.inbox.length)]

def formEngStatus : CmdForm := form 0x0906 (.fixed 1) [fldU 0 1 0 31]

def execCmdEngStatus (e : CmdEntry) (s : State) : Host.Outcome State Fault Refusal :=
  .next (runCmd formEngStatus e (fun _ d => let d1 := d.progRuns (u8 e 0); .done (engStatus (u8 e 0) d1) d1) s)

/-- RESULT of CMD_ENG_ARRAY (Table 15-9). -/
def engArray (d : Dev) : List Byte :=
  resultBits (((List.range 16).flatMap fun k =>
    [(5, (d.sysUse k).1), (5, (d.hostedUse k).1), (6, (d.room k).2), (2, (d.domState (domCluster k)).code), (6, 0)]) ++ [(16, d.engClock), (16, d.eng.faults)])

def formEngArray : CmdForm := form 0x0907 (.fixed 0) []

def execCmdEngArray (e : CmdEntry) (s : State) : Host.Outcome State Fault Refusal :=
  .next (runCmd formEngArray e (fun _ d => .done (engArray d) d) s)

/-! ### Events (R366, R368, R370 to R373) -/

def execEngProgramFault (who : EngWho) (cause : Fin 7) (pc : BitVec 32) (s : State) : Host.Outcome State Fault Refusal :=
  .next (onDev s fun env d => match who with
    | .hosted h => d.progFaultAt h (cause.val + 1) pc.toNat
    | .system row c => d.runFault env (sysRow row) c (cause.val + 1) pc.toNat)

/-- The oldest waiting run that finds a cluster with room is placed, while MBX_STATE is READY (R366, R384). -/
def sysRunPlace (env : Env) (d : Dev) : Dev :=
  let place (r : SysRun) : Option Nat := d.placeFor env d.onClusters r.prog
  match d.runs.find? fun r => r.cluster.isNone && (place r).isSome with
  | none => d
  | some r => (d.placeRun r.prog r.carrier (place r)).runStarted env r.prog r.carrier

def execSysRunPlace (s : State) : Host.Outcome State Fault Refusal :=
  .next (onDev s fun env d => sysRunPlace env d)

/-- A system run has waited 1 s: ENG_SYS_WAIT once per run (R366, R383). -/
def sysRunWait (row c : Nat) (d : Dev) : Dev :=
  if d.runs.any fun r => isRun (sysRow row) c r && r.cluster.isNone && !r.warned then
    { d with runs := d.runs.map fun r => if isRun (sysRow row) c r then { r with warned := true } else r }.raise .engSysWait (256 + row) [(1, row), (1, c)]
  else d

def execSysRunWaitExpiry (who : EngWho) (s : State) : Host.Outcome State Fault Refusal :=
  .next (onDev s fun _ d => match who with
    | .hosted _ => d
    | .system row c => sysRunWait row c d)

/-- Use of an interface by a running hosted program: without the PERM bit it faults with cause PERM (R369, Table 15-4). -/
def Dev.withPerm (d : Dev) (h bit : Nat) (f : Dev → Dev) : Dev :=
  match d.prog h with
  | some p => if p.placed then (if bitAt p.perm bit then f d else d.progFaultAt h 3 0) else d
  | none => d

/-- A hosted request for a capture: taken where the receiver is LOCKED and the carrier's capture free, else answered "not available" (R371). -/
def captureHosted (h n : Nat) (d : Dev) : Dev :=
  d.withPerm h (4 + n) fun d =>
    if d.locked n && (d.eng.capture.map (·.1)).contains n == false then
      { d with eng := { d.eng with capture := d.eng.capture.set n (.hosted h) } }.updProg h fun p => { p with answer := 1 }
    else d.updProg h fun p => { p with answer := 2 }

/-- A system capture takes precedence over a hosted one, whose program is answered "not available" (R371). -/
def captureSystem (p : SysProg) (c n : Nat) (d : Dev) : Dev :=
  if d.locked n then
    let d1 := match d.eng.capture.find? fun kv => decide (kv.1 = n) with
      | some (_, .hosted h) => d.updProg h fun p => { p with answer := 2 }
      | _ => d
    { d1 with eng := { d1.eng with capture := d1.eng.capture.set n (.system p c) } }
  else d

def execSymbolCaptureRequest (who : EngWho) (c : Fin 4) (s : State) : Host.Outcome State Fault Refusal :=
  .next (onDev s fun _ d => match who with
    | .hosted h => captureHosted h c d
    | .system row k => captureSystem (sysRow row) k c d)

/-- 65,536 symbols of two polarisations, each a complex of 16-bit values, fill eight pages of 64 KiB (R371). The words that stand for the symbols taken after
stage 5 the spec gives no scale or order for: free values, in the first eight pages that the program holds (log entry 183). -/
def Dev.storeCapture (d : Dev) (k : Nat) (pages : List Nat) : Dev :=
  (pages.take 8).foldl (fun (d : Dev) p => let (bs, d1) := d.drawBytes pageBytes; d1.setPage k p bs) d

/-- Where the program that a capture serves has its pages. -/
def Dev.capturePlace (d : Dev) : Capture → Option (Nat × List Nat)
  | .hosted h => (d.prog h).bind fun p => if p.placed then some (p.cluster, p.shared) else none
  | .system p c => (d.runs.find? (isRun p c)).bind fun r => r.cluster.map fun k => (k, r.shared)

/-- A capture is stored in the program's pages, and the carrier is free for the next (R371). -/
def captureEnd (n : Nat) (d : Dev) : Dev :=
  let d1 := match (d.eng.capture.find? fun kv => decide (kv.1 = n)).bind fun kv => d.capturePlace kv.2 with
    | some (k, pages) => d.storeCapture k pages
    | none => d
  { d1 with eng := { d1.eng with capture := d1.eng.capture.drop n } }

def execSymbolCaptureEnd (c : Fin 4) (s : State) : Host.Outcome State Fault Refusal :=
  .next (onDev s fun _ d => captureEnd c d)

/-- Is an entry one that Table 4-5 admits? -/
def entryOk (table i v : Nat) : Bool :=
  if table = 0 then decide (i < 48 ∧ -32 ≤ tripletM v ∧ tripletM v ≤ 32 ∧ -32 ≤ tripletN v ∧ tripletN v ≤ 32)
  else decide (i < 68 ∧ v < 65536 ∧ -1024 ≤ toSigned 16 v ∧ toSigned 16 v ≤ 1024)

/-- Entries written to a staging copy. -/
def CoefTable.stage (t : CoefTable) (table : Nat) (entries : List (Nat × BitVec 48)) : CoefTable :=
  { t with staged := entries.foldl (fun m (x : Nat × BitVec 48) => if entryOk table x.1 x.2.toNat then m.set x.1 x.2.toNat else m) t.staged }

/-- An engine stages entries and commits them, whatever state the carrier is in (R104, R370, R384): a superseded waiting table is counted on its cluster and on
its program. -/
def txCommit (h n table : Nat) (entries : List (Nat × BitVec 48)) (d : Dev) : Dev :=
  d.withPerm h n fun d =>
    let k := match d.prog h with
      | some p => p.cluster
      | none => 0
    let old := if table = 0 then (d.tx n).nlc else (d.tx n).taps
    let staged := old.stage table entries
    let (t, displaced) := staged.commit staged.staged (some (16 * (h + 1) + k))
    ((d.updTx n fun x => if table = 0 then { x with nlc := t } else { x with taps := t }).countSuperseded displaced).updProg h fun p =>
      { p with commits := (p.commits + 1) % 2 ^ 32 }

def execEngTxTableCommit (h : Fin 32) (c : Fin 4) (table : Fin 2) (entries : List (Nat × BitVec 48)) (s : State) :
    Host.Outcome State Fault Refusal :=
  .next (onDev s fun _ d => txCommit h c table entries d)

/-- ENG_USER with 12 bytes of the program's, within P_ENG_USER_RATE per second; beyond it dropped and counted in DENIED (R373). -/
def userRaise (env : Env) (h : Nat) (bytes : List Byte) (d : Dev) : Dev :=
  d.withPerm h 9 fun d =>
    match d.prog h with
    | none => d
    | some p =>
      let recent := p.userTimes.filter fun t => decide (env.now < t + sec)
      if recent.length < env.par.nat pEngUserRate then
        (d.updProg h fun p => { p with userTimes := env.now :: recent }).raise .engUser h ((padTo 12 bytes).map fun b => (1, (b.toNat : Int)))
      else d.count (ctrProg 2 h) 1

def execEngUserRaise (h : Fin 32) (bytes : List Byte) (s : State) : Host.Outcome State Fault Refusal :=
  .next (onDev s fun env d => userRaise env h bytes d)

end Sys2Proof.Machine
end

