-- ==== Sys2Proof/Machine/FecPath.lean ====
section
/-! DEFINITION. Machine/FecPath.lean: the two encoders of the native SD-FEC over a whole stream, and the decoder's steps back (R184 to R195, R198, R240). -/

namespace Sys2Proof.Machine

/-! ### Staircase encoder (R185) -/

/-- A staircase block: 160 rows of 160 bits. -/
abbrev Stair := List (List Bool)

/-- Block −1. -/
def stairZero : Stair := List.replicate 160 (List.replicate 160 false)

def stairBit (b : Stair) (r c : Nat) : Bool := (b.getD r []).getD c false
def stairColumn (b : Stair) (r : Nat) : List Bool := (List.range 160).map fun k => stairBit b k r

/-- Row `r` of a block from column `r` of the block before and its 150 information bits: with them it forms one component codeword. -/
def stairRow (prev : Stair) (r : Nat) (info : List Bool) : List Bool := info ++ componentParity (stairColumn prev r ++ info)

/-- The component codeword of row `r`. -/
def stairWord (prev b : Stair) (r : Nat) : List Bool := stairColumn prev r ++ b.getD r []

/-- A block filled row by row. -/
def stairFill (prev : Stair) (info : Nat → Bool) : Stair :=
  (List.range 160).map fun r => stairRow prev r ((List.range 150).map fun c => info (150 * r + c))

/-- Block `i` of the framed stream: block 0 follows all zeros at transmit enable. -/
def stairAt (framed : Nat → Bool) : Nat → Stair
  | 0 => stairFill stairZero framed
  | i + 1 => stairFill (stairAt framed i) fun k => framed (24000 * (i + 1) + k)

/-- The outer-coded stream: block by block, row by row, column 0 first. -/
def outerBit (framed : Nat → Bool) (y : Nat) : Bool := stairBit (stairAt framed (y / 25600)) (y % 25600 / 160) (y % 160)

/-- Are all rows of a block, with the block before it, codewords? -/
def stairRowsOk (prev b : Stair) : Bool := (List.range 160).all fun r => componentOk (stairWord prev b r)

/-! ### Coding blocks (R186 to R189) -/

/-- One coding block: 1,024 amplitudes on each of the lanes XI, XQ, YI, YQ, and 4,096 sign bits. -/
structure CodingBlock where
  amps : List (List Nat)
  signs : List Bool
  deriving DecidableEq, Repr

/-- The outer-coded bits before block `j` of a point (R188). -/
def blockStart (h j : Nat) : Nat := 29696 * h * j / 1000

/-- SB_START: where within the `d` bits from outer-coded position `start` a staircase block begins; 0x3FFF for nowhere (Table 8-1). -/
def sbStartOf (start d : Nat) : Nat :=
  let off := (25600 - start % 25600) % 25600
  if off < d then off else 0x3FFF

/-- Block `j`'s share of the outer-coded stream, with the fill bit in its last position (R187, R188); the point began at outer-coded position `y0` (R240). -/
def blockShare (h y0 j : Nat) (outer : Nat → Bool) : List Bool :=
  ((List.range (blockD h j)).map fun i => outer (y0 + blockStart h j + i)) ++ (if blockFill h j then [false] else [])

/-- The sign bits before the parity: header, then the rest of the share in ascending order (R186). -/
def blockSigns (h y0 j : Nat) (outer : Nat → Bool) : List Bool :=
  blockHeader (blockFill h j) (sbStartOf (y0 + blockStart h j) (blockD h j)) ++ (blockShare h y0 j outer).drop (4 * blockK h)

/-- The four matchers, XI, XQ, YI, YQ, take 8h − 1,024 bits each from the front of the share (R186). -/
def blockAmps (h y0 j : Nat) (outer : Nat → Bool) : List (List Nat) :=
  (List.range 4).map fun l => matcherBlock h (((blockShare h y0 j outer).drop (blockK h * l)).take (blockK h))

/-- Amplitude-label bits by data symbol, then by lane, then most significant bit first (R189). -/
def labelColumns (amps : List (List Nat)) : List Bool :=
  (List.range 1024).flatMap fun k => (List.range 4).flatMap fun l => natBits 3 (grayLabel ((amps.getD l []).getD k 1))

/-- The information columns in their numbering: labels, then sign positions 0 to 4,111 − f (R189). -/
def infoColumns (amps : List (List Nat)) (signs : List Bool) (h : Nat) : List Bool := labelColumns amps ++ signs.take (4112 - blockF h)

/-- Coding block `j` of a point that began at outer-coded position `y0`: its parity fills the last f − 16 sign positions (R186, R189). -/
def codingBlock (h y0 j : Nat) (outer : Nat → Bool) : CodingBlock :=
  let amps := blockAmps h y0 j outer
  let signs := blockSigns h y0 j outer
  ⟨amps, signs ++ innerParity (blockP h) (infoColumns amps signs h)⟩

/-- Amplitude and sign of data symbol `k` since the point began, on lane `l` (R184, R186). -/
def lineAmp (h y0 : Nat) (outer : Nat → Bool) (l k : Nat) : Nat := ((codingBlock h y0 (k / 1024) outer).amps.getD l []).getD (k % 1024) 1
def lineSign (h y0 : Nat) (outer : Nat → Bool) (l k : Nat) : Bool := (codingBlock h y0 (k / 1024) outer).signs.getD (signPosition (k % 1024) l) false

/-- The block that holds outer-coded position `y` is the last at the old point; the next one begins the new point with its count at 0 (R240). -/
def lastBlockAt (h y0 y : Nat) : Nat → Nat
  | 0 => 0
  | j + 1 => if y0 + blockStart h (j + 1) ≤ y then j + 1 else lastBlockAt h y0 y j
def nextPointAt (h y0 y : Nat) : Nat := y0 + blockStart h (lastBlockAt h y0 y (y + 1) + 1)

/-! ### Back again (R184, R190) -/

/-- F, SB_START and the reserved bit of a received block. -/
def CodingBlock.fill (b : CodingBlock) : Bool := b.signs.getD 0 false
def CodingBlock.sbStart (b : CodingBlock) : Nat := bitsNat ((b.signs.drop 1).take 14)
def CodingBlock.reserved (b : CodingBlock) : Bool := b.signs.getD 15 false

/-- Are all inner checks satisfied? With the accumulated parity of R189 that is to say the parity is the one its information columns give. -/
def CodingBlock.checksOk (b : CodingBlock) (h : Nat) : Bool :=
  decide (b.signs.drop (4112 - blockF h) = innerParity (blockP h) (infoColumns b.amps b.signs h))

/-- A matcher block whose decided amplitudes lack the composition of R97 (FEC_DM_ERR_Cn, R196). -/
def dmError (h : Nat) (amps : List Nat) : Bool := decide (amplitudes.map (fun a => amps.count a) ≠ (shaping h).1)

/-- The stream bits of a received block: de-matched information of the four lanes, then the stream bits of the sign positions, without the fill bit. -/
def CodingBlock.stream (b : CodingBlock) (h : Nat) : List Bool :=
  let all := (b.amps.flatMap fun a => dematcherBlock h a) ++ (b.signs.take (4112 - blockF h)).drop 16
  if b.fill then all.dropLast else all

/-- The outer-coded stream rebuilt from blocks in order. -/
def rebuilt (h : Nat) (bs : List CodingBlock) : List Bool := bs.flatMap fun b => b.stream h

/-- Where in the rebuilt stream of blocks the first staircase block begins: at the first SB_START that is not 0x3FFF (R194). A block is given by F and SB_START; it
brings C outer-coded bits, one less with a fill bit. -/
def stairAlign (h : Nat) : List (Bool × Nat) → Option Nat
  | [] => none
  | b :: rest => if b.2 = 0x3FFF then (stairAlign h rest).map fun k => blockC h - b2n b.1 + k else some b.2

/-- The iterations that the inner decoder runs on a block: N, or with P_FEC_EARLY as many as it takes until all checks are satisfied (R190, R192);
`okAfter t`: they are after `t` iterations. -/
def iterationsRun (early : Bool) (n : Nat) (okAfter : Nat → Bool) : Nat :=
  if early then (match (List.range n).find? fun t => okAfter (t + 1) with
    | some t => t + 1
    | none => n) else n

/-- A component codeword with its one wrong bit put right, if that makes it a codeword (minimum distance 4, R185; log entry 163). -/
def componentFix (c : List Bool) : List Bool :=
  if componentOk c then c
  else match (List.range 320).find? fun i => componentOk (c.modify i not) with
    | some i => c.modify i not
    | none => c

/-- Column `r` of a block replaced. -/
def putColumn (b : Stair) (r : Nat) (col : List Bool) : Stair := b.zipIdx.map fun row => row.1.modify r fun x => col.getD row.2 x

/-- Row `r` of two blocks decoded: its codeword lies in column `r` of the first and row `r` of the second. -/
def fixRow (p : Stair × Stair) (r : Nat) : Stair × Stair :=
  let c := componentFix (stairWord p.1 p.2 r)
  (putColumn p.1 r (c.take 160), p.2.set r (c.drop 160))

def fixPair (a b : Stair) : Stair × Stair := (List.range 160).foldl fixRow (a, b)

/-- One pass over a window, oldest block first. -/
def fixFrom (a : Stair) : List Stair → List Stair
  | [] => [a]
  | b :: rest => (fixPair a b).1 :: fixFrom (fixPair a b).2 rest

/-- The sliding window: the block that left it last, and those in it, oldest first (R190, R191). -/
structure StairWindow where
  before : Stair
  blocks : List Stair
  deriving DecidableEq, Repr

/-- The passes of a latency mode over the blocks in the window; the block that has left is not decoded again (R191). -/
def StairWindow.passes (w : StairWindow) (k : Nat) : StairWindow :=
  { w with blocks := (List.range k).foldl (fun l _ => (fixFrom w.before l).drop 1) w.blocks }

/-- A block arrives: where the window is as long as the latency mode has it, its oldest block leaves first, and the window is decoded. A block that leaves is
uncorrectable if a component codeword of it, along its rows or along its columns, is none (R191, R198). -/
def StairWindow.push (w : StairWindow) (latmode : Nat) (b : Stair) : StairWindow × Option (Stair × Bool) :=
  let passes (x : StairWindow) : StairWindow := x.passes (fecWindow latmode).2
  match w.blocks with
  | o :: p :: rest =>
    if w.blocks.length < (fecWindow latmode).1 then (passes ⟨w.before, w.blocks ++ [b]⟩, none)
    else (passes ⟨o, p :: rest ++ [b]⟩, some (o, !(stairRowsOk w.before o && stairRowsOk o p)))
  | _ => (passes ⟨w.before, w.blocks ++ [b]⟩, none)

/-- A stream of blocks through the window: those that leave it, each with whether it is uncorrectable. -/
def StairWindow.run (w : StairWindow) (latmode : Nat) : List Stair → List (Stair × Bool)
  | [] => []
  | b :: rest =>
    let x := w.push latmode b
    x.2.toList ++ StairWindow.run x.1 latmode rest

/-- Outer-coded bits cut into staircase blocks, row by row, column 0 first (R185). -/
def stairsOf (bits : List Bool) : List Stair :=
  (List.range (bits.length / 25600)).map fun i => (List.range 160).map fun r => (bits.drop (25600 * i + 160 * r)).take 160

/-- The framed bits of a decoded block, row by row (R185, R190). -/
def stairInfo (b : Stair) : List Bool := b.flatMap fun row => row.take 150

/-- The line frames of `len` bytes that hold any bit of staircase block `i`; frame 0 begins at framed bit `x0`, and a block before it is in none (R198). -/
def framesOfStair (len x0 i : Nat) : List Nat :=
  if 24000 * (i + 1) ≤ x0 then []
  else
    let a := (24000 * i - x0) / (8 * len)
    (List.range ((24000 * i + 23999 - x0) / (8 * len) + 1 - a)).map fun k => a + k

/-- What a slot of frame `f` delivers where blocks `bad` were uncorrectable: all-ones with P_FEC_UNCORR_ACT = 1 in the frames that hold them, else the bytes as
decoded (R198, R203). -/
def uncorrDelivered (act : Bool) (len x0 : Nat) (bad : List Nat) (f : Nat) (bytes : List Byte) : List Byte :=
  if act && bad.any fun i => (framesOfStair len x0 i).contains f then bytes.map fun _ => 0xFF else bytes

/-! ### Injection (R201) -/

/-- Mode 3: the four bits at the crossings of two rows and two columns of a staircase block, before the inner encoder or at the staircase decoder's input. Each
component codeword that they meet has two wrong bits, which none can put right. -/
def crossFlipped (b : Stair) (rows cols : Nat × Nat) : Stair :=
  [rows.1, rows.2].foldl (fun b r => [cols.1, cols.2].foldl (fun b c => b.modify r fun row => row.modify c not) b) b

/-- The outer-coded stream with mode 3 at the transmit point: the blocks that `hit` names are flipped at their crossings, and the staircase chain goes on as it was
encoded. -/
def outerHit (hit : Nat → Option ((Nat × Nat) × (Nat × Nat))) (framed : Nat → Bool) (y : Nat) : Bool :=
  match hit (y / 25600) with
  | none => outerBit framed y
  | some x => stairBit (crossFlipped (stairAt framed (y / 25600)) x.1 x.2) (y % 25600 / 160) (y % 160)

/-! ### Block lock (R194, R195) -/

/-- A coding block as a search sees it: inner checks satisfied within N iterations, reserved header bit, SB_START. -/
def searchAccepts (h : Nat) (b : Bool × Bool × Nat) : Bool := b.1 && !b.2.1 && (decide (b.2.2 = 0x3FFF) || decide (b.2.2 < blockC h))

/-- Does the search accept an offset? Four consecutive blocks meet all three conditions; the staircase alignment is taken from the first start that one of
them, or a block after them, reports. -/
def lockAccepted (h offset : Nat) (bs : List (Bool × Bool × Nat)) : Bool :=
  decide (offset < 1024) && decide (4 ≤ bs.length) && (bs.take 4).all (searchAccepts h) && bs.any fun b => decide (b.2.2 ≠ 0x3FFF)

/-- Where the stream count predicts the next staircase start, `count` outer-coded bits after the one that alignment was taken from. -/
def predictedStart (count : Nat) : Nat := (25600 - count % 25600) % 25600

end Sys2Proof.Machine
end

