-- ==== Sys2Proof/Machine/FecRows.lean ====
section
/-! DEFINITION. Machine/FecRows.lean: the FEC commands and events (R194 to R202). -/

namespace Sys2Proof.Machine

/-- FEC counters of a carrier (Table 20-1). -/
def ctrFec (k n : Nat) : Nat := ckey 3 (4 * k + n)
abbrev fecBits : Nat := 3
abbrev fecCorr : Nat := 4
abbrev fecBlocks : Nat := 5
abbrev fecIterSum : Nat := 6
abbrev fecInnerFail : Nat := 7
abbrev fecDmErr : Nat := 8
abbrev fecUncorr : Nat := 9
abbrev fecInjected : Nat := 10

/-- Is what the search found a block lock? On a native carrier by the conditions of R194; an interop one follows its agreement's markers (R200). -/
def Dev.blockFound (d : Dev) (n : Nat) (x : LockSearch) : Bool :=
  match (d.rx n).op with
  | some p => if p.profile = 0 then lockAccepted p.h x.offset (x.blocks.map fun b => (b.checksOk, b.reserved, b.sbStart.toNat)) else true
  | none => false

/-- Block lock: the offset and the staircase alignment are taken, FEC_LOCK_Cn is raised, and the framed stream flows to the deframer (R194, R209). -/
def fecBlockLock (env : Env) (x : LockSearch) (d : Dev) : Dev :=
  let n : Nat := x.car
  if (d.fec n).lock = .search ∧ d.locked n = true ∧ d.blockFound n x = true then
    let t := (env.now - (d.rx n).lockedSince) / us
    let h := pointH (d.rx n).op
    let align := (stairAlign h (x.blocks.map fun b => (b.fill, b.sbStart.toNat))).getD 0
    ((d.updFec n fun f => { f with lock := .locked, lockTime := t, offset := x.offset, align := align }).raise .fecLock n [(4, t)]).frmHunt n
  else d

def execFecBlockLock (c : LockSearch) (s : State) : Host.Outcome State Fault Refusal :=
  .next (onDev s fun env d => fecBlockLock env c d)

/-- Cause of FEC_LOL_Cn. -/
def fecLolCode : FecLolCause → Nat
  | .innerFailures _ => 0
  | .staircaseOffset _ => 1

/-- Is it a loss of block lock (R195): 32 consecutive coding blocks that failed, or 4 consecutive staircase starts away from where the stream count predicts
them? An interop decoder judges by its agreement (R200). -/
def fecLolHolds (interop : Bool) : FecLolCause → Bool
  | .innerFailures failed => interop || (decide (32 ≤ failed.length) && failed.all id)
  | .staircaseOffset starts => interop || (decide (4 ≤ starts.length) && starts.all fun s => decide (s.2.toNat ≠ predictedStart s.1))

/-- Loss of block lock while the receiver is LOCKED: loss-of-frame actions at once, FEC_LOL_Cn, and the search restarts (R195). -/
def fecLoss (env : Env) (n : Nat) (why : FecLolCause) (d : Dev) : Dev :=
  if (d.fec n).lock = .locked ∧ d.locked n = true ∧ fecLolHolds (d.interop n) why = true then
    (((d.updFec n fun f => { f with lock := .search }).frmDown env n).raise .fecLol n [(1, fecLolCode why)]).stepLoss env n
  else d

def execFecLossOfBlockLock (c : Fin 4) (why : FecLolCause) (s : State) : Host.Outcome State Fault Refusal :=
  .next (onDev s fun env d => fecLoss env c why d)

/-- The degrade condition after a window (R197): set after P_FEC_DEG_WIN windows above the threshold, cleared after as many below 0.8 of it. -/
def Dev.fecDegrade (d : Dev) (env : Env) (n : Nat) (w : FecWindow) : Dev :=
  let thr := env.par.nat (pFecDegThr + n)
  let win := env.par.nat (pFecDegWin + n)
  let f := d.fec n
  let above := if thr * w.bits < w.innerCorr * 1000000 then f.above + 1 else 0
  let under := if w.innerCorr * 10000000 < 8 * thr * w.bits then f.under + 1 else 0
  let set_ := !f.deg && decide (win ≤ above)
  let clr := f.deg && decide (win ≤ under)
  let d1 := d.updFec n fun f => { f with above := above, under := under, deg := (f.deg || set_) && !clr }
  (d1.raiseIf set_ .fecDeg n [(4, (d1.fec n).preBer)]).raiseIf clr .fecDegClr n [(4, (d1.fec n).preBer)]

/-- Iterations executed in a window: N on every block without early termination, no more with it (R190, R192); an interop decoder has its own (R200). -/
def Dev.itersIn (d : Dev) (env : Env) (n : Nat) (w : FecWindow) : Nat :=
  let most := (d.fec n).iter * w.blocks
  if d.interop n then w.iters else if env.par.on (pFecEarly + n) then min w.iters most else most

/-- Each 1 ms the decoder's counts enter the counters, and Frelvo computes pre-FEC BER, mean iterations and the degrade condition (R190, R192, R196,
R197). While MBX_STATE is not READY only the counters run (R203). -/
def fecDegWindow (env : Env) (n : Nat) (w : FecWindow) (d : Dev) : Dev :=
  if (d.fec n).lock = .down ∨ w.bits = 0 ∨ w.blocks = 0 then d
  else
    let add (d : Dev) (k v : Nat) : Dev := d.count (ctrFec k n) v
    let d1 := add (add (add (add (add (add (add d fecBits w.bits) fecCorr (w.innerCorr + w.outerCorr)) fecBlocks w.blocks) fecIterSum (d.itersIn env n w))
      fecInnerFail w.innerFail) fecDmErr w.dmErr) fecInjected w.injected
    if env.mbx = .ready then
      (d1.updFec n fun f => { f with preBer := min 0xFFFFFFFF (w.innerCorr * 10000000000 / w.bits), iterMean := d.itersIn env n w * 256 / w.blocks,
                                     mi := if d.interop n then 0 else w.mi }).fecDegrade env n w
    else d1

def execFecDegWindow (c : Fin 4) (w : FecWindow) (s : State) : Host.Outcome State Fault Refusal :=
  .next (onDev s fun env d => fecDegWindow env c w d)

/-- A staircase block leaves the window uncorrected: counted, reported at most once per second, and delivered as decoded or as all-ones (R198). The
frames that hold it are then as under a section action: their multiframe is not tag-checked. -/
def fecUncorrBlock (env : Env) (n : Nat) (d : Dev) : Dev :=
  if (d.fec n).lock = .locked then
    let d1 := ((d.count (ctrFec fecUncorr n) 1).emit (.pulse 7 n)).updFec n fun f => { f with uncorr := f.uncorr + 1 }
    let f := d1.fec n
    let due := match f.uncorrAt with
      | none => true
      | some t => decide (t + sec ≤ env.now)
    let d2 := if due then (d1.raise .fecUncorr n [(4, f.uncorr)]).updFec n fun f => { f with uncorr := 0, uncorrAt := some env.now } else d1
    if env.par.on (pFecUncorrAct + n) then d2.updFrm n fun f => { f with dirtyAt := some env.now } else d2
  else d

def execFecUncorrBlock (c : Fin 4) (s : State) : Host.Outcome State Fault Refusal :=
  .next (onDev s fun env d => fecUncorrBlock env c d)

/-! ### Status (R199) -/

/-- RESULT of CMD_FEC_STATUS (Table 8-5). -/
def fecStatus (n : Nat) (d : Dev) : List Byte :=
  let f := d.fec n
  resultBits [(2, f.lock.code), (1, f.latmode), (2, match (d.rx n).op with
      | some p => p.profile
      | none => 0), (3, 0), (5, f.iter), (3, 0), (32, f.preBer), (16, if d.interop n then 0 else f.mi), (16, f.iterMean), (48, d.counter (ctrFec fecCorr n)),
    (48, d.counter (ctrFec fecBlocks n)), (48, d.counter (ctrFec fecUncorr n)), (48, d.counter (ctrFec fecInnerFail n)),
    (48, d.counter (ctrFec fecInjected n)), (32, f.lockTime), (1, b2n f.inj.isSome)]

def formFecStatus : CmdForm := form 0x0320 (.fixed 1) [fldCarrier]

def execCmdFecStatus (e : CmdEntry) (s : State) : Host.Outcome State Fault Refusal :=
  .next (runCmd formFecStatus e (fun _ d =>
    if d.domOn (domCarrier (u8 e 0)) then .done (fecStatus (u8 e 0) d) d else .refuse .domainOff 0) s)

/-! ### Injection (R201, R202) -/

/-- POINT and MODE of CMD_FEC_INJECT (Table 8-7). -/
def injPoint (e : CmdEntry) : Nat := bitsAt (u8 e 1) 0 2
def injMode (e : CmdEntry) : Nat := bitsAt (u8 e 1) 2 2

/-- Field faults in ascending offset; a mode's own fields are judged in that mode. A BER above 5.0 × 10⁻² names
BER_EXP, whose row states that bound (R511). -/
def injFault (e : CmdEntry) : Option Nat :=
  let mode := injMode e
  match layoutFault (payload e) [fldCarrier, fldBits 1 1 0x0F] with
  | some k => some k
  | none =>
    if 2 ≤ injPoint e then some 9
    else if mode = 1 then
      (if u8 e 2 < 1 ∨ 99 < u8 e 2 then some 10
      else if u8 e 3 < 1 ∨ 9 < u8 e 3 then some 11
      else if 5 * 10 ^ (u8 e 3 + 1) < u8 e 2 * 100 then some 11
      else none)
    else if mode = 2 ∧ (u16 e 4 < 1 ∨ 4096 < u16 e 4) then some 12
    else if (mode = 2 ∨ mode = 3) ∧ u16 e 6 < 1 then some 14
    else none

/-- The pre-FEC BER threshold that a carrier is judged by, in units of 2.5 × 10⁻⁶: Table 8-3 for its N and mode, Table 8-6 for its interop profile. -/
def Dev.fecThreshold4 (d : Dev) (n : Nat) : Nat :=
  match ((d.rx n).op.map (·.profile)).getD 0 with
  | 1 => 4880
  | 2 => 8000
  | _ => berThreshold4 (d.fec n).iter (d.fec n).latmode

/-- Would the injection alone break that threshold, or is it a block or a long burst? (R202) -/
def injHarmful (threshold4 : Nat) (e : CmdEntry) : Bool :=
  match injMode e with
  | 3 => true
  | 2 => decide (64 < u16 e 4)
  | 1 => decide (threshold4 * 10 ^ (u8 e 3 + 1) < u8 e 2 * 400000)
  | _ => false

/-- The injection that a command starts; none for MODE 0 (Table 8-7). -/
def injNew (env : Env) (e : CmdEntry) : Option Injection :=
  if injMode e = 0 then none
  else some ⟨decide (injPoint e = 1), injMode e, u8 e 2, u8 e 3, u16 e 4, u16 e 6,
    if injMode e = 1 ∧ u32 e 8 ≠ 0 then some (env.now + u32 e 8 * us) else none⟩

/-- CMD_FEC_INJECT (R201, R202). -/
def fecInject (env : Env) (e : CmdEntry) (d : Dev) : CmdRes :=
  match injFault e with
  | some k => .refuse .badParam k
  | none =>
    let n := u8 e 0
    if !d.inService || (d.interop n && decide (injPoint e = 1)) then .refuse .state 0
    else if !d.domOn (domCarrier n) then .refuse .domainOff 0
    else if (d.rx n).op.isNone then .refuse .sequence 0
    else if d.anyBundleEnabled n && injHarmful (d.fecThreshold4 n) e && !force e then .refuse .trafficPresent 0
    else .done [] (d.updFec n fun f => { f with inj := injNew env e })

def formFecInject : CmdForm := formF 0x0321 (.fixed 12) []

def execCmdFecInject (e : CmdEntry) (s : State) : Host.Outcome State Fault Refusal :=
  .next (runCmd formFecInject e (fun env d => fecInject env e d) s)

/-- Bits that one burst or block flips (R201): BURST_LEN, or the four crossings of an uncorrectable block. -/
def Injection.flips (i : Injection) : Nat := if i.mode = 3 then 4 else i.burst

/-- Each 1 ms a burst or a block is injected, until COUNT is reached; receive-point flips are counted, where there is a decoder input to flip (R196, R201). Every
block injected at the receive point is uncorrectable: it is counted, reported and delivered as one (R198, R201, R203). -/
def fecInjectTick (env : Env) (n : Nat) (d : Dev) : Dev :=
  match (d.fec n).inj with
  | some i =>
    if i.mode = 1 then d
    else
      let d1 := d.updFec n fun f => { f with inj := if i.left ≤ 1 then none else some { i with left := i.left - 1 } }
      if i.transmit || decide ((d.fec n).lock = .down) then d1
      else
        let d2 := d1.count (ctrFec fecInjected n) i.flips
        if i.mode = 3 then fecUncorrBlock env n d2 else d2
  | none => d

def execFecInjectTick (c : Fin 4) (s : State) : Host.Outcome State Fault Refusal :=
  .next (onDev s fun env d => fecInjectTick env c d)

/-- A random injection ends with its DURATION (R201). -/
def fecInjectEnd (env : Env) (n : Nat) (d : Dev) : Dev :=
  match (d.fec n).inj with
  | some i => match i.ends with
    | some t => if t ≤ env.now then d.updFec n fun f => { f with inj := none } else d
    | none => d
  | none => d

def execFecInjectEnd (c : Fin 4) (s : State) : Host.Outcome State Fault Refusal :=
  .next (onDev s fun env d => fecInjectEnd env c d)

end Sys2Proof.Machine
end

