-- ==== Sys2Proof/Machine/Frame.lean ====
section
/-! DEFINITION. Machine/Frame.lean: framing, defects, consequent actions, bundles and their commands (R205 to R229). -/

namespace Sys2Proof.Machine

/-! ### The frame itself (R205 to R208, R212) -/

/-- The frame alignment word (R207). -/
def fawBytes : List Nat := [0xA3, 0xD5, 0x1C, 0x6E, 0x97, 0xB2, 0x4F, 0x08, 0x5C, 0x2A, 0xE3, 0x91, 0x68, 0x4D, 0xB0, 0xF7]

/-- A FAW match: at most 2 of the 128 bits differ (R207). -/
def fawMatch (bs : List Nat) : Bool :=
  decide (bs.length = 16) && decide ((List.zip bs fawBytes).foldl (fun n p => n + countTrue ((List.range 8).map fun k => bitAt (p.1 ^^^ p.2) k)) 0 ≤ 2)

/-- One step of the scrambler x¹⁷ + x¹⁴ + 1: next state and output bit, the newly fed-back one (R208; log entry 193). -/
def scrambleStep (s : BitVec 17) : BitVec 17 × Bool :=
  let out := s.getLsbD 16 ^^ s.getLsbD 13
  ((s <<< 1) ||| (BitVec.ofNat 17 (b2n out)), out)

/-- The scrambler's first `n` output bits; it is loaded with all ones at the first bit of byte 16 (R208). -/
def scrambleBits : Nat → BitVec 17 → List Bool
  | 0, _ => []
  | n + 1, s => (scrambleStep s).2 :: scrambleBits n (scrambleStep s).1

/-- Lengths and offsets of the byte map (R205, R206). -/
def frameLen (n : Nat) : Nat := 324 * n
def tagOffset (s : Nat) : Nat := 16 + 3 * s
def pohOffset (s : Nat) : Nat := 32 + 2 * s
def payloadOffset (n s : Nat) : Nat := 4 * n + 320 * s

/-- BIP-8: even parity per bit position over the covered bytes (R212). -/
def bip8 (bs : List Nat) : Nat := bs.foldl (· ^^^ ·) 0

/-- The path status byte of POH2: BEI saturating at 31, BDI, STAT, bit 1 the most significant (Table 9-4). -/
def pathStatus (bei : Nat) (bdi : Bool) (stat : Nat) : Nat := 8 * min 31 bei + 4 * b2n bdi + stat % 4

/-- A 2-of-3 vote (R215). -/
def vote3 (a b c : Bool) : Bool := (a && b) || (a && c) || (b && c)

/-! ### Alignment (R209, R210) -/

/-- Counters of a carrier's frame (Table 20-1). -/
def ctrFrm (k n : Nat) : Nat := ckey 4 (4 * k + n)
abbrev frmSbip : Nat := 0
abbrev frmSbei : Nat := 1
abbrev frmFalse : Nat := 2
abbrev frmLof : Nat := 3

/-- Three matches at the frame spacing: IN_FRAME, LOF clears (R209, R220). -/
def inFrame (n : Nat) (d : Dev) : Dev :=
  if (d.frm n).st = .hunt then
    (d.updFrm n fun f => { f with st := .inFrame, mf := .none, lof := false }).raiseIf (d.frm n).lof .lofClr n []
  else d

def execInFrameDeclare (c : Fin 4) (s : State) : Host.Outcome State Fault Refusal :=
  .next (onDev s fun _ d => inFrame c d)

/-- A miss at a candidate check: counted, HUNT resumes (R209). -/
def falseCandidate (n : Nat) (d : Dev) : Dev :=
  if (d.frm n).st = .hunt then d.count (ctrFrm frmFalse n) 1 else d

def execFalseCandidate (c : Fin 4) (s : State) : Host.Outcome State Fault Refusal :=
  .next (onDev s fun _ d => falseCandidate c d)

/-- Five misses: LOF, all-ones, HUNT at once (R209, R220); a rate step on the carrier is abandoned or has missed its switch (R243). -/
def lofDeclare (env : Env) (n : Nat) (d : Dev) : Dev :=
  if (d.frm n).st = .inFrame then
    let d1 := ((d.parityOf n).updFrm n fun f => { f with st := .hunt, mf := .none, lof := true }).sectionCa env n
    (((d1.count (ctrFrm frmLof n) 1).raise .lof n []).stepLoss env n).reacquireMissed env n
  else d

def execLofDeclare (c : Fin 4) (s : State) : Host.Outcome State Fault Refusal :=
  .next (onDev s fun env d => lofDeclare env c d)

/-- The frame number the receiver's own count gives at time `now` (R210). -/
def Frm.frameNo (f : Frm) (now : Nat) : Nat := (f.mfas + framesIn (now - f.mfasAt)) % 128

/-- Three consistent MFAS values: aligned; OOM and LOM clear. A new alignment that differs cuts the multiframe in progress, which is treated as one during which
LOM was declared: all-ones until the next boundary (R210, R220, R230). -/
def mfAlign (env : Env) (n mfas : Nat) (d : Dev) : Dev :=
  let f := d.frm n
  if f.st = .inFrame ∧ f.mf ≠ .aligned then
    let moved := decide (f.mf = .oom) && decide (f.frameNo env.now ≠ mfas)
    let d1 := d.updFrm n fun f => { f with mf := .aligned, lom := false, mfas := mfas, mfasAt := env.now }
    (if moved then d1.sectionCa env n else d1).raiseIf f.lom .lomClr n []
  else d

def execMfAlign (c : Fin 4) (mfas : BitVec 7) (s : State) : Host.Outcome State Fault Refusal :=
  .next (onDev s fun env d => mfAlign env c mfas.toNat d)

/-- Five disagreeing MFAS values: OOM; the old alignment is kept (R210). -/
def oomDeclare (n : Nat) (d : Dev) : Dev :=
  if (d.frm n).st = .inFrame ∧ (d.frm n).mf = .aligned then d.updFrm n fun f => { f with mf := .oom } else d

def execOomDeclare (c : Fin 4) (s : State) : Host.Outcome State Fault Refusal :=
  .next (onDev s fun _ d => oomDeclare c d)

/-- OOM for 256 frame periods: LOM, all-ones (R210, R220). -/
def lomDeclare (env : Env) (n : Nat) (d : Dev) : Dev :=
  if (d.frm n).mf = .oom ∧ (d.frm n).lom = false then
    ((d.updFrm n fun f => { f with lom := true }).sectionCa env n).raise .lom n []
  else d

def execLomDeclare (c : Fin 4) (s : State) : Host.Outcome State Fault Refusal :=
  .next (onDev s fun env d => lomDeclare env c d)

/-- A TTI identical in 3 multiframes is accepted; TIM is declared or cleared (R213). -/
def ttiAccept (env : Env) (n : Nat) (tti : List Byte) (d : Dev) : Dev :=
  if d.interop n then d else (d.updFrm n fun f => { f with ttiRx := some (padTo 64 tti) }).timEval env n

def execTtiAccept (c : Fin 4) (tti : List Byte) (s : State) : Host.Outcome State Fault Refusal :=
  .next (onDev s fun env d => ttiAccept env c tti d)

/-- SBDI received in 3 overhead frames (R220). -/
def sbdiChange (n : Nat) (on : Bool) (d : Dev) : Dev :=
  if (d.frm n).sbdi = on || d.interop n then d
  else (d.updFrm n fun f => { f with sbdi := on }).raise .sbdi n [(1, if on then 1 else 0)]

def execSbdiRxChange (c : Fin 4) (on : Bool) (s : State) : Host.Outcome State Fault Refusal :=
  .next (onDev s fun _ d => sbdiChange c on d)

/-- The path defects of a channel change: those that act start a consequent action, and PATH_DEFECT reports the masks (R220, R221). -/
def pathChange (env : Env) (ch x : Nat) (d : Dev) : Dev :=
  if d.domOn (domCarrier (ch / 128)) ∧ ch % 128 < d.rxSlots (ch / 128) ∧ d.interop (ch / 128) = false then
    let old := (d.chanAt ch).defects
    (d.updChan ch fun c => { c with defects := x, ca := c.ca || Dev.defectsAct env ch x, ones := c.ones || Dev.defectsOnes env ch x, raised := c.raised ||| (x - (x &&& old)),
                                    cleared := c.cleared ||| (old - (old &&& x)) }).reportPath env ch
  else d

def execPathDefectChange (ch : Fin 512) (defects : BitVec 5) (s : State) : Host.Outcome State Fault Refusal :=
  .next (onDev s fun env d => pathChange env ch defects.toNat d)

/-- May the section action of a carrier end? IN_FRAME and multiframe-aligned, with LOF, LOM and an acting TIM cleared (R221). -/
def Frm.clean (f : Frm) (timActs : Bool) : Bool :=
  decide (f.st = .inFrame ∧ f.mf = .aligned) && !f.lof && !f.lom && !(f.tim && timActs)

/-- At a multiframe boundary the carrier's section action ends where its conditions have cleared, and so does each channel's (R221). -/
def caEnd (env : Env) (n : Nat) (d : Dev) : Dev :=
  let f := d.frm n
  let d1 := if f.ca && f.clean (decide (env.par.val (pFrmTimMode + n) = 2)) then
      d.updFrm n fun f => { f with ca := false, dirtyAt := some env.now } else d
  (d1.chan.map (·.1)).foldl (fun d ch =>
    if ch / 128 = n then
      let x := (d.chanAt ch).defects
      (d.updChan ch fun c => { c with ca := c.ca && Dev.defectsAct env ch x, ones := c.ones && Dev.defectsOnes env ch x }).reportPath env ch
    else d) d1

def execConsequentActionEnd (c : Fin 4) (s : State) : Host.Outcome State Fault Refusal :=
  .next (onDev s fun env d => caEnd env c d)

/-- SBDI sent, and the BDI of a channel sent (R220). -/
def Dev.sbdiTx (d : Dev) (env : Env) (n : Nat) : Bool := (d.frm n).ca && env.par.on (pFrmBdiEn + n)
def Dev.bdiTx (d : Dev) (env : Env) (ch : Nat) : Bool := d.chanCa ch && env.par.on (pFrmBdiEn + ch / 128)

/-! ### Rate-step fields (R214) -/

/-- The five bytes of the fields: RS_OP and RS_SEQ, RS_SLOTS, RS_H most significant byte first, RS_CD (Table 9-3). -/
def rsFieldsOf (bs : List Byte) : RsFields :=
  let v := beNat bs
  let op := bitsAt v 36 4
  ⟨if op ≤ 5 then op else 0, bitsAt v 32 4, bitsAt v 24 8, bitsAt v 8 16, bitsAt v 0 8⟩

def rsBytes (f : RsFields) : List Byte := beBytes 5 (f.cd % 256 + 256 * (f.h % 65536) + 16777216 * (f.slots % 256) + 4294967296 * (f.seq % 16 + 16 * f.op))

/-- Bytes 20 to 24 identical in 3 overhead frames are accepted (R214). -/
def rsAccept (n : Nat) (bytes : List Byte) (d : Dev) : Dev := if d.interop n then d else d.updFrm n fun f => { f with rsRx := padTo 5 bytes }

def execRsFieldsAccept (c : Fin 4) (bytes : List Byte) (s : State) : Host.Outcome State Fault Refusal :=
  .next (onDev s fun _ d => rsAccept c bytes d)

/-- During COMMIT the hardware lowers RS_CD at each boundary, down to 1 (R214). -/
def rsTick (n : Nat) (d : Dev) : Dev :=
  d.updRate n fun r => if r.tx.op = opCommit ∧ 1 < r.tx.cd then { r with tx := { r.tx with cd := r.tx.cd - 1 } } else r

def execRsCountdownTick (c : Fin 4) (s : State) : Host.Outcome State Fault Refusal :=
  .next (onDev s fun _ d => rsTick c d)

/-! ### Bundles (R222 to R225) -/

/-- CMD_BUNDLE_CREATE (R223, R226). The channels lie in slots that are active in both directions (R222). -/
def bundleCreate (env : Env) (e : CmdEntry) (d : Dev) : CmdRes :=
  let b := u8 e 0
  let n := u8 e 1
  let first := u8 e 2
  let count := u8 e 3
  let buffered := bitAt (u8 e 4) 0
  let x : Bundle := { Bundle.absent with
    carrier := n, first := first, count := count, buffered := buffered, toLine := env.par.val (pMemBufDir + b) = 0, depth := env.par.nat pMemBufDepth }
  match (d.tx n).op with
  | none => .refuse .sequence 0
  | some p =>
    if d.hasBundle b then badField 0
    else if p.profile ≠ 0 ∧ first ≠ 0 then badField 2
    else if p.profile ≠ 0 ∧ count ≠ p.slots then badField 3
    else if min p.slots (d.rxSlots n) < first + count then badField 2
    else if x.chans.any (fun ch => (d.bundleOf ch).isSome) then badField 2
    else if buffered && !fitsBandwidth d.stacksFor (d.bufferedChans + count) d.protectedChans then .refuse .dramBw 0
    else if buffered && d.pw.throttleHeld then .refuse .state 0
    else if d.rateBusy n then .refuse .busy 0
    else .done [] { d with bundle := d.bundle.set b x }

def formBundleCreate : CmdForm :=
  form 0x0401 (.fixed 8) [fldU 0 1 0 127, fldCarrierAt 1, fldU 2 1 0 127, fldU 3 1 1 128, fldBits 4 1 1, fldRsv 5 3]

def execCmdBundleCreate (e : CmdEntry) (s : State) : Host.Outcome State Fault Refusal :=
  .next (runCmd formBundleCreate e (fun env d => bundleCreate env e d) s)

/-- CMD_BUNDLE_DELETE (R224). -/
def bundleDelete (e : CmdEntry) (d : Dev) : CmdRes :=
  let b := u8 e 0
  let x := d.bundleAt b
  if x.on || decide (x.attach ≠ .none) || !(d.groupsOf b).isEmpty then .refuse .trafficPresent 0
  else if !d.hasBundle b then badField 0
  else if d.rateBusy x.carrier then .refuse .busy 0
  else .done [] { d with bundle := d.bundle.drop b }

def formBundleDelete : CmdForm := form 0x0402 (.fixed 1) [fldU 0 1 0 127]

def execCmdBundleDelete (e : CmdEntry) (s : State) : Host.Outcome State Fault Refusal :=
  .next (runCmd formBundleDelete e (fun _ d => bundleDelete e d) s)

/-- Is the bundle attached to a port, a flow, or a group as its protection bundle? (R225, R246) -/
def Dev.attached (d : Dev) (b : Nat) : Bool :=
  decide ((d.bundleAt b).attach ≠ .none) || d.group.any fun kv => decide (kv.2.prot = b)

/-- CMD_BUNDLE_ENABLE (R225): an enable waits for the boundary, a disable for its drain; a request for the state in force is done at once. -/
def bundleEnable (e : CmdEntry) (d : Dev) : CmdRes :=
  let b := u8 e 0
  let x := d.bundleAt b
  if !d.hasBundle b then badField 0
  else if bitAt (u8 e 1) 0 then
    if x.on then .done [] d
    else if !d.attached b then .refuse .sequence 0
    else if !d.domOn (domCarrier x.carrier) then .refuse .domainOff 0
    else if d.rateBusy x.carrier then .refuse .busy 0
    else .start 0 (d.updBundle b fun x => { x with st := .enabling })
  else if x.on then .start 0 (d.updBundle b fun x => { x with st := .draining })
  else .done [] (d.updBundle b fun x => { x with st := if x.st = .enabling then .disabled else x.st })

def formBundleEnable : CmdForm := form 0x0403 (.fixed 2) [fldU 0 1 0 127, fldBits 1 1 1]

def execCmdBundleEnable (e : CmdEntry) (s : State) : Host.Outcome State Fault Refusal :=
  .next (runCmd formBundleEnable e (fun _ d => bundleEnable e d) s)

/-- At a multiframe boundary an enable takes effect, and the slots of a drained bundle are sent as not enabled (R218, R225). -/
def boundaryApply (b : Nat) (d : Dev) : Dev :=
  match (d.bundleAt b).st with
  | .enabling => (d.updBundle b fun x => { x with st := .enabled }).finish 0x0403 b .ok 0 []
  | .closing => d.updBundle b fun x => { x with st := .disabled }
  | _ => d

def execBundleBoundaryApply (b : Fin 128) (s : State) : Host.Outcome State Fault Refusal :=
  .next (onDev s fun _ d => boundaryApply b d)

/-- The drain ends: the remainder is discarded and counted in bytes (R225). -/
def drainEnd (b bytes : Nat) (d : Dev) : Dev :=
  if (d.bundleAt b).st = .draining then
    (((d.updBundle b fun x => { x with st := .closing }).insoleClear b).count (ckey 4 (1536 + b)) bytes).finish 0x0403 b .ok 0 []
  else d

def execBundleDrainEnd (b : Fin 128) (bytes : Nat) (s : State) : Host.Outcome State Fault Refusal :=
  .next (onDev s fun _ d => drainEnd b bytes d)

/-! ### Status and trace (R227 to R229) -/

/-- MF_STATE (Table 9-8). -/
def Frm.mfCode (f : Frm) : Nat :=
  if f.lom then 3 else match f.mf with
    | .none => 0
    | .oom => 1
    | .aligned => 2

/-- RESULT of CMD_FRM_STATUS (Table 9-8). With no multiframe alignment the spec gives no frame number: MFAS is then a free value (log entry 1). -/
def frmStatus (env : Env) (n : Nat) (d0 : Dev) : List Byte × Dev :=
  let d := d0.parityRuns n (sectionParity n)
  let f := d.frm n
  let (free, d1) := d.draw
  let counted := decide (f.st = .inFrame ∧ f.mf ≠ .none)
  (resultBits [(2, f.st.code), (2, f.mfCode), (1, b2n f.lof), (1, b2n f.lom), (1, b2n f.tim), (1, b2n f.sbdi), (1, b2n f.ca),
    (1, b2n (d.sbdiTx env n)), (6, 0), (8, d.rxSlots n), (7, if counted then f.frameNo env.now else free), (1, 0), (40, beNat f.rsRx),
    (48, d.counter (ctrFrm frmSbip n)), (48, d.counter (ctrFrm frmSbei n)), (32, d.counter (ctrFrm frmLof n)),
    (32, d.counter (ctrFrm frmFalse n))], if counted then d else d1)

def formFrmStatus : CmdForm := form 0x0405 (.fixed 1) [fldCarrier]

def execCmdFrmStatus (e : CmdEntry) (s : State) : Host.Outcome State Fault Refusal :=
  .next (runCmd formFrmStatus e (fun env d =>
    if d.domOn (domCarrier (u8 e 0)) then (let (r, d1) := frmStatus env (u8 e 0) d; .done r d1) else .refuse .domainOff 0) s)

/-- RESULT of CMD_CHAN_STATUS (Table 9-9). -/
def chanStatus (ch : Nat) (d : Dev) : List Byte :=
  let c := d.chanAt ch
  let b := d.bundleOf ch
  resultBits [(7, match b with
      | some kv => kv.1
      | none => 0), (1, b2n b.isSome), (1, b2n (b.any fun kv => kv.2.on)), (7, 0), (5, c.defects), (1, b2n (d.chanCa ch)), (1, b2n c.kp), (9, 0),
    (48, d.counter (ckey 4 (512 + ch))), (48, d.counter (ckey 4 (1024 + ch))), (48, match b with
      | some kv => d.counter (ckey 4 (1536 + kv.1))
      | none => 0), (64, c.mfc), (32, d.counter (ckey 8 (512 + ch)))]

def formChanStatus : CmdForm := form 0x0406 (.fixed 2) [fldU 0 2 0 511]

def execCmdChanStatus (e : CmdEntry) (s : State) : Host.Outcome State Fault Refusal :=
  .next (runCmd formChanStatus e (fun _ d =>
    let ch := u16 e 0
    if !d.domOn (domCarrier (ch / 128)) then .refuse .domainOff 0
    else if d.rxSlots (ch / 128) ≤ ch % 128 then badField 0
    else (let d1 := d.parityRuns (ch / 128) (pathParity ch); .done (chanStatus ch d1) d1)) s)

/-- Entry faults of CMD_FRM_TTI, whose PLEN follows from OP (R229, R477). -/
def ttiFault (e : CmdEntry) : Option Nat :=
  if e.plen.toNat < 2 then some 6
  else if 2 < u8 e 1 then (if e.plen.toNat = 3 ∨ e.plen.toNat = 67 then some (if 3 < u8 e 0 then 8 else 9) else some 6)
  else if e.plen.toNat ≠ (if u8 e 1 = 2 then 3 else 67) then some 6
  else layoutFault (payload e) [fldCarrier, fldU 1 1 0 2, fldBits 2 1 1]

/-- CMD_FRM_TTI (R213, R229). -/
def frmTti (env : Env) (e : CmdEntry) (d : Dev) : CmdRes :=
  match ttiFault e with
  | some k => .refuse .badParam k
  | none =>
    let n := u8 e 0
    let given := ((payload e).drop 3).take 64
    if d.domState (domCarrier n) = .off then .refuse .domainOff 0
    else match u8 e 1 with
    | 0 => .done [] (d.updFrm n fun f => { f with ttiTx := given })
    | 1 => .done [] ((d.updFrm n fun f => { f with ttiExp := given }).timEval env n)
    | _ =>
      let got := ((d.frm n).ttiRx.getD []).drop (if bitAt (u8 e 2) 0 then 32 else 0)
      .done (padTo 32 got ++ [if (d.frm n).ttiRx.isSome then 1 else 0]) d

def formFrmTti : CmdForm := form 0x0407 .own []

def execCmdFrmTti (e : CmdEntry) (s : State) : Host.Outcome State Fault Refusal :=
  .next (runCmd formFrmTti e (fun env d => frmTti env e d) s)

end Sys2Proof.Machine
end

