-- ==== Sys2Proof/Machine/HkOps.lean ====
section
/-! DEFINITION. Machine/HkOps.lean: housekeeping results, formats, limits, self-check and comparison (R420 to R427). -/

namespace Sys2Proof.Machine

def Dev.hkConv (d : Dev) (v : Nat) : HkConv := d.hk.conv.get .reset v
def Dev.updHk (d : Dev) (v : Nat) (f : HkConv → HkConv) : Dev := { d with hk := { d.hk with conv := d.hk.conv.upd .reset v f } }
def Dev.hkCmp (d : Dev) (i : Nat) : HkCompare := d.hk.cmp.get .reset i
def Dev.updCmp (d : Dev) (i : Nat) (f : HkCompare → HkCompare) : Dev := { d with hk := { d.hk with cmp := d.hk.cmp.upd .reset i f } }

/-- The converters work wherever VIO is present: in Calm and Service. -/
def Dev.powered (d : Dev) : Bool := decide (d.pw.state = .calm ∨ d.pw.state = .service)

/-- The 16 bits of a conversion as a code: signed for a differential pair (R421, R424). -/
def hkCode (diff : Bool) (raw : BitVec 16) : Int := if diff then raw.toInt else raw.toNat

/-- The key of an input in a mode. -/
def hkKey (input : Nat) (diff : Bool) : Nat := input + 32 * b2n diff
def HkEntry.key (x : HkEntry) : Nat := hkKey x.input x.diff

/-- Conversions averaged for one result, and how often an entry of the list is updated, in µs: one conversion takes 1 µs (R421, R422). -/
def HkEntry.conversions (x : HkEntry) : Nat := 2 ^ x.avg
def HkConv.scanPeriod (c : HkConv) : Nat := sumBy HkEntry.conversions c.list

/-- A result's code is the mean of its conversions, to within one code: the rounding is not given (R422). -/
def HkEntry.Averages (x : HkEntry) (codes : List Int) (code : Int) : Prop :=
  codes.length = x.conversions ∧ (codes.sum - code * x.conversions).natAbs < x.conversions

/-- Is an entry out of service for a calibration that names one of its legs (R425)? -/
def HkConv.inCal (c : HkConv) (x : HkEntry) : Bool :=
  match c.cal with
  | none => false
  | some o => bitAt o.mask x.input || (x.diff && bitAt o.mask (x.input + 1))

/-- The mode in which an input is scanned; single-ended where it is not (R425). -/
def HkConv.modeOf (c : HkConv) (input : Nat) : Bool := (c.list.find? fun x => decide (x.input = input)).any (·.diff)

/-- (V − OFFSET) × GAIN in µV, rounded to nearest (R425). -/
def HkCoef.apply (k : HkCoef) (v : Int) : Int := ((v - k.offset) * k.gain + 2 ^ 23) / 2 ^ 24

/-- A code in the best format available, and that format: system-calibrated, factory, raw (R424). -/
def HkConv.best (c : HkConv) (v : Nat) (x : HkEntry) (code : Int) : Int × Nat :=
  match c.coef.find? fun kv => decide (kv.1 = x.key) with
  | some k => (k.2.apply (Config.hkFactory v x.diff code), 0)
  | none => if Config.hkFusesOk v then (Config.hkFactory v x.diff code, 1) else (code, 2)

/-- STATE of an entry of the list (R422 to R426). -/
def Dev.hkState (d : Dev) (v : Nat) (x : HkEntry) : Nat :=
  let c := d.hkConv v
  if !c.enable then 5
  else if c.inCal x then 2
  else if !c.warm then 1
  else if c.suspect then 4
  else if decide (28 ≤ x.input) && (d.hkCmp x.input).implausible && !(d.hkConv (1 - v)).suspect then 3
  else 0

/-- 1% of full scale in µV (R427). -/
def hkHysteresis : Int := 15000

/-- The limit check of a new result (R427): STATE OK and format 0 or 1 only. -/
def Dev.hkLimit (d : Dev) (env : Env) (v : Nat) (x : HkEntry) (val : Int) (fmt : Nat) : Dev :=
  let lo := env.par.val (pHkLimLo + 32 * v + x.input)
  let hi := env.par.val (pHkLimHi + 32 * v + x.input)
  let inst := 32 * v + x.input
  let on := ((d.hkConv v).res.find? fun kv => decide (kv.1 = x.key)).any (·.2.limit)
  let setLimit (b : Bool) : Dev := d.updHk v fun c => { c with res := c.res.map fun kv => if kv.1 = x.key then (kv.1, { kv.2 with limit := b }) else kv }
  if d.hkState v x ≠ 0 ∨ fmt = 2 then d
  else if !on && decide (val < lo ∨ hi < val) then (setLimit true).raise .hkLimit inst [(4, val)]
  else if on && decide (lo + hkHysteresis ≤ val ∧ val ≤ hi - hkHysteresis) then (setLimit false).raise .hkLimitClr inst [(4, val)]
  else d

/-- The entry of a converter's list for a shared input. -/
def HkConv.entryOf (c : HkConv) (input : Nat) : Option HkEntry := c.list.find? fun x => decide (x.input = input)

/-- The value of an entry's last result. -/
def HkConv.valueOf (c : HkConv) (v : Nat) (x : HkEntry) : Int × Nat := c.best v x ((c.res.find? fun kv => decide (kv.1 = x.key)).map (·.2.code) |>.getD 0)

/-- The suspect converter, where exactly one fails its self-check; 0xFF for none (R426). -/
def Dev.hkSuspect (d : Dev) : Nat :=
  match (d.hkConv 0).suspect, (d.hkConv 1).suspect with
  | true, false => 0
  | false, true => 1
  | _, _ => 0xFF

/-- Both results of a shared input are new: they are compared (R426). -/
def Dev.hkCompare (d : Dev) (env : Env) (i : Nat) (va vb : Int) : Dev :=
  let c := d.hkCmp i
  if env.par.val pHkPlausTol < ((va - vb).natAbs : Int) then
    let d1 := d.updCmp i fun c => { c with newA := false, newB := false, differ := c.differ + 1, agree := 0 }
    if !c.implausible && decide (3 ≤ c.differ + 1) then
      (d1.updCmp i fun c => { c with implausible := true }).raise .hkImplausible 0 [(1, i), (1, d.hkSuspect), (4, va), (4, vb)]
    else d1
  else d.updCmp i fun c =>
    { c with newA := false, newB := false, differ := 0, agree := c.agree + 1, implausible := c.implausible && decide (c.agree + 1 < 3) }

/-- A converter's results of shared inputs that are gone are not new any more: they are not compared (R426). -/
def Dev.hkForget (d : Dev) (v : Nat) : Dev :=
  ([28, 29, 30, 31] : List Nat).foldl (fun (d : Dev) i =>
    if ((d.hkConv v).entryOf i).any fun x => (d.hkConv v).res.any fun kv => decide (kv.1 = x.key) then d
    else d.updCmp i fun c => if v = 0 then { c with newA := false } else { c with newB := false }) d

/-- A shared input has a new result on one converter: a comparison follows where both are on and scan it in one mode, neither has it under calibration, and
both results are new (R426). -/
def Dev.hkShared (d : Dev) (env : Env) (v i : Nat) : Dev :=
  let a := d.hkConv 0
  let b := d.hkConv 1
  match a.entryOf i, b.entryOf i with
  | some x, some y =>
    if a.enable = false ∨ b.enable = false ∨ x.diff ≠ y.diff ∨ a.inCal x ∨ b.inCal y then d
    else
      let d1 := d.updCmp i fun c => if v = 0 then { c with newA := true } else { c with newB := true }
      let c := d1.hkCmp i
      let va := a.valueOf 0 x
      let vb := b.valueOf 1 y
      if c.newA && c.newB && decide (va.2 ≠ 2 ∧ vb.2 ≠ 2) then d1.hkCompare env i va.1 vb.1 else d1
  | _, _ => d

end Sys2Proof.Machine
end

