-- ==== Sys2Proof/Machine/Housekeeping.lean ====
section
/-! DEFINITION. Machine/Housekeeping.lean: housekeeping commands and events (R420 to R427). -/

namespace Sys2Proof.Machine

/-- Entry `k` of CMD_HK_CFG's list (Table 17-7). -/
def hkEntryAt (e : CmdEntry) (k : Nat) : HkEntry :=
  let w := u16 e (4 + 2 * k)
  ⟨bitsAt w 0 5, bitAt w 5, bitsAt w 6 4⟩

def hkEntries (e : CmdEntry) : List HkEntry := (List.range (u8 e 2)).map (hkEntryAt e)

/-- The first entry with a reserved bit, an AVG above 8, an invalid DIFF, or an input that an earlier entry names (R422). -/
def hkBadEntry (e : CmdEntry) : Option Nat :=
  (List.range (u8 e 2)).findSome? fun k =>
    let x := hkEntryAt e k
    if bitsAt (u16 e (4 + 2 * k)) 10 6 ≠ 0 then some (4 + 2 * k + 1)
    else if 8 < x.avg ∨ (x.diff ∧ (x.input % 2 = 1 ∨ x.input = 26)) ∨ (List.range k).any (fun j => (hkEntryAt e j).input = x.input) then some (4 + 2 * k)
    else none

/-- CMD_HK_CFG (R422, R423). -/
def hkCfg (e : CmdEntry) (d : Dev) : CmdRes :=
  let v := u8 e 0
  let en := bitAt (u8 e 1) 0
  match hkBadEntry e with
  | some b => badField b
  | none =>
    if (d.hkConv v).cal.isSome then .refuse .busy 0
    else
      let keys := (hkEntries e).map HkEntry.key
      .done [] (Dev.hkForget (d.updHk v fun c => { c with
        enable := en, warm := c.warm && en && c.enable, list := hkEntries e, suspect := c.suspect && en && c.enable,
        res := if en && c.enable then c.res.filter fun kv => keys.contains kv.1 else [] }) v)

def formHkCfg : CmdForm := form 0x0B10 (.counted 4 2 2 0 32) [fldU 0 1 0 1, fldBits 1 1 1, fldAny 2 1, fldRsv 3 1]

def execCmdHkCfg (e : CmdEntry) (s : State) : Host.Outcome State Fault Refusal :=
  .next (runCmd formHkCfg e (fun _ d => hkCfg e d) s)

/-- One 8-byte result (Table 17-8). An entry that has never been converted holds no result: its value is a free value and its age saturates. -/
def Dev.hkResult (d : Dev) (now v k : Nat) : List Byte × Dev :=
  let c := d.hkConv v
  match c.list[k]? with
  | none => (leBytes 8 (packBits [(32, 0), (16, 0), (2, 0), (3, 5)]), d)
  | some x =>
    let st := d.hkState v x
    match c.res.find? fun kv => decide (kv.1 = x.key) with
    | some r =>
      let (val, fmt) := c.best v x r.2.code
      (leBytes 8 (packBits [(32, ofSigned 32 val), (16, min 0xFFFF ((now - r.2.at_) / us)), (2, fmt), (3, st)]), d)
    | none =>
      let (val, d1) := d.draw
      (leBytes 8 (packBits [(32, val), (16, 0xFFFF), (2, (c.best v x 0).2), (3, st)]), d1)

/-- The results of `n` entries from `k`. -/
def Dev.hkResults (d : Dev) (now v : Nat) : Nat → Nat → List Byte × Dev
  | _, 0 => ([], d)
  | k, n + 1 =>
    let (b, d1) := d.hkResult now v k
    let (bs, d2) := d1.hkResults now v (k + 1) n
    (b ++ bs, d2)

/-- CMD_HK_READ (R424). -/
def hkRead (env : Env) (e : CmdEntry) (d : Dev) : CmdRes :=
  let (bs, d1) := d.hkResults env.now (u8 e 0) (u8 e 1) (u8 e 2)
  .done bs d1

def formHkRead : CmdForm := form 0x0B11 (.fixed 3) [fldU 0 1 0 1, fldU 1 1 0 31, fldU 2 1 1 6]

def execCmdHkRead (e : CmdEntry) (s : State) : Host.Outcome State Fault Refusal :=
  .next (runCmd formHkRead e (fun env d => hkRead env e d) s)

/-- The inputs a mask names, ascending. -/
def hkInputs (mask : Nat) : List Nat := (List.range 32).filter fun i => bitAt mask i

/-- The averaged codes of the masked inputs, in factory format (R425). -/
def HkConv.convert (c : HkConv) (v mask : Nat) (codes : List (BitVec 16)) : Tbl Int :=
  ((hkInputs mask).zip codes).map fun p => (p.1, Config.hkFactory v (c.modeOf p.1) (hkCode (c.modeOf p.1) p.2))

/-- GAIN and OFFSET within 0.9 to 1.1 and ±15,000 µV, GAIN being num / den (R425). -/
def hkInRange (num den offset : Int) : Bool :=
  let n := if den < 0 then -num else num
  let m : Int := den.natAbs
  decide (den ≠ 0 ∧ 9 * m ≤ 10 * n ∧ 10 * n ≤ 11 * m ∧ -15000 ≤ offset ∧ offset ≤ 15000)

/-- What COMMIT finds for one input: numerator and denominator of GAIN, and OFFSET. -/
def HkOpen.solve (o : HkOpen) (i : Nat) : Int × Int × Int :=
  let z := o.zero.get 0 i
  (o.spanUv, (o.span.getD []).get 0 i - z, z)

/-- GAIN in units of 2⁻²⁴, rounded to nearest. -/
def hkGain (num den : Int) : Nat :=
  let n := if den < 0 then -num else num
  let m : Int := den.natAbs
  ((2 * n * 2 ^ 24 + m) / (2 * m)).toNat

/-- COMMIT (Table 17-9). -/
def hkCommit (v : Nat) (d : Dev) : CmdRes :=
  match (d.hkConv v).cal with
  | none => .refuse .sequence 0
  | some o =>
    if o.span.isNone then .refuse .sequence 0
    else
      let bad := (hkInputs o.mask).find? fun i => !hkInRange (o.solve i).1 (o.solve i).2.1 (o.solve i).2.2
      match bad with
      | some i => .fail .state i (d.updHk v fun c => { c with cal := none })
      | none => .done [] (d.updHk v fun c => { c with cal := none, coef := (hkInputs o.mask).foldl (fun t i =>
          t.set (hkKey i (c.modeOf i)) ⟨(o.solve i).2.2, hkGain (o.solve i).1 (o.solve i).2.1⟩) c.coef })

/-- The one input a mask names, if it names one. -/
def hkSingle (mask : Nat) : Option Nat :=
  match hkInputs mask with
  | [i] => some i
  | _ => none

/-- The payload layout of each STEP (R425, R9). -/
def hkCalLayout : Nat → List Fld
  | 1 => [fldU 0 1 0 1, fldU 1 1 0 5, fldRsv 2 2, fldAny 4 4, fldAny 8 4]
  | 4 => [fldU 0 1 0 1, fldU 1 1 0 5, fldRsv 2 2, fldAny 4 4, fldRsv 8 4, fldI 12 4 (-15000) 15000, fldAny 16 4]
  | _ => [fldU 0 1 0 1, fldU 1 1 0 5, fldRsv 2 2, fldAny 4 4, fldRsv 8 4]

/-- CMD_HK_CAL (R425): `codes` are the averaged codes of the masked inputs, in ascending order of input. -/
def hkCal (e : CmdEntry) (codes : List (BitVec 16)) (d : Dev) : CmdRes :=
  let v := u8 e 0
  let mask := u32 e 4
  let c := d.hkConv v
  if e.plen.toNat ≠ (if u8 e 1 = 4 then 20 else 12) then .refuse .badParam 6
  else match layoutFault (payload e) (hkCalLayout (u8 e 1)) with
  | some k => .refuse .badParam k
  | none =>
  match u8 e 1 with
  | 0 =>
    if c.cal.isSome then .refuse .busy 0
    else if !c.enable || !c.warm then .refuse .state 0
    else .done [] (d.updHk v fun c => { c with cal := some ⟨mask, c.convert v mask codes, 0, none⟩ })
  | 1 =>
    match c.cal with
    | none => .refuse .sequence 0
    | some o =>
      if o.mask ≠ mask then .refuse .sequence 0
      else .done [] (d.updHk v fun c => { c with cal := some { o with spanUv := i32 e 8, span := some (c.convert v mask codes) } })
  | 2 => hkCommit v d
  | 3 => .done [] (d.updHk v fun c => { c with cal := none })
  | 4 =>
    match hkSingle mask with
    | none => badField 4
    | some i =>
      if c.cal.any fun o => bitAt o.mask i then .refuse .busy 0
      else if !hkInRange (u32 e 16) (2 ^ 24) 0 then badField 16
      else .done [] (d.updHk v fun c => { c with coef := c.coef.set (hkKey i (c.modeOf i)) ⟨i32 e 12, u32 e 16⟩ })
  | _ =>
    match hkSingle mask with
    | none => badField 4
    | some i =>
      match c.coef.find? fun kv => decide (kv.1 = hkKey i (c.modeOf i)) with
      | none => .refuse .sequence 0
      | some k => .done (leBytes 4 (ofSigned 32 k.2.offset) ++ leBytes 4 k.2.gain) d

def formHkCal : CmdForm := form 0x0B12 (.oneOf [12, 20]) []

def execCmdHkCal (e : CmdEntry) (codes : List (BitVec 16)) (s : State) : Host.Outcome State Fault Refusal :=
  .next (runCmd formHkCal e (fun _ d => hkCal e codes d) s)

/-- HK_WARMUP_END (R423). -/
def hkWarm (v : Nat) (d : Dev) : Dev :=
  if d.powered && (d.hkConv v).enable then d.updHk v fun c => { c with warm := true } else d

def execHkWarmupEnd (v : Fin 2) (s : State) : Host.Outcome State Fault Refusal := .next (onDev s fun _ d => hkWarm v d)

/-- HK_CONVERSION (R422, R426, R427): an entry's averaged code; its limit check, and for a shared input its comparison. -/
def hkConversion (env : Env) (v k : Nat) (raw : BitVec 16) (d : Dev) : Dev :=
  let c := d.hkConv v
  match c.list[k]? with
  | none => d
  | some x =>
    if !d.powered || !c.enable || !c.warm || c.inCal x then d
    else
      let code := hkCode x.diff raw
      let lim := (c.res.find? fun kv => decide (kv.1 = x.key)).any (·.2.limit)
      let d1 := d.updHk v fun c => { c with res := c.res.set x.key ⟨code, env.now, lim⟩ }
      let d2 := if 28 ≤ x.input then d1.hkShared env v x.input else d1
      let r := c.best v x code
      d2.hkLimit env v x r.1 r.2

def execHkConversion (v : Fin 2) (k : Fin 32) (code : BitVec 16) (s : State) : Host.Outcome State Fault Refusal :=
  .next (onDev s fun env d => hkConversion env v k code d)

/-- HK_SELFCHECK (R426): the averaged codes of inputs 26 and 27. -/
def hkSelfcheck (v : Nat) (c26 c27 : BitVec 16) (d : Dev) : Dev :=
  let c := d.hkConv v
  if !d.powered || !c.enable || !c.warm then d
  else
    let v26 := Config.hkFactory v false (hkCode false c26)
    let v27 := Config.hkFactory v false (hkCode false c27)
    let bad := decide (2000 < (v26 - 1000000).natAbs ∨ 1000 < v27.natAbs)
    (d.updHk v fun c => { c with suspect := bad }).raiseIf (bad && !c.suspect) .hkSelfcheck v [(4, v26), (4, v27)]

def execHkSelfcheck (v : Fin 2) (c26 c27 : BitVec 16) (s : State) : Host.Outcome State Fault Refusal :=
  .next (onDev s fun _ d => hkSelfcheck v c26 c27 d)

end Sys2Proof.Machine
end

