-- ==== Sys2Proof/Machine/BootOps.lean ====
section
/-! DEFINITION. Machine/BootOps.lean: boot slots, slot pointer, the boot ROM, attestation reports (R445 to R453). -/

namespace Sys2Proof.Machine

def Dev.updBoot (d : Dev) (f : Boot → Boot) : Dev := { d with boot := f d.boot }
def Dev.updNv (d : Dev) (f : NonVolatile → NonVolatile) : Dev := { d with nv := f d.nv }

/-- Is copy 1 the one in use: the valid copy with the higher sequence number (R447)? -/
def NonVolatile.useCopy1 (v : NonVolatile) : Bool := v.ptr1.valid && (!v.ptr0.valid || decide (v.ptr0.seq < v.ptr1.seq))

/-- The slot pointer in use; slot A where no copy is valid. -/
def NonVolatile.selectedB (v : NonVolatile) : Bool :=
  if v.useCopy1 then v.ptr1.slotB else v.ptr0.valid && v.ptr0.slotB

/-- The older copy is rewritten to name a slot (R447). -/
def NonVolatile.point (v : NonVolatile) (slotB : Bool) : NonVolatile :=
  let seq := (if v.useCopy1 then v.ptr1.seq else if v.ptr0.valid then v.ptr0.seq else 0) + 1
  if v.useCopy1 then { v with ptr0 := ⟨seq, slotB, true⟩ } else { v with ptr1 := ⟨seq, slotB, true⟩ }

def NonVolatile.slot (v : NonVolatile) (b : Bool) : Option FwImage := if b then v.slotB else v.slotA
def NonVolatile.setSlot (v : NonVolatile) (b : Bool) (x : Option FwImage) : NonVolatile := if b then { v with slotB := x } else { v with slotA := x }

/-- Phases 3 to 5 on one slot: what the ROM finds, then SVN ≥ F (R446). An empty slot has no valid header. -/
def slotFault (v : NonVolatile) (b : Bool) (found : Option Byte) : Option Nat :=
  match found with
  | some c => some c.toNat
  | none => match v.slot b with
    | none => some 0x07
    | some x => if x.svn < v.fuseF then some 0x03 else none

/-- The phase in which a failure code arises (Table 19-2). -/
def failPhase (code : Nat) : Nat := if code = 0x02 then 4 else if code = 0x03 then 5 else 3

/-- The boot fails: BOOT_STATUS [4] and its code, MBX_STATE FAULT (R446). -/
def Dev.bootFail (d : Dev) (phase code : Nat) : Dev :=
  (d.updBoot fun b => { b with phase := phase, failed := true, failCode := code }).emit (.mbx .fault)

/-- What Frelvo reports once MBX_STATE first becomes READY: an assertion of PWRWARN# (R67), converters whose fused values failed (R424). -/
def Dev.bootReports (d : Dev) : Dev :=
  let d1 := d.raiseIf d.pwrWarn .pwrWarn 0 [(4, d.pw.vin)]
  ([0, 1] : List Nat).foldl (fun d v => d.raiseIf (!Config.hkFusesOk v) .hkNoFactory v []) d1

/-- The image starts (R446, phases 6 and 7); `fall` is the failed slot and its code where the other slot booted. -/
def Dev.bootStart (d : Dev) (b : Bool) (fall : Option (Bool × Nat)) (selfTestOk : Bool) : Dev :=
  let d1 := d.updBoot fun x => { x with bootB := b, fallback := fall.isSome, fallbackCode := (fall.map (·.2)).getD 0 }
  if !selfTestOk then d1.bootFail 6 0x06
  else
    let d2 := d1.updBoot fun x => { x with phase := 7, running := d.nv.slot b }
    let d3 := match fall with
      | some f => d2.raise .bootFallback 0 [(1, b2n f.1), (1, f.2)]
      | none => d2
    (d3.emit (.mbx .ready)).bootReports

/-- The boot ROM runs (R446). -/
def Dev.bootRom (d : Dev) (e : BootEvidence) : Dev :=
  if !e.fusesOk then d.bootFail 1 0x04
  else
    let sel := d.nv.selectedB
    let find (b : Bool) : Option Byte := if b then e.failB else e.failA
    match slotFault d.nv sel (find sel) with
    | none => d.bootStart sel none e.selfTestOk
    | some code =>
      match slotFault d.nv (!sel) (find (!sel)) with
      | none => d.bootStart (!sel) (some (sel, code)) e.selfTestOk
      | some other => (d.updBoot fun b => { b with bootB := sel, fallbackCode := code }).bootFail (failPhase other) 0x01

/-- FW_VERSION (R40): series from the running image; patch 0 until Frelvo has started. -/
def Boot.version (b : Boot) : Nat :=
  match b.running with
  | some x => x.version
  | none => 0x04010000

/-- The header checks of R448 on a staged image, in ascending offset: the offset of the first field out of range. -/
def fwHeaderFault (h : List Byte) (room : Nat) : Option Nat :=
  if fieldAt h 0 4 ≠ 0x46524C56 then some 0
  else if fieldAt h 4 1 ≠ 1 then some 4
  else if fieldAt h 5 3 ≠ 0 then some 5
  else if 64 < fieldAt h 8 4 then some 8
  else if fieldAt h 16 4 < 4096 ∨ 8388608 < fieldAt h 16 4 ∨ room < fieldAt h 16 4 then some 16
  else if fieldAt h 20 108 ≠ 0 then some 20
  else none

/-- Is a handle loaded, by number? -/
def Dev.loadedHandles (d : Dev) : List Nat := (List.range 32).filter fun h => (d.eng.prog.map (·.1)).contains h

/-- The bytes 0 to 511 of an attestation report (Table 19-5). -/
def Dev.attestBody (d : Dev) (env : Env) (nonce : List Byte) : List Byte :=
  let v := d.nv
  let b := d.boot
  let eng := d.loadedHandles.flatMap fun h => BitVec.ofNat 8 h :: ((d.eng.prog.find? fun kv => decide (kv.1 = h)).map (·.2.digest)).getD []
  let flags := [b.fallback, v.ownerLock, env.par.on pKeyWrapOnly, d.key.kek.isSome, decide (0 < b.activations)]
  let image := b.running
  leBytes 64 (packBits ([(32, 0x41545354), (8, 1)] ++ flags.map (fun x => (1, b2n x)) ++ [(3, 0)]
      ++ ([1, 2, 3, 4] : List Nat).map (fun p => (1, b2n (v.revoked.contains p))) ++ [(12, 0), (64, Config.devUid.toNat), (32, 0x21), (32, b.version),
        (32, (image.map (·.svn)).getD 0), (8, v.fuseF)] ++ ([0, 1, 2, 3, 4] : List Nat).map (fun k => (8, v.engMin.get 0 k))))
    ++ padTo 32 nonce ++ padTo 32 ((image.map (·.digest)).getD []) ++ padTo 32 Config.romDigest
    ++ ([1, 2, 3, 4] : List Nat).flatMap (fun p => padTo 32 (((v.keyDigest.find? fun kv => decide (kv.1 = p)).map (·.2)).getD []))
    ++ (if eng.isEmpty then List.replicate 32 0 else padTo 32 (Config.sha256 eng))
    ++ leBytes 4 (sumBy (fun h => 2 ^ h) d.loadedHandles) ++ leBytes 4 b.resetCause.toNat ++ leBytes 8 env.now ++ List.replicate 176 0

end Sys2Proof.Machine
end

