-- ==== Sys2Proof/Machine/BusOps.lean ====
section
/-! DEFINITION. Machine/BusOps.lean: BAR0 as a map (R39, R40, R44, R55, R59, R61, R465, R508): what each register reads and what a write to it does, and which
interface may write it (R65). -/

namespace Sys2Proof.Machine

/-! ### Who may write (R65) -/

/-- MBX_PORT shuts this interface out. -/
def Io.excludes (io : Io) (via : Via) : Bool :=
  match via with
  | .pcie => decide (io.mbxPort = 2)
  | .mgp => decide (io.mbxPort = 1)

/-- The regions that MBX_PORT restricts: command ring, CMD_TAIL, CPL_HEAD, event window, interrupt block. -/
def restricted (off : Nat) : Bool :=
  decide (0x1000 ≤ off ∧ off < 0x5000) || decide (off = 0x6000 ∨ off = 0x6008) || decide (0x7000 ≤ off ∧ off < 0x9000)

/-- MBX_ERR bits (Table 2-4). -/
abbrev errOverrun : Nat := 0
abbrev errBadHead : Nat := 1
abbrev errPortDrop : Nat := 2

/-- A write from an excluded interface is dropped and sets PORT_DROP. -/
def Io.guarded (io : Io) (via : Via) (f : Io → Io) : Io := if io.excludes via then io.mbxError errPortDrop else f io

/-! ### Writes on the interface block -/

/-- The doorbell (R44, R45). -/
def Io.writeCmdTail (io : Io) (v : Word) : Io :=
  let t : RingPtr := v.setWidth 7
  if 64 < (t - io.cmdHead).toNat then io.mbxError errOverrun else { io with cmdTail := t }

/-- The host frees completion slots (R45). -/
def Io.writeCplHead (io : Io) (v : Word) : Io :=
  let h : RingPtr := v.setWidth 7
  if (io.cplTail - io.cplHead).toNat < (h - io.cplHead).toNat then io.mbxError errBadHead else { io with cplHead := h }

/-- Both rings are empty. -/
def Io.ringsEmpty (io : Io) : Bool := decide (io.cmdHead = io.cmdTail ∧ io.cplHead = io.cplTail)

/-- MBX_PORT (R65): 3 is dropped; once it is non-zero only the permitted interface changes it, and only with both rings empty. -/
def Io.writePort (io : Io) (via : Via) (v : Word) : Io :=
  let p : BitVec 2 := v.setWidth 2
  if p = 3 ∨ (io.mbxPort ≠ 0 ∧ (io.excludes via = true ∨ io.ringsEmpty = false)) then io.mbxError errPortDrop else { io with mbxPort := p }

/-- EVT_MARK (R55, R58): a value above 1,024 is stored as 1,024. -/
def Io.writeMark (io : Io) (v : Word) : Io :=
  let m : BitVec 11 := if evtCapacity < (v.setWidth 11 : BitVec 11).toNat then 1024 else v.setWidth 11
  Io.reMark io { io with evtMark := m }

/-- A write of 1 to MARK_HIT: the latch clears, and sets again at once where its condition still holds (R58). -/
def Io.clearMark (io : Io) : Io :=
  let io1 := { io with markHit := false }
  if io.markHit && io1.markCond then io1.latchMark else io1

/-- RUN = 1 ends start-up mode and evaluates the watermark; RUN = 0 is ignored (R56). -/
def Io.writeRun (io : Io) (run : Bool) : Io := if run && !io.runMode then Io.reMark io { io with runMode := true } else io

/-- EVT_STATUS (R55): the write-1-to-clear bits first, then RUN. -/
def Io.writeEvtStatus (io : Io) (v : Word) : Io :=
  let io1 := if v.getLsbD 0 then io.clearMark else io
  let io2 := if v.getLsbD 2 then { io1 with overflow := false } else io1
  io2.writeRun (v.getLsbD 1)

/-- EVT_POP (R55): 1 removes the oldest entry; a freed entry lets EVT_OVERFLOW in (R57). -/
def Io.pop (io : Io) (now : Nat) (v : Word) : Io :=
  if v.getLsbD 0 then { io with evts := io.evts.drop 1 }.overflowEntry now else io

/-- INT_ENABLE (R59): each 1 written where the INT_STATUS bit is 1 makes a message due. -/
def Io.writeEnable (io : Io) (v : Word) : Io :=
  { io with intEnable := v.setWidth 16,
            msgDue := io.msgDue ++ (List.range 16).filter fun k => v.getLsbD k && io.intStatus.getLsbD k }

/-- Registers of the interface block, rings and doorbells apart, by offset. An offset with no register is left alone (R39). -/
def Io.writeReg (io : Io) (now off : Nat) (v : Word) : Io :=
  if 0x1000 ≤ off ∧ off < 0x5000 then { io with cmdRing := io.cmdRing.writeAll off (leBytes 4 v.toNat) }
  else if off = 0x6000 then io.writeCmdTail v
  else if off = 0x6008 then io.writeCplHead v
  else if off = 0x6018 then { io with mbxErr := io.mbxErr &&& ~~~ v.setWidth 3 }
  else if off = 0x7024 then io.writeMark v
  else if off = 0x7028 then io.writeEvtStatus v
  else if off = 0x702C then { io with evtDropped := io.evtDropped &&& ~~~ v }
  else if off = 0x7030 then io.pop now v
  else if off = 0x8000 then { io with intStatus := io.intStatus &&& ~~~ v.setWidth 16 }
  else if off = 0x8004 then io.writeEnable v
  else if 0x8040 ≤ off ∧ off < 0x8080 then { io with intVec := io.intVec.set ((off - 0x8040) / 4) (v.setWidth 6) }
  else io

/-- Registers of the snapshot block other than SNAP_CTRL (R465). -/
def Snap.writeReg (x : Snap) (off : Nat) (v : Word) : Snap :=
  if off = 0x20004 then (if 1 ≤ v.toNat ∧ v.toNat ≤ 10000 then { x with period := v.setWidth 14 } else x)
  else if off = 0x2000C then
    { x with late := x.late && !v.getLsbD 1, skip := x.skip && !v.getLsbD 2, dmaErr := x.dmaErr && !v.getLsbD 3 }
  else if off = 0x20010 then { x with skipped := x.skipped &&& ~~~ v }
  else if off = 0x20020 then
    (if x.dmaEn then x else { x with dmaBase := BitVec.ofNat 64 (x.dmaBase.toNat / 2 ^ 32 * 2 ^ 32 + v.toNat / 4096 * 4096) })
  else if off = 0x20024 then
    (if x.dmaEn then x else { x with dmaBase := BitVec.ofNat 64 (x.dmaBase.toNat % 2 ^ 32 + v.toNat * 2 ^ 32) })
  else if off = 0x20028 then (if x.dmaEn then x else { x with dmaCount := v.setWidth 8 })
  else if off = 0x20030 then { x with dmaHead := v.setWidth 8 }
  else if off = 0x20034 then { x with dmaSkipped := x.dmaSkipped &&& ~~~ v }
  else x

/-- SNAP_CTRL (R465, R468): RUN, DMA_EN (not while DMA_COUNT is below 2), TRIG. -/
def State.writeSnapCtrl (s : State) (v : Word) : State :=
  let x := s.io.snap
  let s1 : State := { s with io := { s.io with snap := { x with run := v.getLsbD 0, dmaEn := v.getLsbD 1 && decide (2 ≤ x.dmaCount.toNat) } } }
  if v.getLsbD 2 then snapTrig s1 else s1

/-! ### The block debug window (R508, R62) -/

/-- The region an offset of the window lies in: `some none` the common one, `some (some d)` that of domain `d`. -/
def debugRegion (off : Nat) : Option (Option Nat) :=
  if 0x80000 ≤ off ∧ off < 0x90000 then some none
  else if 0x90000 ≤ off ∧ domIds.contains ((off - 0x90000) / 0x1000) then some (some ((off - 0x90000) / 0x1000))
  else none

/-- An access to the region faults: its own domain is OFF, IDLE or unclocked. -/
def State.debugFaults (s : State) (off : Nat) : Bool :=
  match debugRegion off with
  | some (some dom) => !s.dev.domOn dom
  | _ => false

/-- What a faulting read returns (R62). -/
abbrev faultWord : Nat := 0xD0FFD0FF

/-! ### A write to BAR0 -/

/-- A 32-bit write to BAR0 from one interface (R39, R62, R65). A write through the debug window to the common region or to a region that is ON has no
defined effect on traffic (R4, R508): it is dropped, which is the model's choice (log entry 146). -/
def State.busWrite (s : State) (via : Via) (off : Nat) (v : Word) : State :=
  if off % 4 ≠ 0 then s
  else if off = 0x6014 then { s with io := s.io.writePort via v }
  else if restricted off then { s with io := s.io.guarded via fun io => io.writeReg s.now off v }
  else if off = 0x20000 then s.writeSnapCtrl v
  else if 0x20000 ≤ off ∧ off < 0x21000 then { s with io := { s.io with snap := s.io.snap.writeReg off v } }
  else if s.debugFaults off then { s with io := s.io.accessFault off true }
  else { s with io := s.io.writeReg s.now off v }

/-! ### Reads -/

/-- An event entry as its 256 bits (Table 2-7a). -/
def Event.bytes (x : Event) : List Byte :=
  leBytes 20 (packBits [(16, x.code), (16, x.inst), (3, x.sev), (29, 0), (32, x.seq.toNat), (64, x.time)]) ++ padTo 12 x.payload

/-- EVT_HEAD: the oldest entry, zeros when there is none. -/
def Io.evtHead (io : Io) : List Byte :=
  match io.evts with
  | [] => []
  | x :: _ => x.bytes

/-- BOOT_STATUS (R40). -/
def Boot.status (b : Boot) : Nat := packBits [(4, b.phase), (1, b2n b.failed), (3, 0), (8, if b.failed then b.failCode else 0)]

/-- The vector of source `n` (R59). -/
def Io.vec (io : Io) (n : Nat) : BitVec 6 := io.intVec.get (BitVec.ofNat 6 n) n

/-- The registers of the snapshot block (Table 20-3). -/
def Snap.readReg (x : Snap) (off : Nat) : Nat :=
  match off with
  | 0x20000 => packBits [(1, b2n x.run), (1, b2n x.dmaEn)]
  | 0x20004 => x.period.toNat
  | 0x20008 => x.seq.toNat
  | 0x2000C => packBits [(1, b2n x.busy.isSome), (1, b2n x.late), (1, b2n x.skip), (1, b2n x.dmaErr)]
  | 0x20010 => x.skipped.toNat
  | 0x20020 => bitsAt x.dmaBase.toNat 0 32
  | 0x20024 => bitsAt x.dmaBase.toNat 32 32
  | 0x20028 => x.dmaCount.toNat
  | 0x2002C => x.dmaTail.toNat
  | 0x20030 => x.dmaHead.toNat
  | 0x20034 => x.dmaSkipped.toNat
  | _ => 0

/-- The doorbell, event and interrupt registers. -/
def Io.readReg (io : Io) (off : Nat) : Nat :=
  match off with
  | 0x6000 => io.cmdTail.toNat
  | 0x6004 => io.cmdHead.toNat
  | 0x6008 => io.cplHead.toNat
  | 0x600C => io.cplTail.toNat
  | 0x6010 => io.mbxState.code
  | 0x6014 => io.mbxPort.toNat
  | 0x6018 => io.mbxErr.toNat
  | 0x7020 => io.evts.length
  | 0x7024 => io.evtMark.toNat
  | 0x7028 => packBits [(1, b2n io.markHit), (1, b2n io.runMode), (1, b2n io.overflow)]
  | 0x702C => io.evtDropped.toNat
  | 0x8000 => io.intStatus.toNat
  | 0x8004 => io.intEnable.toNat
  | 0x8010 => io.accessFaultAddr.toNat
  | _ => if 0x8040 ≤ off ∧ off < 0x8080 then (io.vec ((off - 0x8040) / 4)).toNat else 0

/-- Identity and boot registers (Table 2-2). -/
def Boot.readReg (b : Boot) (off : Nat) : Nat :=
  match off with
  | 0x0 => 0x48431600
  | 0x4 => 0x21
  | 0x8 => b.version
  | 0x10 => bitsAt Config.devUid.toNat 0 32
  | 0x14 => bitsAt Config.devUid.toNat 32 32
  | 0x100 => b.status
  | 0x104 => b.resetCause.toNat
  | 0x108 => b.wakeCause.toNat
  | _ => 0

/-- What an aligned BAR0 offset reads, the debug window apart; an offset in no region reads zero (R39). -/
def State.regRead (s : State) (off : Nat) : Nat :=
  if off < 0x1000 then s.dev.boot.readReg off
  else if off < 0x5000 then leNat (s.io.cmdRing.readAll off 4)
  else if off < 0x6000 then leNat (s.io.cplRing.readAll off 4)
  else if 0x7000 ≤ off ∧ off < 0x7020 then fieldAt s.io.evtHead (off - 0x7000) 4
  else if off < 0x9000 then s.io.readReg off
  else if 0x10000 ≤ off ∧ off < 0x10400 then s.fspWord ((off - 0x10000) / 4)
  else if 0x20000 ≤ off ∧ off < 0x21000 then s.io.snap.readReg off
  else 0

/-- A word of the crypto region that is key-slot memory (R345); which words are is the part's own layout. -/
def keySlotWord (off : Nat) : Bool := decide (debugRegion off = some (some domCrypto)) && Config.keySlotWord off

/-- A read of one aligned BAR0 word. The state inside a powered block has no layout in the spec: a free value (R508); key-slot memory reads zero (R345). -/
def State.busRead (s : State) (off : Nat) : Nat × State :=
  match debugRegion off with
  | none => (s.regRead off, s)
  | some _ =>
    if keySlotWord off then (0, s)
    else if s.debugFaults off then (faultWord, { s with io := s.io.accessFault off false })
    else
      let r := s.dev.draw
      (r.1 % 2 ^ 32, { s with dev := r.2 })

/-- `n` words from an aligned offset upwards, wrapping from 0x000F_FFFF to 0 (R63). -/
def State.busReadWords : Nat → Nat → State → List Byte × State
  | 0, _, s => ([], s)
  | n + 1, off, s =>
    let r := s.busRead (off % 2 ^ 20)
    let rest := State.busReadWords n (off + 4) r.2
    (leBytes 4 r.1 ++ rest.1, rest.2)

/-- Whole registers written in order from an aligned offset upwards; what is left of a partial one is discarded (R63). -/
def State.busWriteWords : Nat → Nat → List Byte → State → State
  | 0, _, _, s => s
  | n + 1, off, bs, s => State.busWriteWords n (off + 4) (bs.drop 4) (s.busWrite .mgp (off % 2 ^ 20) (BitVec.ofNat 32 (leNat (bs.take 4))))

end Sys2Proof.Machine
end

