-- ==== Sys2Proof/Machine/PowerOps.lean ====
section
/-! DEFINITION. Machine/PowerOps.lean: carriers taken down, domains changed, the drop to Calm, resets (R22, R78 to R85, R137, R512). -/

namespace Sys2Proof.Machine

def Dev.updPw (d : Dev) (f : Power → Power) : Dev := { d with pw := f d.pw }

/-- The four carriers, the 16 quads' and clusters' numbers. -/
def carriers : List Nat := [0, 1, 2, 3]

/-! ### What an event takes down (R512) -/

/-- A bundle is disabled by an event: what had not drained is discarded and counted, how much the spec leaves open (R81, log entry 1). -/
def Dev.killBundle (d : Dev) (st : Status) (b : Nat) : Dev :=
  let x := d.bundleAt b
  if x.st = .disabled then d
  else
    let (n, d1) := if x.on then d.draw else (0, d)
    (((d1.insoleClear b).count (ckey 4 (1536 + b)) n).updBundle b fun x => { x with st := .disabled }).finish 0x0403 b st 0 []

/-- A running CMD_STITCH_PORT_ENABLE that an event ends is withdrawn (R16, R512). -/
def Dev.stitchWithdrawn (d : Dev) (env : Env) (p : Nat) : Dev :=
  match env.runs 0x0703 p with
  | some true => (d.stitchClear p).updStitch p Stitch.withdrawn
  | _ => d

/-- A carrier goes dark in both directions at once: steps, packets, rounds and acquisitions that run on it end with `st` (R22, R117, R163, R182, R201,
R220, R243, R434, R512). -/
def Dev.carrierDark (d : Dev) (env : Env) (n : Nat) (st : Status) : Dev :=
  let d1 := ((d.stepDark env n st).brzWithdrawn env n).brzFinish n st
  let d2 := ((d1.darken env n st).breezeAbort n 1).updCal n fun c => { c with dacBusy := c.dacBusy && !c.dacDone }
  let d3 := ((d2.finish 0x0318 n st 0 []).stopRound env n []).finish 0x0310 n st 0 []
  let d4 := (d3.endReacq n st 0).stopRx env n .down
  (d4.frmDown env n).updFec n fun f => { f.toDown with inj := none }

/-- Whatever is being built for the carrier is given up. -/
def Dev.buildDown (d : Dev) (n : Nat) : Dev := ((d.endRestore n).undoResize n).dropBuild n

/-- The value a cross-faded setting was heading for. -/
def FadeVal.settle (f : FadeVal) : FadeVal := ⟨f.waiting.getD (f.fading.getD f.active), none, none⟩

/-- What a carrier loses in OFF: tables, lasts, calibration, measurements, the held-down state; its operating point and what stands in parameters stay (R22,
R78, R104, R131, R175). -/
def Carrier.lost (c : Carrier) : Carrier :=
  let t := c.tx.tablesOff
  let r := c.rx
  { c with
    heldDown := false, cal := .reset,
    fec := { Fec.reset with iter := c.fec.iter, latmode := c.fec.latmode },
    frm := { Frm.reset with ca := true, dirtyAt := c.frm.dirtyAt, ttiTx := c.frm.ttiTx, ttiExp := c.frm.ttiExp },
    tx := { t with cdPre := t.cdPre.settle, nlcCount := t.nlcCount.settle, clipPpm := 0 },
    rx := { Rx.reset with op := r.op, lo := r.lo, hi := r.hi, step := r.step, taps := r.taps, foRange := r.foRange, pilotSeed := r.pilotSeed,
                          pilotGain := r.pilotGain, failCause := r.failCause, acqCount := r.acqCount, nlcUpdates := r.nlcUpdates,
                          nlcCount := r.nlcCount.settle, walks := r.walks } }

/-- The links that serve carrier `n`, by the number SEAM_DEGRADED gives them, and the carriers of a link (R18). -/
def seamLinks (n : Nat) : List Nat := [n / 2, 2 + n]
def seamCarriers (link : Nat) : List Nat := if link = 0 then [0, 1] else if link = 1 then [2, 3] else [link - 2]

/-- A link that holds no carrier down any more works again (R483, R490). -/
def Dev.seamFree (d : Dev) (n : Nat) : Dev :=
  (seamLinks n).foldl (fun d l =>
    if (seamCarriers l).any fun m => (d.carrier m).heldDown then d else { d with seam := d.seam.upd .reset l fun x => { x with failed := false } }) d

/-- A group that is still being armed is disarmed when the domain of a leg leaves ON (R251, R512). -/
def Dev.armingEnds (d : Dev) (n : Nat) (st : Status) : Dev :=
  (d.group.filter fun kv => decide (kv.2.st = .filling ∧ ((d.bundleAt kv.2.work).carrier = n ∨ (d.bundleAt kv.2.prot).carrier = n))).foldl
    (fun d kv => (d.disarm kv.1).finish 0x0512 kv.1 st 0 []) d

/-- The FEC counters of a carrier start again: at domain OFF, and at ON (R196, R203). -/
def Dev.fecCounters (d : Dev) (n : Nat) : Dev := ([3, 4, 5, 6, 7, 8, 9, 10] : List Nat).foldl (fun d k => d.restartCounter (ckey 3 (4 * k + n))) d

/-- Domain Cn leaves ON or IDLE for `goal` (R78, R81, R131, R143); its lasts stay with it in IDLE (log entry 190). -/
def Dev.carrierLeaves (d : Dev) (env : Env) (n : Nat) (goal : DomState) (st : Status) : Dev :=
  let d1 := ((((d.bundlesOf n).map (·.1)).foldl (fun d b => d.killBundle st b) (d.carrierDark env n st)).buildDown n).armingEnds n st
  let d2 := ([SysProg.search, .builder, .trainer, .ratePolicy] : List SysProg).foldl (fun d p => d.endRun p n) d1
  let d3 := { d2 with eng := { d2.eng with capture := d2.eng.capture.drop n } }
  let d4 := d3.updRx n fun r => { r with nlcTraining := false, los := false }
  if goal = .off then
    (((((d4.releaseLasts n).updCarrier n Carrier.lost).updBrz n fun b => { b with en := false }).seamFree n).fecCounters n).chansGone n
  else d4

/-- Counters that restart when domain Cn comes ON: those of the FEC, and LOF_COUNT (Table 8-4, R227). -/
def Dev.carrierCounters (d : Dev) (n : Nat) : Dev := (d.restartCounter (ckey 4 (12 + n))).fecCounters n

/-- A carrier obtains its active set, or stays short (R131, R137). -/
def Dev.allocOrShort (d : Dev) (env : Env) (n : Nat) : Dev :=
  let h := d.needOf n
  if (d.rx n).op.isNone then d
  else match d.allocActive env n h with
    | some d1 => d1.updRx n fun r => { r with short := false, stale := true }
    | none => (d.updRx n fun r => { r with short := true }).raise .lastShort n [(1, h), (1, d.freeLasts.length)]

/-- A lender comes ON with fewer lasts than its need: it obtains them, or is short; one that was short before has its full need again (R134, R137). -/
def Dev.wakeShort (d : Dev) (env : Env) (n : Nat) : Dev :=
  let h := d.needOf n
  if (d.rx n).op.isNone || (d.rx n).preempted then d
  else if h ≤ d.setSize n then d.restored n h
  else match d.allocActive env n h with
    | some d1 => (d1.updRx n fun r => { r with stale := true }).restored n h
    | none => (d.updRx n fun r => { r with short := true }).raise .lastShort n [(1, h), (1, d.freeLasts.length)]

/-- Domain Cn is ON; lasts apart (R134, R175, R221). -/
def Dev.carrierOn (d : Dev) (env : Env) (n : Nat) (wasIdle : Bool) : Dev :=
  let d1 := ((d.calDomainOn env n).sectionCa env n).carrierCounters n
  if wasIdle then (d1.recallLoans n).wakeShort env n else d1

/-! ### The other domains -/

/-- Lanes of quad `q`. -/
def quadLanes (q : Nat) : List Nat := [4 * q, 4 * q + 1, 4 * q + 2, 4 * q + 3]

/-- A quad leaves ON or IDLE: its lanes stop; a port that waits to come up is told, the rest follows (R81, R305, R317). -/
def Dev.quadLeaves (d : Dev) (env : Env) (q : Nat) (goal : DomState) (st : Status) : Dev :=
  let p := q / 4
  let hit := (d.stitchLanes p).any fun l => decide (l / 4 = q)
  let d1 := if hit then (d.stitchWithdrawn env p).finish 0x0703 p st 0 [] else d
  d1.updLanes (quadLanes q) fun l =>
    if goal = .off then { l.powerDown with loopback := 0, gen := 0, chk := 0, flips := 0 } else l.powerDown

def Dev.quadOn (d : Dev) (q : Nat) : Dev := (quadLanes q).foldl (fun d l => d.restartCounter (ctrLane laneLos l)) d

/-- A group is released to its selected leg and becomes unprotected (R81, Table 3-7). -/
def Dev.releaseGroup (d : Dev) (st : Status) (g : Nat) : Dev :=
  let x := d.groupAt g
  if x.st = .filling then (d.disarm g).finish 0x0512 g st 0 []
  else if x.armed then
    (d.updGroup g Group.rest).finish 0x0512 g st 0 []
  else d

/-- A stack leaves ON or IDLE with traffic on it (R81, Table 3-7); a hosted program that spills into it faults. -/
def Dev.stackForced (d : Dev) (env : Env) (st : Status) : Dev :=
  let d1 := ((d.bundle.filter fun kv => kv.2.buffered).map (·.1)).foldl (fun d b => d.killBundle st b) d
  let d2 := (d1.group.map (·.1)).foldl (fun d g => d.releaseGroup st g) d1
  ((d2.eng.prog.filter fun kv => kv.2.placed && decide (0 < kv.2.spillMib)).map (·.1)).foldl (fun d h => d.progFault env h .memory 0) d2

/-- A stack stops: re-striping and its scrub pass end. -/
def Dev.stackStops (d : Dev) (k : Nat) : Dev :=
  (d.updPw fun p => { p with restriping := false }).updMsys fun m => { m with scrubStart := m.scrubStart.drop k, scrubHeld := m.scrubHeld.drop k, scrubLate := m.scrubLate.erase k }

/-- What a stack held is lost with it, the snapshot ring and the other striped regions among it; golden copies, staged images and the dump stay while a
stack stays ON (R80, R281, R449, R469). -/
def Dev.stackGone (d : Dev) (k : Nat) : Dev := (d.stackStops k).emit (.wipe .stack)

/-- The staged image and the dump are lost. -/
def Dev.stagedLost (d : Dev) : Dev := d.updBoot fun b => { b with staged := none, stagedBad := false, dumpHeld := false }

/-- No stack has stayed ON: the system region is lost (R80, R449, R469). -/
def Dev.regionLost (d : Dev) : Dev := d.stagedLost.emit (.wipe .region)

/-- A stack goes to IDLE: re-striping stops, its scrub pass waits (R273, R281). -/
def Dev.stackIdle (d : Dev) (env : Env) (k : Nat) : Dev :=
  (d.updPw fun p => { p with restriping := false }).updMsys fun m => { m with scrubHeld := m.scrubHeld.set k (env.now - m.scrubStart.get env.now k) }

/-- A stack comes ON; the second one with data to spread (R261); its scrub pass begins, or resumes where it stopped (R273). -/
def Dev.stackOn (d : Dev) (env : Env) (k : Nat) : Dev :=
  let data := (d.bundle.any fun kv => kv.2.buffered) || d.group.any fun kv => kv.2.armed
  let other := d.domOn (domStack (1 - k))
  (d.updPw fun p => { p with restriping := p.restriping || (data && other) }).updMsys fun m => { m with scrubStart := m.scrubStart.set k (env.now - m.scrubHeld.get 0 k), scrubHeld := m.scrubHeld.drop k }

/-! ### What depends on a domain (Table 3-6) -/

/-- An armed group with a leg on carrier `n`. -/
def Dev.legOn (d : Dev) (n : Nat) : Bool :=
  d.group.any fun kv => kv.2.armed && (decide ((d.bundleAt kv.2.work).carrier = n) || decide ((d.bundleAt kv.2.prot).carrier = n))

/-- A bundle enabled, being enabled, or draining. -/
def Bundle.live (b : Bundle) : Bool := b.on || decide (b.st = .enabling)

/-- Jobs queued or running, and loaded keys. -/
def Dev.jobsPending (d : Dev) : Bool :=
  !d.key.normal.isEmpty || !d.key.urgent.isEmpty || d.key.running.isSome || d.key.suspended.isSome
def Dev.keysLoaded (d : Dev) : Bool :=
  (d.key.chan.any fun kv => kv.2.slot0.isSome || kv.2.slot1.isSome) || !d.key.job.isEmpty || d.key.kek.isSome

/-- Does something depend on the domain? (Table 3-6) -/
def Dev.depends (d : Dev) (id : Nat) : Bool :=
  if id < 0x10 then (d.bundlesOf id).any (fun kv => kv.2.live) || decide ((d.tx id).state ≠ .dark) || d.legOn id
  else if id < 0x20 then
    (quadLanes (id - 0x10)).any fun l =>
      (match d.ethOfLane l with
        | some p => (d.ethAt p).enabled
        | none => false)
      || (match d.stitchOfLane l with
        | some p => (d.stitch p).enabled
        | none => false)
      || decide ((d.lane l).gen ≠ 0 ∨ (d.lane l).loopback ≠ 0)
  else if id < 0x30 then !(d.hostedOn (id - 0x20)).isEmpty || d.runs.any fun r => decide (r.cluster = some (id - 0x20))
  else if id < 0x40 then
    (d.bundle.any fun kv => kv.2.buffered && kv.2.live) || (d.group.any fun kv => kv.2.armed) || d.jobsPending
      || d.eng.prog.any fun kv => kv.2.placed && decide (0 < kv.2.spillMib)
  else if id = domCrypto then d.keysLoaded || d.jobsPending
  else d.timInUse

/-! ### Changing a domain -/

def Dev.setDom (d : Dev) (id : Nat) (goal : DomState) : Dev := d.updPw fun p => { p with dom := p.dom.set id goal }

/-- R512: the object's domain has gone OFF, or otherwise left ON. -/
def leaveStatus (goal : DomState) : Status := if goal = .off then .domainOff else .state

/-- A domain goes to IDLE or OFF; `forced`: something depends on it. -/
def Dev.domDown (d : Dev) (env : Env) (id : Nat) (goal : DomState) (forced : Bool) : Dev :=
  let st := leaveStatus goal
  if id < 0x10 then (d.setDom id goal).carrierLeaves env id goal st
  else if id < 0x20 then (d.setDom id goal).quadLeaves env (id - 0x10) goal st
  else if id < 0x30 then (d.setDom id goal).clusterDown env (id - 0x20)
  else if id < 0x40 then
    let d1 := if forced then (d.stackForced env st).jobsEnd env .domainOff else d
    let d2 := d1.setDom id goal
    if goal = .off then d2.stackGone (id - 0x30) else d2.stackIdle env (id - 0x30)
  else if id = domCrypto then
    let d1 := if forced then d.jobsEnd env .domainOff else d
    (if forced || decide (goal = .off) then d1.wipeKeys else d1).setDom id goal
  else if goal = .off then (d.timOff st).setDom id goal else (d.timIdle env).setDom id goal

/-- A domain leaves OFF: its class S parameters take effect (R52); Stitch port Sn takes P_SREF_FREQ when a quad of its lanes does (R293, R309). -/
def Dev.powersUp (d : Dev) (env : Env) (id : Nat) : Dev :=
  if 0x10 ≤ id ∧ id < 0x20 then d.updStitch ((id - 0x10) / 4) fun s => { s with srefFreq := env.par.nat (pSrefFreq + (id - 0x10) / 4) } else d

/-- A domain comes ON; the lasts of carriers are allocated afterwards. -/
def Dev.domUp (d : Dev) (env : Env) (id : Nat) (wasIdle : Bool) : Dev :=
  let d1 := d.setDom id .on
  if id < 0x10 then d1.carrierOn env id wasIdle
  else if id < 0x20 then d1.quadOn (id - 0x10)
  else if id < 0x30 then d1
  else if id < 0x40 then d1.stackOn env (id - 0x30)
  else if id = domDpll then d1.timOn env wasIdle
  else d1

/-- One entry of a change of domains: nothing where the state is in force already; DOMAIN_FORCED, where `told`, for a domain something depended on, as
the entries before have left it (R81; log entry 96). -/
def Dev.domMove (d : Dev) (env : Env) (told : Bool) (id : Nat) (goal : DomState) : Dev :=
  let old := d.domState id
  if old = goal then d
  else
    let d0 := if old = .off then d.powersUp env id else d
    match goal with
    | .on => d0.domUp env id (decide (old = .idle))
    | _ =>
      let forced := d0.depends id
      (d0.domDown env id goal forced).raiseIf (told && forced) .domainForced 0 [(1, id), (1, goal.code)]

/-- Lasts for the carriers whose domains have come ON from OFF, in the order of R137. -/
def Dev.allocNew (d : Dev) (env : Env) (ns : List Nat) : Dev :=
  (env.giveOrder.filter fun n => ns.contains n).foldl (fun d n => d.allocOrShort env n) d

/-- Everything a set of changes does, in entry order (R79); the system region is lost where no stack stays ON through it. -/
def Dev.domMoves (d : Dev) (env : Env) (told : Bool) (l : List (Nat × DomState)) : Dev :=
  let d1 := l.foldl (fun d m => d.domMove env told m.1 m.2) d
  let fresh := carriers.filter fun n => decide (d.domState n = .off) && d1.domOn n
  let keeps := ([0, 1] : List Nat).any fun k => d.domOn (domStack k) && d1.domOn (domStack k)
  let d2 := if keeps || !d.anyStack then d1 else d1.regionLost
  d2.allocNew env fresh

/-! ### Power states (R72, R89) -/

/-- The device drops or is taken to Calm: bundles and ports disabled, carriers DARK, jobs and keys gone, every domain OFF (R72, R89, R137, R345, R384, R408).
`st` is what running commands answer. -/
def Dev.toCalm (d : Dev) (env : Env) (st : Status) : Dev :=
  let d1 := (d.bundle.map (·.1)).foldl (fun d b => d.killBundle st b) d
  let d2 := carriers.foldl (fun d n => d.carrierLeaves env n .off st) d1
  let d3 := (d2.group.map (·.1)).foldl (fun d g => d.releaseGroup st g) d2
  let d4 := ([0, 1, 2, 3] : List Nat).foldl (fun d p => (d.stitchClear p).finish 0x0703 p st 0 []) d3
  let c := d4.cli
  let lanes : Tbl Lane := c.lane.map fun kv => (kv.1, { kv.2.powerDown with loopback := 0, gen := 0, chk := 0, flips := 0 })
  let eths : Tbl EthPort := c.eth.map fun kv => (kv.1, { kv.2 with enabled := false })
  let stitches : Tbl Stitch := c.stitch.map fun kv => (kv.1, { kv.2 with enabled := false, st := .down })
  let d5 := { d4 with cli := { c with lane := lanes, eth := eths, stitch := stitches } }
  let d6 := ((d5.jobsEnd env .domainOff).wipeKeys.engCalm).timOff .domainOff
  let d7 := ((d6.stackStops 0).stackStops 1).stagedLost.emit (.wipe .calm)
  d7.updPw fun p => { p with state := .calm, dom := [], restriping := false }

/-- A drop to Calm that the device makes by itself: not while it is in Calm already (R69, R89, R408). -/
def Dev.drop (d : Dev) (env : Env) : Dev := if d.inService then d.toCalm env .domainOff else d

/-- The recorded plan, in ascending domain ID. -/
def Dev.plan (d : Dev) : List (Nat × DomState) := domIds.map fun id => (id, d.pw.recorded.get .off id)

/-- Entry to Service: every domain goes to its recorded state, lasts are given out in the order of R137 (R72, R79). A transition of the power state forces
nothing (R81, log entry 96). -/
def Dev.toService (d : Dev) (env : Env) : Dev :=
  (d.updPw fun p => { p with state := .service, tripped := false }).domMoves env false d.plan

/-- Six always-on cycles in ns (R74). -/
def armingTime : Nat := 183100

/-- The rails go, order 8 to order 2, and the always-on domain keeps its wake sources (R74, R76). Step 2 lasts a free time of up to 5 ms, step 3 six always-on
cycles: the comparator is armed when they end. -/
def Dev.toDoldrums (d : Dev) (env : Env) (sources : Nat) : Dev :=
  let (n, d1) := d.draw
  d1.updPw fun p => { p with state := .doldrums, dom := [], wakeSources := sources, queued := false, wakeNoted := false,
                             armedAt := env.now + n % (5 * ms + 1) + armingTime }

/-! ### Frelvo restarts (R51, R86, R281) -/

/-- Every step that is not committed is abandoned; Table 10-3 gives no cause for it, and the one reported is a free value (R243, log entry 1). -/
def Dev.abandonSteps (d : Dev) (env : Env) : Dev :=
  carriers.foldl (fun d n => if (d.rate n).uncommitted then
      let (cause, d1) := d.draw
      d1.stepAbandon env n (cause % 256) .busy 0
    else d) d

/-- Frelvo restarts: steps abandoned, the tracking of repeat addresses empty. -/
def Dev.frelvoRestarts (d : Dev) (env : Env) : Dev := (d.abandonSteps env).updMsys fun m => { m with track := [] }

/-! ### Resets (R82 to R84) -/

/-- The pins of the carrier ports, which a reset does not change. -/
def Carrier.pins (c : Carrier) : Carrier := { Carrier.reset with tx := { Tx.reset with present := c.tx.present, txok := c.tx.txok } }

/-- Readings of the board and of the supply, SYSRST# among them, which a reset does not change (R84). -/
def Power.board (p : Power) : Power :=
  { Power.reset with inReset := p.inReset, vin := p.vin, vinLow := p.vinLow, ilimit := p.ilimit, tjCore := p.tjCore, tjCv0 := p.tjCv0, tjCv1 := p.tjCv1, tjIo := p.tjIo,
                     addrStrap := p.addrStrap }

/-- The device after a reset with RESET_CAUSE `cause`: fuses, flash and the board are as they were. -/
def Dev.afterReset (d : Dev) (cause : Nat) : Dev :=
  { Dev.reset with drawn := d.drawn, nv := d.nv, pw := d.pw.board, car := d.car.map fun kv => (kv.1, kv.2.pins),
                   boot := { Boot.reset with resetCause := BitVec.ofNat 8 cause } }

/-- A reset of the whole device; the time base starts again only with the always-on domain (R83). -/
def State.afterReset (s : State) (cause : Nat) (timeZero : Bool) : State :=
  { State.reset with pending := s.pending, now := if timeZero then 0 else s.now, dev := s.dev.afterReset cause }

/-- VIN as read. -/
def Dev.setVin (d : Dev) (vin : Nat) : Dev := d.updPw fun p => { p with vin := vin }

/-- Are the Calm rails up? -/
def Dev.rails (d : Dev) : Bool := decide (d.pw.state = .calm ∨ d.pw.state = .service)

/-- Does Frelvo run, or will a restarting one report? -/
def Env.frelvo (env : Env) : Bool := decide (env.mbx = .ready ∨ env.mbx = .activating)

/-- A cause of PWRWARN# arises: PWR_WARN once for each assertion, at once where Frelvo runs, else when MBX_STATE first becomes READY (R67). -/
def warnRaise (env : Env) (vin : Nat) (f : Power → Power) (d : Dev) : Dev :=
  let d1 := (d.setVin vin).updPw f
  d1.raiseIf (!d.pwrWarn && d1.pwrWarn && env.frelvo && d.rails) .pwrWarn 0 [(4, vin)]

end Sys2Proof.Machine
end

