-- ==== Sys2Proof/Machine/Security.lean ====
section
/-! DEFINITION. Machine/Security.lean: security commands, firmware activation, the boot ROM (R446 to R456). -/

namespace Sys2Proof.Machine

/-- CMD_SEC_STATUS (R455). -/
def secStatus (d : Dev) : CmdRes :=
  let b := d.boot
  .done (resultBits [(1, b2n b.bootB), (1, b2n b.fallback), (1, b2n b.staged.isSome), (5, 0), (8, b.fallbackCode), (8, d.nv.fuseF), (8, 0),
    (32, (b.running.map (·.svn)).getD 0), (32, (b.staged.map (·.version)).getD 0), (32, (b.staged.map (·.svn)).getD 0), (32, b.activations)]) d

def formSecStatus : CmdForm := form 0x0E01 (.fixed 0) []

def execCmdSecStatus (e : CmdEntry) (s : State) : Host.Outcome State Fault Refusal :=
  .next (runCmd formSecStatus e (fun _ d => secStatus d) s)

/-- Start of the firmware staging area (R449). -/
abbrev fwArea : Nat := 0x34000000

/-- What a slot holds after a write that failed: a free value. -/
def Dev.drawImage (d : Dev) : FwImage × Dev :=
  let (svn, d1) := d.draw
  let (version, d2) := d1.draw
  let (digest, d3) := d2.drawBytes 32
  (⟨svn, version, 0, digest⟩, d3)

/-- CMD_FW_STAGE (R448, R449): `flashOk` says whether the flash write and its read-back succeed. -/
def fwStage (env : Env) (e : CmdEntry) (flashOk : Bool) (d : Dev) : CmdRes :=
  let off := u32 e 0
  let h := env.mem.readAll (fwArea + off) 512
  if off % 4096 ≠ 0 ∨ 0x800000 ≤ off then badField 0
  else if !d.inService then .refuse .state 0
  else match fwHeaderFault h (0x800000 - off) with
  | some k => .refuse .badParam (0x1000 + k)
  | none =>
    let img := env.mem.readAll (fwArea + off) (fieldAt h 16 4)
    let x : FwImage := ⟨fieldAt h 8 4, fieldAt h 12 4, fieldAt h 16 4, padTo 32 (Config.sha256 img)⟩
    if !Config.pssOk Config.firmwareKey (img.take 128 ++ img.drop 512) ((img.drop 128).take 384) then .refuse .authFail 0
    else if x.svn < d.nv.fuseF then .refuse .fuse 0
    else if !flashOk then
      let r := d.drawImage
      .fail .internal 0 { r.2 with nv := r.2.nv.setSlot (!d.boot.bootB) (some r.1) }
    else
      let v := d.nv.setSlot (!d.boot.bootB) (some x)
      .done (leBytes 4 x.version ++ leBytes 4 x.svn ++ x.digest)
        { d with nv := if bitAt (u8 e 4) 0 then v.point (!d.boot.bootB) else v, boot := { d.boot with staged := some x, stagedBad := false } }

def formFwStage : CmdForm := form 0x0E02 (.fixed 5) [fldAny 0 4, fldBits 4 1 1]

def execCmdFwStage (e : CmdEntry) (flashOk : Bool) (s : State) : Host.Outcome State Fault Refusal :=
  .next (runCmd formFwStage e (fun env d => fwStage env e flashOk d) s)

/-- CMD_FW_ACTIVATE (R450): every earlier command has completed (R51). -/
def fwActivate (env : Env) (d : Dev) : CmdRes :=
  match d.boot.staged, d.boot.running with
  | none, _ => .refuse .sequence 0
  | some x, r =>
    if r.any fun y => decide (y.version / 65536 ≠ x.version / 65536) then .refuse .state 0
    else if d.boot.stagedBad then .refuse .authFail 0
    else .start (1500 * ms) (((d.frelvoRestarts env).updBoot fun b => { b with activating := some x }).emit (.mbx .activating))

def formFwActivate : CmdForm := { form 0x0E03 (.fixed 0) [] with alone := true }

def execCmdFwActivate (e : CmdEntry) (s : State) : Host.Outcome State Fault Refusal :=
  .next (runCmd formFwActivate e (fun env d => fwActivate env d) s)

/-- ACTIVATION_READY (R450): the new image has passed its self-tests; it points the slot pointer at its own slot. -/
def activationReady (d : Dev) : Dev :=
  match d.boot.activating with
  | some x =>
    let d1 := (d.updNv fun v => v.point (!d.boot.bootB)).updBoot fun b => { b with activating := none, running := some x, activations := b.activations + 1 }
    (((d1.count (ckey 14 0) 1).emit (.mbx .ready)).raise .fwActivated 0 [(4, x.version)]).finish 0x0E03 0 .ok 0 []
  | none => d

def execActivationReady (s : State) : Host.Outcome State Fault Refusal := .next (onDev s fun _ d => activationReady d)

/-- ACTIVATION_FALLBACK (R450): the previous image returns and posts the completion. -/
def activationFallback (d : Dev) : Dev :=
  match d.boot.activating with
  | some x =>
    (((d.updBoot fun b => { b with activating := none }).emit (.mbx .ready)).raise .fwActivateFail 0 [(4, x.version)]).finish 0x0E03 0 .timeout 0 []
  | none => d

def execActivationFallback (s : State) : Host.Outcome State Fault Refusal := .next (onDev s fun _ d => activationFallback d)

/-- Where the report is written (R453). -/
abbrev attestOffset : Nat := 0x3F500000

/-- CMD_SEC_ATTEST (R453): the salt of the signature is drawn. -/
def secAttest (env : Env) (e : CmdEntry) (d : Dev) : CmdRes :=
  let body := d.attestBody env (payload e)
  let (salt, d1) := d.draw
  let report := body ++ padTo 384 (Config.dikSign salt body)
  let d2 := d1.updBoot fun b => { b with attest := some report }
  .done (padTo 32 (Config.sha256 body)) (if d.inService && d.anyStack then d2.emit (.dram attestOffset report) else d2)

def formSecAttest : CmdForm := form 0x0E04 (.fixed 32) [fldAny 0 32]

def execCmdSecAttest (e : CmdEntry) (s : State) : Host.Outcome State Fault Refusal :=
  .next (runCmd formSecAttest e (fun env d => secAttest env e d) s)

/-- The fused value that CMD_SEC_SVN_COMMIT raises, and its target. -/
def svnOld (d : Dev) (target : Nat) : Nat := if target = 0 then d.nv.fuseF else d.nv.engMin.get 0 (target - 1)
def svnNew (d : Dev) (target value : Nat) : Nat := if target = 0 then max d.nv.fuseF ((d.boot.running.map (·.svn)).getD 0) else value
def svnPut (target value : Nat) (v : NonVolatile) : NonVolatile :=
  if target = 0 then { v with fuseF := value } else { v with engMin := v.engMin.set (target - 1) value }

/-- The bits that have burned where a burn of `n` bits does not end whole. -/
def burnShort (b : BurnEnd) (n : Nat) : Option Nat :=
  match b with
  | .whole => none
  | .failed k => if k < n then some k else none
  | .warned k _ => if k < n then some k else none

/-- A command whose burn is cut short ends: E_FUSE for a bit that fails, E_STATE where PWRWARN# has come, once the bit in progress is whole (R451, R452,
Table 19-7). -/
def Dev.burnCut (d : Dev) (env : Env) : BurnEnd → CmdRes
  | .warned _ vin => .fail .state 0 (warnRaise env vin (fun p => { p with vinLow := true }) d)
  | _ => .fail .fuse 0 d

/-- CMD_SEC_SVN_COMMIT (R451). -/
def svnCommit (env : Env) (e : CmdEntry) (burn : BurnEnd) (d : Dev) : CmdRes :=
  let target := u8 e 0
  let value := u8 e 1
  let old := svnOld d target
  let new := svnNew d target value
  if target = 0 ∧ value ≠ 0 then badField 1
  else if target ≠ 0 ∧ (16 < value ∨ value < old) then badField 1
  else if d.pwrWarn then .refuse .state 0
  else match burnShort burn (new - old) with
    | some k => (d.updNv (svnPut target (old + k))).burnCut env burn
    | none => .done [] ((d.updNv (svnPut target new)).raise .svnCommitted 0 [(1, target), (1, new)])

def formSvnCommit : CmdForm := form 0x0E05 (.fixed 2) [fldU 0 1 0 5, fldAny 1 1]

def execCmdSecSvnCommit (e : CmdEntry) (burn : BurnEnd) (s : State) : Host.Outcome State Fault Refusal :=
  .next (runCmd formSvnCommit e (fun env d => svnCommit env e burn d) s)

/-- The payload layout of CMD_SEC_ENROLL: the digest only for OP 0 (R452, R9). -/
def enrollLayout : Nat → List Fld
  | 1 => [fldU 0 1 1 4, fldU 1 1 0 1, fldRsv 2 32, fldBits 34 1 1]
  | _ => [fldU 0 1 1 4, fldU 1 1 0 1, fldAny 2 32, fldBits 34 1 1]

/-- The fuse bits of the digest that CMD_SEC_ENROLL carries. -/
def enrollOnes (e : CmdEntry) : Nat := sumBy (fun b => countTrue (natBits 8 b.toNat)) (((payload e).drop 2).take 32)

/-- What OP burns: the digest into the position, or the position's revoke fuse (R452). -/
def enrollPut (e : CmdEntry) (v : NonVolatile) : NonVolatile :=
  if u8 e 1 = 0 then { v with keyDigest := v.keyDigest.set (u8 e 0) (((payload e).drop 2).take 32) }
  else { v with revoked := if v.revoked.contains (u8 e 0) then v.revoked else v.revoked ++ [u8 e 0] }

/-- CMD_SEC_ENROLL (R452): the operation's own bits burn first, then OWNER_LOCK. A digest cut short leaves a free value in the position, unless no bit has
burned. -/
def secEnroll (env : Env) (e : CmdEntry) (burn : BurnEnd) (d : Dev) : CmdRes :=
  let p := u8 e 0
  match layoutFault (payload e) (enrollLayout (u8 e 1)) with
  | some k => .refuse .badParam k
  | none =>
    if u8 e 1 = 0 ∧ d.nv.ownerLock = true then .refuse .state 0
    else if u8 e 1 = 0 ∧ ((d.nv.keyDigest.map (·.1)).contains p || d.nv.revoked.contains p) = true then badField 0
    else
      let own := if u8 e 1 = 0 then enrollOnes e else b2n (!d.nv.revoked.contains p)
      let lock := bitAt (u8 e 34) 0 && !d.nv.ownerLock
      match burnShort burn (own + b2n lock) with
      | none => .done [] (d.updNv fun v => if lock then { enrollPut e v with ownerLock := true } else enrollPut e v)
      | some k =>
        if own ≤ k then (d.updNv (enrollPut e)).burnCut env burn
        else if u8 e 1 = 0 ∧ 0 < k then
          let (junk, d1) := d.drawBytes 32
          (d1.updNv fun v => { v with keyDigest := v.keyDigest.set p junk }).burnCut env burn
        else d.burnCut env burn

def formSecEnroll : CmdForm := form 0x0E06 (.fixed 35) []

def execCmdSecEnroll (e : CmdEntry) (burn : BurnEnd) (s : State) : Host.Outcome State Fault Refusal :=
  .next (runCmd formSecEnroll e (fun env d => secEnroll env e burn d) s)

/-- DEV_UID in hexadecimal, as the subjects of the device's certificates hold it (R445): 16 characters, the most significant first (log entry 189). -/
def uidHex : List Byte :=
  (List.range 16).map fun i => let x := bitsAt Config.devUid.toNat (60 - 4 * i) 4; BitVec.ofNat 8 (if x < 10 then 0x30 + x else 0x37 + x)

/-- The four certificates, in the order root, manufacturing, identity, key transport; the last two are issued for this device (R445). -/
def certificates : List (List Byte) := [Config.rootCert, Config.makerCert, Config.identityCert uidHex, Config.transportCert uidHex]

/-- The certificate store: each certificate preceded by its length in 2 bytes, the low byte first (R454, log entry 51). -/
def certStore : List Byte := certificates.flatMap fun c => leBytes 2 c.length ++ c

/-- The bytes of a region (R454). -/
def secRegion (d : Dev) (r : Nat) : List Byte := if r = 0 then d.boot.attest.getD [] else certStore

/-- CMD_SEC_READ (R454). -/
def secRead (e : CmdEntry) (d : Dev) : CmdRes :=
  let bs := secRegion d (u8 e 0)
  if bs.length ≤ u32 e 1 then badField 1 else .done (padTo 48 (bs.drop (u32 e 1))) d

def formSecRead : CmdForm := form 0x0E07 (.fixed 5) [fldU 0 1 0 1, fldAny 1 4]

def execCmdSecRead (e : CmdEntry) (s : State) : Host.Outcome State Fault Refusal :=
  .next (runCmd formSecRead e (fun _ d => secRead e d) s)

/-- BOOT_ROM_RUN (R446): after a reset, with the Calm rails up and SYSRST# released. -/
def bootRomRun (b : BootEvidence) (s : State) : State :=
  if s.io.mbxState = .booting ∧ s.dev.boot.phase = 0 ∧ s.dev.pw.state = .calm ∧ s.dev.pw.inReset = false then onDev s fun _ d => d.bootRom b else s

def execBootRomRun (b : BootEvidence) (s : State) : Host.Outcome State Fault Refusal := .next (bootRomRun b s)

end Sys2Proof.Machine
end

