-- ==== Sys2Proof/Machine/Withdraw.lean ====
section
/-! DEFINITION. Machine/Withdraw.lean: what is taken back where a running command ends without E_OK (R16, R50, R86, R512). -/

namespace Sys2Proof.Machine

/-- The configuration goes back to what it was before the command (R16). What the action has done that is no configuration, or cannot be taken back, stands:
an attempt to lock goes on (R165), a committed rate step is irrevocable (R239), an enabled Stitch port keeps retraining (R334). -/
def Dev.withdraw (d : Dev) (env : Env) (op : Nat) (e : CmdEntry) : Dev :=
  let n := u8 e 0
  let on := bitAt (u8 e 1) 0
  match op with
  | 0x0201 => d.updPw fun p => { p with queued := false }
  | 0x0305 => if on then (d.goDark env n).updTx n Tx.restoreO else d.updTx n fun t => if t.state = .rampDown then { t with state := .rampUp, rampToDark := false } else t
  | 0x0310 => if (d.rx n).build.any (fun b => b.inPlace) then d.undoResize n else d.dropBuild n
  | 0x0313 => d.updRx n fun r => { r with reacq := false }
  | 0x0318 => if u8 e 1 = 0 then (if (d.cal n).trigger = 3 then d.stopRound env n [] else d) else d.updCal n fun c => { c with dacBusy := false }
  | 0x0501 => if (d.rate n).uncommitted then d.stepAbandon env n 9 .timeout 0 else d
  | 0x0512 => d.disarm n
  | 0x0903 => d.updProg n fun p => { p with st := if p.st = .stopping then .running else p.st }
  | 0x0A04 => d.undoStep
  | 0x0C01 => d.updBrz n fun b => if on then { b with en := false, disabling := decide (b.tone ≠ .off) } else { b with en := true, disabling := false }
  | _ => d

/-- A running mute or unmute is taken back (R16): the causes are those from before it. -/
def Tx.unmuted (t : Tx) (mute : Bool) : Tx :=
  if mute then (if t.state = .rampDown ∧ t.rampToDark = false then { t with state := .rampUp, muteHost := false } else t)
  else if t.state = .rampUp then { t with state := .muted, muteHost := t.causesWas.1, muteInterlock := t.causesWas.2 } else t

/-- A command that a restart of Frelvo cuts off is not run further, and the configuration is what it was before it (R86): beside what a bound takes back, a
mute, a bundle's enable or disable and a Stitch port's enable. The converter-die sequencer finishes the calibration it runs (R182). -/
def Dev.cutOff (d : Dev) (env : Env) (op : Nat) (e : CmdEntry) : Dev :=
  let n := u8 e 0
  match op with
  | 0x0306 => d.updTx n fun t => t.unmuted (bitAt (u8 e 1) 0)
  | 0x0403 => d.updBundle n fun b => { b with st := match b.st with
      | .enabling => .disabled
      | .draining => .enabled
      | st => st }
  | 0x0318 => d
  | 0x0703 => (d.stitchClear n).updStitch n Stitch.withdrawn
  | _ => d.withdraw env op e

/-- Every running command is cut off. -/
def Dev.cutAll (d : Dev) (env : Env) (l : List Inflight) : Dev :=
  (l.filter fun r => r.started && !r.cut).foldl (fun d r => d.cutOff env r.op r.e) d

end Sys2Proof.Machine
end

