-- ==== Sys2Proof/Machine/Power.lean ====
section
/-! DEFINITION. Machine/Power.lean: supply, resets, Frelvo restarts, thermal governor, power states and domains (R66 to R92, R408, R481). -/

namespace Sys2Proof.Machine

/-! ### Supply (R66 to R69) -/

/-- VIN was absent, so front ends may have been fitted where there were none (R113, R507): whether one has is a free value (log entry 152). -/
def Dev.refit (d : Dev) : Dev :=
  carriers.foldl (fun d n =>
    if (d.tx n).present then d else let (v, d1) := d.draw; d1.updTx n fun t => { t with present := decide (v % 2 = 1) }) d

/-- POWER_ON_RESET (R68): VIN rises through the lockout, below the release threshold of PWRWARN#. -/
def powerOn (vin : Nat) (s : State) : State :=
  if s.dev.pw.state = .off ∧ s.dev.pw.ovShut = false ∧ s.dev.pw.hotShut = false then
    let s1 := s.afterReset 0x01 true
    { s1 with dev := (s1.dev.updPw fun p => { p with vin := vin, vinLow := true }).refit }
  else s

def execPowerOnReset (vin : Nat) (s : State) : Host.Outcome State Fault Refusal := .next (powerOn vin s)

/-- Every rail is removed and nothing is retained (R68, R89); `keeps` where the always-on domain runs on. -/
def State.railsGone (s : State) (keeps : Bool) (f : Power → Power) : State :=
  let s1 := s.afterReset 0 (!keeps)
  { s1 with dev := s1.dev.updPw fun p => f { p with state := .off } }

/-- UVLO_SHUTDOWN (R68). -/
def execUvloShutdown (vin : Nat) (s : State) : Host.Outcome State Fault Refusal :=
  .next (s.railsGone false fun p => { p with vin := vin, vinLow := true })

/-- OVERVOLTAGE_SHUTDOWN (R68): not while VIN was below the lockout. -/
def overvoltage (vin : Nat) (s : State) : State :=
  if s.dev.pw.state = .off ∧ s.dev.pw.hotShut = false then s
  else s.railsGone false fun p => { p with vin := vin, vinLow := false, ovShut := true }

def execOvervoltageShutdown (vin : Nat) (s : State) : Host.Outcome State Fault Refusal := .next (overvoltage vin s)

/-- OVERVOLTAGE_RESTART (R68): RESET_CAUSE bit [4]. -/
def overvoltageRestart (vin : Nat) (s : State) : State :=
  if s.dev.pw.ovShut then
    let s1 := s.afterReset 0x10 true
    { s1 with dev := s1.dev.setVin vin }
  else s

def execOvervoltageRestart (vin : Nat) (s : State) : Host.Outcome State Fault Refusal := .next (overvoltageRestart vin s)

def execPwrwarnAssert (vin : Nat) (s : State) : Host.Outcome State Fault Refusal :=
  .next (onDev s fun env d => warnRaise env vin (fun p => { p with vinLow := true }) d)

def execPwrwarnRelease (vin : Nat) (s : State) : Host.Outcome State Fault Refusal :=
  .next (onDev s fun _ d => (d.setVin vin).updPw fun p => { p with vinLow := false })

/-- CURRENT_LIMIT_ENGAGE (R67, R69): the limit acts on the rails that VIN feeds. -/
def execCurrentLimitEngage (vin : Nat) (s : State) : Host.Outcome State Fault Refusal :=
  .next (onDev s fun env d => if d.rails then warnRaise env vin (fun p => { p with ilimit := true }) d else d.setVin vin)

def execCurrentLimitRelease (vin : Nat) (s : State) : Host.Outcome State Fault Refusal :=
  .next (onDev s fun _ d => (d.setVin vin).updPw fun p => { p with ilimit := false })

/-- The domains that are not OFF: those that a drop to Calm changes (R481). -/
def Dev.notOff (d : Dev) : List Nat := domIds.filter fun id => decide (d.domState id ≠ .off)

/-- A transition of domains `l` that the device starts lasts at most `most` ns; how long it takes is a free value (R73, log entry 1). -/
def Dev.inTransition (d : Dev) (env : Env) (most : Nat) (l : List Nat) : Dev :=
  let (n, d1) := d.draw
  d1.updPw fun p => { p with transEnd := env.now + n % (most + 1), changing := l }

/-- A drop to Calm that takes at most `most` ns; in Calm already, nothing is in transition. -/
def Dev.dropWithin (d : Dev) (env : Env) (most : Nat) : Dev := if d.inService then (d.drop env).inTransition env most d.notOff else d

/-- CURRENT_LIMIT_DROP (R69). -/
def limitDrop (env : Env) (vin : Nat) (d : Dev) : Dev :=
  if d.pw.ilimit && d.rails then ((d.setVin vin).dropWithin env (150 * ms)).raise .pwrIlimit 0 [(4, vin)] else d.setVin vin

def execCurrentLimitDrop (vin : Nat) (s : State) : Host.Outcome State Fault Refusal := .next (onDev s fun env d => limitDrop env vin d)

/-! ### Resets (R82 to R85) -/

/-- SYSRST_ASSERT (R84): in any state. With the rails shut down by heat the always-on domain records the reset and the shutdown goes on; without any supply
only the pin's level is there (log entry 101). -/
def execSysrstAssert (s : State) : Host.Outcome State Fault Refusal :=
  .next (
    let low (s : State) : State := { s with dev := s.dev.updPw fun p => { p with inReset := true } }
    if s.dev.pw.state ≠ .off then low (s.afterReset 0x02 false)
    else if s.dev.pw.hotShut then
      let s1 := s.afterReset 0x02 false
      low { s1 with dev := s1.dev.updPw fun p => { p with state := .off, hotShut := true } }
    else low s)

def execSysrstRelease (s : State) : Host.Outcome State Fault Refusal :=
  .next (onDev s fun _ d => d.updPw fun p => { p with inReset := false })

/-- SYS_RESET_DELAY_EXPIRY (R84). -/
def execSysResetDelayExpiry (s : State) : Host.Outcome State Fault Refusal :=
  .next (if s.dev.pw.resetDue then s.afterReset 0x08 false else s)

/-- PCIE_RESET (R85): messages due or held are lost with the MSI-X table, and the snapshots' DMA, which writes through the endpoint, stops. -/
def execPcieReset (s : State) : Host.Outcome State Fault Refusal :=
  .next (onIo s fun io => { io with msgDue := [], msixPending := [], snap := { io.snap with dmaEn := false } })

/-- CMD_SYS_RESET (R84). -/
def formSysReset : CmdForm := form 0x0102 (.fixed 0) []

def execCmdSysReset (e : CmdEntry) (s : State) : Host.Outcome State Fault Refusal :=
  .next (runCmd formSysReset e (fun _ d => .done [] (d.updPw fun p => { p with resetDue := true })) s)

/-! ### Frelvo restarts (R86, R260) -/

/-- Every command consumed and not completed is cut off. -/
def Io.cutAll (io : Io) : Io := { io with inflight := io.inflight.map fun r => { r with cut := true } }

/-- The responder completes everything that was consumed with a status (R51, R86). -/
def State.completeAll (s : State) (p : Inflight → Bool) (st : Status) (detail : Nat) : State :=
  let l := s.io.inflight.filter p
  let io := { s.io with inflight := s.io.inflight.filter fun r => !p r }
  { s with io := l.foldl (fun io r => io.complete s.par s.now r.op r.e r.at_ st detail []) io }

/-- Did an earlier restart begin within 60 s (R86)? -/
def Dev.diedBefore (d : Dev) (now : Nat) : Bool :=
  match d.boot.expiryAt with
  | some t => decide (now < t + 60 * sec)
  | none => false

/-- A restart of Frelvo for `cause` begins (R86): nothing in FAULT; a failed boot in BOOTING; FAULT for a second one within 60 s; else ACTIVATING. An
activation that is under way falls back (R450). -/
def frelvoDies (cause : Nat) (s : State) : State :=
  match s.io.mbxState with
  | .fault => s
  | .booting => onDev s fun _ d => d.bootFail 6 0x06
  | _ =>
    if s.dev.boot.activating.isSome then onDev s fun _ d => activationFallback d
    else if s.dev.diedBefore s.now then (onDev s fun _ d => d.emit (.mbx .fault)).completeAll (fun _ => true) .state 0
    else
      let s1 := { s with io := s.io.cutAll }
      onDev s1 fun env d => (((d.cutAll env s.io.inflight).frelvoRestarts env).updBoot fun b => { b with restartCause := cause, expiryAt := some env.now }).emit (.mbx .activating)

/-- WATCHDOG_EXPIRY: the watchdog runs while the rails are up and SYSRST# is high. -/
def execWatchdogExpiry (s : State) : Host.Outcome State Fault Refusal :=
  .next (if s.dev.rails && !s.dev.pw.inReset then frelvoDies 0 s else s)

/-- FRELVO_MEMORY_UE (R260, R276): logged as MEM 0x31, TYPE 2; where the word lies the spec leaves open. -/
def frelvoMemory (s : State) : State :=
  if s.dev.rails && !s.dev.pw.inReset then
    frelvoDies 1 (onDev s fun env d =>
      let (addr, d1) := d.draw
      let (syn, d2) := d1.draw
      d2.log env ⟨2, 0x31, 0, addr, syn % 65536, 0xFF, 0, 7⟩)
  else s

def execFrelvoMemoryUe (s : State) : Host.Outcome State Fault Refusal := .next (frelvoMemory s)

/-- FRELVO_RESTART_READY (R86): cut-off commands complete with E_BUSY, DETAIL 2, before any other; then READY and FRELVO_RESTART. -/
def restartReady (s : State) : State :=
  if s.io.mbxState = .activating ∧ s.dev.boot.activating = none then
    onDev (s.completeAll (·.cut) .busy 2) fun _ d => (d.emit (.mbx .ready)).raise .frelvoRestart 0 [(1, d.boot.restartCause)]
  else s

def execFrelvoRestartReady (s : State) : Host.Outcome State Fault Refusal := .next (restartReady s)

/-! ### Doldrums (R72 to R77) -/

/-- May the device be taken out of Calm after a thermal trip (R89)? -/
def Dev.tooHot (d : Dev) : Bool := d.pw.tripped && decide (1000 ≤ d.pw.tjMax)

/-- What stops the entry from Calm (Table 3-4, R89): P_WAKE_SOURCES, a stored parameter, is named by DETAIL (R511). -/
def Dev.doldrumsFault (d : Dev) (env : Env) : Option (Status × Nat) :=
  if env.par.val pWakeSources = 0 then some (.badParam, pWakeSources)
  else if d.tooHot then some (.state, 0)
  else none

/-- QUEUED_DOLDRUMS_ENTRY (R73): evaluated when the transition ends. -/
def queuedDoldrums (env : Env) (d : Dev) : Dev :=
  if d.pw.queued ∧ d.pw.state = .calm then
    let d1 := d.updPw fun p => { p with queued := false, transEnd := env.now }
    match d.doldrumsFault env with
    | some f => d1.finish 0x0201 0 f.1 f.2 []
    | none => (d1.finish 0x0201 0 .ok 0 []).toDoldrums env (env.par.nat pWakeSources)
  else d

def execQueuedDoldrumsEntry (s : State) : Host.Outcome State Fault Refusal := .next (onDev s fun env d => queuedDoldrums env d)

/-- A wake is a reset with RESET_CAUSE bit [2] (R77). -/
def State.wake (s : State) (cause : Nat) : State :=
  let s1 := s.afterReset 0x04 false
  { s1 with dev := s1.dev.updBoot fun b => { b with wakeCause := BitVec.ofNat 15 cause } }

/-- Does an MGP START with an address wake the device? In step 4 of Doldrums, its own address, with bit [0] of the wake sources (R74, R76, R77). -/
def State.mgpWakes (s : State) (addr : Nat) : Bool :=
  let p := s.dev.pw
  decide (p.state = .doldrums ∧ p.armedAt ≤ s.now ∧ addr = 0x58 + p.addrStrap.toNat) && bitAt p.wakeSources 0

/-- What an MGP transaction meets: is its address acknowledged, and are the bytes after it? In Calm and Service the device answers its own address; in
Doldrums it acknowledges an address that wakes it, and nothing else (R74, R77). -/
def State.mgpAck (s : State) (addr : Nat) : Bool × Bool :=
  let own := decide (addr = 0x58 + s.dev.pw.addrStrap.toNat) && !s.dev.deaf
  (own || s.mgpWakes addr, own)

/-- An MGP START in any state: it wakes the device, or changes nothing; WAKE_CAUSE names the source and the address (R40). -/
def State.mgpStart (s : State) (addr : Nat) : State := if s.mgpWakes addr then s.wake (1 + 256 * addr) else s

/-- WAKE_MGP_MATCH (R77). -/
def execWakeMgpMatch (addr : BitVec 7) (s : State) : Host.Outcome State Fault Refusal := .next (s.mgpStart addr.toNat)

/-- WAKE_PIN (R75, R77), with bit [1] of the wake sources. In steps 2 and 3 the level is noted, and sampled at the end of step 3. -/
def execWakePin (s : State) : Host.Outcome State Fault Refusal :=
  let p := s.dev.pw
  .next (if p.state = .doldrums ∧ bitAt p.wakeSources 1 then
      if p.armedAt ≤ s.now then s.wake 2 else { s with dev := s.dev.updPw fun p => { p with wakeNoted := true } }
    else s)

/-! ### Squall (R88) -/

/-- SQUALL_DROOP: VENG and VMC are up in Service. -/
def squallDroop (env : Env) (veng vmc : Bool) (d : Dev) : Dev :=
  if d.inService && (veng || vmc) then
    let d1 := ((d.updPw fun p => { p with squall := true }).count (ckey 2 0) (b2n veng)).count (ckey 2 1) (b2n vmc)
    let due : Bool := match d.pw.squallAt with
      | some t => decide (t + sec ≤ env.now)
      | none => true
    if due then (d1.updPw fun p => { p with squallAt := some env.now }).raise .squall 0 [(4, d1.counter (ckey 2 0)), (4, d1.counter (ckey 2 1))] else d1
  else d

def execSquallDroop (veng vmc : Bool) (s : State) : Host.Outcome State Fault Refusal := .next (onDev s fun env d => squallDroop env veng vmc d)

def execSquallRestore (s : State) : Host.Outcome State Fault Refusal :=
  .next (onDev s fun _ d => d.updPw fun p => { p with squall := false })

/-! ### The thermal governor (R89, R90) -/

/-- A thermal trip (R89): Calm within 10 ms, as if FORCE were set. -/
def Dev.thermalTrip (d : Dev) (env : Env) : Dev :=
  if d.pw.tripped then d
  else
    let d1 := d.raise .thermTrip 0 [(2, wholeDegrees d.pw.tjMax), (1, d.pw.tjDie)]
    (d1.dropWithin env (10 * ms)).updPw fun p => { p with tripped := true }

/-- THERMAL_SAMPLE: temperatures in 0.1 °C, VIN in mV. -/
def thermalSample (env : Env) (core cv0 cv1 io : Int) (vin : Nat) (d : Dev) : Dev :=
  let d1 := d.updPw fun p => { p with tjCore := core, tjCv0 := cv0, tjCv1 := cv1, tjIo := io, vin := vin }
  if !(d.rails && env.frelvo) then d1
  else
    let tj := d1.pw.tjMax
    let limit := env.par.val pThermThrottle * 10
    let d2 : Dev :=
      if !d.pw.throttle && decide (limit ≤ tj) then
        (d1.updPw fun p => { p with throttle := true }).raise .thermThrottle 0 [(2, wholeDegrees tj), (1, d1.pw.tjDie)]
      else if d.pw.throttle && decide (tj < limit - 50) then d1.updPw fun p => { p with throttle := false, throttleHeld := false }
      else d1
    if 1150 ≤ tj then d2.thermalTrip env else d2

def execThermalSample (core cv0 cv1 io : Int) (vin : Nat) (s : State) : Host.Outcome State Fault Refusal :=
  .next (onDev s fun env d => thermalSample env core cv0 cv1 io vin d)

def execThrottleHoldExpiry (s : State) : Host.Outcome State Fault Refusal :=
  .next (onDev s fun _ d => d.updPw fun p => { p with throttleHeld := p.throttleHeld || p.throttle })

/-- HW_THERMAL_SHUTDOWN (R89): every rail but VAON goes. -/
def execHwThermalShutdown (s : State) : Host.Outcome State Fault Refusal :=
  .next (if s.dev.rails then s.railsGone true fun p => { p with hotShut := true } else s)

def execThermalRestart (s : State) : Host.Outcome State Fault Refusal :=
  .next (if s.dev.pw.hotShut then s.afterReset 0x20 false else s)

/-- BOOST_WINDOW_SPENT (R90): where boost is granted and its window holds 20 s. -/
def execBoostWindowSpent (s : State) : Host.Outcome State Fault Refusal := .next (onDev s fun env d => d.boostSpend env)

def execBoostWindowFree (s : State) : Host.Outcome State Fault Refusal :=
  .next (onDev s fun env d => d.boostSpend env)

/-- XO_FAIL (R408): XOIN lost, where its offset is a free value, or beyond ±200 ppm; Calm as for a thermal trip. -/
def xoFail (env : Env) (lost : Bool) (ppm : Int) (d : Dev) : Dev :=
  if d.rails && env.frelvo && (lost || decide (200 < ppm.natAbs)) then
    let (free, d1) := d.draw
    (d1.raise .timXoFail 0 [(4, if lost then (free : Int) else ppm)]).dropWithin env (10 * ms)
  else d

def execXoFail (lost : Bool) (ppm : Int) (s : State) : Host.Outcome State Fault Refusal := .next (onDev s fun env d => xoFail env lost ppm d)

/-! ### Commands (R72, R73, R79, R80, R481, R513) -/

/-- A transition that the device started is in progress (R73). -/
def Dev.moving (d : Dev) (env : Env) : Bool := decide (env.now < d.pw.transEnd)

/-- Does a drop that arrives during a commanded transition act? (R69, R89, R408) -/
def Dev.cutBy (d : Dev) : Takeover → Bool
  | .thermal core cv0 cv1 io _ => decide (1150 ≤ max (max core cv0) (max cv1 io))
  | .limit _ => d.pw.ilimit
  | .oscillator lost ppm => lost || decide (200 < ppm.natAbs)

/-- What a drop that arrives does; a trip from before the transition is over (R89). -/
def Dev.takeover (d : Dev) (env : Env) : Takeover → Dev
  | .thermal core cv0 cv1 io vin => thermalSample env core cv0 cv1 io vin (d.updPw fun p => { p with tripped := false })
  | .limit vin => limitDrop env vin d
  | .oscillator lost ppm => xoFail env lost ppm d

/-- The drop takes over at once, and the commanded transition ends once the device is in Calm: no transition is left in progress (R73). -/
def Dev.takenOver (d : Dev) (env : Env) (k : Takeover) : Dev := (d.takeover env k).updPw fun p => { p with transEnd := env.now }

/-- Calm to Service (Table 3-4, R80, R89); `failed` names the domains that do not power up, `cut` a drop that takes over (R73, R91). -/
def goService (env : Env) (failed : List Nat) (cut : Option Takeover) (d : Dev) : CmdRes :=
  if d.tooHot then .refuse .state 0
  else if d.pw.recorded.get .off (domStack 0) ≠ .on ∧ d.pw.recorded.get .off (domStack 1) ≠ .on then .refuse .state 0
  else if failed.any fun id => decide (d.pw.recorded.get .off id = .on) then .refuse .internal 0
  else match cut with
    | some k => .fail .busy 0 (d.takenOver env k)
    | none => .done [] (d.toService env)

/-- A carrier that is not DARK keeps the device in Service without FORCE (Table 3-4). -/
def Dev.anyLit (d : Dev) : Bool := carriers.any fun n => decide ((d.tx n).state ≠ .dark)

/-- The Calm-to-Doldrums part (Table 3-4, R89), evaluated on the device in Calm. -/
def goDoldrums (env : Env) (d : Dev) : CmdRes :=
  match d.doldrumsFault env with
  | some f => .fail f.1 f.2 d
  | none => .done [] (d.toDoldrums env (env.par.nat pWakeSources))

/-- CMD_POWER_STATE (R72, R73). `w.cut`: a drop that takes over the transition, where one is made: to Calm it ends with E_OK, to Service with E_BUSY, and to
Doldrums it goes on with its second part once the device is in Calm. -/
def powerState (env : Env) (e : CmdEntry) (w : PowerEvidence) (d : Dev) : CmdRes :=
  let target := u8 e 0
  let cut := w.cut.filter fun k => d.cutBy k
  if d.pw.queued then .refuse .busy 0
  else if d.moving env then
    if target = 0 then .start (250 * ms) (d.updPw fun p => { p with queued := true }) else .refuse .busy 0
  else if target = 2 then (if d.inService then .done [] d else goService env w.failed cut d)
  else if d.inService && d.anyLit && !force e then .refuse .trafficPresent 0
  else
    match (if d.inService then cut else none), d.doldrumsFault env with
    | some k, _ => if target = 1 then .done [] (d.takenOver env k) else goDoldrums env (d.takenOver env k)
    | none, fault =>
      let d1 := if d.inService then d.toCalm env .domainOff else d
      if target = 1 then .done [] d1
      else match fault with
        | some f => .refuse f.1 f.2
        | none => .done [] (d1.toDoldrums env (env.par.nat pWakeSources))

def formPowerState : CmdForm := formF 0x0201 (.fixed 1) [fldU 0 1 0 2]

def execCmdPowerState (e : CmdEntry) (w : PowerEvidence) (s : State) : Host.Outcome State Fault Refusal :=
  .next (runCmd formPowerState e (fun env d => powerState env e w d) s)

/-- A domain's state by its code (R79). -/
def DomState.ofCode : Nat → DomState
  | 0 => .off
  | 1 => .idle
  | _ => .on

/-- Entry `k` of CMD_DOMAIN_SET. -/
def domEntry (e : CmdEntry) (k : Nat) : Nat × Nat := (u8 e (1 + 2 * k), u8 e (2 + 2 * k))
def domEntries (e : CmdEntry) : List (Nat × DomState) :=
  (List.range (u8 e 0)).map fun k => ((domEntry e k).1, DomState.ofCode (domEntry e k).2)

/-- The first entry with an unknown ID or state, or an ID named before (R79). -/
def domFault (e : CmdEntry) : Option Nat :=
  (List.range (u8 e 0)).find? fun k =>
    let m := domEntry e k
    !domIds.contains m.1 || decide (2 < m.2) || (List.range k).any fun j => decide ((domEntry e j).1 = m.1)

/-- The targets recorded with a command's entries. -/
def recordAll (t : Tbl DomState) (l : List (Nat × DomState)) : Tbl DomState := l.foldl (fun t m => t.set m.1 m.2) t

/-- Does a table of states have a stack ON (R80)? -/
def stacksIn (t : Tbl DomState) : Nat := b2n (decide (t.get .off (domStack 0) = .on)) + b2n (decide (t.get .off (domStack 1) = .on))

/-- CMD_DOMAIN_SET (R73, R79, R80, R513). `cut`: a drop that takes over while the domains change in Service; the command ends with E_BUSY, the device is in
Calm, and the targets it recorded stand (Table 3-11). -/
def domainSet (env : Env) (e : CmdEntry) (cut : Option Takeover) (d : Dev) : CmdRes :=
  let l := domEntries e
  let rec' := recordAll d.pw.recorded l
  let d1 := d.updPw fun p => { p with recorded := rec' }
  match domFault e with
  | some k => badField (1 + 2 * k)
  | none =>
    if d.pw.queued || d.moving env then .refuse .busy 0
    else if d.inService then
      if stacksIn (recordAll d.pw.dom l) = 0 then .refuse .state 0
      else if !force e && l.any (fun m => decide (m.2 ≠ .on ∧ m.2 ≠ d.domState m.1) && d.depends m.1) then .refuse .trafficPresent 0
      else match cut.filter fun k => d.cutBy k with
        | some k => .fail .busy 0 (d1.takenOver env k)
        | none => .done [] (d1.domMoves env true l)
    else if stacksIn rec' = 0 then .refuse .state 0
    else if !(fitsBandwidth (stacksIn rec') d.bufferedChans d.protectedChans
        && fitsRegion (stacksIn rec') d.protectedChans (env.par.nat pProtMaxDelay)) then .refuse .dramBw 0
    else .done [] d1

def formDomainSet : CmdForm := formF 0x0202 (.counted 1 2 0 1 40) []

def execCmdDomainSet (e : DomainRun) (s : State) : Host.Outcome State Fault Refusal :=
  .next (runCmd formDomainSet e.toCmdEntry (fun env d => domainSet env e.toCmdEntry e.cut d) s)

/-- A domain's state as CMD_POWER_STATUS shows it: 3 while a transition changes it (R481). -/
def Dev.domShown (d : Dev) (env : Env) (id : Nat) : Nat := if d.moving env && d.pw.changing.contains id then 3 else (d.domState id).code

/-- RESULT of CMD_POWER_STATUS (Table 21-3). -/
def powerStatus (env : Env) (d : Dev) : List Byte :=
  let p := d.pw
  resultBits ([(2, if d.inService then 2 else 1), (1, b2n (d.moving env)), (1, b2n p.queued), (4, 0), (1, b2n p.squall), (1, b2n d.pwrWarn),
    (1, b2n p.throttle), (1, b2n p.boost), (4, 0), (16, d.engClock), (16, p.boostUsed env.now), (16, 0)]
    ++ domIds.map (fun id => (2, d.domShown env id)) ++ domIds.map (fun id => (2, (p.recorded.get .off id).code))
    ++ [(16, ofSigned 16 p.tjMax), (32, p.vin)])

def formPowerStatus : CmdForm := form 0x0203 (.fixed 0) []

def execCmdPowerStatus (e : CmdEntry) (s : State) : Host.Outcome State Fault Refusal :=
  .next (runCmd formPowerStatus e (fun env d => .done (powerStatus env d) d) s)

end Sys2Proof.Machine
end

