-- ==== Sys2Proof/Machine/Mailbox.lean ====
section
/-! DEFINITION. Machine/Mailbox.lean: bus accesses, the command ring's consumption, the responder, and messages (chapter 2, R465, R265). -/

namespace Sys2Proof.Machine

/-- A bus access reaches a device that answers (R68, R77, R84). -/
def onBus (s : State) (f : State → State) : Host.Outcome State Fault Refusal := .next (if s.dev.deaf then s else f s)

/-- A bus access that changes the interface block alone. -/
def onBusIo (s : State) (f : Io → Io) : Host.Outcome State Fault Refusal := onBus s fun s => { s with io := f s.io }

/-- CMD_TAIL_WRITE: the doorbell (R44, R45). -/
def execCmdTailWrite (via : Via) (v : Word) (s : State) : Host.Outcome State Fault Refusal :=
  onBusIo s fun io => io.guarded via fun io => io.writeCmdTail v

/-- CPL_HEAD_WRITE (R45). -/
def execCplHeadWrite (via : Via) (v : Word) (s : State) : Host.Outcome State Fault Refusal :=
  onBusIo s fun io => io.guarded via fun io => io.writeCplHead v

/-- MBX_PORT_WRITE (R65). -/
def execMbxPortWrite (via : Via) (v : Word) (s : State) : Host.Outcome State Fault Refusal :=
  onBusIo s fun io => io.writePort via v

/-- PORT_DROP_WRITE: a write that MBX_PORT shuts out (R65). A write that it does not shut out is another command. -/
def execPortDropWrite (via : Via) (off : BitVec 20) (_v : Word) (s : State) : Host.Outcome State Fault Refusal :=
  onBusIo s fun io => if io.excludes via && restricted off.toNat then io.mbxError errPortDrop else io

/-- EVT_MARK_WRITE (R55, R58). -/
def execEvtMarkWrite (via : Via) (v : Word) (s : State) : Host.Outcome State Fault Refusal :=
  onBusIo s fun io => io.guarded via fun io => io.writeMark v

/-- EVT_RUN_WRITE: a write of EVT_STATUS (R56, R58). -/
def execEvtRunWrite (via : Via) (v : Word) (s : State) : Host.Outcome State Fault Refusal :=
  onBusIo s fun io => io.guarded via fun io => io.writeEvtStatus v

/-- MARK_HIT_CLEAR (R58). -/
def execMarkHitClear (via : Via) (s : State) : Host.Outcome State Fault Refusal :=
  onBusIo s fun io => io.guarded via Io.clearMark

/-- EVT_POP_WRITE (R55, R57). -/
def execEvtPopWrite (via : Via) (v : Word) (s : State) : Host.Outcome State Fault Refusal :=
  onBusIo s fun io => io.guarded via fun io => io.pop s.now v

/-- INT_ENABLE_WRITE (R59). -/
def execIntEnableWrite (via : Via) (v : Word) (s : State) : Host.Outcome State Fault Refusal :=
  onBusIo s fun io => io.guarded via fun io => io.writeEnable v

/-- REGISTER_WRITE: any 32-bit write to BAR0 (R39). -/
def execRegisterWrite (via : Via) (off : BitVec 20) (v : Word) (s : State) : Host.Outcome State Fault Refusal :=
  onBus s fun s => s.busWrite via off.toNat v

/-- A write of SNAP_CTRL for its RUN bit (R465). -/
def execSnapRunWrite (_via : Via) (v : Word) (s : State) : Host.Outcome State Fault Refusal := onBus s fun s => s.writeSnapCtrl v

/-- A write of SNAP_CTRL for its DMA_EN bit (R468). -/
def execSnapDmaEnWrite (_via : Via) (v : Word) (s : State) : Host.Outcome State Fault Refusal := onBus s fun s => s.writeSnapCtrl v

/-- A write of SNAP_CTRL for its TRIG bit (R465, R469). -/
def execSnapTrigWrite (_via : Via) (v : Word) (s : State) : Host.Outcome State Fault Refusal := onBus s fun s => s.writeSnapCtrl v

/-- An MGP transaction with the device's own address: it wakes a sleeping device, which acknowledges the address alone (R77). -/
def onMgp (s : State) (f : State → State) : Host.Outcome State Fault Refusal :=
  .next (if s.dev.deaf then s.mgpStart (0x58 + s.dev.pw.addrStrap.toNat) else f s)

/-- MGP_WRITE_TRANSACTION (R63): the pointer's two low bits are dropped (log entry 31). -/
def execMgpWriteTransaction (off : BitVec 20) (data : List Byte) (s : State) : Host.Outcome State Fault Refusal :=
  onMgp s fun s =>
    let base := off.toNat / 4 * 4
    let n := data.length / 4
    let s1 := State.busWriteWords n base data s
    { s1 with io := { s1.io with mgpOffset := BitVec.ofNat 20 (base + 4 * n) } }

/-- MGP_READ_TRANSACTION (R63). -/
def execMgpReadTransaction (off : BitVec 20) (n : Nat) (s : State) : Host.Outcome State Fault Refusal :=
  onMgp s fun s =>
    let base := off.toNat / 4 * 4
    let r := State.busReadWords (ceilDiv n 4) base s
    { r.2 with io := { r.2.io with lastRead := r.1.take n, mgpOffset := BitVec.ofNat 20 (base + 4 * (n / 4)) } }

/-- An access that faults: a read answers 0xD0FF_D0FF, a write is dropped (R62). -/
def Io.faulted (io : Io) (off : Nat) (wr : Bool) : Io :=
  let io1 := io.accessFault off wr
  if wr then io1 else { io1 with lastRead := leBytes 4 faultWord }

/-- DEBUG_WINDOW_FAULT_ACCESS (R62, R508); an access to a region whose domain is ON is no fault, nor is a read of the key-slot memory, which answers 0 (R345). -/
def execDebugWindowFaultAccess (_via : Via) (off : BitVec 20) (wr : Bool) (s : State) : Host.Outcome State Fault Refusal :=
  onBus s fun s => if !wr && keySlotWord off.toNat then { s with io := { s.io with lastRead := leBytes 4 0 } } else if s.debugFaults off.toNat then { s with io := s.io.faulted off.toNat wr } else s

/-- A BAR2 fault. ACCESS_FAULT_ADDR has 20 bits for a BAR0 offset: what it holds for a BAR2 offset is a free value (log entry 1). -/
def State.bar2Fault (s : State) (wr : Bool) : State :=
  let r := s.dev.draw
  { s with dev := r.2, io := s.io.faulted r.1 wr }

/-- BAR2_OFF_STACK_ACCESS (R62): the region lies in `stack`. -/
def execBar2OffStackAccess (_off : BitVec 30) (stack : Fin 2) (wr : Bool) (s : State) : Host.Outcome State Fault Refusal :=
  onBus s fun s => if s.dev.domOn (domStack stack) then s else s.bar2Fault wr

/-- BAR2_HOST_WRITE (R265): the bytes reach DRAM, whatever their width and alignment; with no stack ON the write faults (R62). -/
def execBar2HostWrite (off : BitVec 30) (data : List Byte) (s : State) : Host.Outcome State Fault Refusal :=
  onBus s fun s =>
    if s.dev.inService && s.dev.anyStack then { s with mem := Mem.writeAll s.mem off.toNat (data.take (2 ^ 30 - off.toNat)) }
    else s.bar2Fault true

/-- MSIX_MESSAGE_SEND (R59): the message of a source goes out, or is held while its vector is masked; a held one goes out once unmasked. -/
def Io.sendMessage (io : Io) (src : Nat) (masked : Bool) : Io :=
  let v := (io.vec src).toNat
  if io.msgDue.contains src then
    let io1 := { io with msgDue := io.msgDue.erase src }
    if masked then { io1 with msixPending := if io.msixPending.contains v then io.msixPending else io.msixPending ++ [v] }
    else { io1 with lastMsg := some v, msixPending := io.msixPending.erase v }
  else if io.msixPending.contains v && !masked then { io with lastMsg := some v, msixPending := io.msixPending.erase v }
  else io

def execMsixMessageSend (src : Fin 12) (masked : Bool) (s : State) : Host.Outcome State Fault Refusal :=
  onBusIo s fun io => io.sendMessage src masked

/-! ### Consumption -/

/-- The entry in a slot of the command ring (Table 2-3). -/
def Io.slotEntry (io : Io) (n : Nat) : Nat × CmdEntry :=
  let bs := io.cmdRing.readAll (cmdSlot n) 256
  let byte (k : Nat) : Byte := (bs[k]?).getD 0
  (fieldAt bs 0 2, canonEntry ⟨BitVec.ofNat 16 (fieldAt bs 2 2), byte 4, byte 5, byte 6, byte 7, bs.drop 8⟩)

/-- May a command be consumed: one waits in the ring, and fewer than 64 are outstanding (R46, R51)? -/
def Io.canConsume (io : Io) : Bool := decide (io.cmdHead ≠ io.cmdTail ∧ io.outstanding < 64)

/-- The entry at CMD_HEAD. -/
def Io.headEntry (io : Io) : Nat × CmdEntry := io.slotEntry (bitsAt io.cmdHead.toNat 0 6)

/-- COMMAND_CONSUME: Frelvo copies an entry and frees its slot (R45, R46). -/
def commandConsume (s : State) : State :=
  if s.io.mbxState = .ready ∧ s.io.canConsume = true then
    let r := s.io.headEntry
    { s with io := { s.io with cmdHead := s.io.cmdHead + 1, inflight := s.io.inflight ++ [⟨r.1, r.2, s.now, false, 0, false⟩] } }
  else s

def execCommandConsume (s : State) : Host.Outcome State Fault Refusal := onBus s commandConsume

/-- What the responder answers (R51). -/
def MbxState.response : MbxState → Option (Status × Nat)
  | .ready => none
  | .activating => some (.busy, 1)
  | .booting => some (.state, 0)
  | .fault => some (.state, 0)

/-- RESPONDER_COMPLETE (R51): an entry is consumed and completed at once. -/
def responderComplete (s : State) : State :=
  match s.io.mbxState.response with
  | none => s
  | some (st, detail) =>
    if s.io.canConsume then
      let r := s.io.headEntry
      { s with io := { s.io with cmdHead := s.io.cmdHead + 1 }.complete s.par s.now r.1 r.2 s.now st detail [] }
    else s

def execResponderComplete (s : State) : Host.Outcome State Fault Refusal := onBus s responderComplete

end Sys2Proof.Machine
end

