-- ==== Sys2Proof/Machine/Memory.lean ====
section
/-! DEFINITION. Machine/Memory.lean: memory errors, scrubbing, BIST and the memory commands (R261 to R281). -/

namespace Sys2Proof.Machine

/-! ### DRAM (R269) -/

/-- MEM_CE at most once per second, with the corrections since the last and the SEQ of the last log entry (R280). -/
def Dev.raiseCe (d : Dev) (env : Env) : Dev :=
  let n := d.msys.ce.since + 1
  if d.msys.ce.due env.now sec then
    (d.updMsys fun m => { m with ce := ⟨0, some env.now⟩ }).raise .memCe 0 [(4, n), (4, ((d.msys.logSeq + (2 ^ 32 - 1)) % 2 ^ 32 : Nat))]
  else d.updMsys fun m => { m with ce := { m.ce with since := n } }

/-- A single-bit error is corrected and written back; it is logged, counted and tracked (R269, R274). -/
def dramCorrectable (env : Env) (stack addr syndrome bitpos region : Nat) (d : Dev) : Dev :=
  if d.inService && d.domOn (domStack stack) then
    (((d.count ctrCeDram 1).correction env ⟨1, stack, 0, addr, syndrome, bitpos, 0, region⟩)).raiseCe env
  else d

def execDramCorrectableError (stack : Fin 2) (addr : BitVec 36) (syndrome : BitVec 16) (bitpos : Byte) (region : BitVec 3) (s : State) :
    Host.Outcome State Fault Refusal :=
  .next (onDev s fun env d => dramCorrectable env stack addr.toNat syndrome.toNat bitpos.toNat region.toNat d)

/-- Is the receiver in LOCKED or in an attempt? -/
def Rx.busy (r : Rx) : Bool := decide (r.acq ≠ .down ∧ r.acq ≠ .noSignal ∧ r.acq ≠ .wait)

/-- A last whose golden copies are lost is reloaded in place by an engine program (R271): of an active set with a hit on its carrier, where no load in place
writes it anyway; of a shadow set before the set is switched to. A rate step's shadow set, announced as ready, is written again beside the step. -/
def Dev.lastRestore (d : Dev) (env : Env) (unit : Nat) : Dev :=
  let hit (d : Dev) (n : Nat) : Dev := if (d.rx n).busy then d.stopRx env n .reload else d
  let shadow (m : Nat) : Dev :=
    if (d.rx m).build.any fun b => b.loaded && !b.inPlace && decide (b.why ≠ .rateStep) then
      (d.updRx m fun r => { r with build := r.build.map fun b => { b with loaded := false } }).startRun env .builder m
    else d
  match d.last unit with
  | .active n =>
    if (d.rx n).op.isNone then d.updRx n fun r => { r with stale := true }
    else match (d.rx n).build with
      | none => if (d.rx n).restoring then d else (hit d n).startBuild env n ⟨.restore, true, (d.rx n).dL, false⟩
      | some b => if b.inPlace || (d.rx n).restoring then d else ((hit d n).updRx n fun r => { r with restoring := true }).startRun env .builder n
  | .shadow m => shadow m
  | .lent _ m => shadow m
  | .free => d

/-- MEM_GOLDEN_LOST, and the word restored from Frelvo's records (R271). -/
def Dev.goldenLost (d : Dev) (env : Env) (mem unit word : Nat) : Dev :=
  let d1 := (d.log env ⟨7, mem, unit, word, 0, 0xFF, d.tracked env mem unit word, 7⟩).raise .memGoldenLost 0 [(1, mem), (2, unit), (4, word)]
  if mem = 0x10 then d1.lastRestore env unit else d1

/-- MEM_UE, at most 100 per second (R280). -/
def Dev.raiseUe (d : Dev) (env : Env) (mem region addr : Nat) : Dev :=
  let fresh := decide (d.msys.ueSince + sec ≤ env.now)
  let n := if fresh then 0 else d.msys.ueCount
  let d1 := d.updMsys fun m => { m with ueSince := if fresh then env.now else m.ueSince, ueCount := n + 1 }
  if n < 100 then d1.raise .memUe 0 [(1, mem), (1, region), (8, addr)] else d1

/-- A unit of the protection delay is lost: each frame that holds a byte of it is invalid on the held leg, the earlier one, and where that leg is selected the selector
substitutes the other if it is aligned and valid (R252, R269). A unit of 128 bytes reaches into one or two frames: which, is a free value (log entry 170). -/
def Dev.heldUnitLost (d : Dev) (g : Nat) : Dev :=
  let x := d.groupAt g
  let other := d.bundleAt (if x.earlierProt then x.work else x.prot)
  if x.armed && decide (x.selProt = x.earlierProt) && (if x.earlierProt then x.wAligned else x.pAligned) && d.legValid other then
    (let (v, d1) := d.draw; d1.count (ctrProt protSubst g) (1 + v % 2))
  else d

/-- What becomes of the data of an uncorrectable word (Table 11-4). Bundle data is delivered as all-ones, which is no state (`unitDelivered`). An entry of the log or the snapshot ring keeps only its BAD flag, and the word holds four of the ring's entries; the dump region has none. -/
def ueOutcome (env : Env) (what : DramUse) (d : Dev) : Dev :=
  match what with
  | .bundleBuffer _ => d
  | .protDelay g => d.heldUnitLost g
  | .golden mem unit word liveOk otherOk =>
    if liveOk then d else if otherOk && d.bothStacks then d else d.goldenLost env mem.toNat unit.toNat word
  | .window off =>
    let a := off.toNat
    if 0x3F000000 ≤ a ∧ a < 0x3F200000 then d.emit (.dram (a / 32 * 32) (leBytes 32 (2 ^ 159)))
    else if a < 0x20000000 ∧ 64 ≤ a % 0x40000 then d.emit (.dram (a / 32 * 32) ((List.replicate 4 (leBytes 8 (2 ^ 63))).flatten))
    else d.emit (.dram (a / 32 * 32) (List.replicate 32 0))
  | .staged => { d with boot := { d.boot with stagedBad := true } }
  | .spill h => d.progFault env h .memory 0
  | .hosted h => d.updProg h fun p => { p with bad := true }

/-- A double-bit error is detected, logged and counted (R269). -/
def dramUncorrectable (env : Env) (stack addr syndrome region : Nat) (what : DramUse) (d : Dev) : Dev :=
  if d.inService && d.domOn (domStack stack) then
    ueOutcome env what (((d.count ctrUeDram 1).log env ⟨2, stack, 0, addr, syndrome, 0xFF, d.tracked env stack 0 addr, region⟩).raiseUe env stack region addr)
  else d

def execDramUncorrectableError (stack : Fin 2) (addr : BitVec 36) (syndrome : BitVec 16) (region : BitVec 3) (what : DramUse) (s : State) :
    Host.Outcome State Fault Refusal :=
  .next (onDev s fun env d => dramUncorrectable env stack addr.toNat syndrome.toNat region.toNat what d)

/-! ### SRAM (R270 to R272) -/

/-- MEM_PARITY at most once per second (R280). -/
def Dev.raiseParity (d : Dev) (env : Env) (mem unit : Nat) : Dev :=
  let n := d.msys.parity.since + 1
  if d.msys.parity.due env.now sec then
    (d.updMsys fun m => { m with parity := ⟨0, some env.now⟩ }).raise .memParity 0 [(1, mem), (2, unit), (4, n)]
  else d.updMsys fun m => { m with parity := { m.parity with since := n } }

/-- A configuration word fails parity: it is reloaded from a golden copy (`copies` of them are usable), unless a pending write wins; with no usable copy
its golden copy is lost (R80, R270, R271, R281). -/
def cfgParity (env : Env) (mem unit word mask copies : Nat) (pendingWrite : Bool) (d : Dev) : Dev :=
  if mem = 0x10 ∨ mem = 0x11 ∨ mem = 0x12 then
    let d1 := ((d.count ctrParityCfg 1).correction env ⟨3, mem, unit, word, mask, 0xFF, 0, 7⟩).raiseParity env mem unit
    if !pendingWrite && (decide (copies = 0) || !d.anyStack) then d1.goldenLost env mem unit word else d1
  else d

def execCfgParityError (mem : Byte) (unit : BitVec 16) (word : Nat) (bytes : BitVec 16) (copies : Nat) (pendingWrite : Bool) (s : State) :
    Host.Outcome State Fault Refusal :=
  .next (onDev s fun env d => cfgParity env mem.toNat unit.toNat word bytes.toNat copies pendingWrite d)

/-- The outcome of Table 11-5. The multiframe of a channel in the authentication hold is delivered as zeros with AIS and not counted. -/
def sramOutcome (env : Env) (what : SramUse) (d : Dev) : Dev :=
  match what with
  | .insole ch => d.insoleDrop ch
  | .authHold ch => d.updChan ch fun c => { c with zeros := true }
  | .engine (.hosted h) => d.progFault env h .parity 0
  | .engine (.system row c) => d.runFault env (sysRow row) c ProgCause.parity.code 0
  | .free => d

/-- A data SRAM word fails parity (R272). -/
def dataParity (env : Env) (mem unit word mask : Nat) (what : SramUse) (d : Dev) : Dev :=
  if 0x20 ≤ mem ∧ mem ≤ 0x23 then
    sramOutcome env what (((d.count ctrParityData 1).correction env ⟨4, mem, unit, word, mask, 0xFF, 0, 7⟩).raiseParity env mem unit)
  else d

def execDataParityError (mem : Byte) (unit : BitVec 16) (word : Nat) (bytes : BitVec 16) (what : SramUse) (s : State) :
    Host.Outcome State Fault Refusal :=
  .next (onDev s fun env d => dataParity env mem.toNat unit.toNat word bytes.toNat what d)

/-! ### Scrubbing, re-striping, rings (R261, R268, R273) -/

/-- A DRAM scrub pass ends; one that took more than twice its period and has not been reported was late (R273, R280). -/
def scrubEnd (env : Env) (stack : Nat) (d : Dev) : Dev :=
  if d.domOn (domStack stack) then
    let late := d.scrubOverdue env stack
    (d.updMsys fun m => { m with scrubStart := m.scrubStart.set stack env.now, scrubLate := m.scrubLate.erase stack, lastScrubEnd := env.now }).raiseIf late .memScrubLate 0 [(1, stack)]
  else d

def execScrubPassEnd (stack : Fin 2) (s : State) : Host.Outcome State Fault Refusal :=
  .next (onDev s fun env d => scrubEnd env stack d)

/-- Re-striping ends: the full admission limit returns (R261). -/
def restripeEnd (d : Dev) : Dev :=
  if d.pw.restriping then { d with pw := { d.pw with restriping := false } }.raise .memRestriped 0 [] else d

def execRestripeEnd (s : State) : Host.Outcome State Fault Refusal :=
  .next (onDev s fun _ d => restripeEnd d)

/-- Data reaches a full ring: discarded, counted in bytes, reported at most once per second (R268). -/
def ringOverflow (env : Env) (b bytes : Nat) (d : Dev) : Dev :=
  let x := d.bundleAt b
  if x.buffered then
    let n := x.lost + bytes
    let due := Merged.due ⟨0, x.lostAt⟩ env.now sec
    let d1 := d.count (ctrBufOverflow b) bytes
    if due then (d1.updBundle b fun x => { x with lost := 0, lostAt := some env.now }).raise .bufOverflow b [(8, n)]
    else d1.updBundle b fun x => { x with lost := n }
  else d

def execBufRingOverflow (b : Fin 128) (bytes : Nat) (s : State) : Host.Outcome State Fault Refusal :=
  .next (onDev s fun env d => ringOverflow env b bytes d)

/-- Size of a bundle's ring in bytes (R267): 25 Gb/s for a µs are 3,125 bytes. -/
def ringSize (b : Bundle) : Nat := (if b.elastic then 128 - b.first else b.count) * 3125 * b.depth

/-! ### Commands (R277 to R279) -/

/-- Targets of CMD_MEM_BIST with the range of UNIT (Table 11-6): the fault of MEM or UNIT, as an entry offset. -/
def bistFault (mem unit : Nat) : Option Nat :=
  let top := match mem with
    | 0x00 => some 0
    | 0x01 => some 0
    | 0x10 => some 31
    | 0x12 => some 3
    | 0x20 => some 0
    | 0x21 => some 0
    | 0x22 => some 255
    | 0x23 => some 15
    | _ => none
  match top with
  | none => some 8
  | some t => if t < unit then some 9 else none

/-- Is the target out of service? (Table 11-6) -/
def bistIdle (mem unit : Nat) (d : Dev) : Bool :=
  match mem with
  | 0x00 => decide (d.bufferedChans = 0) && !(d.group.any fun kv => kv.2.armed) && d.domOn (domStack 1)
  | 0x01 => decide (d.bufferedChans = 0) && !(d.group.any fun kv => kv.2.armed) && d.domOn (domStack 0)
  | 0x10 => decide (d.last unit = .free)
  | 0x12 => decide ((d.tx unit).state = .dark) && decide ((d.rx unit).acq = .down) && !d.anyBundleEnabled unit
  | 0x20 => !d.anyStitchUp
  | 0x21 => !d.anyKeyActive
  | 0x22 => d.engineFree unit
  | _ => d.clusterFree unit

/-- Is the target's domain ON? Memories without a domain of their own run with the device. -/
def bistDomain (mem unit : Nat) (d : Dev) : Bool :=
  match mem with
  | 0x00 => d.domOn (domStack 0)
  | 0x01 => d.domOn (domStack 1)
  | 0x12 => d.domOn (domCarrier unit)
  | 0x22 => d.domOn (domCluster (unit / 16))
  | 0x23 => d.domOn (domCluster unit)
  | _ => true

/-- Rows that fail the test are retired at once, each with a log entry of TYPE 8; without a spare left a row stays (R275, R277). -/
def Dev.bistRow (d : Dev) (env : Env) (mem unit addr : Nat) : Dev :=
  let (region, d1) := d.drawRegion mem
  if d.msys.hasSpare mem unit addr then d1.retireRow env 8 mem unit addr region
  else (d1.log env ⟨8, mem, unit, addr, 0, 0xFF, d.tracked env mem unit addr, region⟩).hardFail env mem unit addr region

/-- Addresses of failing rows, one for each row. -/
def rowsOnce (mem unit : Nat) : List Nat → List Nat
  | [] => []
  | a :: l =>
    let rest := rowsOnce mem unit l
    if rest.any fun b => decide (Config.memBank mem unit a = Config.memBank mem unit b ∧ Config.memRow mem unit a = Config.memRow mem unit b) then rest else a :: rest

/-- CMD_MEM_BIST (R277): march test of a target out of service; a carrier's converter macros are then calibrated anew. What RESULT byte 6 says of a target with
many banks is log entry 181. -/
def memBist (env : Env) (e : CmdEntry) (found : BistReport) (d : Dev) : CmdRes :=
  let mem := u8 e 0
  let unit := u16 e 1
  match bistFault mem unit with
  | some k => .refuse .badParam k
  | none =>
    if !bistIdle mem unit d then .refuse .trafficPresent 0
    else if !d.inService then .refuse .state 0
    else if !bistDomain mem unit d then .refuse .domainOff 0
    else
      let d1 := (rowsOnce mem unit found.rows).foldl (fun d a => d.bistRow env mem unit a) d
      let d2 := if mem = 0x12 then (d1.updCal unit fun _ => .reset).calDomainOn env unit else d1
      .done (leBytes 4 found.words ++ leBytes 2 (d2.msys.retired.length - d.msys.retired.length) ++ leBytes 1 (d2.msys.sparesLeft mem unit)) d2

def formMemBist : CmdForm := form 0x0F10 (.fixed 3) []

def execCmdMemBist (e : CmdEntry) (found : BistReport) (s : State) : Host.Outcome State Fault Refusal :=
  .next (runCmd formMemBist e (fun env d => memBist env e found d) s)

/-- Bytes of a stack (Table 11-1). -/
def stackBytes : Nat := 36000000000

/-- Can the row of MEM, UNIT, ADDR be named? Key slots and Frelvo memory have no spares (R278). -/
def retireFault (mem unit addr : Nat) : Option Nat :=
  if !([0x00, 0x01, 0x10, 0x11, 0x12, 0x20, 0x21, 0x22, 0x23].contains mem) then some 8
  else if mem < 2 then (if unit ≠ 0 then some 9 else if stackBytes ≤ addr then some 11 else none)
  else if mem = 0x11 then (if Config.memWords mem unit ≤ addr then some 11 else none)
  else match bistFault mem unit with
    | some k => some k
    | none => if Config.memWords mem unit ≤ addr then some 11 else none

/-- CMD_MEM_RETIRE (R278). -/
def memRetire (env : Env) (e : CmdEntry) (d : Dev) : CmdRes :=
  let mem := u8 e 0
  let unit := u16 e 1
  let addr := fieldAt (payload e) 3 8
  match retireFault mem unit addr with
  | some k => .refuse .badParam k
  | none =>
    if d.msys.isRetired mem unit addr then .done [] d
    else if !d.msys.hasSpare mem unit addr then .refuse .fuse 0
    else if !bistDomain mem unit d then .refuse .domainOff 0
    else (let (region, d1) := d.drawRegion mem; .done [] (d1.retireRow env 5 mem unit addr region))

def formMemRetire : CmdForm := form 0x0F03 (.fixed 11) []

def execCmdMemRetire (e : CmdEntry) (s : State) : Host.Outcome State Fault Refusal :=
  .next (runCmd formMemRetire e (fun env d => memRetire env e d) s)

/-- RESULT of CMD_MEM_STATUS (Table 11-7). How far a scrub pass has come and how many transactions were in flight the spec does not let one compute:
SCRUB_PROGRESS and TRACKER_PEAK are free values (log entry 1). -/
def memStatus (d : Dev) : List Byte × Dev :=
  let (scrub, d1) := d.draw
  let (peak, d2) := d1.draw
  let dropped := sumBy (fun b => d.counter (ctrBufOverflow b)) (List.range 128)
  (resultBits [(2, (d.domState (domStack 0)).code), (2, (d.domState (domStack 1)).code), (1, b2n d.pw.restriping), (3, 0), (8, scrub % 101),
    (16, peak % 8193), (48, d.counter ctrCeDram), (32, d.counter ctrUeDram), (32, d.counter ctrParityCfg), (32, d.counter ctrParityData),
    (16, d.msys.retired.length), (8, d.msys.spareOut), (8, 0), (16, 5 * (d.bufferedChans + d.protectedChans)), (16, 1360 * d.stacksFor),
    (32, d.msys.logSeq), (48, dropped), (64, d.msys.lastScrubEnd)], d2)

def formMemStatus : CmdForm := form 0x0F01 (.fixed 0) []

def execCmdMemStatus (e : CmdEntry) (s : State) : Host.Outcome State Fault Refusal :=
  .next (runCmd formMemStatus e (fun _ d => let (r, d1) := memStatus d; .done r d1) s)

end Sys2Proof.Machine
end

