-- ==== Sys2Proof/Machine/Protection.lean ====
section
/-! DEFINITION. Machine/Protection.lean: protection groups: commands and events (R246 to R257). -/

namespace Sys2Proof.Machine

/-- CMD_PROT_CREATE (R246, R248). The bundle of an interop carrier attaches to an Ethernet port only, and has no path overhead (R226). A breach of R32 is that of the stored parameter P_PROT_MAX_DELAY, whose identifier DETAIL gives (R511, log entry 132). -/
def protCreate (env : Env) (e : CmdEntry) (d : Dev) : CmdRes :=
  let g := u8 e 0
  let w := d.bundleAt (u8 e 1)
  let p := d.bundleAt (u8 e 2)
  let total := d.protectedChans + w.count
  if d.hasGroup g then badField 0
  else if !d.hasBundle (u8 e 1) || w.buffered || w.elastic || d.interop w.carrier then badField 1
  else if !d.hasBundle (u8 e 2) || p.buffered || p.elastic || d.interop p.carrier || decide (p.count ≠ w.count ∨ p.carrier = w.carrier ∨ p.st ≠ .disabled) || d.attached (u8 e 2) then
    badField 2
  else if 256 < total then badField 1
  else if !fitsRegion d.stacksFor total (env.par.nat pProtMaxDelay) then .refuse .badParam pProtMaxDelay
  else if !fitsBandwidth d.stacksFor d.bufferedChans total then .refuse .dramBw 0
  else if d.rateBusy w.carrier || d.rateBusy p.carrier then .refuse .busy 0
  else .done [] { d with group := d.group.set g { Group.absent with
    work := u8 e 1, prot := u8 e 2, revert := bitAt (u8 e 3) 0, sdEn := bitAt (u8 e 3) 1, holdoff := u16 e 4, wtr := u16 e 6 } }

def formProtCreate : CmdForm :=
  form 0x0510 (.fixed 8) [fldU 0 1 0 63, fldU 1 1 0 127, fldU 2 1 0 127, fldBits 3 1 3, fldU 4 2 0 10000, fldU 6 2 0 3600]

def execCmdProtCreate (e : CmdEntry) (s : State) : Host.Outcome State Fault Refusal :=
  .next (runCmd formProtCreate e (fun env d => protCreate env e d) s)

/-- CMD_PROT_DELETE (R248). -/
def protDelete (e : CmdEntry) (d : Dev) : CmdRes :=
  if !d.hasGroup (u8 e 0) then badField 0
  else if (d.groupAt (u8 e 0)).armed then .refuse .trafficPresent 0
  else .done [] { d with group := d.group.drop (u8 e 0) }

def formProtDelete : CmdForm := form 0x0511 (.fixed 1) [fldU 0 1 0 63]

def execCmdProtDelete (e : CmdEntry) (s : State) : Host.Outcome State Fault Refusal :=
  .next (runCmd formProtDelete e (fun _ d => protDelete e d) s)

/-- CMD_PROT_ARM (R251): ARM = 1 enables the protection bundle and starts the bridge and the filling; ARM = 0 goes back to the working leg. With only
one stack ON the group is judged against half the region (R31, R258). -/
def protArm (env : Env) (e : CmdEntry) (d : Dev) : CmdRes :=
  let g := u8 e 0
  let x := d.groupAt g
  if !d.hasGroup g then badField 0
  else if bitAt (u8 e 1) 0 then
    if x.armed then .done [] d
    else if !d.domOn (domCarrier (d.bundleAt x.work).carrier) || !d.domOn (domCarrier (d.bundleAt x.prot).carrier) || !d.anyStack then
      .refuse .domainOff 0
    else if !fitsRegion d.stacksFor d.protectedChans (env.par.nat pProtMaxDelay) then .refuse .badParam pProtMaxDelay
    else .start (env.par.nat pProtMaxDelay * us + 50 * ms)
      ((d.updGroup g fun x => { x with st := .filling, armForce := force e, selProt := false, protWas := decide ((d.bundleAt x.prot).st = .enabled) }).updBundle x.prot fun b =>
        { b with st := if b.st = .enabled then .enabled else .enabling })
  else if x.armed = false then .done [] d
  else if decide (x.st ≠ .filling) && !x.earlierProt && !force e then .refuse .trafficPresent 0
  else .done [] (d.disarm g)

def formProtArm : CmdForm := formF 0x0512 (.fixed 2) [fldU 0 1 0 63, fldBits 1 1 1]

def execCmdProtArm (e : CmdEntry) (s : State) : Host.Outcome State Fault Refusal :=
  .next (runCmd formProtArm e (fun env d => protArm env e d) s)

/-- CMD_PROT_SWITCH (R254). A MANUAL request is outranked while a request of rank 1 to 5 is in force. -/
def protSwitch (e : CmdEntry) (d : Dev) : CmdRes :=
  let g := u8 e 0
  let x := d.groupAt g
  if !d.hasGroup g then badField 0
  else if !x.armed then .refuse .state 0
  else match u8 e 1 with
    | 0 => .done [] (d.updGroup g fun x => { x with host := 0, wtrEnd := none })
    | r =>
      if 3 ≤ r ∧ 1 ≤ x.winner.1 ∧ x.winner.1 ≤ 5 then .refuse .state 0
      else .done [] (d.updGroup g fun x => { x with host := r })

def formProtSwitch : CmdForm := form 0x0513 (.fixed 2) [fldU 0 1 0 63, fldU 1 1 0 4]

def execCmdProtSwitch (e : CmdEntry) (s : State) : Host.Outcome State Fault Refusal :=
  .next (runCmd formProtSwitch e (fun _ d => protSwitch e d) s)

/-- RESULT of CMD_PROT_STATUS (Table 10-8). -/
def protStatus (env : Env) (g : Nat) (d : Dev) : List Byte :=
  let x := d.groupAt g
  let left := match x.wtrEnd with
    | some t => ceilDiv (t - env.now) sec
    | none => 0
  let c (k : Nat) : Nat := d.counter (ctrProt k g)
  resultBits [(2, x.st.code), (1, b2n x.selProt), (1, b2n x.earlierProt), (4, x.rank), (1, b2n (d.legSf env x false && x.armed)),
    (1, b2n (d.legSd x false && x.armed)), (1, b2n (d.legSf env x true && x.armed)), (1, b2n (d.legSd x true && x.armed)), (1, b2n x.wAligned),
    (1, b2n x.pAligned), (2, 0), (16, left), (32, x.diff), (32, c protSwitches), (48, c protSubst), (48, c protDamaged), (32, c protGapUs)]

def formProtStatus : CmdForm := form 0x0514 (.fixed 1) [fldU 0 1 0 63]

def execCmdProtStatus (e : CmdEntry) (s : State) : Host.Outcome State Fault Refusal :=
  .next (runCmd formProtStatus e (fun env d =>
    if d.hasGroup (u8 e 0) then (let d1 := (d.diffRuns env (u8 e 0)).framesRun (u8 e 0); .done (protStatus env (u8 e 0) d1) d1) else badField 0) s)

/-! ### Events -/

/-- A refusal of the arming leaves the group disarmed (R251). -/
def Dev.armRefused (d : Dev) (g : Nat) (st : Status) (detail : Nat) : Dev := (d.disarm g).finish 0x0512 g st detail []

/-- The multiframe offsets at which the last 16 signatures of the later leg match the earlier leg's, none of them of an excluded multiframe (R249). -/
def matchOffsets (m : LegMatch) : List Nat :=
  (List.range (m.earlier.length - 15)).filter fun k => (List.range 16).all fun i => match m.later.getD i none, m.earlier.getD (k + i) none with
    | some a, some b => decide (a = b)
    | _, _ => false

/-- The aligner has its answer for a group in FILLING (R249 to R251): a match at one whole-multiframe offset that agrees with the differential delay `diff` in ns,
whose rest is the offset between the legs' boundaries. Signatures that match at more than one offset leave the group in FILLING, and so do those that match at none; a delay
beyond P_PROT_MAX_DELAY refuses the arming; a working leg that is earlier needs a pause, taken only with FORCE while its bundle is enabled. -/
def protAlign (env : Env) (g diff : Nat) (earlierProt : Bool) (found : LegMatch) (d : Dev) : Dev :=
  let x := d.groupAt g
  if x.st ≠ .filling ∨ matchOffsets found = [] then d
  else if 1 < (matchOffsets found).length then
    if x.ambig then d else (d.updGroup g fun x => { x with ambig := true }).raise .protAlignAmbig g []
  else if (matchOffsets found).headD 0 ≠ multiframesIn diff then d
  else if env.par.nat pProtMaxDelay * us < diff then (d.raise .protDelayRange g [(4, diff)]).armRefused g .badParam pProtMaxDelay
  else if !earlierProt && (d.bundleAt x.work).on && !x.armForce then d.armRefused g .trafficPresent 0
  else
    let pause := if !earlierProt && (d.bundleAt x.work).on then ceilDiv diff us else 0
    let d1 := d.updGroup g fun x =>
      { x with st := .aligned, wAligned := true, pAligned := true, wHold := 0, pHold := 0, earlierProt := earlierProt }.setDiff env.now (if earlierProt then diff else -diff)
    ((d1.count (ctrProt protGapUs g) pause).raise .protAligned g [(4, diff), (1, b2n earlierProt)]).finish 0x0512 g .ok 0 []

def execProtAlign (g : Fin 64) (diff : Nat) (earlierProt : Bool) (found : LegMatch) (s : State) : Host.Outcome State Fault Refusal :=
  .next (onDev s fun env d => protAlign env g diff earlierProt found d)

/-- SF or SD that has persisted for HOLDOFF acts, each from its own onset, and SEL follows (R253). A working leg that fails again ends a running WTR, which its next recovery starts
anew (log entry 133). -/
def holdoffExpiry (env : Env) (g subst damaged : Nat) (d : Dev) : Dev :=
  let x := d.groupAt g
  if x.armed then
    let wSf := x.acting env.now x.wSf x.wSfAt
    let wSd := x.acting env.now x.wSd x.wSdAt
    ((d.updGroup g fun x => { x with wSf := wSf, pSf := x.acting env.now x.pSf x.pSfAt, wSd := wSd, pSd := x.acting env.now x.pSd x.pSdAt,
                                     wtrEnd := if wSf || (x.sdEn && wSd) then none else x.wtrEnd }).protSelect g).countFrames g subst damaged
  else d

def execProtHoldoffExpiry (g : Fin 64) (subst damaged : Nat) (s : State) : Host.Outcome State Fault Refusal :=
  .next (onDev s fun env d => holdoffExpiry env g subst damaged d)

/-- Wait-to-restore ends: SEL returns to working (R253). It waits while MBX_STATE is not READY (R258). -/
def wtrExpiry (env : Env) (g : Nat) (d : Dev) : Dev :=
  if env.mbx = .ready ∧ (d.groupAt g).wtrEnd.isSome = true then (d.updGroup g fun x => { x with wtrEnd := none }).protSelect g else d

def execProtWtrExpiry (g : Fin 64) (s : State) : Host.Outcome State Fault Refusal :=
  .next (onDev s fun env d => wtrExpiry env g d)

/-- A leg is aligned again, held for `hold` ns, with L raised by `raise`: the one held longer is the earlier (R250, R255). -/
def Group.rejoin (x : Group) (now : Nat) (prot : Bool) (hold raise : Nat) : Group :=
  let w := if prot then x.wHold + raise else hold
  let p := if prot then hold else x.pHold + raise
  let y := { x with wAligned := x.wAligned || !prot, pAligned := x.pAligned || prot, wHold := w, pHold := p }
  { y with st := if y.wAligned && y.pAligned then .aligned else .degraded }.setDiff now (p - w)

/-- A failed leg is valid again and the aligner has matched it (R255). `early` is by how many ns it arrives before L; it needs 2.0 µs, and what it has beyond
that is the delay it needs, which P_PROT_MAX_DELAY bounds like the differential delay. -/
def legReturn (env : Env) (g : Nat) (prot : Bool) (early : Int) (diff subst damaged : Nat) (d : Dev) : Dev :=
  let x := d.groupAt g
  if x.st ≠ .degraded ∨ x.stuck = true ∨ d.legFails env (x.leg prot) = true ∨ (if prot then x.pAligned else x.wAligned) = true then d
  else
    let d0 := d.countFrames g subst damaged
    let short := 2000 - early
    let most := env.par.nat pProtMaxDelay * us
    if most < diff ∨ (most : Int) < early - 2000 then (d0.updGroup g fun x => { x with stuck := true }).raise .protDelayRange g [(4, diff)]
    else if 2000 ≤ early then d0.updGroup g fun x => x.rejoin env.now prot (early - 2000).toNat 0
    else if env.par.on pProtRealign then
      (d0.count (ctrProt protGapUs g) (ceilDiv short.toNat us)).updGroup g fun x => x.rejoin env.now prot 0 short.toNat
    else (d0.updGroup g fun x => { x with stuck := true }).raise .protRealignNeeded g [(4, short)]

def execProtLegReturn (g : Fin 64) (prot : Bool) (early : Int) (diff subst damaged : Nat) (s : State) : Host.Outcome State Fault Refusal :=
  .next (onDev s fun env d => legReturn env g prot early diff subst damaged d)

end Sys2Proof.Machine
end

