-- ==== Sys2Proof/Machine/RateRows.lean ====
section
/-! DEFINITION. Machine/RateRows.lean: rate-step commands, the handshake's events, rate policy (R233 to R245, R256). -/

namespace Sys2Proof.Machine

/-! ### Commands -/

/-- The bound of a step (R235): P_RS_ACK_TIMEOUT + 5 ms, and the shadow load time of R133 when Rs changes. -/
def stepBound (env : Env) (n : Nat) (p : OpPoint) (d : Dev) : Nat :=
  let load := if (d.rx n).op.map OpPoint.symrate ≠ some p.symrate then
      (if d.halfClock then 2 else 1) * (500 * us + 250 * us * p.need (d.rx n).lo (d.rx n).hi) else 0
  env.par.nat (pRsAckTimeout + n) * ms + 5 * ms + load

/-- CMD_RATE_STEP (R235, R483). A carrier whose domain is not ON is never TX ON or LOCKED, so E_DOMAIN_OFF is judged before those (log entry 19). A target equal
to the point in force on both directions is named by the highest field that gives it (R511). `roomOk` is what the device reads of the elastic bundle's ring: space for the old net rate × 100 µs (R237). -/
def rateStep (env : Env) (e : CmdEntry) (roomOk : Bool) (d : Dev) : CmdRes :=
  let n := u8 e 0
  let p := targetPoint (csSlots e) (csMode1 e) (csEntropy e) (csRate e)
  match layoutFault (payload e) (csLayout e) with
  | some k => .refuse .badParam k
  | none =>
    if csProfile e ≠ 0 ∨ d.inService = false ∨ (d.carrier n).heldDown = true then .refuse .state 0
    else if !d.domOn (domCarrier n) then .refuse .domainOff 0
    else if !d.stepReady n then .refuse .state 0
    else match d.stepFault env n p (csMode1 e) (csEntropy e) with
    | some k => .refuse .badParam k
    | none =>
      if (d.tx n).op = some p ∧ (d.rx n).op = some p then .refuse .badParam (if csMode1 e then 14 else 12)
      else match d.stepPrepare env n p false (((d.rate n).seq + 1) % 16) roomOk with
        | .error (_, st) => .refuse st 0
        | .ok d1 => if d.anyRateBusy then .refuse .busy 0 else .start (stepBound env n p d) d1

def formRateStep : CmdForm := form 0x0501 (.fixed 12) []

def execCmdRateStep (e : CmdEntry) (roomOk : Bool) (s : State) : Host.Outcome State Fault Refusal :=
  .next (runCmd formRateStep e (fun env d => rateStep env e roomOk d) s)

/-- RESULT of CMD_RATE_STATUS (Table 10-7). -/
def rateStatus (n : Nat) (d : Dev) : List Byte :=
  let r := d.rate n
  resultBits [(3, r.st.code), (1, b2n r.responder), (4, r.seq), (8, r.slots), (16, r.h), (8, r.lastCause), (24, 0),
    (32, d.counter (ctrStepsDone n)), (32, d.counter (ctrStepsFailed n)), (32, r.lastDuration), (8, r.adviceSlots)]

def formRateStatus : CmdForm := form 0x0502 (.fixed 1) [fldCarrier]

def execCmdRateStatus (e : CmdEntry) (s : State) : Host.Outcome State Fault Refusal :=
  .next (runCmd formRateStatus e (fun _ d => d.ifPowered (u8 e 0) (.done (rateStatus (u8 e 0) d) d)) s)

/-- CMD_RATE_ELASTIC (R233). -/
def rateElastic (e : CmdEntry) (d : Dev) : CmdRes :=
  let b := u8 e 0
  let x := d.bundleAt b
  let eth := match x.attach with
    | .eth _ => true
    | _ => false
  if !d.hasBundle b then badField 0
  else if bitAt (u8 e 1) 0 then
    if decide (x.first + x.count ≠ d.txSlots x.carrier) || (d.elasticOf x.carrier).isSome || eth || !(d.groupsOf b).isEmpty then .refuse .state 0
    else .done [] (d.updBundle b fun x => { x with elastic := true })
  else .done [] (d.updBundle b fun x => { x with elastic := false })

def formRateElastic : CmdForm := form 0x0503 (.fixed 2) [fldU 0 1 0 127, fldBits 1 1 1]

def execCmdRateElastic (e : CmdEntry) (s : State) : Host.Outcome State Fault Refusal :=
  .next (runCmd formRateElastic e (fun _ d => rateElastic e d) s)

/-! ### The handshake (R238 to R243) -/

/-- The accepted fields of the far end. -/
def Dev.rsIn (d : Dev) (n : Nat) : RsFields := rsFieldsOf (d.frm n).rsRx

/-- A NAK with a cause of Table 10-3, echoing the request. -/
def Dev.nak (d : Dev) (env : Env) (n cause : Nat) : Dev :=
  let f := d.rsIn n
  d.sendRs env n ⟨opNak, f.seq, f.slots, f.h, cause⟩

/-- Why a request starts no step: P_RS_ACCEPT = 0, or a step on the device already (R236, R239, log entry 42). -/
def Dev.reqRefusal (d : Dev) (env : Env) (n : Nat) : Option Nat :=
  if env.par.val (pRsAccept + n) = 0 then some 1 else if d.anyRateBusy then some 6 else none

/-- What a responder finds before it looks at resources: NOT_READY, INVALID (R237, Table 10-3). -/
def Dev.reqCheck (d : Dev) (env : Env) (n : Nat) (p : OpPoint) : Option Nat :=
  if !d.stepReady n then some 8
  else if (d.stepFault env n p false p.h).isSome || decide (p.slots < 16 ∨ 128 < p.slots ∨ p.h < 128 ∨ 448 < p.h) then some 2
  else none

/-- The responder's step ends at once: RATE_STEP_FAIL_Cn and NAK with the cause (R236, R239, log entry 42). -/
def Dev.reqFail (d : Dev) (env : Env) (n cause : Nat) : Dev :=
  let f := d.rsIn n
  let d1 := d.updRate n fun r => { r with responder := true, seq := f.seq, slots := f.slots, h := f.h, start := env.now }
  (d1.stepFail env n cause .state 0).nak env n cause

/-- RATE_REQ_RX_Cn: a request that this end answers on its own authority, with P_RS_ACCEPT = 1 (R239). -/
def Dev.reqReport (d : Dev) (n : Nat) : Dev :=
  let f := d.rsIn n
  d.raise .rateReqRx n [(1, f.seq), (1, f.slots), (2, f.h)]

/-- The responder accepts a REQ (R239): a collision with its own unanswered REQ ends both steps; else RATE_REQ_RX_Cn, the interlocks, ACK or NAK. -/
def reqRx (env : Env) (n : Nat) (roomOk : Bool) (d : Dev) : Dev :=
  let f := d.rsIn n
  let r := d.rate n
  let p : OpPoint := ⟨0, f.slots, f.h⟩
  if f.op ≠ opReq then d
  else if r.st = .reqSent then (d.stepFail env n 7 .busy 0).nak env n 7
  else if d.rateBusy n ∧ r.responder = true ∧ r.seq = f.seq then d
  else match d.reqRefusal env n with
    | some c => (if c = 1 then d else d.reqReport n).nak env n c
    | none =>
      let d1 := d.reqReport n
      match d1.reqCheck env n p with
      | some c => d1.reqFail env n c
      | none => match d1.stepPrepare env n p true f.seq roomOk with
        | .error (c, _) => d1.reqFail env n c
        | .ok d2 => d2

def execRsReqRx (c : Fin 4) (roomOk : Bool) (s : State) : Host.Outcome State Fault Refusal :=
  .next (onDev s fun env d => reqRx env c roomOk d)

/-- Does the far end send operation `op` of the step in hand? (R238) -/
def Dev.rsIs (d : Dev) (n op : Nat) : Bool := decide ((d.rsIn n).op = op ∧ (d.rsIn n).seq = (d.rate n).seq)

/-- The initiator accepts ACK and sends COMMIT (R239). -/
def ackRx (env : Env) (n : Nat) (d : Dev) : Dev :=
  if (d.rate n).st = .reqSent ∧ d.rsIs n opAck = true then d.stepCommit env n else d

def execRsAckRx (c : Fin 4) (s : State) : Host.Outcome State Fault Refusal :=
  .next (onDev s fun env d => ackRx env c d)

/-- The initiator accepts NAK: ABORT, and E_STATE with DETAIL 0x0100 + cause (R235, R243). -/
def nakRx (env : Env) (n : Nat) (d : Dev) : Dev :=
  if (d.rate n).st = .reqSent ∧ d.rsIs n opNak = true then d.stepAbandon env n (d.rsIn n).cd .state (0x0100 + (d.rsIn n).cd) else d

def execRsNakRx (c : Fin 4) (s : State) : Host.Outcome State Fault Refusal :=
  .next (onDev s fun env d => nakRx env c d)

/-- The responder accepts the initiator's COMMIT and sends its own (R239). -/
def commitRx (env : Env) (n : Nat) (d : Dev) : Dev :=
  if (d.rate n).st = .ackSent ∧ d.rsIs n opCommit = true then d.stepCommit env n else d

def execRsCommitRx (c : Fin 4) (s : State) : Host.Outcome State Fault Refusal :=
  .next (onDev s fun env d => commitRx env c d)

/-- The responder accepts ABORT: reservations go, RATE_STEP_FAIL_Cn with cause FAR_ABORT (R243). -/
def abortRx (env : Env) (n : Nat) (d : Dev) : Dev :=
  if (d.rate n).responder ∧ (d.rate n).uncommitted = true ∧ d.rsIs n opAbort = true then (d.stepFail env n 10 .state 0).sendIdle env n else d

def execRsAbortRx (c : Fin 4) (s : State) : Host.Outcome State Fault Refusal :=
  .next (onDev s fun env d => abortRx env c d)

/-- No ACK or NAK within P_RS_ACK_TIMEOUT of the first REQ: ABORT, E_TIMEOUT (R235, R243). -/
def ackTimeout (env : Env) (n : Nat) (d : Dev) : Dev :=
  if (d.rate n).st = .reqSent then d.stepAbandon env n 9 .timeout 0 else d

def execRsAckTimeout (c : Fin 4) (s : State) : Host.Outcome State Fault Refusal :=
  .next (onDev s fun env d => ackTimeout env c d)

/-- The elastic flow is within its new allowance: REQ or ACK goes out (R237, R327). -/
def throttleDone (env : Env) (n : Nat) (d : Dev) : Dev :=
  if (d.rate n).st = .prepare ∧ (d.rate n).throttling ∧ d.throttleMet n = true then (d.updRate n fun r => { r with throttling := false }).stepSend env n else d

def execRsThrottleDone (c : Fin 4) (s : State) : Host.Outcome State Fault Refusal :=
  .next (onDev s fun env d => throttleDone env c d)

/-- The throttle is not complete within P_RS_THROTTLE_MAX: the step fails and all it reserved is released; a responder answers NOT_READY (R237, Tables
10-1 and 10-3). -/
def throttleTimeout (env : Env) (n : Nat) (d : Dev) : Dev :=
  if (d.rate n).st = .prepare ∧ (d.rate n).throttling then d.stepRefused env n 8 .noCredit else d

def execRsThrottleTimeout (c : Fin 4) (s : State) : Host.Outcome State Fault Refusal :=
  .next (onDev s fun env d => throttleTimeout env c d)

/-- At the countdown's end this transmitter switches: n at frame 0, Rs, Fs and codes at Σ (R214, R240). The command completes with the new point;
a missed receive switch does not hold this one back (R243). -/
def txSwitch (env : Env) (n : Nat) (d : Dev) : Dev :=
  let r := d.rate n
  let p : OpPoint := ⟨0, r.slots, r.h⟩
  if r.st = .committed ∧ r.tx.cd ≤ 1 then
    let changes := fsChanges (d.tx n).op p
    let d1 := (d.updTx n fun t => t.switchPoint env.now p).growElastic n r.slots
    let d2 := d1.updRate n fun r => { r with st := .txSwitched, txDone := true, throttled := false, txSwitchAt := env.now }
    let d3 := if changes then d2.calFsChange env n else d2
    let (result, d4) := carrierSetResult p (d3.sendIdle env n)
    let d5 := if r.responder then d4 else d4.finish 0x0501 n .ok 0 result
    if r.missed.isSome then d5.updRate n fun r => { r with st := .idle }
    else if r.rxDone then d5.stepDone env n
    else d5
  else d

def execRsTxSwitch (c : Fin 4) (s : State) : Host.Outcome State Fault Refusal :=
  .next (onDev s fun env d => txSwitch env c d)

/-- After a change of Rs nonlinear training restarts 1 s after the step (R167). -/
def Dev.trainLater (d : Dev) (env : Env) (n : Nat) : Dev :=
  (d.endRun .trainer n).updRx n fun r => { r with nlcTraining := false, trainFrom := env.now + sec }

/-- The receiver passes the far end's Σ and finds the FAW at the new length (R241, R242). A responder that missed COMMIT sends its own now (R243). -/
def rxSwitch (env : Env) (n : Nat) (d : Dev) : Dev :=
  let r := d.rate n
  if (r.st = .committed ∨ r.st = .txSwitched ∨ r.st = .ackSent) ∧ r.rxDone = false ∧ d.locked n = true then
    let d1 := if r.st = .ackSent then d.stepCommit env n else d
    let d2 := if r.shadow then d1.trainLater env n else d1
    let p : OpPoint := ⟨0, r.slots, r.h⟩
    let d3 := ((d2.takePoint env n r.shadow p).updRate n fun r => { r with rxDone := true, shadow := false }).updSense n fun s => { s with sigma := some env.now }
    if r.txDone then d3.stepDone env n else d3
  else d

def execRsRxSwitch (c : Fin 4) (s : State) : Host.Outcome State Fault Refusal :=
  .next (onDev s fun env d => rxSwitch env c d)

/-- No receive Σ within P_RS_ACK_TIMEOUT of the local switch: SPLIT (R243). -/
def splitTimeout (env : Env) (n : Nat) (d : Dev) : Dev :=
  if (d.rate n).st = .txSwitched ∧ (d.rate n).rxDone = false then
    (d.stepFail env n 12 .state 0).updRate n fun r => { r with st := .split, split := true }
  else d

def execRsSplitTimeout (c : Fin 4) (s : State) : Host.Outcome State Fault Refusal :=
  .next (onDev s fun env d => splitTimeout env c d)

/-- A re-acquisition after a missed switch that has not locked within 10 ms gives way to one at the other point (R243). -/
def missedRetry (env : Env) (n : Nat) (d : Dev) : Dev :=
  let r := d.rate n
  match r.missed with
  | some atNew =>
    if d.locked n then d
    else
      let p : OpPoint := if atNew then ⟨0, r.oldSlots, r.oldH⟩ else ⟨0, r.slots, r.h⟩
      let d1 := d.updRate n fun r => { r with missed := some !atNew }
      (((d1.calPoint env n p).stopRx env n .down).updRx n fun x => { x with op := some p }).startFast env n
  | none => d

def execMissedSwitchRetry (c : Fin 4) (s : State) : Host.Outcome State Fault Refusal :=
  .next (onDev s fun env d => missedRetry env c d)

/-! ### Rate policy (R244, R245) -/

/-- Numerator and denominator of the least-squares slope per ns of samples with their times. -/
def slope (pts : List (Int × Int)) : Int × Int :=
  let k : Int := pts.length
  let sx := pts.foldl (fun a p => a + p.1) 0
  let sy := pts.foldl (fun a p => a + p.2) 0
  let sxy := pts.foldl (fun a p => a + p.1 * p.2) 0
  let sxx := pts.foldl (fun a p => a + p.1 * p.1) 0
  (k * sxy - sx * sy, k * sxx - sx * sx)

/-- The target of a decision: n moved by P_RS_STEP_SLOTS, and the smallest h under the policy's ceiling (R244). -/
def policyTarget (env : Env) (n : Nat) (slots : Nat) (d : Dev) : OpPoint :=
  let ceil := env.par.nat (pRsRsCeil + n)
  ⟨0, slots, smallestH slots (if ceil = 0 then (d.rate n).setRate else ceil)⟩

/-- Advise, or step as if commanded (R244): what CMD_RATE_STEP would be refused for blocks it. Whether the ring has room (R237) is a free value here. -/
def Dev.policyAct (d : Dev) (env : Env) (n : Nat) (down : Bool) (p : OpPoint) : Dev :=
  if decide (p.slots < env.par.nat (pRsMinSlots + n) ∨ env.par.nat (pRsMaxSlots + n) < p.slots) || (down && d.stepTraffic n p.slots) then
    d.rateBlocked env n 0 0
  else
    let d1 := d.updRate n fun r => { r with adviceSlots := p.slots, adviceH := p.h }
    if env.par.val (pRsPolicy + n) = 1 then d1.raise .rateAdvice n [(1, p.slots), (2, p.h)]
    else if d.anyRateBusy || decide (env.mbx ≠ .ready) then d1.rateBlocked env n 2 Status.busy.code
    else if !d.stepReady n then d1.rateBlocked env n 2 Status.state.code
    else if (d.stepFault env n p false p.h).isSome then d1.rateBlocked env n 2 Status.badParam.code
    else
      let (free, d2) := if d.stepNeedsRoom n then d1.draw else (1, d1)
      match d2.stepPrepare env n p false (((d.rate n).seq + 1) % 16) (decide (free % 2 = 1)) with
      | .error (_, st) => d2.rateBlocked env n 2 st.code
      | .ok d3 => d3.updRate n fun r => { r with auto := true }

/-- Is there a margin to decide from? A native receiver in LOCKED (R158, R244). -/
def Dev.policyReady (d : Dev) (n : Nat) : Bool :=
  d.inService && d.locked n && !(d.carrier n).heldDown && (d.tx n).op.any fun p => decide (p.profile = 0)

/-- The policy program of carrier `n`, on its engines, decides, and its run ends (R244, R364): it computes margin and trend. With one sample no slope is stated: it is a free value (log entry 1). Margins are
in 0.0025 dB, thresholds of R244 in 0.01 dB. A second without a decision breaks the hold of an up step, and its sample is missing. -/
def policyDecision (env : Env) (n : Nat) (d00 : Dev) : Dev :=
  let d := d00.endRun .ratePolicy n
  if d00.runPlaced .ratePolicy n = false then d00
  else if env.par.val (pRsPolicy + n) = 0 ∨ d.policyReady n = false then d.updRate n fun r => { r with upSince := none }
  else
    let f := d.fec n
    let m := 4 * (d.rx n).meas.margin - snrShift4 f.iter f.latmode
    let ms' := (env.now, m) :: (d.rate n).margins.filter fun x => decide (env.now < x.1 + env.par.nat (pRsTrendWin + n) * sec)
    let (free, dFree) := d.draw
    let single := decide (ms'.length < 2)
    let (num, den) := if single then (toSigned 32 free, (sec : Int)) else slope (ms'.map fun x => ((x.1 : Int) - env.now, x.2))
    let d0 := if single then dFree else d
    let n0 := d.txSlots n
    let stepS := env.par.nat (pRsStepSlots + n)
    let pUp := policyTarget env n (n0 + stepS) d
    let pDn := policyTarget env n (n0 - stepS) d
    let rise : Int := (pUp.requiredSnr64 : Int) - (((d.tx n).op.map OpPoint.requiredSnr64).getD 0 : Nat)
    let above := decide (64 * env.par.val (pRsUpMargin + n) + rise < 16 * m)
    let unbroken := (d.rate n).margins.head?.any fun x => decide (env.now < x.1 + 2 * sec)
    let since := if above then some (if unbroken then (d.rate n).upSince.getD env.now else env.now) else none
    let d1 := d0.updRate n fun r => { r with margins := ms', upSince := since }
    if m * den + num * sec * env.par.val (pRsHorizon + n) < 4 * env.par.val (pRsDownMargin + n) * den then d1.policyAct env n true pDn
    else if decide (0 ≤ num) && (match since with
        | some t => decide (t + env.par.nat (pRsUpHold + n) * sec ≤ env.now)
        | none => false) then d1.policyAct env n false pUp
    else d1

def execRatePolicyDecision (c : Fin 4) (s : State) : Host.Outcome State Fault Refusal :=
  .next (onDev s fun env d => policyDecision env c d)

end Sys2Proof.Machine
end

