-- ==== Sys2Proof/Machine/Seam.lean ====
section
/-! DEFINITION. Machine/Seam.lean: the links between the dies, their persistent failure, and the return of a carrier (R18 to R22, R482, R483). -/

namespace Sys2Proof.Machine

/-- The number of a link as SEAM_DEGRADED gives it. -/
def seamNo : SeamLink → Nat
  | .cv0 => 0
  | .cv1 => 1
  | .io0 => 2
  | .io1 => 3
  | .io2 => 4
  | .io3 => 5

def Dev.seamAt (d : Dev) (l : Nat) : Seam := d.seam.get .reset l
def Dev.updSeam (d : Dev) (l : Nat) (f : Seam → Seam) : Dev := { d with seam := d.seam.upd .reset l f }

/-- What is being built for a carrier that a Seam failure takes down: a load in place is cut; the lasts of a shadow set stay with the carrier, where a
re-centring's load goes on and a command's ends with it (R16, R143). -/
def Dev.seamBuild (d : Dev) (n : Nat) : Dev :=
  match (d.rx n).build with
  | some b =>
    if b.inPlace then d.undoResize n
    else if b.why = .recentre then d
    else (d.endRun .builder n).updRx n fun r => { r with build := none }
  | none => d

/-- A carrier of a failed link is placed in the dark state (R22). -/
def Dev.holdDown (d : Dev) (env : Env) (l n : Nat) : Dev :=
  if d.domState (domCarrier n) = .off then d
  else
    let busy := decide ((d.cal n).phase = .initial ∨ (d.cal n).phase = .round)
    let d1 := ((((d.endRestore n).seamBuild n).carrierDark env n .state).armingEnds n .state).endRun .trainer n
    (d1.updCarrier n fun c => { c with heldDown := true, link := l, cal := { c.cal with resume := c.cal.resume || busy } }).updRx n fun r =>
      { r with nlcTraining := false }

/-- A link has failed persistently (R22); `retries`: its retransmissions in the 1 ms that ends now. -/
def Dev.seamFail (d : Dev) (env : Env) (l retries : Nat) : Dev :=
  let d1 := (d.raise .seamDegraded 0 [(1, l), (4, retries)]).updSeam l fun x => { x with failed := true, window := 0, badWindows := 0, recent := [] }
  (seamCarriers l).foldl (fun d n => d.holdDown env l n) d1

/-- A failed link has nothing left to take down: every carrier it serves is held down already, or has no power. -/
def Dev.seamSpent (d : Dev) (l : Nat) : Bool :=
  (d.seamAt l).failed && (seamCarriers l).all fun n => (d.carrier n).heldDown || decide (d.domState (domCarrier n) = .off)

/-- SEAM_FLIT_RETRY (R21, R22): a flit fails its CRC; `fails` of its retransmissions fail too before one arrives, and at 16 the link has failed. Every
retransmission is counted while the links have their rails; a failure is declared in Service, and again where
a failed link serves a carrier that is not held down (log entry 175). -/
def flitRetry (env : Env) (l fails : Nat) (d : Dev) : Dev :=
  let n := if fails < 16 then fails + 1 else 16
  if d.pw.state ≠ .calm ∧ d.pw.state ≠ .service then d
  else if !d.inService || d.seamSpent l then d.count (ckey 1 l) n
  else
    let recent := (env.now, n) :: (d.seamAt l).recent.filter fun r => decide (env.now < r.1 + ms)
    let d1 := (d.count (ckey 1 l) n).updSeam l fun x => { x with window := x.window + n, recent := recent }
    if fails < 16 then d1 else d1.seamFail env l (sumBy (·.2) recent)

def execSeamFlitRetry (link : SeamLink) (fails : Nat) (s : State) : Host.Outcome State Fault Refusal :=
  .next (onDev s fun env d => flitRetry env (seamNo link) fails d)

/-- SEAM_WINDOW_END (R22): the third 1 ms window in a row above 10,000 retransmissions. -/
def windowEnd (env : Env) (l : Nat) (d : Dev) : Dev :=
  let x := d.seamAt l
  if d.seamSpent l then d
  else
    let bad := if 10000 < x.window then x.badWindows + 1 else 0
    if 3 ≤ bad then d.seamFail env l x.window else d.updSeam l fun x => { x with window := 0, badWindows := bad }

def execSeamWindowEnd (link : SeamLink) (s : State) : Host.Outcome State Fault Refusal :=
  .next (onDev s fun env d => windowEnd env (seamNo link) d)

/-- A round that a Seam failure stopped runs again, where the domain is ON (R175, R182). -/
def Dev.calResume (d : Dev) (env : Env) (n : Nat) : Dev :=
  let d1 := d.updCal n fun c => { c with resume := false }
  if (d.cal n).resume && d.domOn (domCarrier n) then
    d1.updCal n fun c => c.begin env.now (if c.trigger = 5 then .initial else .round) c.mask c.trigger (d.rx n).los
  else d1

/-- A carrier is no longer held down: lasts of a shadow set that nothing loads any more are given up, and a full acquisition starts (R143, R482). -/
def Dev.letGo (d : Dev) (env : Env) (n : Nat) : Dev :=
  if (d.carrier n).heldDown then
    ((((if (d.rx n).build.isNone then d.freeShadow n else d).updCarrier n fun c => { c with heldDown := false }).updRx n fun r => { r with acq := .down }).calResume env n).startFull env n
  else d

/-- CMD_CARRIER_RECOVER (R482); `retrains`: every failed link of the carrier passes its run of clean flits. -/
def carrierRecover (env : Env) (e : CmdEntry) (retrains : Bool) (d : Dev) : CmdRes :=
  let n := u8 e 0
  if !d.inService || !(d.carrier n).heldDown then .refuse .state 0
  else if !d.domOn (domCarrier n) then .refuse .domainOff 0
  else if !retrains then .refuse .internal (d.carrier n).link
  else
    let ls := (seamLinks n).filter fun l => (d.seamAt l).failed
    let d1 := ls.foldl (fun d l => d.updSeam l fun _ => .reset) d
    .done [] ((ls.flatMap seamCarriers).foldl (fun d m => d.letGo env m) d1)

def formCarrierRecover : CmdForm := form 0x0302 (.fixed 1) [fldCarrier]

def execCmdCarrierRecover (e : CmdEntry) (retrains : Bool) (s : State) : Host.Outcome State Fault Refusal :=
  .next (runCmd formCarrierRecover e (fun env d => carrierRecover env e retrains d) s)

end Sys2Proof.Machine
end

