-- ==== Sys2Proof/Machine/Sensing.lean ====
section
/-! DEFINITION. Machine/Sensing.lean: sensing commands and events (R415 to R419). -/

namespace Sys2Proof.Machine

/-- The 32 signed taps of CMD_SENSE_COEF_LOAD (Table 17-2). -/
def senseTaps (e : CmdEntry) : List Int := (List.range 32).map fun k => i16 e (4 + 2 * k)

/-- CMD_SENSE_COEF_LOAD (R415): the absolute taps sum to at most 4.0, in units of 2⁻¹⁴. -/
def senseCoefLoad (e : CmdEntry) (d : Dev) : CmdRes :=
  let n := u8 e 0
  let dflt := bitAt (u8 e 1) 0
  if e.plen.toNat ≠ (if dflt then 4 else 68) then .refuse .badParam 6
  else match layoutFault (payload e) [fldCarrier, fldBits 1 1 1, fldRsv 2 2] with
  | some k => .refuse .badParam k
  | none =>
  if !d.domOn (domCarrier n) then .refuse .domainOff 0
  else if !dflt && decide (4 * 2 ^ 14 < sumBy Int.natAbs (senseTaps e)) then badField 4
  else .done [] (d.senseLoad n (if dflt then .dflt (d.sense n).minphase else .host (senseTaps e)))

def formSenseCoefLoad : CmdForm := form 0x0B01 (.oneOf [4, 68]) []

def execCmdSenseCoefLoad (e : CmdEntry) (s : State) : Host.Outcome State Fault Refusal :=
  .next (runCmd formSenseCoefLoad e (fun _ d => senseCoefLoad e d) s)

/-- A PH band edge above 0.4 × Fo is clamped; Fo = 9,765,625 Hz / 2^k (R412, R418). -/
def bandClamped (env : Env) (n k : Nat) : Bool :=
  decide (4 * 9765625 < 10 * 2 ^ k * env.par.nat (pFrontBandHi + n)) || decide (4 * 9765625 < 10 * 2 ^ k * env.par.nat (pFrontBandLo + n))

/-- CMD_SENSE_STATUS (R419). -/
def senseStatus (env : Env) (e : CmdEntry) (d : Dev) : CmdRes :=
  let n := u8 e 0
  let s := d.sense n
  if !d.domOn (domCarrier n) then .refuse .domainOff 0
  else .done (resultBits [(2, if s.running then (if d.locked n then 2 else 1) else 0),
    (2, if d.runPlaced .front n then 1 else if d.runWaiting .front n then 2 else 0),
    (1, b2n s.ph.active), (1, b2n s.sop.active), (1, match s.fading.getD s.set with | .dflt _ => 0 | .host _ => 1),
    (1, b2n (bandClamped env n s.k)), (4, s.k), (1, b2n s.fading.isSome), (19, 0),
    (32, s.seq), (32, s.ph.last), (32, s.sop.last), (32, d.counter (ckey 11 n)), (32, s.superseded)]) d

def formSenseStatus : CmdForm := form 0x0B02 (.fixed 1) [fldCarrier]

def execCmdSenseStatus (e : CmdEntry) (s : State) : Host.Outcome State Fault Refusal :=
  .next (runCmd formSenseStatus e (fun env d => senseStatus env e d) s)

/-- A carrier's ring in the dump region, and the place of a record in it (R417). -/
def recordOffset (n seq : Nat) : Nat := 0x30000000 + 0x01000000 * n + 32 * (seq % 524288)

/-- A record (Table 17-3). -/
def Sense.record (s : Sense) (env : Env) (n time : Nat) (valid step : Bool) : List Byte :=
  leBytes 32 (packBits ([(32, s.seq), (1, b2n valid), (1, b2n s.fading.isSome), (1, b2n s.discont), (1, b2n step), (28, 0)]
    ++ ([0, 1, 2, 3] : List Nat).map (fun j => (16, s.out env n j)) ++ [(64, time)]))

/-- The samples of stream `j`: zero where the receiver was not LOCKED (R411). -/
def streamSamples (samples : List SenseSample) (j : Nat) : List Int :=
  samples.map fun x => if x.valid then ((x.values.getD j 0).toInt) else 0

/-- Line frames from the instant that a record of carrier `n` names to the end of its output period: with deskew it names frame mR + 15R/16, without the frame of
stream 4n (R413). -/
def Sense.nameLag (s : Sense) (n : Nat) : Nat := if s.deskew then 0 else deskewDelay (4 * n) * 2 ^ s.k / 16

/-- TIME (R417): a line frame is 102.4 ns; a part of a ns is dropped (log entry 186). -/
def Sense.recordTime (s : Sense) (now n : Nat) : Nat := now - 1024 * s.nameLag n / 10

/-- STEP (R417): a switch point Σ fell within the span of the frames from which streams 4n to 4n + 3 are decimated, R each. -/
def Sense.stepIn (s : Sense) (now n : Nat) : Bool :=
  s.sigma.any fun t =>
    let f := 10 * (now - t) / 1024
    decide (deskewDelay (4 * n + 3) * 2 ^ s.k / 16 ≤ f ∧ f < deskewDelay (4 * n) * 2 ^ s.k / 16 + 2 ^ s.k)

/-- VALID (R411, R417): the receiver is LOCKED, and every frame from which streams 4n to 4n + 3 are decimated was valid. -/
def Dev.recordValid (d : Dev) (n : Nat) (samples : List SenseSample) : Bool :=
  d.locked n && (d.sense n).restValid && (samples.take (turnFrames (d.sense n).k (4 * n + 3))).all (·.valid)

/-- A record goes to a hosted program with PERM bit 8 whose ARG names the carrier by bit `n`: into its last shared page, 2,048 records round (R369, R417, log
entry 186). -/
def Dev.recordTo (d : Dev) (n : Nat) (bs : List Byte) (h : Nat) : Dev :=
  match d.prog h with
  | none => d
  | some p =>
    match p.shared.getLast? with
    | none => d
    | some g =>
      if p.placed && bitAt p.perm 8 && bitAt p.arg n then
        let at_ := 32 * (p.records % 2048)
        let mem := d.pageMem p.cluster g
        (d.setPage p.cluster g (mem.take at_ ++ bs ++ mem.drop (at_ + 32))).updProg h fun p => { p with records := p.records + 1 }
      else d

/-- The record as Front reads it. -/
def Sense.frontRecord (s : Sense) (env : Env) (n : Nat) (valid step : Bool) : FrontRecord :=
  let v (j : Nat) : Int := toSigned 16 (s.out env n j)
  ⟨s.seq, valid, step, v 0, v 1, v 2, v 3⟩

/-- The chain takes the R frames of an output period: the next record's state (R412, R413). -/
def Sense.decimate (s : Sense) (n : Nat) (samples : List SenseSample) : Sense :=
  { s with cic := ([0, 1, 2, 3] : List Nat).foldl (fun (t : Tbl Cic) j =>
      t.set j ((Tbl.get Cic.reset t j).run s.k (4 * n + j) (streamSamples samples j))) s.cic,
           restValid := (samples.drop (turnFrames s.k (4 * n))).all (·.valid) }

/-- TELEMETRY_RECORD (R410 to R418): the R = 2^k frames that end with frame mR + 15R/16 are decimated, each stream at its turn; the record is written to the ring and
handed to Front and to the hosted programs that receive it. The reference frame ended at `now` (log entry 186). -/
def telemetryRecord (env : Env) (n now : Nat) (samples : List SenseSample) (d : Dev) : Dev :=
  let s := d.sense n
  if !s.running || decide (samples.length ≠ 2 ^ s.k) then d
  else
    let s1 := s.decimate n samples
    let valid := d.recordValid n samples
    let step := s.stepIn now n
    let bs := s1.record env n (s.recordTime now n) valid step
    let d1 := if d.anyStack then d.emit (.dram (recordOffset n s.seq) bs) else d
    let seen := if d.runPlaced .front n then s1.frontRecord env n valid step :: s.window else s.window
    let d2 := d1.updSense n fun _ => { s1 with
      seq := (s.seq + 1) % 2 ^ 32, discont := false, faded := s.faded + b2n s.fading.isSome, window := seen }
    (d.eng.prog.map (·.1)).foldl (fun d h => d.recordTo n bs h) d2

/-- The frames come as their validity and their values, `late` ns after the last of them. -/
def execTelemetryRecord (c : Fin 4) (late : Nat) (valid : List Bool) (values : List (List (BitVec 16))) (s : State) : Host.Outcome State Fault Refusal :=
  .next (onDev s fun env d => telemetryRecord env c (env.now - late) (List.zipWith SenseSample.mk valid values) d)

/-- SENSE_XFADE_END (R414). -/
def senseXfadeEnd (n : Nat) (d : Dev) : Dev :=
  match (d.sense n).fading with
  | none => d
  | some f => d.updSense n fun s => { s with set := f, fading := s.waiting, waiting := none, faded := 0 }

def execSenseXfadeEnd (c : Fin 4) (s : State) : Host.Outcome State Fault Refusal :=
  .next (onDev s fun _ d => senseXfadeEnd c d)

/-- One evaluated window of a measure, given in thousandths: two in a row above the threshold raise it (R418). Levels are shown in whole units, rounded to nearest
(log entry 186). -/
def FrontMeasure.window (m : FrontMeasure) (thr milli first : Nat) : FrontMeasure × Bool :=
  let level := (milli + 500) / 1000
  let m1 := { m with last := level, below := decide (2 * milli < 1000 * thr) }
  if 1000 * thr < milli then
    let m2 := if m.above = 0 then { m1 with above := 1, peak := level, first := first } else { m1 with above := m.above + 1, peak := max m.peak level }
    if !m.active && decide (2 ≤ m2.above) then ({ m2 with active := true }, true) else (m2, false)
  else ({ m1 with above := 0 }, false)

/-- FRONT_Cn (R418). -/
def Dev.raiseFront (d : Dev) (n measure : Nat) (m : FrontMeasure) : Dev :=
  (d.count (ckey 11 n) 1).raise .front n [(1, measure), (4, m.peak), (4, m.first)]

/-- Records with VALID = 0 or STEP = 1 are left out (R418, R428). -/
def FrontRecord.kept (r : FrontRecord) : Bool := r.valid && !r.step

/-- The records that are left cover at least half of P_FRONT_WIN ms: a record stands for 102.4 ns × 2^k (R412, R418). -/
def Sense.covered (s : Sense) (env : Env) : Bool :=
  decide (10000000 * env.par.nat pFrontWin ≤ 2 * 1024 * 2 ^ s.k * (s.window.filter FrontRecord.kept).length)

/-- SEQ of the window's first record. -/
def Sense.firstSeq (s : Sense) : Nat := (s.window.getLast?.map (·.seq)).getD s.seq

/-- FRONT_WINDOW (R418): P_FRONT_WIN ms have passed: the window of the records kept since is evaluated where they cover half of it, and the next begins. PH and SOP,
in thousandths, are what the Front program finds in them (`Dev.FrontReport`). -/
def frontWindow (env : Env) (n ph sop : Nat) (d00 : Dev) : Dev :=
  let first := (d00.sense n).firstSeq
  let d := d00.updSense n fun s => { s with window := [] }
  if !(d00.sense n).covered env || !d.runPlaced .front n then d
  else
    let (p, rp) := (d.sense n).ph.window (env.par.nat (pFrontPhThr + n)) ph first
    let (q, rq) := (d.sense n).sop.window (env.par.nat (pFrontSopThr + n)) sop first
    let d1 := d.updSense n fun s => { s with ph := p, sop := q }
    let d2 := if rp then d1.raiseFront n 0 p else d1
    if rq then d2.raiseFront n 1 q else d2

/-- PH in Hz and SOP in krad/s come as whole and thousandths. -/
def execFrontWindow (c : Fin 4) (ph sop : Nat) (phMilli sopMilli : Fin 1000) (s : State) : Host.Outcome State Fault Refusal :=
  .next (onDev s fun env d => frontWindow env c (1000 * ph + phMilli) (1000 * sop + sopMilli) d)

/-- FRONT_CLEAR_HOLD (R418): the measure (0 PH, 1 SOP) has stayed below half its threshold for P_FRONT_HOLD. -/
def frontClear (n measure : Nat) (d : Dev) : Dev :=
  let m := if measure = 0 then (d.sense n).ph else (d.sense n).sop
  if m.active && m.below then
    (d.updSense n fun s => if measure = 0 then { s with ph := { m with active := false } } else { s with sop := { m with active := false } }).raise
      .frontClr n [(1, measure)]
  else d

def execFrontClearHold (c : Fin 4) (measure : Fin 2) (s : State) : Host.Outcome State Fault Refusal :=
  .next (onDev s fun _ d => frontClear c measure d)

end Sys2Proof.Machine
end

