-- ==== Sys2Proof/Machine/StitchRows.lean ====
section
/-! DEFINITION. Machine/StitchRows.lean: Stitch port commands, training, cells and references (R293, R310 to R338). -/

namespace Sys2Proof.Machine

/-! ### Commands (R332 to R336) -/

/-- CMD_STITCH_PORT_CREATE (R332). -/
def stitchCreate (e : CmdEntry) (d : Dev) : CmdRes :=
  let p := u8 e 0
  let k := u8 e 1
  if d.hasStitch p then badField 0
  else if (List.range k).any (fun i => (d.ethOfLane (16 * p + i)).isSome || decide (d.quadMode ((16 * p + i) / 4) = 1)) then badField 1
  else
    let d1 := (List.range 12).foldl (fun d j => d.restartCounter (ctrStitch j p)) d
    .done [] (d1.updStitch p fun s => { Stitch.absent with lanes := k, baud := u16 e 2, srefLost := s.srefLost, srefFreq := s.srefFreq })

def formStitchCreate : CmdForm := form 0x0701 (.fixed 4) [fldU 0 1 0 3, fldU 1 1 1 16, fldU 2 2 10625 12000]

def execCmdStitchPortCreate (e : CmdEntry) (s : State) : Host.Outcome State Fault Refusal :=
  .next (runCmd formStitchCreate e (fun _ d => stitchCreate e d) s)

/-- CMD_STITCH_PORT_DELETE (R333). -/
def stitchDelete (e : CmdEntry) (d : Dev) : CmdRes :=
  let p := u8 e 0
  if !d.hasStitch p then badField 0
  else if (d.stitch p).enabled || !(d.stitch p).flows.isEmpty then .refuse .trafficPresent 0
  else .done [] ((d.updLanes (d.stitchLanes p) Lane.untrain).updStitch p fun s => { Stitch.absent with srefLost := s.srefLost, srefFreq := s.srefFreq })

def formStitchDelete : CmdForm := form 0x0702 (.fixed 1) [fldU 0 1 0 3]

def execCmdStitchPortDelete (e : CmdEntry) (s : State) : Host.Outcome State Fault Refusal :=
  .next (runCmd formStitchDelete e (fun _ d => stitchDelete e d) s)

/-- Class O values come into force at ENABLE = 1 (R338). -/
def Stitch.capture (s : Stitch) (par : Params) (p : Nat) : Stitch :=
  { s with classOWas := (s.linkId, s.txtune, s.cv), linkId := par.nat (pStitchLinkId + p), txtune := par.on (pStitchTxtune + p),
           cv := ⟨par.nat (pCvWidth + p), par.nat (pCvPoly + p), par.nat (pCvInit + p), par.nat (pCvXorout + p),
                  bitAt (par.nat (pCvReflect + p)) 0, bitAt (par.nat (pCvReflect + p)) 1⟩ }

/-- Does a flow of the port carry an enabled bundle? -/
def Dev.stitchTraffic (d : Dev) (p : Nat) : Bool := (d.stitch p).flows.any fun f => (d.bundleAt f.bundle).on

/-- CMD_STITCH_PORT_ENABLE (R334); a port that does not exist gives E_SEQUENCE whatever ENABLE is (log entry 138): ENABLE = 1 trains and ends at UP or after 100 ms; ENABLE = 0 takes the lanes to electrical idle and the flows down. -/
def stitchEnable (env : Env) (e : CmdEntry) (d : Dev) : CmdRes :=
  let p := u8 e 0
  let s := d.stitch p
  let ls := d.stitchLanes p
  if bitAt (u8 e 1) 0 then
    if s.enabled then .done [] d
    else if !d.inService then .refuse .state 0
    else if ls.any (fun l => !d.laneOn l) then .refuse .domainOff 0
    else if !d.hasStitch p then .refuse .sequence 0
    else .start (100 * ms) ((d.updStitch p fun s => { (s.capture env.par p) with enabled := true }).stitchTrain p)
  else if !d.hasStitch p then .refuse .sequence 0
  else if !s.enabled then .done [] d
  else if d.stitchTraffic p && !force e then .refuse .trafficPresent 0
  else
    let d1 := (d.stitchClear p).updStitch p fun s => { s with enabled := false, st := .down }
    .done [] (ls.foldl (fun d l => if d.lanePowered l then d else d.updLane l Lane.powerDown) d1)

def formStitchEnable : CmdForm := formF 0x0703 (.fixed 2) [fldU 0 1 0 3, fldBits 1 1 1]

def execCmdStitchPortEnable (e : CmdEntry) (s : State) : Host.Outcome State Fault Refusal :=
  .next (runCmd formStitchEnable e (fun env d => stitchEnable env e d) s)

/-- Channels that a bundle counts for in R318: an elastic one at its largest possible size. -/
def Bundle.flowSize (b : Bundle) : Nat := if b.elastic then 128 - b.first else b.count

/-- Does a number of channels fit C_port = k × 2B × (5,120/5,440) × (496/512) × 0.99 (R318)? B is in 0.01 GBd. -/
def fitsPort (k baud chans : Nat) : Bool := decide (25 * chans * (100 * 17 * 32 * 100) ≤ k * 2 * baud * 16 * 31 * 99)

/-- CMD_STITCH_FLOW (R335). -/
def stitchFlow (e : CmdEntry) (d : Dev) : CmdRes :=
  let p := u8 e 0
  let n := u8 e 1
  let b := d.bundleAt n
  let s := d.stitch p
  if !d.hasStitch p then badField 0
  else if !d.hasBundle n then badField 1
  else if bitAt (u8 e 2) 0 then
    if decide (b.attach ≠ .none) || d.group.any (fun kv => decide (kv.2.prot = n))
        || (d.tx b.carrier).op.any (fun q => decide (q.profile ≠ 0))
        || !fitsPort s.lanes s.baud (b.flowSize + sumBy (fun f => (d.bundleAt f.bundle).flowSize) s.flows) then badField 1
    else
      let d1 := (d.updBundle n fun b => { b with attach := .stitch p }).updStitch p fun s => { s with flows := s.flows ++ [⟨n, []⟩] }
      .done [] (if d.stitchUp p then d1.grantExtra p else d1)
  else if b.attach ≠ .stitch p then badField 1
  else if b.on then .refuse .trafficPresent 0
  else .done [] ((d.updBundle n fun b => { b with attach := .none }).updStitch p fun s =>
    { s with flows := s.flows.filter fun f => decide (f.bundle ≠ n) })

/-- The resource and rate-step checks of an attach that has passed its field checks (R335). -/
def stitchFlowCmd (env : Env) (e : CmdEntry) (d : Dev) : CmdRes :=
  let p := u8 e 0
  let b := d.bundleAt (u8 e 1)
  match stitchFlow e d with
  | .done r d1 =>
    if bitAt (u8 e 2) 0 && env.par.on (pStitchRttStrict + p)
        && decide (reserveCells < d.reserveUsed + extraNeeded (d.stitch p).rtt * b.count) then .refuse .noCredit 0
    else if bitAt (u8 e 2) 0 && d.rateBusy b.carrier then .refuse .busy 0
    else .done r d1
  | r => r

def formStitchFlow : CmdForm := form 0x0704 (.fixed 3) [fldU 0 1 0 3, fldU 1 1 0 127, fldBits 2 1 1]

def execCmdStitchFlow (e : CmdEntry) (s : State) : Host.Outcome State Fault Refusal :=
  .next (runCmd formStitchFlow e (fun env d => stitchFlowCmd env e d) s)

/-- The largest extra allowance of a channel of the port. -/
def Stitch.extraMax (s : Stitch) : Nat := s.flows.foldl (fun m f => f.extra.foldl (fun m kv => max m kv.2) m) 0

/-- RESULT of CMD_STITCH_STATUS (Table 13-6). -/
def stitchStatus (p : Nat) (d : Dev) : List Byte :=
  let s := d.stitch p
  let c (k : Nat) : Nat × Nat := (32, d.counter (ctrStitch k p))
  resultBits [(3, d.stitchCode p), (4, s.cause), (1, 0), (5, s.lanes), (3, 0), (16, s.baud), (16, s.rtt), (8, s.flows.length), (8, s.extraMax),
    c 0, c 1, c 2, c 3, c 4, c 5, c 6, c 7, c 8, c 9, c 10]

def formStitchStatus : CmdForm := form 0x0705 (.fixed 1) [fldU 0 1 0 3]

def execCmdStitchStatus (e : CmdEntry) (s : State) : Host.Outcome State Fault Refusal :=
  .next (runCmd formStitchStatus e (fun _ d => if d.hasStitch (u8 e 0) then .done (stitchStatus (u8 e 0) d) d else badField 0) s)

/-! ### Reference (R293) -/

/-- SREFn is lost: the lanes of Sn go to electrical idle; an UP port goes down with cause SREF (R293, R317).
Which of the two causes it was the row does not bring: the payload's cause is a free value (log entry 170). -/
def srefLoss (p : Nat) (d : Dev) : Dev :=
  if (d.stitch p).srefLost then d
  else
    let (v, d0) := d.draw
    let d1 := (d0.updStitch p fun s => { s with srefLost := true }).raise .srefLoss p [(1, (v % 2 : Nat))]
    (d1.stitchDown p 4).updLanes (d.stitchLanes p) Lane.powerDown

def execSrefLoss (p : Fin 4) (s : State) : Host.Outcome State Fault Refusal :=
  .next (onDev s fun _ d => srefLoss p d)

/-- 1 ms after the reference returns the lanes restart their adaptation, and an enabled port retrains (R293, R317). -/
def srefReturn (p : Nat) (d : Dev) : Dev :=
  if (d.stitch p).srefLost then
    let d1 := d.updStitch p fun s => { s with srefLost := false }
    if (d.stitch p).enabled then d1.stitchTrain p else d1
  else d

def execSrefReturn (p : Fin 4) (s : State) : Host.Outcome State Fault Refusal :=
  .next (onDev s fun _ d => srefReturn p d)

/-! ### Training (R316, R317) -/

/-- Every lane has its CDR lock, its initial adaptation (R296) and codeword lock (R312), the last by the codewords it has just received: TUNE, in which each
lane requests the first point of the sweep, or with P_STITCH_TXTUNE = 0 TUNE_DONE at once and READY (Table 13-3). -/
def lanesLocked (p : Nat) (lanes : List (List CwArrival)) (d : Dev) : Dev :=
  let ls := d.stitchLanes p
  if (d.stitch p).st = .training ∧ (d.stitch p).enabled = true ∧ d.laneCause p = none ∧ ls.all (fun l => (d.lane l).adaptOk) = true
      ∧ allLock (d.stitch p).lanes lanes = true then
    if (d.stitch p).txtune then (d.updLanes ls fun x => x.request (sweepPoint 0)).updStitch p fun s => { s with st := .tune }
    else d.updStitch p fun s => { s with st := .ready, tuneDone := true }
  else d

def execStitchLanesLocked (p : LaneLocks) (s : State) : Host.Outcome State Fault Refusal :=
  .next (onDev s fun _ d => lanesLocked p.port p.lanes d)

/-- A port is training while it is enabled and sends training codewords. -/
def Stitch.trains (s : Stitch) : Bool := s.enabled && decide (s.st = .training ∨ s.st = .tune ∨ s.st = .ready ∨ s.st = .align)

/-- A training control block on lane index `l` (R316): another LINK_ID stops training; a request the FIR can take is applied and confirmed. REQ_SEQ 0
is no request (log entry 24). In TUNE, APPLIED_SEQ confirms the point this end has requested. -/
def trainingCw (env : Env) (p l : Nat) (ctrl : List Byte) (d : Dev) : Dev :=
  let confirms (x : Lane) : Bool := decide ((d.stitch p).st = .tune ∧ x.confirmedAt = none ∧ fieldAt ctrl 5 1 = x.reqSeq)
  let s := d.stitch p
  let pre := fieldAt ctrl 2 1
  let post := fieldAt ctrl 3 1
  let seq := fieldAt ctrl 4 1
  if s.trains ∧ l < s.lanes then
    if fieldAt ctrl 0 2 ≠ s.linkId then d.updStitch p fun s => { s with st := .mismatch, cause := 5 }
    else d.updLane (16 * p + l) fun x =>
      { x with peerFir := if seq ≠ 0 ∧ pre ≤ 32 ∧ post ≤ 32 then some (pre, post) else x.peerFir,
               appliedSeq := if seq ≠ 0 ∧ pre ≤ 32 ∧ post ≤ 32 then seq else x.appliedSeq,
               confirmedAt := if confirms x then some env.now else x.confirmedAt,
               peerReady := x.peerReady || bitAt (fieldAt ctrl 6 1) 0 }
  else d

def execStitchTrainingCwRx (p : Fin 4) (l : Fin 16) (ctrl : List Byte) (s : State) : Host.Outcome State Fault Refusal :=
  .next (onDev s fun env d => trainingCw env p l ctrl d)

/-- A lane's sweep as it ends: what its windows have recorded, else the report's 35 measures. -/
def Lane.swept (x : Lane) (foms : List Int) : List Int := if x.sweep.length = 35 then x.sweep else foms

/-- The sweep has ended: each lane requests its best point, its 36th request, TUNE_DONE is set and the port enters READY (Table 13-3). `foms` holds, lane by
lane, the FOM measured at each of the 35 points; a lane whose windows have recorded all of them has its own (log entry 182). -/
def tuneDone (p : Nat) (foms : List (List Int)) (d : Dev) : Dev :=
  let ls := (d.stitchLanes p).zipIdx
  if (d.stitch p).st = .tune ∧ ls.all (fun x => decide (((d.lane x.1).swept (foms.getD x.2 [])).length = 35)) = true then
    let d1 := ls.foldl (fun d x => d.updLane x.1 fun l =>
      let all := l.swept (foms.getD x.2 [])
      { l with sweep := all, reqFir := bestPoint all, reqSeq := 36, confirmedAt := none }) d
    d1.updStitch p fun s => { s with st := .ready, tuneDone := true }
  else d

def execStitchTuneDone (p : Fin 4) (foms : List (List Int)) (s : State) : Host.Outcome State Fault Refusal :=
  .next (onDev s fun _ d => tuneDone p foms d)

/-- The peer's RX_READY has been seen on every lane: ALIGN (Table 13-3). -/
def peerReady (p : Nat) (d : Dev) : Dev :=
  if (d.stitch p).st = .ready then
    (d.updLanes (d.stitchLanes p) fun l => { l with peerReady := true }).updStitch p fun s => { s with st := .align }
  else d

def execStitchPeerReady (p : Fin 4) (s : State) : Host.Outcome State Fault Refusal :=
  .next (onDev s fun _ d => peerReady p d)

/-- Every lane receives data codewords, deskewed: UP (R316, R321); a running enable ends with E_OK (R334). -/
def alignDone (p : Nat) (d : Dev) : Dev :=
  if (d.stitch p).st = .align then
    ((d.updStitch p fun s => { s with st := .up, chans := [], rtt := 0, probes := [], above := [], checkRun := 0 }).raise .stitchUp p []).finish
      0x0703 p .ok 0 []
  else d

def execStitchAlignDone (p : Fin 4) (s : State) : Host.Outcome State Fault Refusal :=
  .next (onDev s fun _ d => alignDone p d)

/-- A lane loses codeword lock, after 16 uncorrectable codewords: an UP port goes down with cause 3, a training port starts again (R312, R317). -/
def codewordLoss (p l : Nat) (cws : List CwArrival) (d : Dev) : Dev :=
  if l < (d.stitch p).lanes ∧ cwUnlocks cws = true then
    if d.stitchUp p then d.stitchDown p 3
    else if (d.stitch p).trains then d.stitchTrain p else d
  else d

def execStitchCodewordLockLoss (p : Fin 4) (l : LaneCws) (s : State) : Host.Outcome State Fault Refusal :=
  .next (onDev s fun _ d => codewordLoss p l.lane l.cws d)

/-- Every 100 ms an enabled port that is not UP, its reference present and no generator running, makes a new attempt (R317). -/
def retrain (p : Nat) (d : Dev) : Dev :=
  if (d.stitch p).enabled ∧ d.stitchUp p = false ∧ (d.stitch p).srefLost = false ∧ d.stitchTest p = false then d.stitchTrain p else d

def execStitchRetrainTimer (p : Fin 4) (s : State) : Host.Outcome State Fault Refusal :=
  .next (onDev s fun _ d => retrain p d)

/-! ### Cells (R314, R315, R319 to R331) -/

/-- Fields of a received cell (Table 13-2). -/
def cellChannel (c : List Byte) : Nat := fieldAt c 0 2
def cellSeq (c : List Byte) : Nat := fieldAt c 2 4
def cellFlags (c : List Byte) : Nat := fieldAt c 6 2
def cellCredit (c : List Byte) : Nat := fieldAt c 8 4
def cellCheck (c : List Byte) : Nat := fieldAt c 12 4
def cellIsSync (c : List Byte) : Bool := bitAt (cellFlags c) 9

/-- V over the fold block, header bytes 6 to 11 and the 496 payload bytes (R328). -/
def cellValue (cv : CvConfig) (linkId chan seq : Nat) (mid payload : List Byte) : Nat :=
  cv.value (leBytes 2 linkId ++ leBytes 2 chan ++ leBytes 4 seq ++ mid ++ padTo 496 payload)

/-- Does a received cell pass the port's check? -/
def Stitch.checks (s : Stitch) (c : List Byte) : Bool :=
  decide (cellCheck c = cellValue s.cv s.linkId (cellChannel c) (cellSeq c) ((c.drop 6).take 6) (c.drop 16))

/-- A cell as sent: header, check value, payload (R314, R328). -/
def Stitch.build (s : Stitch) (chan seq flags credit : Nat) (payload : List Byte) : List Byte :=
  let mid := leBytes 2 flags ++ leBytes 4 credit
  leBytes 2 chan ++ leBytes 4 seq ++ mid ++ leBytes 4 (cellValue s.cv s.linkId chan seq mid payload) ++ padTo 496 payload

abbrev chanIdle : Nat := 0xFFFF
abbrev chanProbe : Nat := 0xFFFE
abbrev chanEcho : Nat := 0xFFFD

/-- Reserved bits non-zero, LEN not 496 on a data cell, or CHANNEL reserved (Table 13-4). -/
def cellBadForm (c : List Byte) : Bool :=
  decide (bitsAt (cellFlags c) 13 3 ≠ 0) || decide (512 ≤ cellChannel c ∧ cellChannel c < chanEcho)
    || (decide (cellChannel c < 512) && !cellIsSync c && decide (bitsAt (cellFlags c) 0 9 ≠ 496))

/-- CREDIT of a cell is used: an absolute limit for a channel attached to the port, one that a step up has added on receive only among them (R319, R327). -/
def Dev.useCredit (d : Dev) (p : Nat) (c : List Byte) : Dev :=
  let ch := bitsAt (cellCredit c) 22 10
  if bitAt (cellFlags c) 10 && (d.attachedTo p ch || d.attachedRx p ch) then d.updSChan p ch fun x => { x with txLimit := bitsAt (cellCredit c) 0 22 } else d

/-- Count one occurrence of an event raised at most once per second; the count to report, where one is due. -/
def PerSecond.tick (m : PerSecond) (now n : Nat) : PerSecond × Option Nat :=
  let due := match m.at_ with
    | none => true
    | some t => decide (t + sec ≤ now)
  if due then (⟨0, some now⟩, some (m.since + n)) else ({ m with since := m.since + n }, none)

/-- Lost cells are counted and reported (R324). -/
def Dev.countLost (d : Dev) (env : Env) (p n : Nat) : Dev :=
  if n = 0 then d
  else
    let (m, due) := (d.stitch p).lost.tick env.now n
    let d1 := (d.updStitch p fun s => { s with lost := m }).count (ctrStitch stSeqLost p) n
    match due with
    | some k => d1.raise .stitchLost p [(4, k)]
    | none => d1

/-- A gap is revealed: its cells count as received and freed at once, and await their fill (R324). -/
def Dev.reveal (d : Dev) (env : Env) (p ch g : Nat) : Dev :=
  let h := ((d.stitch p).chan ch).hidden
  (d.updSChan p ch fun x => { x with freed := x.freed + g, gap := x.gap + g + h, hidden := 0 }).countLost env p (g + h)

/-- How far `s` is ahead of `e`, modulo 2³²; below 2³¹ it is ahead (R324). -/
def seqAhead (s e : Nat) : Nat := (s + 2 ^ 32 - e % 2 ^ 32) % 2 ^ 32

/-- May cell `s` be sent under limit `l`: (L − s) mod 2²² from 1 to 2²¹ (R319). -/
def inLimit (l s : Nat) : Bool :=
  let x := (l % 2 ^ 22 + 2 ^ 22 - s % 2 ^ 22) % 2 ^ 22
  decide (1 ≤ x ∧ x ≤ 2 ^ 21)

/-- A SYNC cell: a SEQ ahead reveals a gap, and E becomes it; the channel is idle (R315, R324). -/
def Dev.rxSync (d : Dev) (env : Env) (p ch s : Nat) : Dev :=
  let x := (d.stitch p).chan ch
  ((d.updSChan p ch fun x => { x with e := s, idle := true, stale := 0 }).reveal env p ch (seqAhead s x.e))

/-- An accepted data cell: its gap revealed and filled, less the underrun already inserted, then the cell into Insole (R324). -/
def Dev.rxAccept (d : Dev) (env : Env) (p ch s : Nat) : Dev :=
  let d1 := d.reveal env p ch (seqAhead s ((d.stitch p).chan ch).e)
  (d1.updSChan p ch fun x =>
    let fill := x.gap * 496 - x.under
    { x with e := (s + 1) % 2 ^ 32, idle := false, stale := 0, gap := 0, under := 0,
             queue := x.queue ++ (if fill = 0 then [] else [⟨false, fill⟩]) ++ [⟨true, 496⟩] }).count (ctrStitch stCellsRx p) 1

/-- A stale cell: counted; the 64th in a row on a channel takes the port down (R330). -/
def Dev.rxStale (d : Dev) (p ch : Nat) : Dev :=
  let d1 := (d.updSChan p ch fun x => { x with stale := x.stale + 1 }).count (ctrStitch stSeqStale p) 1
  if 64 ≤ ((d1.stitch p).chan ch).stale then d1.stitchDown p 7 else d1

/-- A cell of an attached channel whose bundle is disabled: discarded and counted in bytes, its credit returned (R330). -/
def Dev.rxDisabled (d : Dev) (p ch s : Nat) (sync : Bool) : Dev :=
  let x := (d.stitch p).chan ch
  let g := seqAhead s x.e
  let d1 := if g < 2 ^ 31 then d.updSChan p ch fun x =>
      { x with e := (if sync then s else s + 1) % 2 ^ 32, freed := x.freed + g + (if sync then 0 else 1), stale := 0 } else d
  match d.bundleOf ch with
  | some kv => d1.count (ckey 4 (1536 + kv.1)) (if sync then 0 else 496)
  | none => d1

/-- A cell outside its limit: discarded and counted, reported at most once per second; it is treated as lost (R330). -/
def Dev.rxViolation (d : Dev) (env : Env) (p ch : Nat) : Dev :=
  let (m, due) := (d.stitch p).viol.tick env.now 1
  let d1 := ((d.updStitch p fun s => { s with viol := m }).updSChan p ch fun x => { x with stale := 0 }).count (ctrStitch stCreditViol p) 1
  match due with
  | some k => d1.raise .stitchCreditViol p [(2, ch), (4, k)]
  | none => d1

/-- A cell of a channel that is not attached to the port (R330). -/
def Dev.rxMisdirected (d : Dev) (env : Env) (p ch : Nat) : Dev :=
  let (m, due) := (d.stitch p).misdir.tick env.now 1
  let d1 := (d.updStitch p fun s => { s with misdir := m }).count (ctrStitch stMisdir p) 1
  match due with
  | some k => d1.raise .stitchMisdirect p [(2, ch), (4, k)]
  | none => d1

/-- While the RTT in force exceeds 2.0 µs, STITCH_RTT_LONG_Sn is raised once for each rise (R321). -/
def Dev.setRtt (d : Dev) (p rtt : Nat) : Dev :=
  let d1 := ((d.updStitch p fun s => { s with rtt := rtt, above := [] }).grantExtra p)
  d1.raiseIf (decide (2000 < rtt)) .stitchRttLong p [(4, rtt)]

/-- An echo: RTT is the time since its probe left plus 0.6 µs. The largest of the first 16 is put in force; later 16 in a row above it by more than
0.1 µs raise it, to the largest of them (R321, log entry 25). Frelvo recomputes while MBX_STATE is READY (R337). -/
def Dev.rxEcho (d : Dev) (env : Env) (p token : Nat) : Dev :=
  let s := d.stitch p
  match s.token with
  | none => d
  | some (t, at_) =>
    if t ≠ token ∨ env.mbx ≠ .ready then d
    else
      let r := env.now - at_ + 600
      let d1 := d.updStitch p fun s => { s with token := none }
      if s.probes.length < 16 then
        let ps := r :: s.probes
        let d2 := d1.updStitch p fun s => { s with probes := ps }
        if ps.length = 16 then d2.setRtt p (ps.foldl max 0) else d2
      else
        let above := if s.rtt + 100 < r then r :: s.above else []
        if above.length = 16 then d1.setRtt p (above.foldl max 0) else d1.updStitch p fun s => { s with above := above }

/-- A failed check: counted; the 64th in a row in codewords without error takes the port to MISMATCH (R331). -/
def Dev.rxCheckFail (d : Dev) (p : Nat) (clean : Bool) : Dev :=
  let run := if clean then (d.stitch p).checkRun + 1 else 0
  let d1 := (d.updStitch p fun s => { s with checkRun := run }).count (ctrStitch stCheckErr p) 1
  if 64 ≤ run then (d1.stitchDown p 6).raise .stitchMismatch p [] else d1

/-- A received cell has exactly one of the outcomes of Table 13-4, tested in that order (R330). -/
def cellRx (env : Env) (p : Nat) (c : List Byte) (cw : CellCw) (d : Dev) : Dev :=
  let ch := cellChannel c
  let s := cellSeq c
  if d.stitchUp p = false then d
  else if cw = .uncorrectable then (d.updStitch p fun s => { s with checkRun := 0 }).count (ctrStitch stBad p) 1
  else if (d.stitch p).checks c = false then d.rxCheckFail p (decide (cw = .clean))
  else
    let d0 := d.updStitch p fun s => { s with checkRun := 0 }
    if cellBadForm c then d0.count (ctrStitch stFormat p) 1
    else
      let d1 := d0.useCredit p c
      let x := (d1.stitch p).chan ch
      if ch = chanIdle then d1
      else if ch = chanProbe then d1.updStitch p fun t => { t with echoes := t.echoes ++ [s] }
      else if ch = chanEcho then d1.rxEcho env p s
      else if d1.attachedTo p ch = false then d1.rxMisdirected env p ch
      else if d1.chanAdmits ch = false then d1.rxDisabled p ch s (cellIsSync c)
      else if 2 ^ 31 ≤ seqAhead s x.e then d1.rxStale p ch
      else if cellIsSync c then d1.rxSync env p ch s
      else if inLimit x.limit s = false then d1.rxViolation env p ch
      else d1.rxAccept env p ch s

def execStitchCellRx (p : Fin 4) (cell : List Byte) (cw : CellCw) (s : State) : Host.Outcome State Fault Refusal :=
  .next (onDev s fun env d => cellRx env p cell cw d)

/-- May a data cell of channel `ch` go out: one waits and its credit allows it (R315, R319); of a channel removed by a completed throttle none does (R327). -/
def Dev.canSend (d : Dev) (p ch : Nat) : Bool :=
  let x := (d.stitch p).chan ch
  d.attachedRx p ch && !d.removed ch && decide (0 < x.egCells) && inLimit x.txLimit x.tx

/-- CA and AIS of a cell of channel `ch`: AIS marks zeros and AIS, over which all-ones take precedence (R24, R221, R326). -/
def Dev.cellCa (d : Dev) (ch : Nat) : Nat :=
  let c := d.delivered ch
  if d.chanCa c then 2048 + (if (d.frm (c / 128)).ca || (d.chanAt c).ones then 0 else 4096) else 0

/-- The credit field for channel `ch`, with CR_VALID where it is attached (R314, R319). -/
def Dev.creditOf (d : Dev) (p ch : Nat) : Nat × Nat :=
  if d.attachedTo p ch then (1024, ((d.stitch p).chan ch).limit % 2 ^ 22 + 2 ^ 22 * ch) else (0, 0)

/-- The port sends a cell: an echo that is due; else a data cell of the scheduled channel, or of the first channel that can send; else an idle
cell. Each carries the credit of channel `cr` (R315). The scheduled channel and the payload are what the queues hold. -/
def cellTx (p ch cr : Nat) (payload : List Byte) (d : Dev) : Dev :=
  let s := d.stitch p
  let (cv, credit) := d.creditOf p cr
  if d.stitchUp p = false then d
  else match s.echoes with
    | t :: ts =>
      let (pad, d1) := d.drawBytes 496
      d1.updStitch p fun s => { s with echoes := ts, sent := s.build chanEcho t cv credit pad }
    | [] =>
      match (if d.canSend p ch then some ch else (d.flowChansRx p).find? fun c => d.canSend p c) with
      | some c =>
        let x := s.chan c
        let d1 := d.updStitch p fun s => { s with sent := s.build c x.tx (496 + cv + d.cellCa c) credit payload }
        (d1.updSChan p c fun x => { x with tx := (x.tx + 1) % 2 ^ 32, egCells := x.egCells - 1 }).count (ctrStitch stCellsTx p) 1
      | none =>
        let (pad, d1) := d.drawBytes 496
        d1.updStitch p fun s => { s with sent := s.build chanIdle 0 cv credit pad }

def execStitchCellTx (p : Fin 4) (ch credit : Fin 512) (payload : List Byte) (s : State) : Host.Outcome State Fault Refusal :=
  .next (onDev s fun _ d => cellTx p ch credit payload d)

/-- A SYNC cell names the next SEQ of an idle channel (R315). -/
def syncTimer (p ch : Nat) (d : Dev) : Dev :=
  if d.stitchUp p && d.attachedTo p ch then
    let (pad, d1) := d.drawBytes 496
    let (cv, credit) := d.creditOf p ch
    d1.updStitch p fun s => { s with sent := s.build ch (s.chan ch).tx (512 + cv) credit pad }
  else d

def execStitchSyncTimer (p : Fin 4) (ch : Fin 512) (s : State) : Host.Outcome State Fault Refusal :=
  .next (onDev s fun _ d => syncTimer p ch d)

/-- A probe leaves, with a token of the device's choice: a free value (R315, R321). -/
def probeTimer (env : Env) (p : Nat) (d : Dev) : Dev :=
  if d.stitchUp p then
    let (t, d1) := d.draw
    let (pad, d2) := d1.drawBytes 496
    d2.updStitch p fun s => { s with token := some (t % 2 ^ 32, env.now), sent := s.build chanProbe (t % 2 ^ 32) 0 0 pad }
  else d

def execStitchProbeTimer (p : Fin 4) (s : State) : Host.Outcome State Fault Refusal :=
  .next (onDev s fun env d => probeTimer env p d)

end Sys2Proof.Machine
end

