-- ==== Sys2Proof/Machine/SysCmd.lean ====
section
/-! DEFINITION. Machine/SysCmd.lean: CMD_SYS_INFO, parameters, unknown opcodes (R14, R52, R53, R479, R485, R486). -/

namespace Sys2Proof.Machine

/-! ### CMD_SYS_INFO (R479) -/

/-- The RESULT of Table 21-2. A dump lies at BAR2 offset 0x3F60_0000 while it is held (R480). -/
def sysInfo (env : Env) (d : Dev) : CmdRes :=
  let b := d.boot
  .done (resultBits [(64, env.now), (32, b.dumpCount), (32, if d.inService && d.anyStack && b.dumpHeld then 0x3F600000 else 0), (32, b.dumpLen),
    (16, b.dumpOpcode), (16, paramCount), (2, env.mbxPort)]) d

def formSysInfo : CmdForm := form 0x0101 (.fixed 0) []

def execCmdSysInfo (e : CmdEntry) (s : State) : Host.Outcome State Fault Refusal := .next (runCmd formSysInfo e sysInfo s)

/-! ### Unknown opcodes (R14, R510) -/

/-- The opcodes of Table 21-1. -/
def knownOpcodes : List Nat :=
  [0x0101, 0x0102, 0x0110, 0x0111] ++ [0x0201, 0x0202, 0x0203]
  ++ [0x0301, 0x0302, 0x0305, 0x0306, 0x0308, 0x0309, 0x030A, 0x0310, 0x0311, 0x0312, 0x0313, 0x0314, 0x0318, 0x0319, 0x0320, 0x0321]
  ++ [0x0401, 0x0402, 0x0403, 0x0405, 0x0406, 0x0407] ++ [0x0501, 0x0502, 0x0503, 0x0510, 0x0511, 0x0512, 0x0513, 0x0514]
  ++ [0x0601, 0x0602, 0x0603, 0x0604, 0x0610, 0x0611] ++ [0x0701, 0x0702, 0x0703, 0x0704, 0x0705]
  ++ [0x0801, 0x0802, 0x0803, 0x0804, 0x0805, 0x0810, 0x0811] ++ [0x0901, 0x0902, 0x0903, 0x0904, 0x0905, 0x0906, 0x0907]
  ++ [0x0A01, 0x0A02, 0x0A03, 0x0A04, 0x0A05, 0x0A07] ++ [0x0B01, 0x0B02, 0x0B10, 0x0B11, 0x0B12] ++ [0x0C01, 0x0C02, 0x0C03, 0x0C04]
  ++ [0x0D01, 0x0D02, 0x0D03] ++ [0x0E01, 0x0E02, 0x0E03, 0x0E04, 0x0E05, 0x0E06, 0x0E07] ++ [0x0F01, 0x0F03, 0x0F10]

/-- An opcode that Table 21-1 does not list: E_BAD_OPCODE with DETAIL 0 before any other check, once the command may start (R14, R48, R510). -/
def runUnknown (op : Nat) (e0 : CmdEntry) (s : State) : State :=
  let e := canonEntry e0
  if s.dev.deaf || knownOpcodes.contains op then s
  else match s.consumed op e with
    | none => s
    | some s1 =>
      match admission s1.io.mbxState (form op .own []) e (earlier op e s1.io.inflight) with
      | .wait => s1
      | .complete st detail => if s1.io.mbxState = .ready then s1.completeWaiting op e .badOpcode 0 [] else s1.completeWaiting op e st detail []
      | .run => s1.completeWaiting op e .badOpcode 0 []

def execUnknownOpcode (op : BitVec 16) (e : CmdEntry) (s : State) : Host.Outcome State Fault Refusal := .next (runUnknown op.toNat e s)

/-! ### CMD_PARAM_GET (R52, R53) -/

/-- Identifier `id` counted from the base of its row. -/
def inRow (base count id : Nat) : Bool := decide (base ≤ id ∧ id < base + count)

/-- The domain that a measured parameter belongs to is OFF. The engine array is OFF with all its clusters; the die temperatures and VIN have no domain. -/
def Dev.measuredOff (d : Dev) (id : Nat) : Bool :=
  let off (x : Nat) : Bool := decide (d.domState x = .off)
  if inRow pTxClipRate 4 id || inRow pCdEst 4 id || inRow pCdTrim 4 id || inRow pCalAgeMax 4 id || inRow pFecPreBer 12 id then off (domCarrier (id % 4))
  else if inRow pLaneFom 64 id then off (domQuad ((id - pLaneFom) / 4))
  else if inRow pStitchRtt 4 id then off (domQuad (4 * (id - pStitchRtt)))
  else if inRow pEngClock 2 id then (List.range 16).all fun k => off (domCluster k)
  else if id = pTimDpllOffset then off domDpll
  else false

/-- A measured value, cut to the range of its row. P_ENG_BUSY is a measurement that no row reports: a free value (log entry 1). -/
def Dev.measured (d : Dev) (env : Env) (id : Nat) : Int × Dev :=
  let c := id % 4
  if inRow pTxClipRate 4 id then ((d.tx c).clipPpm, d)
  else if inRow pCdEst 4 id then ((d.rx c).dL + (d.rx c).dT, d)
  else if inRow pCdTrim 4 id then ((d.rx c).dT, d)
  else if inRow pCalAgeMax 4 id then (d.calAgeMax env c, d)
  else if inRow pFecPreBer 4 id then ((d.fec c).preBer, d)
  else if inRow pFecMiEst 4 id then (if d.interop c then 0 else (d.fec c).mi, d)
  else if inRow pFecIterMean 4 id then ((d.fec c).iterMean, d)
  else if inRow pLaneFom 64 id then ((d.lane (id - pLaneFom)).fom, d)
  else if inRow pStitchRtt 4 id then ((d.stitch (id - pStitchRtt)).rtt, d)
  else if id = pEngClock then (d.engClock, d)
  else if id = pTjMax then (wholeDegrees d.pw.tjMax, d)
  else if id = pVinNow then (d.pw.vin, d)
  else if id = pTimDpllOffset then ((d.coreNow env).tim.core, d.coreNow env)
  else
    let r := d.draw
    (((r.1 % 101 : Nat) : Int), r.2)

/-- The value of one identifier, cut to its row's range. -/
def Dev.paramValue (d : Dev) (env : Env) (id : Nat) : Int × Dev :=
  match paramSpec id with
  | none => (0, d)
  | some sp =>
    if sp.cls = .measured then
      let r := d.measured env id
      (max sp.lo (min sp.hi r.1), r.2)
    else (env.par.val id, d)

/-- The values of a list of identifiers, each as 8 bytes, in request order. -/
def paramValues (env : Env) : List Nat → Dev → List Byte × Dev
  | [], d => ([], d)
  | id :: ids, d =>
    let r := d.paramValue env id
    let rest := paramValues env ids r.2
    (leBytes 8 (ofSigned 64 r.1) ++ rest.1, rest.2)

/-- Is the parameter a measured one? -/
def isMeasured (id : Nat) : Bool := (paramSpec id).any fun sp => decide (sp.cls = .measured)

/-- CMD_PARAM_GET (R53). -/
def paramGet (env : Env) (e : CmdEntry) (d : Dev) : CmdRes :=
  let ids := (List.range (u8 e 0)).map fun k => u16 e (1 + 2 * k)
  match ids.findIdx? fun id => (paramSpec id).isNone with
  | some k => .refuse .badParam (9 + 2 * k)
  | none =>
    match ids.findIdx? fun id => isMeasured id && d.measuredOff id with
    | some k => .refuse .domainOff (9 + 2 * k)
    | none =>
      let r := paramValues env ids d
      .done r.1 r.2

def formParamGet : CmdForm := form 0x0111 (.counted 1 2 0 1 6) []

def execCmdParamGet (e : CmdEntry) (s : State) : Host.Outcome State Fault Refusal :=
  .next (runCmd formParamGet e (fun env d => paramGet env e d) s)

/-! ### CMD_PARAM_SET (R52, R53, R486) -/

/-- Identifier, reserved bytes and value of entry `k`. -/
def setEntry (e : CmdEntry) (k : Nat) : Nat × Nat × Int := (u16 e (1 + 12 * k), u16 e (3 + 12 * k), i64 e (5 + 12 * k))

/-- What a home rule says beside range and relations: pre-compensation within the bank at the configured point (R105); the protection delay while a group
exists (R259); P_KEY_WRAP_ONLY back to 0 (R360); a cluster taken from the mask under a hosted program (R365). -/
def Dev.paramRule (d : Dev) (p : Params) (id : Nat) (v : Int) : Option Status :=
  if inRow pTxCdPre 4 id then
    match (d.tx (id % 4)).op with
    | some op => if op.preOk v then none else some .badParam
    | none => none
  else if id = pProtMaxDelay then (if d.group.isEmpty then none else some .state)
  else if id = pKeyWrapOnly then (if p.on pKeyWrapOnly && decide (v = 0) then some .state else none)
  else if id = pEngHostedMask then
    (if (List.range 16).any (fun k => bitAt (p.nat pEngHostedMask) k && !bitAt v.toNat k && !(d.hostedOn k).isEmpty) then some .state else none)
  else none

/-- One entry judged against the values that the entries before it leave (R486). -/
def Dev.setFault (d : Dev) (p : Params) (x : Nat × Nat × Int) : Option Status :=
  if x.2.1 ≠ 0 then some .badParam
  else if paramAccepts p x.1 x.2.2 then d.paramRule p x.1 x.2.2
  else some .badParam

/-- The entries in order: the values they leave, or the first failing entry and its status. -/
def Dev.setAll (d : Dev) : Nat → List (Nat × Nat × Int) → Params → Params × Option (Nat × Status)
  | _, [], p => (p, none)
  | k, x :: xs, p =>
    match d.setFault p x with
    | some st => (p, some (k, st))
    | none => d.setAll (k + 1) xs (Tbl.set p x.1 x.2.2)

/-- A setting that reaches the output by cross-fade; with the domain not ON there is no output to fade (R105, R155). -/
def Dev.fadeTo (d : Dev) (n : Nat) (f : FadeVal) (v : Int) : FadeVal := if d.domOn (domCarrier n) then f.setTo v else ⟨v, none, none⟩

/-- The waiting setting that the host's new one replaces is counted in COEF_SUPERSEDED_CTL (R26). -/
def Dev.fadeCount (d : Dev) (n : Nat) (f : FadeVal) : Dev :=
  d.countSuperseded (if d.domOn (domCarrier n) && f.displaces then some none else none)

/-- A setting that walks; with the domain not ON it is there at once (R110, R127). -/
def Dev.walkTo (d : Dev) (env : Env) (n i : Nat) (t : Tbl Walk) (v : Int) : Tbl Walk :=
  t.upd ⟨0, 0, 0⟩ i fun w => if d.domOn (domCarrier n) then w.redirect env.now v else ⟨v, v, env.now⟩

/-- A change to mode 2 discards a waiting trained table: one that a cluster's trainer committed (R167). -/
def CoefTable.dropTrained (t : CoefTable) : CoefTable :=
  { t with waiting := t.waiting.filter fun w => w.2.isNone }

/-- Class I settings whose new value starts something: cross-fades and walks (R105, R110, R127, R155), the end of a training run outside mode 1 (R156, R167), TIM and BMM re-evaluated (R213, R220), a lane's
adaptation (R296). Every other setting is read when it is used. `old` holds the values before the command. -/
def Dev.paramApplied (d : Dev) (env : Env) (old : Params) (id : Nat) : Dev :=
  let n := id % 4
  let v := env.par.val id
  if inRow pTxCdPre 4 id then (d.updTx n fun t => { t with cdPre := d.fadeTo n t.cdPre v }).fadeCount n (d.tx n).cdPre
  else if inRow pTxNlcTriplets 4 id then (d.updTx n fun t => { t with nlcCount := d.fadeTo n t.nlcCount v }).fadeCount n (d.tx n).nlcCount
  else if inRow pTxSkewXq 32 id then d.updTx n fun t => { t with walks := d.walkTo env n ((id - pTxSkewXq) / 4) t.walks v }
  else if inRow pRxSkewXq 12 id then d.updRx n fun r => { r with walks := d.walkTo env n ((id - pRxSkewXq) / 4) r.walks v }
  else if inRow pRxNlcMode 8 id then
    let c : Int := if env.par.val (pRxNlcMode + n) = 0 then 0 else env.par.val (pRxNlcTriplets + n)
    let on := d.domOn (domCarrier n)
    let d1 := if env.par.val (pRxNlcMode + n) = 1 then d else (d.endRun .trainer n).updRx n fun r => { r with nlcTraining := false }
    let d2 := d1.updRx n fun r => { r with nlc := if env.par.val (pRxNlcMode + n) = 2 then r.nlc.dropTrained else r.nlc }
    (d2.updRx n fun r => if on then r.setCount c else { r with nlcCount := ⟨c, none, none⟩ }).countSuperseded
      (if on && (d.rx n).countDisplaces then some none else none)
  else if inRow pFrmTimMode 4 id then d.timEval env n
  else if inRow pFrmBmmAct 4 id then
    (d.chan.map (·.1)).foldl (fun d ch => if ch / 128 = n then
      d.updChan ch fun c => { c with ca := c.ca || Dev.defectsAct env ch c.defects, ones := c.ones || Dev.defectsOnes env ch c.defects } else d) d
  else if inRow pLaneCfg 64 id then
    let l := id - pLaneCfg
    let a := bitsAt (old.nat id) 2 2
    let b := env.adaptMode l
    if a = b then d
    else if b = 2 then d.updLane l fun x => { x with adapt := if x.adapt = .frozen then .tracking else x.adapt }
    else d.updLane l Lane.startAdapt
  else if id = pTimSlope || inRow pTimReject 4 id then d.coreNow { env with par := old }
  else d

/-- CMD_PARAM_SET (R53, R486): all entries or none. -/
def paramSet (e : CmdEntry) (s : State) : Params × CmdRes :=
  let xs := (List.range (u8 e 0)).map (setEntry e)
  match s.dev.setAll 0 xs s.par with
  | (_, some (k, st)) => (s.par, .refuse st (9 + 12 * k))
  | (p, none) => (p, .done [] (xs.foldl (fun d x => d.paramApplied { s.env with par := p } s.par x.1) s.dev))

def formParamSet : CmdForm := form 0x0110 (.counted 1 12 0 1 20) []

def execCmdParamSet (e : CmdEntry) (s : State) : Host.Outcome State Fault Refusal :=
  .next (runCmdWith formParamSet e (paramSet e) s)

end Sys2Proof.Machine
end

