-- ==== Sys2Proof/Machine/Timing.lean ====
section
/-! DEFINITION. Machine/Timing.lean: the timing commands and events (R388 to R408). -/

namespace Sys2Proof.Machine

/-- CMD_TIM_REF_CFG (R402). -/
def timRefCfg (env : Env) (e : CmdEntry) (d : Dev) : CmdRes :=
  let r := bitsAt (u8 e 0) 0 2
  let x := d.timRef r
  let prio := bitsAt (u8 e 2) 0 4
  let freq := u32 e 4
  let enable := bitAt (u8 e 1) 0
  if prio = 0 then badField 2
  else if freq < 1000 ∨ 156250000 < freq then badField 4
  else
    let d1 := if x.freq ≠ freq ∨ !enable then d.timDisq r 2 else d
    let d2 := d1.updRef r fun y0 =>
      let y := y0.improved (bitsAt (u8 e 2) 4 4) prio
      let z := { y with enable := enable, prio := prio, ql := bitsAt (u8 e 2) 4 4, freq := freq }
      if x.freq ≠ freq ∨ enable ≠ x.enable then { (z.watch env.now) with suspect := y.suspect && enable, lost := y.lost && enable } else z
    .done [] (d2.timSelect env (x.eligible == false))

def formTimRefCfg : CmdForm := form 0x0A01 (.fixed 8) [fldBits 0 1 3, fldBits 1 1 1, fldAny 2 1, fldRsv 3 1, fldAny 4 4]

def execCmdTimRefCfg (e : CmdEntry) (s : State) : Host.Outcome State Fault Refusal :=
  .next (runCmd formTimRefCfg e (fun env d => timRefCfg env e d) s)

/-- CMD_TIM_REF_QL (R403): selection is evaluated again at once; no wait-to-restore starts. -/
def timRefQl (env : Env) (e : CmdEntry) (d : Dev) : CmdRes :=
  let was := (d.timRef (u8 e 0)).eligible
  .done [] ((d.updRef (u8 e 0) fun x => { (x.improved (u8 e 1) x.prio) with ql := u8 e 1 }).timSelect env (was == false))

def formTimRefQl : CmdForm := form 0x0A02 (.fixed 2) [fldU 0 1 0 3, fldU 1 1 0 15]

def execCmdTimRefQl (e : CmdEntry) (s : State) : Host.Outcome State Fault Refusal :=
  .next (runCmd formTimRefQl e (fun env d => timRefQl env e d) s)

/-- CMD_TIM_SELECT (R404). -/
def timSelectMode (env : Env) (e : CmdEntry) (d : Dev) : CmdRes :=
  let m := TimMode.of (u8 e 0)
  if m = .forced ∧ (d.timRef (u8 e 1)).qualified = false then .refuse .state 0
  else if m = .holdover ∧ d.tim.history = false then .refuse .state 0
  else if !d.domOn domDpll then .refuse .domainOff 0
  else
    let d1 := (d.updTim fun t => { t with mode := m, forced := if m = .forced then u8 e 1 else t.forced }).timSelect env false
    .done [] (if m = .holdover then d1.timRest env else d1)

def formTimSelect : CmdForm := form 0x0A03 (.fixed 2) [fldU 0 1 0 3, fldU 1 1 0 3]

def execCmdTimSelect (e : CmdEntry) (s : State) : Host.Outcome State Fault Refusal :=
  .next (runCmd formTimSelect e (fun env d => timSelectMode env e d) s)

/-- The outputs a mask names. -/
def maskedOutputs (mask : Nat) : List Nat := (List.range 6).filter fun o => bitAt mask o

/-- CMD_TIM_PHASE_STEP (R401, R406): with P_TIM_STEP_RATE = 0 applied within one output period, else slewed at that rate. -/
def timPhaseStep (env : Env) (e : CmdEntry) (d : Dev) : CmdRes :=
  let rate := env.par.nat pTimStepRate
  let outs := maskedOutputs (u8 e 0)
  let step := i32 e 4
  if u8 e 0 = 0 then badField 0
  else if step < -1000000 ∨ 1000000 < step then badField 4
  else if outs.any fun o => (d.timOut o).stepsOffset o && decide (500000000000 < ((d.timOut o).offsetPs + step).natAbs) then badField 4
  else if outs.any fun o => !(d.timOut o).enable then .refuse .state 0
  else if !d.domOn domDpll then .refuse .domainOff 0
  else if rate = 0 ∨ step = 0 then .done [] (d.moveOuts (u8 e 0) step)
  else .start (ms + ceilDiv (step.natAbs * 1000000) rate) (d.updTim fun t => { t with step := some ⟨u8 e 0, step, 0, rate, env.now⟩ })

def formTimPhaseStep : CmdForm := form 0x0A04 (.fixed 8) [fldBits 0 1 0x3F, fldRsv 1 3, fldAny 4 4]

def execCmdTimPhaseStep (e : CmdEntry) (s : State) : Host.Outcome State Fault Refusal :=
  .next (runCmd formTimPhaseStep e (fun env d => timPhaseStep env e d) s)

/-- A clock output's frequency changes, and it restarts: it is held low for up to 1 ms, how long is a free value (R405, log entry 185). -/
def Dev.clkRestart (d : Dev) (env : Env) (o : Nat) : Dev :=
  let (v, d1) := d.draw
  d1.updOut o fun x => { x with lowUntil := env.now + v % (ms + 1) }

/-- CMD_TIM_OUT_CFG (R399, R405). -/
def timOutCfg (env : Env) (e : CmdEntry) (d : Dev) : CmdRes :=
  let o := u8 e 0
  let clk := decide (o < 4)
  let source := bitsAt (u8 e 1) 1 2
  let fw := u32 e 4
  let offset := i32 e 8
  let enable := bitAt (u8 e 1) 0
  if source = 3 ∨ (clk ∧ source ≠ 0) then badField 1
  else if clk ∧ (fw < 1000 ∨ 156250000 < fw) ∨ !clk ∧ (fw < 100 ∨ 200000000 < fw) then badField 4
  else if clk ∧ offset ≠ 0 ∨ 500000000 < offset.natAbs then badField 8
  else
    let was := d.timOut o
    let d1 := d.updOut o fun x =>
      let new := enable && (!x.enable || decide (x.source ≠ source) || decide (x.offsetPs ≠ offset * 1000))
      { x with enable := enable, source := source, freqWidth := fw, offsetPs := offset * 1000,
               aligning := (x.aligning || new) && enable && decide (source ≠ 0), above := if new then 0 else x.above,
               atNominal := clk && enable && (if x.enable then x.atNominal else decide (d.tim.st = .freerun)) }
    .done [] (if clk && was.enable && enable && decide (was.freqWidth ≠ fw) then d1.clkRestart env o
      else if !clk && !was.enable then d1.ppsStart env o else d1)

def formTimOutCfg : CmdForm := form 0x0A05 (.fixed 12) [fldU 0 1 0 5, fldBits 1 1 7, fldRsv 2 2, fldAny 4 4, fldAny 8 4]

def execCmdTimOutCfg (e : CmdEntry) (s : State) : Host.Outcome State Fault Refusal :=
  .next (runCmd formTimOutCfg e (fun env d => timOutCfg env e d) s)

/-- Whole seconds left until `t`, rounded up. -/
def secondsLeft (now t : Nat) : Nat := ceilDiv (t - now) sec

/-- REF_STATE of one reference (R407). -/
def TimRef.bits (x : TimRef) : Nat :=
  b2n (x.enable && !x.lost) + 2 * b2n x.qualified + 4 * b2n x.suspect + 8 * b2n x.wtrEnd.isSome

/-- The wait-to-restore of the best waiting reference (R407). -/
def Dev.wtrLeft (d : Dev) (now : Nat) : Nat :=
  match d.timBest (timRefs.filter fun r => (d.timRef r).enable && (d.timRef r).wtrEnd.isSome) with
  | none => 0
  | some r => secondsLeft now ((d.timRef r).wtrEnd.getD now)

/-- CMD_TIM_STATUS (R407). The phase error is a measurement, a free value. -/
def timStatus (env : Env) (d : Dev) : CmdRes :=
  if !d.domOn domDpll then .refuse .domainOff 0
  else
    let t := d.tim
    let ho := if t.st = .holdover then secondsLeft env.now (t.hoSince + env.par.nat pTimHoTime * sec) else 0
    let d1 := d.coreNow env
    let (ph, d2) := d1.draw
    .done (resultBits ([(3, t.st.code), (2, t.mode.code), (2, t.sel.getD t.lastSel), (1, b2n t.sel.isSome)]
      ++ timRefs.map (fun r => (4, (d.timRef r).bits))
      ++ [(1, b2n t.history), (7, 0)]
      ++ timRefs.map (fun r => (16, ofSigned 16 (d.timRef r).offset))
      ++ [(32, ofSigned 32 d1.tim.core), (32, ph), (32, ho), (16, d.wtrLeft env.now), (2, d.ppsState 4), (2, d.ppsState 5),
          (1, b2n (t.pps.get .reset 0).valid), (1, b2n (t.pps.get .reset 1).valid), (10, 0),
          (32, ofSigned 32 (d.timOut 4).err), (32, ofSigned 32 (d.timOut 5).err), (32, d.counter (ckey 10 0))])) d2

def formTimStatus : CmdForm := form 0x0A07 (.fixed 0) []

def execCmdTimStatus (e : CmdEntry) (s : State) : Host.Outcome State Fault Refusal :=
  .next (runCmd formTimStatus e (fun env d => timStatus env d) s)

/-- A timing event acts while domain 0x41 is ON. -/
def Dev.timEvent (d : Dev) (f : Dev → Dev) : Dev := if d.domOn domDpll then f d else d

/-- REF_ACTIVITY_LOSS (R388): no edge for 4 nominal periods. -/
def refLoss (env : Env) (r : Nat) (d : Dev) : Dev :=
  d.timEvent fun d =>
    if (d.timRef r).enable && !(d.timRef r).lost then
      ((((d.updRef r fun x => { x with lost := true }).raise .timRefLos r []).timDisq r 0).timSelect env false)
    else d

def execRefActivityLoss (r : Fin 4) (s : State) : Host.Outcome State Fault Refusal :=
  .next (onDev s fun env d => refLoss env r d)

/-- REF_ACTIVITY_RETURN (R388): the first edge; a full 1 s window starts. -/
def refReturn (env : Env) (r : Nat) (d : Dev) : Dev :=
  d.timEvent fun d =>
    if (d.timRef r).enable && (d.timRef r).lost then
      (d.updRef r fun x => { x with lost := false, since := env.now, okSince := none }).raise .timRefLosClr r []
    else d

def execRefActivityReturn (r : Fin 4) (s : State) : Host.Outcome State Fault Refusal :=
  .next (onDev s fun env d => refReturn env r d)

/-- REF_FREQ_MEASURE (R389, R391): the 100 ms measurement of every active reference, the vote, and selection. `offs` is each reference's
offset in units of 0.01 ppm. -/
def refMeasure (env : Env) (offs : List Int) (d : Dev) : Dev :=
  d.timEvent fun d =>
    let d1 := timRefs.foldl (fun d r => d.timMeasure env r (offs.getD r 0)) d
    (d1.timVote env).timSelect env true

def execRefFreqMeasure (offs : List Int) (s : State) : Host.Outcome State Fault Refusal :=
  .next (onDev s fun env d => refMeasure env offs d)

/-- REF_WTR_EXPIRY (R393). -/
def refWtr (env : Env) (r : Nat) (d : Dev) : Dev :=
  d.timEvent fun d =>
    if (d.timRef r).wtrEnd.isSome then (d.updRef r fun x => { x with wtrEnd := none }).timSelect env true else d

def execRefWtrExpiry (r : Fin 4) (s : State) : Host.Outcome State Fault Refusal :=
  .next (onDev s fun env d => refWtr env r d)

/-- DPLL_LOCK (R394, R396): the lock criteria have held for 1 s; what was held back during the switch is evaluated again. -/
def dpllLock (env : Env) (d : Dev) : Dev :=
  d.timEvent fun d =>
    if d.tim.st = .acquiring ∨ d.tim.st = .switching then
      (((d.coreNow env).updTim fun t => { t with st := .locked, lockedSince := env.now }).raise .timLock 0 [(1, d.tim.sel.getD 0)]).timSelect env true
    else d

def execDpllLock (s : State) : Host.Outcome State Fault Refusal := .next (onDev s dpllLock)

/-- HOLDOVER_EXPIRY (R398): FREERUN, which moves the frequency to the XOIN nominal from here. -/
def holdoverExpiry (env : Env) (d : Dev) : Dev :=
  d.timEvent fun d =>
    if d.tim.st = .holdover then ((d.coreNow env).updTim fun t => { t with st := .freerun }).raise .timFreerun 0 [] else d

def execHoldoverExpiry (s : State) : Host.Outcome State Fault Refusal := .next (onDev s fun env d => holdoverExpiry env d)

/-- HOLDOVER_HISTORY_READY (R397). -/
def historyReady (d : Dev) : Dev :=
  d.timEvent fun d => if d.tim.st = .locked then d.updTim fun t => { t with history := true } else d

def execHoldoverHistoryReady (s : State) : Host.Outcome State Fault Refusal := .next (onDev s fun _ d => historyReady d)

/-- PPSIN_EDGE (R400): an edge `gap` ns after the input's previous one; `raw0` and `raw1` are PPSOUT0's and PPSOUT1's nearest edges minus
this edge, in ps. -/
def execPpsinEdge (p : Fin 2) (gap : Nat) (raw0 raw1 : Int) (s : State) : Host.Outcome State Fault Refusal :=
  .next (onDev s fun env d => d.timEvent fun d => d.ppsIn env p gap raw0 raw1)

/-- PPSIN_LOSS (R400, item 2): two expected edges have failed to arrive. -/
def ppsLoss (p : Nat) (d : Dev) : Dev :=
  d.timEvent fun d =>
    if (d.tim.pps.get .reset p).valid then
      (d.updTim fun t => { t with pps := t.pps.set p ⟨0, false, true⟩ }).raise .timPpsLoss p []
    else d

def execPpsinLoss (p : Fin 2) (s : State) : Host.Outcome State Fault Refusal := .next (onDev s fun _ d => ppsLoss p d)

end Sys2Proof.Machine
end

