-- ==== Sys2Proof/Machine/Transmit.lean ====
section
/-! DEFINITION. Machine/Transmit.lean: the transmit commands and events (R104, R111, R114 to R118). -/

namespace Sys2Proof.Machine

/-- CMD_TX_ENABLE with ENABLE = 1 (R116, R483). -/
def txEnable (env : Env) (n : Nat) (d : Dev) : CmdRes :=
  if !d.inService || !(d.tx n).present then .refuse .state 0
  else if (d.carrier n).heldDown then .refuse .state 0
  else if !d.domOn (domCarrier n) then .refuse .domainOff 0
  else if (d.tx n).op.isNone || !d.dacCalDone n then .refuse .sequence 0
  else if (d.tx n).state ≠ .dark then .done [] d
  else .start (5 * ms + env.par.nat (pTxRamp + n) * us)
    (d.updTx n fun t => { t.capture env.par n with state := .starting })

/-- CMD_TX_ENABLE with ENABLE = 0 (R62, R116, R119). -/
def txDisable (env : Env) (n : Nat) (d : Dev) : CmdRes :=
  if d.anyBundleEnabled n then .refuse .trafficPresent 0
  else if d.domState (domCarrier n) = .off then .refuse .domainOff 0
  else match (d.tx n).state with
    | .dark => .done [] d
    | .muted => .done [] (d.enterDark env n)
    | .starting => .done [] (d.enterDark env n)
    | _ => .start (5 * ms + env.par.nat (pTxRamp + n) * us)
      (d.updTx n fun t => { t with state := .rampDown, rampToDark := true })

def formTxEnable : CmdForm := form 0x0305 (.fixed 2) [fldCarrier, fldBits 1 1 1]

def execCmdTxEnable (e : CmdEntry) (s : State) : Host.Outcome State Fault Refusal :=
  .next (runCmd formTxEnable e (fun env d =>
    if bitAt (u8 e 1) 0 then txEnable env (u8 e 0) d else txDisable env (u8 e 0) d) s)

/-- Step 3 of an enable: a native carrier's pilot generator is loaded (R102, R116); an interop one has no native pilots (R99). -/
def Tx.startPilots (t : Tx) (now : Nat) : Tx := if t.native then t.pilotLoad now else t

/-- Steps 1 to 3 of an enable end at an edge of the device multiframe epoch: clock locked, framer at frame 0, pilot generator loaded. CPn_TXOK low
then counts as INTERLOCK (log entry 11). With a mute cause the carrier goes to MUTED, else the gain ramps up (R116). -/
def framerStart (env : Env) (n : Nat) (d : Dev) : Dev :=
  if (d.tx n).state = .starting then
    let d1 := (d.updTx n fun t => t.startPilots env.now).txEpochStart env n
    let d2 := if (d1.tx n).txok then d1 else d1.interlock n
    if (d2.tx n).causes = 0 then d2.updTx n fun t => { t with state := .rampUp } else d2.enterMuted n
  else d

def execTxFramerStart (c : Fin 4) (s : State) : Host.Outcome State Fault Refusal :=
  .next (onDev s fun env d => framerStart env c d)

/-- A gain ramp ends (R116, R117): ON with TX_ON_Cn, DARK after a disable, or MUTED after a host mute. -/
def rampEnd (env : Env) (n : Nat) (d : Dev) : Dev :=
  match (d.tx n).state with
  | .rampUp => ((d.updTx n fun t => { t with state := .on }).raise .txOn n []).finishTx n .ok
  | .rampDown => if (d.tx n).rampToDark then (d.enterDark env n).finishTx n .ok else d.enterMuted n
  | _ => d

def execTxRampEnd (c : Fin 4) (s : State) : Host.Outcome State Fault Refusal :=
  .next (onDev s fun env d => rampEnd env c d)

/-- CMD_TX_MUTE (R62, R117, R119): MUTE = 1 ramps a carrying output down; MUTE = 0 clears HOST, and a latched INTERLOCK if CPn_TXOK is high. It
completes when its ramp ends, at once where there is none. -/
def txMute (n : Nat) (mute : Bool) (d : Dev) : CmdRes :=
  if d.domState (domCarrier n) = .off then .refuse .domainOff 0
  else if mute then
    let d1 := d.updTx n fun t => { t with muteHost := true }
    if (d.tx n).carries then .start 0 (d1.updTx n fun t => { t with state := .rampDown, rampToDark := false })
    else .done [] d1
  else
    let d1 := d.updTx n fun t => { t with muteHost := false, muteInterlock := t.muteInterlock && !t.txok, causesWas := (t.muteHost, t.muteInterlock) }
    if (d.tx n).state = .muted ∧ (d1.tx n).causes = 0 then .start 0 (d1.unmute n) else .done [] d1

def formTxMute : CmdForm := form 0x0306 (.fixed 2) [fldCarrier, fldBits 1 1 1]

def execCmdTxMute (e : CmdEntry) (s : State) : Host.Outcome State Fault Refusal :=
  .next (runCmd formTxMute e (fun _ d => txMute (u8 e 0) (bitAt (u8 e 1) 0) d) s)

/-- The faults of one triplet entry of a load (Table 4-5): M and N within ±32, the reserved bytes zero. -/
def tripletFields (base : Nat) (k : Nat) : List Fld :=
  [fldI (base + 8 * k) 1 (-32) 32, fldI (base + 8 * k + 1) 1 (-32) 32, fldAny (base + 8 * k + 2) 4, fldRsv (base + 8 * k + 6) 2]

/-- Stage `count` entries of `size` bytes from the payload at byte 8 (R104). -/
def stageEntries (e : CmdEntry) (size start count : Nat) (t : Tbl Nat) : Tbl Nat :=
  (List.range count).foldl (fun t k => t.set (start + k) (fieldAt (payload e) (8 + size * k) size)) t

/-- The header and the entry faults of CMD_TX_COEF_LOAD (Table 4-5, R477). -/
def txCoefFault (e : CmdEntry) : Option Nat :=
  let size := if u8 e 1 = 0 then 8 else 2
  let limit := if u8 e 1 = 0 then 48 else 68
  if e.plen.toNat < 4 then some 6
  else if 1 < u8 e 1 then some 9
  else if (if u8 e 1 = 0 then 30 else 120) < u8 e 3 then some 11
  else if e.plen.toNat ≠ 8 + size * u8 e 3 then some 6
  else match layoutFault (payload e) [fldCarrier, fldAny 1 1, fldU 2 1 0 (limit - 1), fldAny 3 1, fldBits 4 4 1] with
    | some k => some k
    | none =>
      if limit < u8 e 2 + u8 e 3 then some 11
      else layoutFault (payload e) ((List.range (u8 e 3)).flatMap fun k =>
        if u8 e 1 = 0 then tripletFields 8 k else [fldI (8 + 2 * k) 2 (-1024) 1024])

/-- CMD_TX_COEF_LOAD (R104, R26): stages entries and, with COMMIT, starts or queues a cross-fade; E_BUSY where an engine program holds the table
(R370). -/
def txCoefLoad (e : CmdEntry) (d : Dev) : CmdRes :=
  match txCoefFault e with
  | some k => .refuse .badParam k
  | none =>
    let n := u8 e 0
    if d.domState (domCarrier n) = .off then .refuse .domainOff 0
    else if d.txTableGranted n (u8 e 1) then .refuse .busy 0
    else
      let old := if u8 e 1 = 0 then (d.tx n).nlc else (d.tx n).taps
      let staged := { old with staged := stageEntries e (if u8 e 1 = 0 then 8 else 2) (u8 e 2) (u8 e 3) old.staged }
      let (t, displaced) := if bitAt (u8 e 4) 0 then staged.commit staged.staged none else (staged, none)
      .done [] ((d.updTx n fun x => if u8 e 1 = 0 then { x with nlc := t } else { x with taps := t }).countSuperseded displaced)

def formTxCoefLoad : CmdForm := form 0x0308 .own []

def execCmdTxCoefLoad (e : CmdEntry) (s : State) : Host.Outcome State Fault Refusal :=
  .next (runCmd formTxCoefLoad e (fun _ d => txCoefLoad e d) s)

/-- The RESULT of CMD_TX_STATUS (Table 4-8). -/
def txStatus (n : Nat) (d : Dev) : List Byte :=
  let t := d.tx n
  resultBits [(3, t.state.code), (5, 0), (1, b2n t.muteHost), (1, b2n t.muteInterlock), (1, b2n t.mutePresence),
    (1, b2n t.muteClock), (4, 0), (2, t.coefState), (14, 0), (32, t.clipPpm), (48, d.counter (ctrTxMutes n))]

def formTxStatus : CmdForm := form 0x0309 (.fixed 1) [fldCarrier]

def execCmdTxStatus (e : CmdEntry) (s : State) : Host.Outcome State Fault Refusal :=
  .next (runCmd formTxStatus e (fun _ d => d.ifPowered (u8 e 0) (.done (txStatus (u8 e 0) d) d)) s)

/-- CMD_CP_SPI (R114, R484): N bytes sent, the first 52 received bytes returned; E_STATE while no front end is present. -/
def cpSpi (e : CmdEntry) (rx : List Byte) (d : Dev) : CmdRes :=
  if !(d.tx (u8 e 0)).present then .refuse .state 0
  else .done (padTo (min 52 (u8 e 1)) rx)
    (d.updTx (u8 e 0) fun t => { t with spiSent := (payload e).drop 2 })

def formCpSpi : CmdForm := form 0x030A (.counted 2 1 1 1 240) [fldCarrier, fldU 1 1 1 240]

def execCmdCpSpi (e : CmdEntry) (rx : List Byte) (s : State) : Host.Outcome State Fault Refusal :=
  .next (runCmd formCpSpi e (fun _ d => cpSpi e rx d) s)

/-- CPn_TXOK falls: while the carrier is not DARK the INTERLOCK cause arises and the output is muted (R117). -/
def txokLow (env : Env) (n : Nat) (d : Dev) : Dev :=
  let d1 := d.updTx n fun t => { t with txok := false }
  if (d.tx n).state = .dark then d1 else (d1.interlock n).muteNow env n

def execTxokLow (c : Fin 4) (s : State) : Host.Outcome State Fault Refusal :=
  .next (onDev s fun env d => txokLow env c d)

/-- CPn_TXOK returns high; a latched INTERLOCK stays until it is cleared (R117). -/
def txokHigh (n : Nat) (d : Dev) : Dev := d.updTx n fun t => { t with txok := true }

def execTxokHigh (c : Fin 4) (s : State) : Host.Outcome State Fault Refusal :=
  .next (onDev s fun _ d => txokHigh c d)

/-- 10 ms after CPn_TXOK returned high with P_TX_IL_AUTO = 1, INTERLOCK clears by itself (R117). -/
def interlockAutoClear (env : Env) (n : Nat) (d : Dev) : Dev :=
  if env.par.on (pTxIlAuto + n) && (d.tx n).txok then
    (d.updTx n fun t => { t with muteInterlock := false }).unmute n
  else d

def execInterlockAutoClear (c : Fin 4) (s : State) : Host.Outcome State Fault Refusal :=
  .next (onDev s fun env d => interlockAutoClear env c d)

/-- CPn_PRES# goes high: while the carrier is not DARK the PRESENCE cause arises and the output is muted (R117, R507). -/
def presHigh (env : Env) (n : Nat) (d : Dev) : Dev :=
  let d1 := d.updTx n fun t => { t with present := false }
  if (d.tx n).state = .dark ∨ (d.tx n).mutePresence = true then d1
  else ((d1.updTx n fun t => { t with mutePresence := true }).raise .cpAbsent n []).muteNow env n

def execPresHigh (c : Fin 4) (s : State) : Host.Outcome State Fault Refusal :=
  .next (onDev s fun env d => presHigh env c d)

/-- The transmit clock loses lock: while the carrier is not DARK the CLOCK cause arises and the output is muted (R117). -/
def txClockUnlock (env : Env) (n : Nat) (d : Dev) : Dev :=
  if (d.tx n).state = .dark then d else (d.updTx n fun t => { t with muteClock := true }).muteNow env n

def execTxClockUnlock (c : Fin 4) (s : State) : Host.Outcome State Fault Refusal :=
  .next (onDev s fun env d => txClockUnlock env c d)

/-- 1 ms after the transmit clock relocked, the CLOCK cause clears (R117). -/
def txClockRelock (n : Nat) (d : Dev) : Dev := (d.updTx n fun t => { t with muteClock := false }).unmute n

def execTxClockRelock (c : Fin 4) (s : State) : Host.Outcome State Fault Refusal :=
  .next (onDev s fun _ d => txClockRelock c d)

/-- The clipped fraction in ppm. -/
def ppm (part whole : Nat) : Nat := if whole = 0 then 0 else part * 1000000 / whole

/-- A 1 s clip window ends: the clipped samples are counted and TX_CLIP_Cn raised above the alarm (R111). -/
def txClipWindow (env : Env) (n clipped samples : Nat) (d : Dev) : Dev :=
  let d1 := (d.count (ctrTxClip n) clipped).updTx n fun t => { t with clipPpm := ppm clipped samples }
  d1.raiseIf (decide (samples * env.par.nat (pTxClipAlarm + n) < clipped * 1000000)) .txClip n [(4, (ppm clipped samples : Nat))]

def execTxClipWindow (c : Fin 4) (clipped samples : Nat) (s : State) : Host.Outcome State Fault Refusal :=
  .next (onDev s fun env d => txClipWindow env c clipped samples d)

/-- At every 32,768th pilot the generator is loaded with the seed in force again (R102). -/
def pilotReload (env : Env) (n : Nat) (d : Dev) : Dev :=
  if (d.tx n).state = .dark ∨ (d.tx n).state = .starting then d
  else d.updTx n fun t => t.startPilots env.now

def execPilotSeedReload (c : Fin 4) (s : State) : Host.Outcome State Fault Refusal :=
  .next (onDev s fun env d => pilotReload env c d)

/-- A transmit cross-fade ends; one that waits begins (R104, R105, R26). -/
def txFadeEnd (n : Nat) (which : TxFade) (d : Dev) : Dev :=
  d.updTx n fun t => match which with
    | .nlc => { t with nlc := t.nlc.fadeEnd }
    | .taps => { t with taps := t.taps.fadeEnd }
    | .cdPre => { t with cdPre := t.cdPre.fadeEnd }
    | .count => { t with nlcCount := t.nlcCount.fadeEnd }

def execTxXfadeEnd (c : Fin 4) (which : TxFade) (s : State) : Host.Outcome State Fault Refusal :=
  .next (onDev s fun _ d => txFadeEnd c which d)

end Sys2Proof.Machine
end

