-- ==== Sys2Proof/Machine/Dispatch.lean ====
section
/-! DEFINITION. Machine/Dispatch.lean: which meaning each command of the block has. -/

namespace Sys2Proof.Machine

def exec (i : Instr) (s : State) : Host.Outcome State Fault Refusal :=
  match i with
  | .cmdTailWrite via v => Sys2Proof.Machine.execCmdTailWrite via v s
  | .commandConsume => Sys2Proof.Machine.execCommandConsume s
  | .cplHeadWrite via v => Sys2Proof.Machine.execCplHeadWrite via v s
  | .mbxPortWrite via v => Sys2Proof.Machine.execMbxPortWrite via v s
  | .portDropWrite via off v => Sys2Proof.Machine.execPortDropWrite via off v s
  | .evtMarkWrite via v => Sys2Proof.Machine.execEvtMarkWrite via v s
  | .evtRunWrite via v => Sys2Proof.Machine.execEvtRunWrite via v s
  | .markHitClear via => Sys2Proof.Machine.execMarkHitClear via s
  | .evtPopWrite via v => Sys2Proof.Machine.execEvtPopWrite via v s
  | .intEnableWrite via v => Sys2Proof.Machine.execIntEnableWrite via v s
  | .registerWrite via off v => Sys2Proof.Machine.execRegisterWrite via off v s
  | .debugWindowFaultAccess via off wr => Sys2Proof.Machine.execDebugWindowFaultAccess via off wr s
  | .bar2OffStackAccess off stack wr => Sys2Proof.Machine.execBar2OffStackAccess off stack wr s
  | .msixMessageSend src masked => Sys2Proof.Machine.execMsixMessageSend src masked s
  | .mgpWriteTransaction off data => Sys2Proof.Machine.execMgpWriteTransaction off data s
  | .mgpReadTransaction off n => Sys2Proof.Machine.execMgpReadTransaction off n s
  | .responderComplete => Sys2Proof.Machine.execResponderComplete s
  | .powerOnReset vin => Sys2Proof.Machine.execPowerOnReset vin s
  | .uvloShutdown vin => Sys2Proof.Machine.execUvloShutdown vin s
  | .overvoltageShutdown vin => Sys2Proof.Machine.execOvervoltageShutdown vin s
  | .overvoltageRestart vin => Sys2Proof.Machine.execOvervoltageRestart vin s
  | .pwrwarnAssert vin => Sys2Proof.Machine.execPwrwarnAssert vin s
  | .pwrwarnRelease vin => Sys2Proof.Machine.execPwrwarnRelease vin s
  | .currentLimitEngage vin => Sys2Proof.Machine.execCurrentLimitEngage vin s
  | .currentLimitRelease vin => Sys2Proof.Machine.execCurrentLimitRelease vin s
  | .currentLimitDrop vin => Sys2Proof.Machine.execCurrentLimitDrop vin s
  | .sysrstAssert => Sys2Proof.Machine.execSysrstAssert s
  | .sysrstRelease => Sys2Proof.Machine.execSysrstRelease s
  | .sysResetDelayExpiry => Sys2Proof.Machine.execSysResetDelayExpiry s
  | .bootRomRun b => Sys2Proof.Machine.execBootRomRun b s
  | .pcieReset => Sys2Proof.Machine.execPcieReset s
  | .watchdogExpiry => Sys2Proof.Machine.execWatchdogExpiry s
  | .frelvoMemoryUe => Sys2Proof.Machine.execFrelvoMemoryUe s
  | .frelvoRestartReady => Sys2Proof.Machine.execFrelvoRestartReady s
  | .wakeMgpMatch addr => Sys2Proof.Machine.execWakeMgpMatch addr s
  | .wakePin => Sys2Proof.Machine.execWakePin s
  | .queuedDoldrumsEntry => Sys2Proof.Machine.execQueuedDoldrumsEntry s
  | .squallDroop veng vmc => Sys2Proof.Machine.execSquallDroop veng vmc s
  | .squallRestore => Sys2Proof.Machine.execSquallRestore s
  | .thermalSample core cv0 cv1 io vin => Sys2Proof.Machine.execThermalSample core cv0 cv1 io vin s
  | .throttleHoldExpiry => Sys2Proof.Machine.execThrottleHoldExpiry s
  | .hwThermalShutdown => Sys2Proof.Machine.execHwThermalShutdown s
  | .thermalRestart => Sys2Proof.Machine.execThermalRestart s
  | .boostWindowSpent => Sys2Proof.Machine.execBoostWindowSpent s
  | .seamFlitRetry link fails => Sys2Proof.Machine.execSeamFlitRetry link fails s
  | .seamWindowEnd link => Sys2Proof.Machine.execSeamWindowEnd link s
  | .cmdSysInfo e => Sys2Proof.Machine.execCmdSysInfo e s
  | .cmdSysReset e => Sys2Proof.Machine.execCmdSysReset e s
  | .cmdParamSet e => Sys2Proof.Machine.execCmdParamSet e s
  | .cmdParamGet e => Sys2Proof.Machine.execCmdParamGet e s
  | .cmdPowerState e w => Sys2Proof.Machine.execCmdPowerState e w s
  | .cmdDomainSet e => Sys2Proof.Machine.execCmdDomainSet e s
  | .cmdPowerStatus e => Sys2Proof.Machine.execCmdPowerStatus e s
  | .cmdCarrierSet e => Sys2Proof.Machine.execCmdCarrierSet e s
  | .cmdCarrierRecover e retrains => Sys2Proof.Machine.execCmdCarrierRecover e retrains s
  | .cmdTxEnable e => Sys2Proof.Machine.execCmdTxEnable e s
  | .txFramerStart c => Sys2Proof.Machine.execTxFramerStart c s
  | .txRampEnd c => Sys2Proof.Machine.execTxRampEnd c s
  | .cmdTxMute e => Sys2Proof.Machine.execCmdTxMute e s
  | .cmdTxCoefLoad e => Sys2Proof.Machine.execCmdTxCoefLoad e s
  | .cmdTxStatus e => Sys2Proof.Machine.execCmdTxStatus e s
  | .cmdCpSpi e rx => Sys2Proof.Machine.execCmdCpSpi e rx s
  | .txokLow c => Sys2Proof.Machine.execTxokLow c s
  | .txokHigh c => Sys2Proof.Machine.execTxokHigh c s
  | .interlockAutoClear c => Sys2Proof.Machine.execInterlockAutoClear c s
  | .presHigh c => Sys2Proof.Machine.execPresHigh c s
  | .txClockUnlock c => Sys2Proof.Machine.execTxClockUnlock c s
  | .txClockRelock c => Sys2Proof.Machine.execTxClockRelock c s
  | .txClipWindow c clipped samples => Sys2Proof.Machine.execTxClipWindow c clipped samples s
  | .pilotSeedReload c => Sys2Proof.Machine.execPilotSeedReload c s
  | .txXfadeEnd c which => Sys2Proof.Machine.execTxXfadeEnd c which s
  | .cmdCdReach e => Sys2Proof.Machine.execCmdCdReach e s
  | .cmdLastStatus e => Sys2Proof.Machine.execCmdLastStatus e s
  | .rxLosDeclare r => Sys2Proof.Machine.execRxLosDeclare r s
  | .rxLosClear r => Sys2Proof.Machine.execRxLosClear r s
  | .adcClipWindow c clipped samples => Sys2Proof.Machine.execAdcClipWindow c clipped samples s
  | .lastLoadEnd c => Sys2Proof.Machine.execLastLoadEnd c s
  | .shadowSwitch c => Sys2Proof.Machine.execShadowSwitch c s
  | .lastReallocate c => Sys2Proof.Machine.execLastReallocate c s
  | .cdSearchEnd c found => Sys2Proof.Machine.execCdSearchEnd c found s
  | .cdTrimUpdate c q => Sys2Proof.Machine.execCdTrimUpdate c q s
  | .cmdRxStatus e => Sys2Proof.Machine.execCmdRxStatus e s
  | .cmdRxReacquire e => Sys2Proof.Machine.execCmdRxReacquire e s
  | .cmdRxNlcLoad e => Sys2Proof.Machine.execCmdRxNlcLoad e s
  | .acqStart c => Sys2Proof.Machine.execAcqStart c s
  | .candidateLoadEnd c => Sys2Proof.Machine.execCandidateLoadEnd c s
  | .coarseEnd c sp timingOk => Sys2Proof.Machine.execCoarseEnd c sp timingOk s
  | .preconvergeEnd c => Sys2Proof.Machine.execPreconvergeEnd c s
  | .pilotSyncEnd r => Sys2Proof.Machine.execPilotSyncEnd r s
  | .rxLock r => Sys2Proof.Machine.execRxLock r s
  | .acqStateTimeout c => Sys2Proof.Machine.execAcqStateTimeout c s
  | .acqWaitEnd c => Sys2Proof.Machine.execAcqWaitEnd c s
  | .lossOfLock c ws => Sys2Proof.Machine.execLossOfLock c ws s
  | .pilotSeedRepeat c seed => Sys2Proof.Machine.execPilotSeedRepeat c seed s
  | .cycleSlip r => Sys2Proof.Machine.execCycleSlip r s
  | .cycleSlipWindow c slips => Sys2Proof.Machine.execCycleSlipWindow c slips s
  | .qualityWindow c q => Sys2Proof.Machine.execQualityWindow c q s
  | .nlcTrainStart c => Sys2Proof.Machine.execNlcTrainStart c s
  | .nlcTrainEnd c fit snrNew snrOld => Sys2Proof.Machine.execNlcTrainEnd c fit snrNew snrOld s
  | .nlcXfadeEnd c => Sys2Proof.Machine.execNlcXfadeEnd c s
  | .cmdCalRun e ev => Sys2Proof.Machine.execCmdCalRun e ev s
  | .cmdCalStatus e => Sys2Proof.Machine.execCmdCalStatus e s
  | .calRoundTrigger c => Sys2Proof.Machine.execCalRoundTrigger c s
  | .calFsChangeTrigger c => Sys2Proof.Machine.execCalFsChangeTrigger c s
  | .calRoundEnd c found => Sys2Proof.Machine.execCalRoundEnd c found s
  | .calApplyEnd c => Sys2Proof.Machine.execCalApplyEnd c s
  | .dacInitCalEnd c found => Sys2Proof.Machine.execDacInitCalEnd c found s
  | .cmdFecStatus e => Sys2Proof.Machine.execCmdFecStatus e s
  | .cmdFecInject e => Sys2Proof.Machine.execCmdFecInject e s
  | .fecInjectTick c => Sys2Proof.Machine.execFecInjectTick c s
  | .fecInjectEnd c => Sys2Proof.Machine.execFecInjectEnd c s
  | .fecBlockLock c => Sys2Proof.Machine.execFecBlockLock c s
  | .fecLossOfBlockLock c why => Sys2Proof.Machine.execFecLossOfBlockLock c why s
  | .fecDegWindow c w => Sys2Proof.Machine.execFecDegWindow c w s
  | .fecUncorrBlock c => Sys2Proof.Machine.execFecUncorrBlock c s
  | .cmdBundleCreate e => Sys2Proof.Machine.execCmdBundleCreate e s
  | .cmdBundleDelete e => Sys2Proof.Machine.execCmdBundleDelete e s
  | .cmdBundleEnable e => Sys2Proof.Machine.execCmdBundleEnable e s
  | .bundleBoundaryApply b => Sys2Proof.Machine.execBundleBoundaryApply b s
  | .bundleDrainEnd b bytes => Sys2Proof.Machine.execBundleDrainEnd b bytes s
  | .cmdFrmStatus e => Sys2Proof.Machine.execCmdFrmStatus e s
  | .cmdChanStatus e => Sys2Proof.Machine.execCmdChanStatus e s
  | .cmdFrmTti e => Sys2Proof.Machine.execCmdFrmTti e s
  | .inFrameDeclare c => Sys2Proof.Machine.execInFrameDeclare c s
  | .falseCandidate c => Sys2Proof.Machine.execFalseCandidate c s
  | .lofDeclare c => Sys2Proof.Machine.execLofDeclare c s
  | .mfAlign c mfas => Sys2Proof.Machine.execMfAlign c mfas s
  | .oomDeclare c => Sys2Proof.Machine.execOomDeclare c s
  | .lomDeclare c => Sys2Proof.Machine.execLomDeclare c s
  | .ttiAccept c tti => Sys2Proof.Machine.execTtiAccept c tti s
  | .sbdiRxChange c on => Sys2Proof.Machine.execSbdiRxChange c on s
  | .pathDefectChange ch defects => Sys2Proof.Machine.execPathDefectChange ch defects s
  | .consequentActionEnd c => Sys2Proof.Machine.execConsequentActionEnd c s
  | .rsFieldsAccept c bytes => Sys2Proof.Machine.execRsFieldsAccept c bytes s
  | .rsCountdownTick c => Sys2Proof.Machine.execRsCountdownTick c s
  | .cmdRateStep e roomOk => Sys2Proof.Machine.execCmdRateStep e roomOk s
  | .cmdRateStatus e => Sys2Proof.Machine.execCmdRateStatus e s
  | .cmdRateElastic e => Sys2Proof.Machine.execCmdRateElastic e s
  | .rsReqRx c roomOk => Sys2Proof.Machine.execRsReqRx c roomOk s
  | .rsAckRx c => Sys2Proof.Machine.execRsAckRx c s
  | .rsNakRx c => Sys2Proof.Machine.execRsNakRx c s
  | .rsCommitRx c => Sys2Proof.Machine.execRsCommitRx c s
  | .rsAbortRx c => Sys2Proof.Machine.execRsAbortRx c s
  | .rsAckTimeout c => Sys2Proof.Machine.execRsAckTimeout c s
  | .rsThrottleDone c => Sys2Proof.Machine.execRsThrottleDone c s
  | .rsThrottleTimeout c => Sys2Proof.Machine.execRsThrottleTimeout c s
  | .rsTxSwitch c => Sys2Proof.Machine.execRsTxSwitch c s
  | .rsRxSwitch c => Sys2Proof.Machine.execRsRxSwitch c s
  | .rsSplitTimeout c => Sys2Proof.Machine.execRsSplitTimeout c s
  | .ratePolicyDecision c => Sys2Proof.Machine.execRatePolicyDecision c s
  | .cmdProtCreate e => Sys2Proof.Machine.execCmdProtCreate e s
  | .cmdProtDelete e => Sys2Proof.Machine.execCmdProtDelete e s
  | .cmdProtArm e => Sys2Proof.Machine.execCmdProtArm e s
  | .cmdProtSwitch e => Sys2Proof.Machine.execCmdProtSwitch e s
  | .cmdProtStatus e => Sys2Proof.Machine.execCmdProtStatus e s
  | .protAlign g diff earlierProt unique => Sys2Proof.Machine.execProtAlign g diff earlierProt unique s
  | .protHoldoffExpiry g subst damaged => Sys2Proof.Machine.execProtHoldoffExpiry g subst damaged s
  | .protWtrExpiry g => Sys2Proof.Machine.execProtWtrExpiry g s
  | .protLegReturn g prot early diff subst damaged => Sys2Proof.Machine.execProtLegReturn g prot early diff subst damaged s
  | .cmdEthPortCreate e => Sys2Proof.Machine.execCmdEthPortCreate e s
  | .cmdEthPortDelete e => Sys2Proof.Machine.execCmdEthPortDelete e s
  | .cmdEthPortEnable e => Sys2Proof.Machine.execCmdEthPortEnable e s
  | .cmdEthPortStatus e => Sys2Proof.Machine.execCmdEthPortStatus e s
  | .cmdLaneStatus e => Sys2Proof.Machine.execCmdLaneStatus e s
  | .cmdLaneTest e => Sys2Proof.Machine.execCmdLaneTest e s
  | .laneLosChange l on => Sys2Proof.Machine.execLaneLosChange l on s
  | .laneCdrLock l => Sys2Proof.Machine.execLaneCdrLock l s
  | .laneAdaptEnd l => Sys2Proof.Machine.execLaneAdaptEnd l s
  | .laneFomWindow l r => Sys2Proof.Machine.execLaneFomWindow l r s
  | .ethPortStateChange p locked corr uncorr => Sys2Proof.Machine.execEthPortStateChange p locked corr uncorr s
  | .ethFrameRx p frame err => Sys2Proof.Machine.execEthFrameRx p frame err s
  | .ethFrameTx p frame held => Sys2Proof.Machine.execEthFrameTx p frame held s
  | .gfpLossOfDelineation p => Sys2Proof.Machine.execGfpLossOfDelineation p s
  | .csfFrameTimer p => Sys2Proof.Machine.execCsfFrameTimer p s
  | .csfFrameRx p upi => Sys2Proof.Machine.execCsfFrameRx p upi s
  | .clientFaultRx p fault => Sys2Proof.Machine.execClientFaultRx p fault s
  | .prbsCheckerLock l inv => Sys2Proof.Machine.execPrbsCheckerLock l inv s
  | .prbsCheckerLoss l => Sys2Proof.Machine.execPrbsCheckerLoss l s
  | .srefLoss p => Sys2Proof.Machine.execSrefLoss p s
  | .srefReturn p => Sys2Proof.Machine.execSrefReturn p s
  | .cmdStitchPortCreate e => Sys2Proof.Machine.execCmdStitchPortCreate e s
  | .cmdStitchPortDelete e => Sys2Proof.Machine.execCmdStitchPortDelete e s
  | .cmdStitchPortEnable e => Sys2Proof.Machine.execCmdStitchPortEnable e s
  | .cmdStitchFlow e => Sys2Proof.Machine.execCmdStitchFlow e s
  | .cmdStitchStatus e => Sys2Proof.Machine.execCmdStitchStatus e s
  | .stitchLanesLocked p => Sys2Proof.Machine.execStitchLanesLocked p s
  | .stitchTrainingCwRx p l ctrl => Sys2Proof.Machine.execStitchTrainingCwRx p l ctrl s
  | .stitchTuneDone p foms => Sys2Proof.Machine.execStitchTuneDone p foms s
  | .stitchPeerReady p => Sys2Proof.Machine.execStitchPeerReady p s
  | .stitchAlignDone p => Sys2Proof.Machine.execStitchAlignDone p s
  | .stitchCodewordLockLoss p l => Sys2Proof.Machine.execStitchCodewordLockLoss p l s
  | .stitchCellRx p cell cw => Sys2Proof.Machine.execStitchCellRx p cell cw s
  | .stitchCellTx p ch credit payload => Sys2Proof.Machine.execStitchCellTx p ch credit payload s
  | .stitchSyncTimer p ch => Sys2Proof.Machine.execStitchSyncTimer p ch s
  | .stitchProbeTimer p => Sys2Proof.Machine.execStitchProbeTimer p s
  | .stitchRetrainTimer p => Sys2Proof.Machine.execStitchRetrainTimer p s
  | .cmdKeyLoad e => Sys2Proof.Machine.execCmdKeyLoad e s
  | .cmdKeyActivate e => Sys2Proof.Machine.execCmdKeyActivate e s
  | .cmdKeyErase e => Sys2Proof.Machine.execCmdKeyErase e s
  | .cmdKeyStatus e => Sys2Proof.Machine.execCmdKeyStatus e s
  | .cmdKekLoad e => Sys2Proof.Machine.execCmdKekLoad e s
  | .cmdCryptoJob e => Sys2Proof.Machine.execCmdCryptoJob e s
  | .cmdCryptoCancel e => Sys2Proof.Machine.execCmdCryptoCancel e s
  | .keyNearLimitReached ch n => Sys2Proof.Machine.execKeyNearLimitReached ch n s
  | .keyLimitExpiry ch n => Sys2Proof.Machine.execKeyLimitExpiry ch n s
  | .multiframeAuthCheck ch mfs => Sys2Proof.Machine.execMultiframeAuthCheck ch mfs s
  | .cryptoJobStart => Sys2Proof.Machine.execCryptoJobStart s
  | .cryptoJobEnd bad => Sys2Proof.Machine.execCryptoJobEnd bad s
  | .keySlotUe at_ word => Sys2Proof.Machine.execKeySlotUe at_ word s
  | .cmdEngLoad e => Sys2Proof.Machine.execCmdEngLoad e s
  | .cmdEngStart e => Sys2Proof.Machine.execCmdEngStart e s
  | .cmdEngStop e => Sys2Proof.Machine.execCmdEngStop e s
  | .cmdEngUnload e => Sys2Proof.Machine.execCmdEngUnload e s
  | .cmdEngMsg e => Sys2Proof.Machine.execCmdEngMsg e s
  | .cmdEngStatus e => Sys2Proof.Machine.execCmdEngStatus e s
  | .cmdEngArray e => Sys2Proof.Machine.execCmdEngArray e s
  | .engProgramFault who cause pc => Sys2Proof.Machine.execEngProgramFault who cause pc s
  | .engTileEndStop h => Sys2Proof.Machine.execEngTileEndStop h s
  | .sysRunPlace => Sys2Proof.Machine.execSysRunPlace s
  | .sysRunWaitExpiry who => Sys2Proof.Machine.execSysRunWaitExpiry who s
  | .symbolCaptureRequest who c => Sys2Proof.Machine.execSymbolCaptureRequest who c s
  | .symbolCaptureEnd c => Sys2Proof.Machine.execSymbolCaptureEnd c s
  | .engTxTableCommit h c table entries => Sys2Proof.Machine.execEngTxTableCommit h c table entries s
  | .engCounterRead h cid => Sys2Proof.Machine.execEngCounterRead h cid s
  | .engUserRaise h bytes => Sys2Proof.Machine.execEngUserRaise h bytes s
  | .cmdTimRefCfg e => Sys2Proof.Machine.execCmdTimRefCfg e s
  | .cmdTimRefQl e => Sys2Proof.Machine.execCmdTimRefQl e s
  | .cmdTimSelect e => Sys2Proof.Machine.execCmdTimSelect e s
  | .cmdTimPhaseStep e => Sys2Proof.Machine.execCmdTimPhaseStep e s
  | .cmdTimOutCfg e => Sys2Proof.Machine.execCmdTimOutCfg e s
  | .cmdTimStatus e => Sys2Proof.Machine.execCmdTimStatus e s
  | .refActivityLoss r => Sys2Proof.Machine.execRefActivityLoss r s
  | .refActivityReturn r => Sys2Proof.Machine.execRefActivityReturn r s
  | .refFreqMeasure offs => Sys2Proof.Machine.execRefFreqMeasure offs s
  | .refWtrExpiry r => Sys2Proof.Machine.execRefWtrExpiry r s
  | .dpllLock => Sys2Proof.Machine.execDpllLock s
  | .holdoverExpiry => Sys2Proof.Machine.execHoldoverExpiry s
  | .ppsinEdge p gap raw0 raw1 => Sys2Proof.Machine.execPpsinEdge p gap raw0 raw1 s
  | .ppsinLoss p => Sys2Proof.Machine.execPpsinLoss p s
  | .xoFail lost ppm => Sys2Proof.Machine.execXoFail lost ppm s
  | .cmdSenseCoefLoad e => Sys2Proof.Machine.execCmdSenseCoefLoad e s
  | .cmdSenseStatus e => Sys2Proof.Machine.execCmdSenseStatus e s
  | .telemetryRecord c late valid values => Sys2Proof.Machine.execTelemetryRecord c late valid values s
  | .senseXfadeEnd c => Sys2Proof.Machine.execSenseXfadeEnd c s
  | .frontWindow c ph sop phMilli sopMilli => Sys2Proof.Machine.execFrontWindow c ph sop phMilli sopMilli s
  | .frontClearHold c measure => Sys2Proof.Machine.execFrontClearHold c measure s
  | .cmdHkCfg e => Sys2Proof.Machine.execCmdHkCfg e s
  | .cmdHkRead e => Sys2Proof.Machine.execCmdHkRead e s
  | .cmdHkCal e codes => Sys2Proof.Machine.execCmdHkCal e codes s
  | .hkWarmupEnd v => Sys2Proof.Machine.execHkWarmupEnd v s
  | .hkConversion v k code => Sys2Proof.Machine.execHkConversion v k code s
  | .hkSelfcheck v c26 c27 => Sys2Proof.Machine.execHkSelfcheck v c26 c27 s
  | .cmdBrzTxEnable e => Sys2Proof.Machine.execCmdBrzTxEnable e s
  | .cmdBrzSend e => Sys2Proof.Machine.execCmdBrzSend e s
  | .cmdBrzRecv e => Sys2Proof.Machine.execCmdBrzRecv e s
  | .cmdBrzStatus e => Sys2Proof.Machine.execCmdBrzStatus e s
  | .brzRampEnd c => Sys2Proof.Machine.execBrzRampEnd c s
  | .brzPacketTxStart c => Sys2Proof.Machine.execBrzPacketTxStart c s
  | .brzPacketTxEnd c => Sys2Proof.Machine.execBrzPacketTxEnd c s
  | .brzPreambleDetect c k heard => Sys2Proof.Machine.execBrzPreambleDetect c k heard s
  | .brzSyncFound c k => Sys2Proof.Machine.execBrzSyncFound c k s
  | .brzSyncTimeout c k => Sys2Proof.Machine.execBrzSyncTimeout c k s
  | .brzPacketRxEnd c k bytes rateErr freqErr => Sys2Proof.Machine.execBrzPacketRxEnd c k bytes rateErr freqErr s
  | .cmdCntRead e => Sys2Proof.Machine.execCmdCntRead e s
  | .cmdCntSelect e => Sys2Proof.Machine.execCmdCntSelect e s
  | .cmdCntClear e => Sys2Proof.Machine.execCmdCntClear e s
  | .snapRunWrite via v => Sys2Proof.Machine.execSnapRunWrite via v s
  | .snapDmaEnWrite via v => Sys2Proof.Machine.execSnapDmaEnWrite via v s
  | .snapTrigWrite via v => Sys2Proof.Machine.execSnapTrigWrite via v s
  | .snapshotStrobe => Sys2Proof.Machine.execSnapshotStrobe s
  | .snapshotDumpEnd dmaOk => Sys2Proof.Machine.execSnapshotDumpEnd dmaOk s
  | .cmdSecStatus e => Sys2Proof.Machine.execCmdSecStatus e s
  | .cmdFwStage e flashOk => Sys2Proof.Machine.execCmdFwStage e flashOk s
  | .cmdFwActivate e => Sys2Proof.Machine.execCmdFwActivate e s
  | .activationReady => Sys2Proof.Machine.execActivationReady s
  | .activationFallback => Sys2Proof.Machine.execActivationFallback s
  | .cmdSecAttest e => Sys2Proof.Machine.execCmdSecAttest e s
  | .cmdSecSvnCommit e burn => Sys2Proof.Machine.execCmdSecSvnCommit e burn s
  | .cmdSecEnroll e burn => Sys2Proof.Machine.execCmdSecEnroll e burn s
  | .cmdSecRead e => Sys2Proof.Machine.execCmdSecRead e s
  | .cmdMemStatus e => Sys2Proof.Machine.execCmdMemStatus e s
  | .cmdMemRetire e => Sys2Proof.Machine.execCmdMemRetire e s
  | .cmdMemBist e found => Sys2Proof.Machine.execCmdMemBist e found s
  | .dramCorrectableError stack addr syndrome bitpos region => Sys2Proof.Machine.execDramCorrectableError stack addr syndrome bitpos region s
  | .dramUncorrectableError stack addr syndrome region what => Sys2Proof.Machine.execDramUncorrectableError stack addr syndrome region what s
  | .cfgParityError mem unit word bytes copies pendingWrite => Sys2Proof.Machine.execCfgParityError mem unit word bytes copies pendingWrite s
  | .dataParityError mem unit word bytes what => Sys2Proof.Machine.execDataParityError mem unit word bytes what s
  | .scrubPassEnd stack => Sys2Proof.Machine.execScrubPassEnd stack s
  | .restripeEnd => Sys2Proof.Machine.execRestripeEnd s
  | .bufRingOverflow b bytes => Sys2Proof.Machine.execBufRingOverflow b bytes s
  | .unknownOpcode op e => Sys2Proof.Machine.execUnknownOpcode op e s
  | .laneCdrLockLoss l => Sys2Proof.Machine.execLaneCdrLockLoss l s
  | .csfHoldExpiry p rf => Sys2Proof.Machine.execCsfHoldExpiry p rf s
  | .gfpDelineationGain p => Sys2Proof.Machine.execGfpDelineationGain p s
  | .boostWindowFree => Sys2Proof.Machine.execBoostWindowFree s
  | .holdoverHistoryReady => Sys2Proof.Machine.execHoldoverHistoryReady s
  | .missedSwitchRetry c => Sys2Proof.Machine.execMissedSwitchRetry c s
  | .bar2HostWrite off data => Sys2Proof.Machine.execBar2HostWrite off data s

end Sys2Proof.Machine
end

