-- ==== Sys2Proof/Machine/Tick.lean ====
section
/-! DEFINITION. Machine/Tick.lean: what happens of itself when no command waits: time passes by 1 ns (log entry 2), level-mode counters count (R459), class C
bounds pass (R50), and in Doldrums the memories lose their contents and WAKE# is sampled at the end of step 3 (R75 to R77). -/

namespace Sys2Proof.Machine

/-- The class C commands whose action a later event ends (Table 21-1). -/
def classC : List Nat := [0x0201, 0x0305, 0x0310, 0x0313, 0x0318, 0x0501, 0x0512, 0x0703, 0x0903, 0x0A04, 0x0C01]

/-- Has the command's bound passed? The bounds hold while MBX_STATE is READY (R49, R50). -/
def Inflight.overdue (r : Inflight) (now : Nat) : Bool := r.started && !r.cut && classC.contains r.op && decide (r.deadline < now)

/-- DETAIL of the E_TIMEOUT: FAIL_CAUSE of a re-acquisition (R165), PORT_STATE of a Stitch enable (R334). -/
def Dev.timeoutDetail (d : Dev) (op : Nat) (e : CmdEntry) : Nat :=
  if op = 0x0313 then (d.rx (u8 e 0)).failCause.code else if op = 0x0703 then d.stitchCode (u8 e 0) else 0

/-- A running command ends with E_TIMEOUT (R50). -/
def Dev.timeOut (d : Dev) (env : Env) (op : Nat) (e : CmdEntry) : Dev :=
  (d.finish op (fieldAt (payload e) 0 1) .timeout (d.timeoutDetail op e) []).withdraw env op e

/-- The level-mode counters at a 10 ns tick (R459). -/
def State.levels (s : State) : State :=
  if s.now % 10 = 0 then { s with io := { s.io with pcs := s.io.pcs.map fun kv => (kv.1, kv.2.level s.dev) } } else s

/-- The running commands whose bounds have passed end. -/
def State.timeOuts (s : State) : State :=
  (if s.io.mbxState = .ready then s.io.inflight.filter fun r => r.overdue s.now else []).foldl
    (fun s r => s.commit (s.dev.timeOut s.env r.op r.e)) s

/-- One nanosecond without a command. -/
def tick (s : State) : State :=
  let s1 := { s with now := s.now + 1 }
  if s.dev.pw.state = .doldrums then
    if s.dev.pw.wakeNoted ∧ s.dev.pw.armedAt ≤ s1.now then s1.wake 2 else { s1 with io := .reset, par := [], mem := [] }
  else if s.dev.deaf then s1
  else
    let s2 := s1.levels.timeOuts
    let s3 := s2.commit s2.dev
    { s3 with io := raiseSummaries s s3 }

end Sys2Proof.Machine
end

