-- ==== Sys2Proof/Machine/Pins.lean ====
section
/-! DEFINITION. Machine/Pins.lean: what the pins show in each state, and the ball grid (R60, R67, R115, R470, R491 to R493, R497, R498). -/

namespace Sys2Proof.Machine

/-! ### Outputs -/

/-- What an output pin or group does. -/
inductive Drive where
  | highZ | low | high | active
  deriving DecidableEq, Repr

/-- MGP_ALERT#, open drain: low while any enabled source is set; released in Doldrums and without rails (R60, Table 22-4). -/
def State.pinMgpAlert (s : State) : Drive := if s.dev.deaf then .highZ else if s.io.mgpAlert then .low else .highZ

/-- PWRWARN#, open drain (R67). -/
def State.pinPwrWarn (s : State) : Drive := if s.dev.pwrWarn then .low else .highZ

/-- FSP_D at an address: undriven in Doldrums and without rails (R470, R472). -/
def State.fspD (s : State) (a : BitVec 8) : Option Nat := if s.dev.deaf then none else some (s.fspWord a.toNat)

/-- The DAC outputs of CPn: high impedance while its domain is OFF, the signal while it carries one, else the muted level (R115, Table 22-4). -/
inductive DacOut where
  | highZ | muted | signal
  deriving DecidableEq, Repr

def Dev.dacOut (d : Dev) (n : Nat) : DacOut :=
  if !d.inService || decide (d.domState (domCarrier n) = .off) then .highZ
  else match (d.tx n).state with
    | .rampUp => .signal
    | .on => .signal
    | .rampDown => .signal
    | _ => .muted

/-- The ADC inputs of CPn are terminated in 100 Ω while the domain is ON (Table 22-4). -/
def Dev.adcTerminated (d : Dev) (n : Nat) : Bool := d.inService && d.domOn (domCarrier n)

/-- The carrier-port SPI and the PCIe lanes work in Calm and Service only (Table 22-4). -/
def Dev.busPins (d : Dev) : Drive := if d.deaf then .highZ else .active

/-- CLKOUT0 to CLKOUT3 (outputs 0 to 3) and PPSOUT0, PPSOUT1 (4 and 5): undriven in Doldrums, held low in Calm (Table 22-4) and while domain 0x41 is not ON
(R81). An enabled clock output runs, but while it restarts; a pulse output is high for its width from each rising edge (R399, R400, R405). -/
def State.timPin (s : State) (o : Nat) : Drive :=
  let x := s.dev.timOut o
  if s.dev.deaf then .highZ
  else if !s.dev.inService || !s.dev.domOn domDpll || !x.enable then .low
  else if o < 4 then (if s.now < x.lowUntil then .low else .active)
  else if x.last.any fun l => decide (l ≤ (s.now : Int) * 1000 ∧ (s.now : Int) * 1000 < l + x.freqWidth * 1000) then .high else .low

/-- The MGP address: 0x58 + ADDR[2:0] (R77, R497). -/
def Dev.mgpAddress (d : Dev) : Nat := 0x58 + d.pw.addrStrap.toNat

/-! ### The ball grid -/

/-- The 19 letters of rows 1 to 19 (Table 22-1). -/
def rowLetters : List Char := ['A', 'B', 'C', 'D', 'E', 'F', 'G', 'H', 'J', 'K', 'L', 'M', 'N', 'P', 'T', 'U', 'V', 'W', 'Y']

/-- The name of a row by its index 1 to 64 (R491). -/
def rowName (i : Nat) : String :=
  let letter := String.singleton ((rowLetters[(i - 1) % 19]?).getD 'A')
  if i ≤ 19 then letter else if i ≤ 38 then "A" ++ letter else if i ≤ 57 then "B" ++ letter else "C" ++ letter

/-- A ball by row index and column, and its name. -/
abbrev Ball := Nat × Nat
def Ball.name (b : Ball) : String := rowName b.1 ++ toString b.2

/-- The four balls of client lane `l`: TXP, TXN, RXP, RXN (Table 22-2). -/
def laneBalls (l : Nat) : List Ball := [3, 4, 9, 10].map fun c => (l + 1, c)

/-- SREFnP and SREFnN. -/
def srefBalls (n : Nat) : List Ball := [(16 * n + 8, 13), (16 * n + 9, 13)]

/-- PETp, PETn, PERp, PERn of PCIe lane `k`. -/
def pcieBalls (k : Nat) : List Ball := [(22 + 4 * k, 62), (22 + 4 * k, 63), (24 + 4 * k, 62), (24 + 4 * k, 63)]

/-- Is a position within rows r1 to r2 and columns c1 to c2? -/
def inBox (r1 r2 c1 c2 : Nat) (b : Ball) : Bool := decide (r1 ≤ b.1 ∧ b.1 ≤ r2 ∧ c1 ≤ b.2 ∧ b.2 ≤ c2)

/-- The depopulated positions: A57 to D60, E53 to H64, AM31 to AT38 (R493). Row AM has index 31 and AT index 34. -/
def depopulated (b : Ball) : Bool := inBox 1 4 57 60 b || inBox 5 8 53 64 b || inBox 31 34 31 38 b

/-- VIN and VINRTN (R492). -/
def vinBall (b : Ball) : Bool := inBox 1 4 61 64 b
def vinReturnBall (b : Ball) : Bool := inBox 1 4 53 56 b

/-- All positions of the grid. -/
def grid : List Ball := (List.range 64).flatMap fun r => (List.range 64).map fun c => (r + 1, c + 1)

/-! ### Carrier-port lands (R495) -/

/-- The signal lands of a carrier port: name, land row, land column (Table 22-3). -/
def portLands : List (String × Nat × Nat) := [
  ("XIP", 1, 2), ("XIN", 1, 3), ("XQP", 1, 6), ("XQN", 1, 7), ("YIP", 1, 10), ("YIN", 1, 11), ("YQP", 1, 14), ("YQN", 1, 15),
  ("RXIP", 3, 2), ("RXIN", 3, 3), ("RXQP", 3, 6), ("RXQN", 3, 7), ("RYIP", 3, 10), ("RYIN", 3, 11), ("RYQP", 3, 14), ("RYQN", 3, 15),
  ("SCK", 8, 18), ("CS#", 8, 19), ("MOSI", 8, 20), ("MISO", 8, 21), ("PRES#", 8, 23), ("TXOK", 8, 24)]

/-! ### Ratings and conditions (R499, R500) -/

/-- Is a supply voltage in mV within the operating range of Table 22-6, and within the continuous rating of Table 22-5? -/
def vinOperating (mv : Nat) : Bool := decide (36000 ≤ mv ∧ mv ≤ 75000)
def vinRated (mv : Int) : Bool := decide (-500 ≤ mv ∧ mv ≤ 85000)

/-- Junction temperatures in 0.1 °C: continuous operation, throttled operation (Table 22-6). -/
def tjContinuous (t : Int) : Bool := decide (-50 ≤ t ∧ t ≤ 1050)
def tjThrottled (t : Int) : Bool := decide (1050 ≤ t ∧ t ≤ 1150)

/-- JTAG IDCODE [31:12] (R503). -/
def idcodeHigh : Nat := 0x2 * 65536 + 0x1600

end Sys2Proof.Machine
end

