-- ==== Sys2Proof/WellFormed.lean ====
section
/-! DEFINITION. WellFormed.lean: what the operands of a command or an event must satisfy beyond their types. -/

namespace Sys2Proof

/-- A command entry fits its slot: PAYLOAD has 248 bytes (R41, R42). Shorter lists stand for zeros above them. -/
def CmdEntry.wf (e : CmdEntry) : Bool := decide (e.payload.length ≤ 248)

/-- A command entry fits its slot (R42); a TTI has 64 bytes (R213), the rate-step fields 5 (R214), a training control block 32 (R316), a cell 512 bytes with
496 of payload (R314), an engine's event 12 bytes (R373), a telemetry sample 4 values (R410), a measurement round one offset for each reference (R389);
no more samples clip than there are (R111, R125); a BAR2 write stays in its 1 GiB window (R39). -/
def Instr.wf (i : Instr) : Bool :=
  match i with
  | .cmdTailWrite _ _ => true
  | .commandConsume => true
  | .cplHeadWrite _ _ => true
  | .mbxPortWrite _ _ => true
  | .portDropWrite _ _ _ => true
  | .evtMarkWrite _ _ => true
  | .evtRunWrite _ _ => true
  | .markHitClear _ => true
  | .evtPopWrite _ _ => true
  | .intEnableWrite _ _ => true
  | .registerWrite _ _ _ => true
  | .debugWindowFaultAccess _ _ _ => true
  | .bar2OffStackAccess _ _ _ => true
  | .msixMessageSend _ _ => true
  | .mgpWriteTransaction _ _ => true
  | .mgpReadTransaction _ _ => true
  | .responderComplete => true
  | .powerOnReset _ => true
  | .uvloShutdown _ => true
  | .overvoltageShutdown _ => true
  | .overvoltageRestart _ => true
  | .pwrwarnAssert _ => true
  | .pwrwarnRelease _ => true
  | .currentLimitEngage _ => true
  | .currentLimitRelease _ => true
  | .currentLimitDrop _ => true
  | .sysrstAssert => true
  | .sysrstRelease => true
  | .sysResetDelayExpiry => true
  | .bootRomRun _ => true
  | .pcieReset => true
  | .watchdogExpiry => true
  | .frelvoMemoryUe => true
  | .frelvoRestartReady => true
  | .wakeMgpMatch _ => true
  | .wakePin => true
  | .queuedDoldrumsEntry => true
  | .squallDroop _ _ => true
  | .squallRestore => true
  | .thermalSample _ _ _ _ _ => true
  | .throttleHoldExpiry => true
  | .hwThermalShutdown => true
  | .thermalRestart => true
  | .boostWindowSpent => true
  | .seamFlitRetry _ _ => true
  | .seamWindowEnd _ => true
  | .cmdSysInfo e => e.wf
  | .cmdSysReset e => e.wf
  | .cmdParamSet e => e.wf
  | .cmdParamGet e => e.wf
  | .cmdPowerState e _ => e.wf
  | .cmdDomainSet e => e.toCmdEntry.wf
  | .cmdPowerStatus e => e.wf
  | .cmdCarrierSet e => e.wf
  | .cmdCarrierRecover e _ => e.wf
  | .cmdTxEnable e => e.wf
  | .txFramerStart _ => true
  | .txRampEnd _ => true
  | .cmdTxMute e => e.wf
  | .cmdTxCoefLoad e => e.wf
  | .cmdTxStatus e => e.wf
  | .cmdCpSpi e _ => e.wf
  | .txokLow _ => true
  | .txokHigh _ => true
  | .interlockAutoClear _ => true
  | .presHigh _ => true
  | .txClockUnlock _ => true
  | .txClockRelock _ => true
  | .txClipWindow _ clipped samples => decide (clipped ≤ samples)
  | .pilotSeedReload _ => true
  | .txXfadeEnd _ _ => true
  | .cmdCdReach e => e.wf
  | .cmdLastStatus e => e.wf
  | .rxLosDeclare _ => true
  | .rxLosClear _ => true
  | .adcClipWindow _ clipped samples => decide (clipped ≤ samples)
  | .lastLoadEnd _ => true
  | .shadowSwitch _ => true
  | .lastReallocate _ => true
  | .cdSearchEnd _ _ => true
  | .cdTrimUpdate _ _ => true
  | .cmdRxStatus e => e.wf
  | .cmdRxReacquire e => e.wf
  | .cmdRxNlcLoad e => e.wf
  | .acqStart _ => true
  | .candidateLoadEnd _ => true
  | .coarseEnd _ _ _ => true
  | .preconvergeEnd _ => true
  | .pilotSyncEnd _ => true
  | .rxLock _ => true
  | .acqStateTimeout _ => true
  | .acqWaitEnd _ => true
  | .lossOfLock _ _ => true
  | .pilotSeedRepeat _ _ => true
  | .cycleSlip _ => true
  | .cycleSlipWindow _ _ => true
  | .qualityWindow _ _ => true
  | .nlcTrainStart _ => true
  | .nlcTrainEnd _ _ _ _ => true
  | .nlcXfadeEnd _ => true
  | .cmdCalRun e _ => e.wf
  | .cmdCalStatus e => e.wf
  | .calRoundTrigger _ => true
  | .calFsChangeTrigger _ => true
  | .calRoundEnd _ _ => true
  | .calApplyEnd _ => true
  | .dacInitCalEnd _ _ => true
  | .cmdFecStatus e => e.wf
  | .cmdFecInject e => e.wf
  | .fecInjectTick _ => true
  | .fecInjectEnd _ => true
  | .fecBlockLock _ => true
  | .fecLossOfBlockLock _ _ => true
  | .fecDegWindow _ _ => true
  | .fecUncorrBlock _ => true
  | .cmdBundleCreate e => e.wf
  | .cmdBundleDelete e => e.wf
  | .cmdBundleEnable e => e.wf
  | .bundleBoundaryApply _ => true
  | .bundleDrainEnd _ _ => true
  | .cmdFrmStatus e => e.wf
  | .cmdChanStatus e => e.wf
  | .cmdFrmTti e => e.wf
  | .inFrameDeclare _ => true
  | .falseCandidate _ => true
  | .lofDeclare _ => true
  | .mfAlign _ _ => true
  | .oomDeclare _ => true
  | .lomDeclare _ => true
  | .ttiAccept _ tti => decide (tti.length = 64)
  | .sbdiRxChange _ _ => true
  | .pathDefectChange _ _ => true
  | .consequentActionEnd _ => true
  | .rsFieldsAccept _ bytes => decide (bytes.length = 5)
  | .rsCountdownTick _ => true
  | .cmdRateStep e _ => e.wf
  | .cmdRateStatus e => e.wf
  | .cmdRateElastic e => e.wf
  | .rsReqRx _ _ => true
  | .rsAckRx _ => true
  | .rsNakRx _ => true
  | .rsCommitRx _ => true
  | .rsAbortRx _ => true
  | .rsAckTimeout _ => true
  | .rsThrottleDone _ => true
  | .rsThrottleTimeout _ => true
  | .rsTxSwitch _ => true
  | .rsRxSwitch _ => true
  | .rsSplitTimeout _ => true
  | .ratePolicyDecision _ => true
  | .cmdProtCreate e => e.wf
  | .cmdProtDelete e => e.wf
  | .cmdProtArm e => e.wf
  | .cmdProtSwitch e => e.wf
  | .cmdProtStatus e => e.wf
  | .protAlign _ _ _ _ => true
  | .protHoldoffExpiry _ _ _ => true
  | .protWtrExpiry _ => true
  | .protLegReturn _ _ _ _ _ _ => true
  | .cmdEthPortCreate e => e.wf
  | .cmdEthPortDelete e => e.wf
  | .cmdEthPortEnable e => e.wf
  | .cmdEthPortStatus e => e.wf
  | .cmdLaneStatus e => e.wf
  | .cmdLaneTest e => e.wf
  | .laneLosChange _ _ => true
  | .laneCdrLock _ => true
  | .laneAdaptEnd _ => true
  | .laneFomWindow _ _ => true
  | .ethPortStateChange _ _ _ _ => true
  | .ethFrameRx _ _ _ => true
  | .ethFrameTx _ _ _ => true
  | .gfpLossOfDelineation _ => true
  | .csfFrameTimer _ => true
  | .csfFrameRx _ _ => true
  | .clientFaultRx _ _ => true
  | .prbsCheckerLock _ _ => true
  | .prbsCheckerLoss _ => true
  | .srefLoss _ => true
  | .srefReturn _ => true
  | .cmdStitchPortCreate e => e.wf
  | .cmdStitchPortDelete e => e.wf
  | .cmdStitchPortEnable e => e.wf
  | .cmdStitchFlow e => e.wf
  | .cmdStitchStatus e => e.wf
  | .stitchLanesLocked _ => true
  | .stitchTrainingCwRx _ _ ctrl => decide (ctrl.length = 32)
  | .stitchTuneDone _ _ => true
  | .stitchPeerReady _ => true
  | .stitchAlignDone _ => true
  | .stitchCodewordLockLoss _ _ => true
  | .stitchCellRx _ cell _ => decide (cell.length = 512)
  | .stitchCellTx _ _ _ payload => decide (payload.length = 496)
  | .stitchSyncTimer _ _ => true
  | .stitchProbeTimer _ => true
  | .stitchRetrainTimer _ => true
  | .cmdKeyLoad e => e.wf
  | .cmdKeyActivate e => e.wf
  | .cmdKeyErase e => e.wf
  | .cmdKeyStatus e => e.wf
  | .cmdKekLoad e => e.wf
  | .cmdCryptoJob e => e.wf
  | .cmdCryptoCancel e => e.wf
  | .keyNearLimitReached _ _ => true
  | .keyLimitExpiry _ _ => true
  | .multiframeAuthCheck _ _ => true
  | .cryptoJobStart => true
  | .cryptoJobEnd _ => true
  | .keySlotUe _ _ => true
  | .cmdEngLoad e => e.wf
  | .cmdEngStart e => e.wf
  | .cmdEngStop e => e.wf
  | .cmdEngUnload e => e.wf
  | .cmdEngMsg e => e.wf
  | .cmdEngStatus e => e.wf
  | .cmdEngArray e => e.wf
  | .engProgramFault _ _ _ => true
  | .engTileEndStop _ => true
  | .sysRunPlace => true
  | .sysRunWaitExpiry _ => true
  | .symbolCaptureRequest _ _ => true
  | .symbolCaptureEnd _ => true
  | .engTxTableCommit _ _ _ _ => true
  | .engCounterRead _ _ => true
  | .engUserRaise _ bytes => decide (bytes.length = 12)
  | .cmdTimRefCfg e => e.wf
  | .cmdTimRefQl e => e.wf
  | .cmdTimSelect e => e.wf
  | .cmdTimPhaseStep e => e.wf
  | .cmdTimOutCfg e => e.wf
  | .cmdTimStatus e => e.wf
  | .refActivityLoss _ => true
  | .refActivityReturn _ => true
  | .refFreqMeasure offs => decide (offs.length = 4)
  | .refWtrExpiry _ => true
  | .dpllLock => true
  | .holdoverExpiry => true
  | .ppsinEdge _ _ _ _ => true
  | .ppsinLoss _ => true
  | .xoFail _ _ => true
  | .cmdSenseCoefLoad e => e.wf
  | .cmdSenseStatus e => e.wf
  | .telemetryRecord _ late valid values => decide (late ≤ 4000000 ∧ valid.length = values.length) && values.all fun x => decide (x.length = 4)
  | .senseXfadeEnd _ => true
  | .frontWindow _ _ _ _ _ => true
  | .frontClearHold _ _ => true
  | .cmdHkCfg e => e.wf
  | .cmdHkRead e => e.wf
  | .cmdHkCal e _ => e.wf
  | .hkWarmupEnd _ => true
  | .hkConversion _ _ _ => true
  | .hkSelfcheck _ _ _ => true
  | .cmdBrzTxEnable e => e.wf
  | .cmdBrzSend e => e.wf
  | .cmdBrzRecv e => e.wf
  | .cmdBrzStatus e => e.wf
  | .brzRampEnd _ => true
  | .brzPacketTxStart _ => true
  | .brzPacketTxEnd _ => true
  | .brzPreambleDetect _ _ _ => true
  | .brzSyncFound _ _ => true
  | .brzSyncTimeout _ _ => true
  | .brzPacketRxEnd _ _ _ _ _ => true
  | .cmdCntRead e => e.wf
  | .cmdCntSelect e => e.wf
  | .cmdCntClear e => e.wf
  | .snapRunWrite _ _ => true
  | .snapDmaEnWrite _ _ => true
  | .snapTrigWrite _ _ => true
  | .snapshotStrobe => true
  | .snapshotDumpEnd _ => true
  | .cmdSecStatus e => e.wf
  | .cmdFwStage e _ => e.wf
  | .cmdFwActivate e => e.wf
  | .activationReady => true
  | .activationFallback => true
  | .cmdSecAttest e => e.wf
  | .cmdSecSvnCommit e _ => e.wf
  | .cmdSecEnroll e _ => e.wf
  | .cmdSecRead e => e.wf
  | .cmdMemStatus e => e.wf
  | .cmdMemRetire e => e.wf
  | .cmdMemBist e _ => e.wf
  | .dramCorrectableError _ _ _ _ _ => true
  | .dramUncorrectableError _ _ _ _ _ => true
  | .cfgParityError _ _ _ _ _ _ => true
  | .dataParityError _ _ _ _ _ => true
  | .scrubPassEnd _ => true
  | .restripeEnd => true
  | .bufRingOverflow _ _ => true
  | .unknownOpcode _ e => e.wf
  | .laneCdrLockLoss _ => true
  | .csfHoldExpiry _ _ => true
  | .gfpDelineationGain _ => true
  | .boostWindowFree => true
  | .holdoverHistoryReady => true
  | .missedSwitchRetry _ => true
  | .bar2HostWrite off data => decide (off.toNat + data.length ≤ 2 ^ 30)

end Sys2Proof
end

