-- ==== Sys2Proof/Safety.lean ====
section
/-! DEFINITION. Safety.lean: the terms in which statements about the block are made: its invariants, commands by their forms, and when a command runs. -/

namespace Sys2Proof.Machine

/-! ### Invariants -/

/-- The event FIFO, and the record kept while ACTIVATING, hold at most 1,024 entries (R55, R509). -/
def Io.fifoOk (io : Io) : Prop := io.evts.length ≤ evtCapacity ∧ io.held.length ≤ evtCapacity

/-- MARK_HIT is latched whenever the watermark condition holds (R58). -/
def Io.markOk (io : Io) : Prop := io.markCond = true → io.markHit = true

/-- The commands consumed and not completed, with the completions not yet read, are at most 64: no completion is ever lost (R46). -/
def Io.roomOk (io : Io) : Prop := io.outstanding ≤ 64

/-- At most 64 entries lie between CMD_HEAD and CMD_TAIL (R41, R45). -/
def Io.ringOk (io : Io) : Prop := (io.cmdTail - io.cmdHead).toNat ≤ 64

/-- The memories keep their canonical form. -/
def State.memOk (s : State) : Prop := s.mem.wf = true ∧ s.io.cmdRing.wf = true ∧ s.io.cplRing.wf = true

/-- Every stored parameter has a value of its range (R486). -/
def State.paramsOk (s : State) : Prop := s.par.legal = true

/-! ### Kinds of row -/

/-- What a row is: a mailbox command; a row of the host's own accesses, of the rings and of the snapshots; a loss of supply, after which the time base
starts again; another reset; or an event of the device. -/
inductive Kind where
  | command | access | supply | reset | event
  deriving DecidableEq, Repr

def kindOf : Instr → Kind
  | .cmdTailWrite _ _ => .access
  | .commandConsume => .access
  | .cplHeadWrite _ _ => .access
  | .mbxPortWrite _ _ => .access
  | .portDropWrite _ _ _ => .access
  | .evtMarkWrite _ _ => .access
  | .evtRunWrite _ _ => .access
  | .markHitClear _ => .access
  | .evtPopWrite _ _ => .access
  | .intEnableWrite _ _ => .access
  | .registerWrite _ _ _ => .access
  | .debugWindowFaultAccess _ _ _ => .access
  | .bar2OffStackAccess _ _ _ => .access
  | .msixMessageSend _ _ => .access
  | .mgpWriteTransaction _ _ => .access
  | .mgpReadTransaction _ _ => .access
  | .responderComplete => .access
  | .powerOnReset _ => .supply
  | .uvloShutdown _ => .supply
  | .overvoltageShutdown _ => .supply
  | .overvoltageRestart _ => .supply
  | .pwrwarnAssert _ => .event
  | .pwrwarnRelease _ => .event
  | .currentLimitEngage _ => .event
  | .currentLimitRelease _ => .event
  | .currentLimitDrop _ => .event
  | .sysrstAssert => .reset
  | .sysrstRelease => .event
  | .sysResetDelayExpiry => .reset
  | .bootRomRun _ => .event
  | .pcieReset => .access
  | .watchdogExpiry => .event
  | .frelvoMemoryUe => .event
  | .frelvoRestartReady => .event
  | .wakeMgpMatch _ => .reset
  | .wakePin => .reset
  | .queuedDoldrumsEntry => .event
  | .squallDroop _ _ => .event
  | .squallRestore => .event
  | .thermalSample _ _ _ _ _ => .event
  | .throttleHoldExpiry => .event
  | .hwThermalShutdown => .reset
  | .thermalRestart => .reset
  | .boostWindowSpent => .event
  | .seamFlitRetry _ _ => .event
  | .seamWindowEnd _ => .event
  | .cmdSysInfo _ => .command
  | .cmdSysReset _ => .command
  | .cmdParamSet _ => .command
  | .cmdParamGet _ => .command
  | .cmdPowerState _ _ => .command
  | .cmdDomainSet _ => .command
  | .cmdPowerStatus _ => .command
  | .cmdCarrierSet _ => .command
  | .cmdCarrierRecover _ _ => .command
  | .cmdTxEnable _ => .command
  | .txFramerStart _ => .event
  | .txRampEnd _ => .event
  | .cmdTxMute _ => .command
  | .cmdTxCoefLoad _ => .command
  | .cmdTxStatus _ => .command
  | .cmdCpSpi _ _ => .command
  | .txokLow _ => .event
  | .txokHigh _ => .event
  | .interlockAutoClear _ => .event
  | .presHigh _ => .event
  | .txClockUnlock _ => .event
  | .txClockRelock _ => .event
  | .txClipWindow _ _ _ => .event
  | .pilotSeedReload _ => .event
  | .txXfadeEnd _ _ => .event
  | .cmdCdReach _ => .command
  | .cmdLastStatus _ => .command
  | .rxLosDeclare _ => .event
  | .rxLosClear _ => .event
  | .adcClipWindow _ _ _ => .event
  | .lastLoadEnd _ => .event
  | .shadowSwitch _ => .event
  | .lastReallocate _ => .event
  | .cdSearchEnd _ _ => .event
  | .cdTrimUpdate _ _ => .event
  | .cmdRxStatus _ => .command
  | .cmdRxReacquire _ => .command
  | .cmdRxNlcLoad _ => .command
  | .acqStart _ => .event
  | .candidateLoadEnd _ => .event
  | .coarseEnd _ _ _ => .event
  | .preconvergeEnd _ => .event
  | .pilotSyncEnd _ => .event
  | .rxLock _ => .event
  | .acqStateTimeout _ => .event
  | .acqWaitEnd _ => .event
  | .lossOfLock _ _ => .event
  | .pilotSeedRepeat _ _ => .event
  | .cycleSlip _ => .event
  | .cycleSlipWindow _ _ => .event
  | .qualityWindow _ _ => .event
  | .nlcTrainStart _ => .event
  | .nlcTrainEnd _ _ _ _ => .event
  | .nlcXfadeEnd _ => .event
  | .cmdCalRun _ _ => .command
  | .cmdCalStatus _ => .command
  | .calRoundTrigger _ => .event
  | .calFsChangeTrigger _ => .event
  | .calRoundEnd _ _ => .event
  | .calApplyEnd _ => .event
  | .dacInitCalEnd _ _ => .event
  | .cmdFecStatus _ => .command
  | .cmdFecInject _ => .command
  | .fecInjectTick _ => .event
  | .fecInjectEnd _ => .event
  | .fecBlockLock _ => .event
  | .fecLossOfBlockLock _ _ => .event
  | .fecDegWindow _ _ => .event
  | .fecUncorrBlock _ => .event
  | .cmdBundleCreate _ => .command
  | .cmdBundleDelete _ => .command
  | .cmdBundleEnable _ => .command
  | .bundleBoundaryApply _ => .event
  | .bundleDrainEnd _ _ => .event
  | .cmdFrmStatus _ => .command
  | .cmdChanStatus _ => .command
  | .cmdFrmTti _ => .command
  | .inFrameDeclare _ => .event
  | .falseCandidate _ => .event
  | .lofDeclare _ => .event
  | .mfAlign _ _ => .event
  | .oomDeclare _ => .event
  | .lomDeclare _ => .event
  | .ttiAccept _ _ => .event
  | .sbdiRxChange _ _ => .event
  | .pathDefectChange _ _ => .event
  | .consequentActionEnd _ => .event
  | .rsFieldsAccept _ _ => .event
  | .rsCountdownTick _ => .event
  | .cmdRateStep _ _ => .command
  | .cmdRateStatus _ => .command
  | .cmdRateElastic _ => .command
  | .rsReqRx _ _ => .event
  | .rsAckRx _ => .event
  | .rsNakRx _ => .event
  | .rsCommitRx _ => .event
  | .rsAbortRx _ => .event
  | .rsAckTimeout _ => .event
  | .rsThrottleDone _ => .event
  | .rsThrottleTimeout _ => .event
  | .rsTxSwitch _ => .event
  | .rsRxSwitch _ => .event
  | .rsSplitTimeout _ => .event
  | .ratePolicyDecision _ => .event
  | .cmdProtCreate _ => .command
  | .cmdProtDelete _ => .command
  | .cmdProtArm _ => .command
  | .cmdProtSwitch _ => .command
  | .cmdProtStatus _ => .command
  | .protAlign _ _ _ _ => .event
  | .protHoldoffExpiry _ _ _ => .event
  | .protWtrExpiry _ => .event
  | .protLegReturn _ _ _ _ _ _ => .event
  | .cmdEthPortCreate _ => .command
  | .cmdEthPortDelete _ => .command
  | .cmdEthPortEnable _ => .command
  | .cmdEthPortStatus _ => .command
  | .cmdLaneStatus _ => .command
  | .cmdLaneTest _ => .command
  | .laneLosChange _ _ => .event
  | .laneCdrLock _ => .event
  | .laneAdaptEnd _ => .event
  | .laneFomWindow _ _ => .event
  | .ethPortStateChange _ _ _ _ => .event
  | .ethFrameRx _ _ _ => .event
  | .ethFrameTx _ _ _ => .event
  | .gfpLossOfDelineation _ => .event
  | .csfFrameTimer _ => .event
  | .csfFrameRx _ _ => .event
  | .clientFaultRx _ _ => .event
  | .prbsCheckerLock _ _ => .event
  | .prbsCheckerLoss _ => .event
  | .srefLoss _ => .event
  | .srefReturn _ => .event
  | .cmdStitchPortCreate _ => .command
  | .cmdStitchPortDelete _ => .command
  | .cmdStitchPortEnable _ => .command
  | .cmdStitchFlow _ => .command
  | .cmdStitchStatus _ => .command
  | .stitchLanesLocked _ => .event
  | .stitchTrainingCwRx _ _ _ => .event
  | .stitchTuneDone _ _ => .event
  | .stitchPeerReady _ => .event
  | .stitchAlignDone _ => .event
  | .stitchCodewordLockLoss _ _ => .event
  | .stitchCellRx _ _ _ => .event
  | .stitchCellTx _ _ _ _ => .event
  | .stitchSyncTimer _ _ => .event
  | .stitchProbeTimer _ => .event
  | .stitchRetrainTimer _ => .event
  | .cmdKeyLoad _ => .command
  | .cmdKeyActivate _ => .command
  | .cmdKeyErase _ => .command
  | .cmdKeyStatus _ => .command
  | .cmdKekLoad _ => .command
  | .cmdCryptoJob _ => .command
  | .cmdCryptoCancel _ => .command
  | .keyNearLimitReached _ _ => .event
  | .keyLimitExpiry _ _ => .event
  | .multiframeAuthCheck _ _ => .event
  | .cryptoJobStart => .event
  | .cryptoJobEnd _ => .event
  | .keySlotUe _ _ => .event
  | .cmdEngLoad _ => .command
  | .cmdEngStart _ => .command
  | .cmdEngStop _ => .command
  | .cmdEngUnload _ => .command
  | .cmdEngMsg _ => .command
  | .cmdEngStatus _ => .command
  | .cmdEngArray _ => .command
  | .engProgramFault _ _ _ => .event
  | .engTileEndStop _ => .event
  | .sysRunPlace => .event
  | .sysRunWaitExpiry _ => .event
  | .symbolCaptureRequest _ _ => .event
  | .symbolCaptureEnd _ => .event
  | .engTxTableCommit _ _ _ _ => .event
  | .engCounterRead _ _ => .event
  | .engUserRaise _ _ => .event
  | .cmdTimRefCfg _ => .command
  | .cmdTimRefQl _ => .command
  | .cmdTimSelect _ => .command
  | .cmdTimPhaseStep _ => .command
  | .cmdTimOutCfg _ => .command
  | .cmdTimStatus _ => .command
  | .refActivityLoss _ => .event
  | .refActivityReturn _ => .event
  | .refFreqMeasure _ => .event
  | .refWtrExpiry _ => .event
  | .dpllLock => .event
  | .holdoverExpiry => .event
  | .ppsinEdge _ _ _ _ => .event
  | .ppsinLoss _ => .event
  | .xoFail _ _ => .event
  | .cmdSenseCoefLoad _ => .command
  | .cmdSenseStatus _ => .command
  | .telemetryRecord _ _ _ _ => .event
  | .senseXfadeEnd _ => .event
  | .frontWindow _ _ _ _ _ => .event
  | .frontClearHold _ _ => .event
  | .cmdHkCfg _ => .command
  | .cmdHkRead _ => .command
  | .cmdHkCal _ _ => .command
  | .hkWarmupEnd _ => .event
  | .hkConversion _ _ _ => .event
  | .hkSelfcheck _ _ _ => .event
  | .cmdBrzTxEnable _ => .command
  | .cmdBrzSend _ => .command
  | .cmdBrzRecv _ => .command
  | .cmdBrzStatus _ => .command
  | .brzRampEnd _ => .event
  | .brzPacketTxStart _ => .event
  | .brzPacketTxEnd _ => .event
  | .brzPreambleDetect _ _ _ => .event
  | .brzSyncFound _ _ => .event
  | .brzSyncTimeout _ _ => .event
  | .brzPacketRxEnd _ _ _ _ _ => .event
  | .cmdCntRead _ => .command
  | .cmdCntSelect _ => .command
  | .cmdCntClear _ => .command
  | .snapRunWrite _ _ => .access
  | .snapDmaEnWrite _ _ => .access
  | .snapTrigWrite _ _ => .access
  | .snapshotStrobe => .access
  | .snapshotDumpEnd _ => .access
  | .cmdSecStatus _ => .command
  | .cmdFwStage _ _ => .command
  | .cmdFwActivate _ => .command
  | .activationReady => .event
  | .activationFallback => .event
  | .cmdSecAttest _ => .command
  | .cmdSecSvnCommit _ _ => .command
  | .cmdSecEnroll _ _ => .command
  | .cmdSecRead _ => .command
  | .cmdMemStatus _ => .command
  | .cmdMemRetire _ => .command
  | .cmdMemBist _ _ => .command
  | .dramCorrectableError _ _ _ _ _ => .event
  | .dramUncorrectableError _ _ _ _ _ => .event
  | .cfgParityError _ _ _ _ _ _ => .event
  | .dataParityError _ _ _ _ _ => .event
  | .scrubPassEnd _ => .event
  | .restripeEnd => .event
  | .bufRingOverflow _ _ => .event
  | .unknownOpcode _ _ => .command
  | .laneCdrLockLoss _ => .event
  | .csfHoldExpiry _ _ => .event
  | .gfpDelineationGain _ => .event
  | .boostWindowFree => .event
  | .holdoverHistoryReady => .event
  | .missedSwitchRetry _ => .event
  | .bar2HostWrite _ _ => .access

/-- The registers that only the host's accesses, consumption, resets and snapshots change (R44, R55, R59, R63, R465). -/
structure Io.HostSame (a b : Io) : Prop where
  cmdRing : b.cmdRing = a.cmdRing
  cmdTail : b.cmdTail = a.cmdTail
  cmdHead : b.cmdHead = a.cmdHead
  cplHead : b.cplHead = a.cplHead
  mbxPort : b.mbxPort = a.mbxPort
  mbxErr : b.mbxErr = a.mbxErr
  evtMark : b.evtMark = a.evtMark
  runMode : b.runMode = a.runMode
  intEnable : b.intEnable = a.intEnable
  intVec : b.intVec = a.intVec
  accessFaultAddr : b.accessFaultAddr = a.accessFaultAddr
  msixPending : b.msixPending = a.msixPending
  lastMsg : b.lastMsg = a.lastMsg
  lastRead : b.lastRead = a.lastRead
  mgpOffset : b.mgpOffset = a.mgpOffset
  snap : b.snap = a.snap

/-- What a reset of the whole device leaves, whatever caused it (R82, R83): interface block, parameters and DRAM as after power-on, every domain OFF, nothing
of the datapath; fuses and flash as they were. -/
structure State.ResetTo (s t : State) (cause : Nat) : Prop where
  pending : t.pending = s.pending
  io : t.io = Io.reset
  par : t.par = []
  mem : t.mem = []
  nv : t.dev.nv = s.dev.nv
  cause : t.dev.boot.resetCause = BitVec.ofNat 8 cause
  phase : t.dev.boot.phase = 0 ∧ t.dev.boot.failed = false
  dom : t.dev.pw.dom = []
  data : t.dev.cnt = [] ∧ t.dev.chan = [] ∧ t.dev.bundle = [] ∧ t.dev.group = [] ∧ t.dev.runs = [] ∧ t.dev.pool = [] ∧ t.dev.seam = []
  clients : t.dev.cli = Client.reset ∧ t.dev.key = Keys.reset ∧ t.dev.eng = Eng.reset ∧ t.dev.tim = Tim.reset

/-! ### Requests -/

/-- The request can change a byte of DRAM: a store, a loss with a stack, a completion with E_INTERNAL and its dump (R480). -/
def Emit.storing : Emit → Bool
  | .dram _ _ => true
  | .wipe _ => true
  | .finish _ _ st _ _ => decide (st = .internal)
  | _ => false

/-- The request completes a running command. -/
def Emit.finishing : Emit → Bool
  | .finish _ _ _ _ _ => true
  | _ => false

/-- The request stores parameters. -/
def Emit.setting : Emit → Bool
  | .params _ => true
  | _ => false

/-- The request can enter an event. -/
def Emit.entering : Emit → Bool
  | .event _ _ _ _ => true
  | .mbx _ => true
  | _ => false

/-! ### Commands -/

/-- What Frelvo reads of a mailbox command before its own rule: its form, and its entry. -/
def commandOf : Instr → Option (CmdForm × CmdEntry)
  | .cmdTailWrite _ _ => none
  | .commandConsume => none
  | .cplHeadWrite _ _ => none
  | .mbxPortWrite _ _ => none
  | .portDropWrite _ _ _ => none
  | .evtMarkWrite _ _ => none
  | .evtRunWrite _ _ => none
  | .markHitClear _ => none
  | .evtPopWrite _ _ => none
  | .intEnableWrite _ _ => none
  | .registerWrite _ _ _ => none
  | .debugWindowFaultAccess _ _ _ => none
  | .bar2OffStackAccess _ _ _ => none
  | .msixMessageSend _ _ => none
  | .mgpWriteTransaction _ _ => none
  | .mgpReadTransaction _ _ => none
  | .responderComplete => none
  | .powerOnReset _ => none
  | .uvloShutdown _ => none
  | .overvoltageShutdown _ => none
  | .overvoltageRestart _ => none
  | .pwrwarnAssert _ => none
  | .pwrwarnRelease _ => none
  | .currentLimitEngage _ => none
  | .currentLimitRelease _ => none
  | .currentLimitDrop _ => none
  | .sysrstAssert => none
  | .sysrstRelease => none
  | .sysResetDelayExpiry => none
  | .bootRomRun _ => none
  | .pcieReset => none
  | .watchdogExpiry => none
  | .frelvoMemoryUe => none
  | .frelvoRestartReady => none
  | .wakeMgpMatch _ => none
  | .wakePin => none
  | .queuedDoldrumsEntry => none
  | .squallDroop _ _ => none
  | .squallRestore => none
  | .thermalSample _ _ _ _ _ => none
  | .throttleHoldExpiry => none
  | .hwThermalShutdown => none
  | .thermalRestart => none
  | .boostWindowSpent => none
  | .seamFlitRetry _ _ => none
  | .seamWindowEnd _ => none
  | .cmdSysInfo e => some (formSysInfo, e)
  | .cmdSysReset e => some (formSysReset, e)
  | .cmdParamSet e => some (formParamSet, e)
  | .cmdParamGet e => some (formParamGet, e)
  | .cmdPowerState e _ => some (formPowerState, e)
  | .cmdDomainSet e => some (formDomainSet, e.toCmdEntry)
  | .cmdPowerStatus e => some (formPowerStatus, e)
  | .cmdCarrierSet e => some (formCarrierSet, e)
  | .cmdCarrierRecover e _ => some (formCarrierRecover, e)
  | .cmdTxEnable e => some (formTxEnable, e)
  | .txFramerStart _ => none
  | .txRampEnd _ => none
  | .cmdTxMute e => some (formTxMute, e)
  | .cmdTxCoefLoad e => some (formTxCoefLoad, e)
  | .cmdTxStatus e => some (formTxStatus, e)
  | .cmdCpSpi e _ => some (formCpSpi, e)
  | .txokLow _ => none
  | .txokHigh _ => none
  | .interlockAutoClear _ => none
  | .presHigh _ => none
  | .txClockUnlock _ => none
  | .txClockRelock _ => none
  | .txClipWindow _ _ _ => none
  | .pilotSeedReload _ => none
  | .txXfadeEnd _ _ => none
  | .cmdCdReach e => some (formCdReach, e)
  | .cmdLastStatus e => some (formLastStatus, e)
  | .rxLosDeclare _ => none
  | .rxLosClear _ => none
  | .adcClipWindow _ _ _ => none
  | .lastLoadEnd _ => none
  | .shadowSwitch _ => none
  | .lastReallocate _ => none
  | .cdSearchEnd _ _ => none
  | .cdTrimUpdate _ _ => none
  | .cmdRxStatus e => some (formRxStatus, e)
  | .cmdRxReacquire e => some (formRxReacquire, e)
  | .cmdRxNlcLoad e => some (formRxNlcLoad, e)
  | .acqStart _ => none
  | .candidateLoadEnd _ => none
  | .coarseEnd _ _ _ => none
  | .preconvergeEnd _ => none
  | .pilotSyncEnd _ => none
  | .rxLock _ => none
  | .acqStateTimeout _ => none
  | .acqWaitEnd _ => none
  | .lossOfLock _ _ => none
  | .pilotSeedRepeat _ _ => none
  | .cycleSlip _ => none
  | .cycleSlipWindow _ _ => none
  | .qualityWindow _ _ => none
  | .nlcTrainStart _ => none
  | .nlcTrainEnd _ _ _ _ => none
  | .nlcXfadeEnd _ => none
  | .cmdCalRun e _ => some (formCalRun, e)
  | .cmdCalStatus e => some (formCalStatus, e)
  | .calRoundTrigger _ => none
  | .calFsChangeTrigger _ => none
  | .calRoundEnd _ _ => none
  | .calApplyEnd _ => none
  | .dacInitCalEnd _ _ => none
  | .cmdFecStatus e => some (formFecStatus, e)
  | .cmdFecInject e => some (formFecInject, e)
  | .fecInjectTick _ => none
  | .fecInjectEnd _ => none
  | .fecBlockLock _ => none
  | .fecLossOfBlockLock _ _ => none
  | .fecDegWindow _ _ => none
  | .fecUncorrBlock _ => none
  | .cmdBundleCreate e => some (formBundleCreate, e)
  | .cmdBundleDelete e => some (formBundleDelete, e)
  | .cmdBundleEnable e => some (formBundleEnable, e)
  | .bundleBoundaryApply _ => none
  | .bundleDrainEnd _ _ => none
  | .cmdFrmStatus e => some (formFrmStatus, e)
  | .cmdChanStatus e => some (formChanStatus, e)
  | .cmdFrmTti e => some (formFrmTti, e)
  | .inFrameDeclare _ => none
  | .falseCandidate _ => none
  | .lofDeclare _ => none
  | .mfAlign _ _ => none
  | .oomDeclare _ => none
  | .lomDeclare _ => none
  | .ttiAccept _ _ => none
  | .sbdiRxChange _ _ => none
  | .pathDefectChange _ _ => none
  | .consequentActionEnd _ => none
  | .rsFieldsAccept _ _ => none
  | .rsCountdownTick _ => none
  | .cmdRateStep e _ => some (formRateStep, e)
  | .cmdRateStatus e => some (formRateStatus, e)
  | .cmdRateElastic e => some (formRateElastic, e)
  | .rsReqRx _ _ => none
  | .rsAckRx _ => none
  | .rsNakRx _ => none
  | .rsCommitRx _ => none
  | .rsAbortRx _ => none
  | .rsAckTimeout _ => none
  | .rsThrottleDone _ => none
  | .rsThrottleTimeout _ => none
  | .rsTxSwitch _ => none
  | .rsRxSwitch _ => none
  | .rsSplitTimeout _ => none
  | .ratePolicyDecision _ => none
  | .cmdProtCreate e => some (formProtCreate, e)
  | .cmdProtDelete e => some (formProtDelete, e)
  | .cmdProtArm e => some (formProtArm, e)
  | .cmdProtSwitch e => some (formProtSwitch, e)
  | .cmdProtStatus e => some (formProtStatus, e)
  | .protAlign _ _ _ _ => none
  | .protHoldoffExpiry _ _ _ => none
  | .protWtrExpiry _ => none
  | .protLegReturn _ _ _ _ _ _ => none
  | .cmdEthPortCreate e => some (formEthCreate, e)
  | .cmdEthPortDelete e => some (formEthDelete, e)
  | .cmdEthPortEnable e => some (formEthEnable, e)
  | .cmdEthPortStatus e => some (formEthStatus, e)
  | .cmdLaneStatus e => some (formLaneStatus, e)
  | .cmdLaneTest e => some (formLaneTest, e)
  | .laneLosChange _ _ => none
  | .laneCdrLock _ => none
  | .laneAdaptEnd _ => none
  | .laneFomWindow _ _ => none
  | .ethPortStateChange _ _ _ _ => none
  | .ethFrameRx _ _ _ => none
  | .ethFrameTx _ _ _ => none
  | .gfpLossOfDelineation _ => none
  | .csfFrameTimer _ => none
  | .csfFrameRx _ _ => none
  | .clientFaultRx _ _ => none
  | .prbsCheckerLock _ _ => none
  | .prbsCheckerLoss _ => none
  | .srefLoss _ => none
  | .srefReturn _ => none
  | .cmdStitchPortCreate e => some (formStitchCreate, e)
  | .cmdStitchPortDelete e => some (formStitchDelete, e)
  | .cmdStitchPortEnable e => some (formStitchEnable, e)
  | .cmdStitchFlow e => some (formStitchFlow, e)
  | .cmdStitchStatus e => some (formStitchStatus, e)
  | .stitchLanesLocked _ => none
  | .stitchTrainingCwRx _ _ _ => none
  | .stitchTuneDone _ _ => none
  | .stitchPeerReady _ => none
  | .stitchAlignDone _ => none
  | .stitchCodewordLockLoss _ _ => none
  | .stitchCellRx _ _ _ => none
  | .stitchCellTx _ _ _ _ => none
  | .stitchSyncTimer _ _ => none
  | .stitchProbeTimer _ => none
  | .stitchRetrainTimer _ => none
  | .cmdKeyLoad e => some (formKeyLoad, e)
  | .cmdKeyActivate e => some (formKeyActivate, e)
  | .cmdKeyErase e => some (formKeyErase, e)
  | .cmdKeyStatus e => some (formKeyStatus, e)
  | .cmdKekLoad e => some (formKekLoad, e)
  | .cmdCryptoJob e => some (formCryptoJob, e)
  | .cmdCryptoCancel e => some (formCryptoCancel, e)
  | .keyNearLimitReached _ _ => none
  | .keyLimitExpiry _ _ => none
  | .multiframeAuthCheck _ _ => none
  | .cryptoJobStart => none
  | .cryptoJobEnd _ => none
  | .keySlotUe _ _ => none
  | .cmdEngLoad e => some (formEngLoad, e)
  | .cmdEngStart e => some (formEngStart, e)
  | .cmdEngStop e => some (formEngStop, e)
  | .cmdEngUnload e => some (formEngUnload, e)
  | .cmdEngMsg e => some (formEngMsg, e)
  | .cmdEngStatus e => some (formEngStatus, e)
  | .cmdEngArray e => some (formEngArray, e)
  | .engProgramFault _ _ _ => none
  | .engTileEndStop _ => none
  | .sysRunPlace => none
  | .sysRunWaitExpiry _ => none
  | .symbolCaptureRequest _ _ => none
  | .symbolCaptureEnd _ => none
  | .engTxTableCommit _ _ _ _ => none
  | .engCounterRead _ _ => none
  | .engUserRaise _ _ => none
  | .cmdTimRefCfg e => some (formTimRefCfg, e)
  | .cmdTimRefQl e => some (formTimRefQl, e)
  | .cmdTimSelect e => some (formTimSelect, e)
  | .cmdTimPhaseStep e => some (formTimPhaseStep, e)
  | .cmdTimOutCfg e => some (formTimOutCfg, e)
  | .cmdTimStatus e => some (formTimStatus, e)
  | .refActivityLoss _ => none
  | .refActivityReturn _ => none
  | .refFreqMeasure _ => none
  | .refWtrExpiry _ => none
  | .dpllLock => none
  | .holdoverExpiry => none
  | .ppsinEdge _ _ _ _ => none
  | .ppsinLoss _ => none
  | .xoFail _ _ => none
  | .cmdSenseCoefLoad e => some (formSenseCoefLoad, e)
  | .cmdSenseStatus e => some (formSenseStatus, e)
  | .telemetryRecord _ _ _ _ => none
  | .senseXfadeEnd _ => none
  | .frontWindow _ _ _ _ _ => none
  | .frontClearHold _ _ => none
  | .cmdHkCfg e => some (formHkCfg, e)
  | .cmdHkRead e => some (formHkRead, e)
  | .cmdHkCal e _ => some (formHkCal, e)
  | .hkWarmupEnd _ => none
  | .hkConversion _ _ _ => none
  | .hkSelfcheck _ _ _ => none
  | .cmdBrzTxEnable e => some (formBrzTxEnable, e)
  | .cmdBrzSend e => some (formBrzSend, e)
  | .cmdBrzRecv e => some (formBrzRecv, e)
  | .cmdBrzStatus e => some (formBrzStatus, e)
  | .brzRampEnd _ => none
  | .brzPacketTxStart _ => none
  | .brzPacketTxEnd _ => none
  | .brzPreambleDetect _ _ _ => none
  | .brzSyncFound _ _ => none
  | .brzSyncTimeout _ _ => none
  | .brzPacketRxEnd _ _ _ _ _ => none
  | .cmdCntRead e => some (formCntRead, e)
  | .cmdCntSelect e => some (formCntSelect, e)
  | .cmdCntClear e => some (formCntClear, e)
  | .snapRunWrite _ _ => none
  | .snapDmaEnWrite _ _ => none
  | .snapTrigWrite _ _ => none
  | .snapshotStrobe => none
  | .snapshotDumpEnd _ => none
  | .cmdSecStatus e => some (formSecStatus, e)
  | .cmdFwStage e _ => some (formFwStage, e)
  | .cmdFwActivate e => some (formFwActivate, e)
  | .activationReady => none
  | .activationFallback => none
  | .cmdSecAttest e => some (formSecAttest, e)
  | .cmdSecSvnCommit e _ => some (formSvnCommit, e)
  | .cmdSecEnroll e _ => some (formSecEnroll, e)
  | .cmdSecRead e => some (formSecRead, e)
  | .cmdMemStatus e => some (formMemStatus, e)
  | .cmdMemRetire e => some (formMemRetire, e)
  | .cmdMemBist e _ => some (formMemBist, e)
  | .dramCorrectableError _ _ _ _ _ => none
  | .dramUncorrectableError _ _ _ _ _ => none
  | .cfgParityError _ _ _ _ _ _ => none
  | .dataParityError _ _ _ _ _ => none
  | .scrubPassEnd _ => none
  | .restripeEnd => none
  | .bufRingOverflow _ _ => none
  | .unknownOpcode _ _ => none
  | .laneCdrLockLoss _ => none
  | .csfHoldExpiry _ _ => none
  | .gfpDelineationGain _ => none
  | .boostWindowFree => none
  | .holdoverHistoryReady => none
  | .missedSwitchRetry _ => none
  | .bar2HostWrite _ _ => none

/-- A mailbox command runs (R46 to R48, R51, R510): the mailbox answers, the entry is or can be consumed, no rule of order holds it back, and its entry
passes every check made before its own rule. `s1` is the state with the entry consumed. -/
def Runs (f : CmdForm) (e : CmdEntry) (s s1 : State) : Prop :=
  s.dev.deaf = false ∧ s.consumed f.op (canonEntry e) = some s1 ∧
    admission s1.io.mbxState f (canonEntry e) (earlier f.op (canonEntry e) s1.io.inflight) = .run

/-- A command is refused before its own rule is asked: it completes at once with this status and DETAIL (R47, R51, R510). -/
def TurnedAway (f : CmdForm) (e : CmdEntry) (s s1 : State) (st : Status) (detail : Nat) : Prop :=
  s.dev.deaf = false ∧ s.consumed f.op (canonEntry e) = some s1 ∧
    admission s1.io.mbxState f (canonEntry e) (earlier f.op (canonEntry e) s1.io.inflight) = .complete st detail

/-- A command is held back by an earlier one (R48). -/
def HeldBack (f : CmdForm) (e : CmdEntry) (s s1 : State) : Prop :=
  s.dev.deaf = false ∧ s.consumed f.op (canonEntry e) = some s1 ∧ s1.io.mbxState = .ready ∧
    heldBack f.op (canonEntry e) f.alone (earlier f.op (canonEntry e) s1.io.inflight) = true

/-- The state once a command that has run completes with E_OK, `result`, and the device at `d`. -/
def State.completes (s1 : State) (f : CmdForm) (e : CmdEntry) (result : List Byte) (d : Dev) : State :=
  s1.answer f.op (canonEntry e) (.done result d)

/-- The state once a command has started an action, the device at `d`, that a later event ends within `bound` ns. -/
def State.starts (s1 : State) (f : CmdForm) (e : CmdEntry) (bound : Nat) (d : Dev) : State :=
  s1.answer f.op (canonEntry e) (.start bound d)

/-- The state once a command ends with another status than E_OK, the effects the spec states for that end carried out: the device at `d`. -/
def State.fails (s1 : State) (f : CmdForm) (e : CmdEntry) (st : Status) (detail : Nat) (d : Dev) : State :=
  s1.answer f.op (canonEntry e) (.fail st detail d)

/-- The state once a command is refused: nothing of the device has changed (R16). -/
def State.refuses (s1 : State) (f : CmdForm) (e : CmdEntry) (st : Status) (detail : Nat) : State :=
  s1.answer f.op (canonEntry e) (.refuse st detail)

end Sys2Proof.Machine
end

