-- ==== Sys2Proof/Certificates/Slice0/Obligations.lean ====
section
/-! DEFINITION. Certificates/Slice0/Obligations.lean: the statements about the block, for the provers. -/

open Sys2Proof Sys2Proof.Machine

/-! ### One step -/

/-- One step takes the command at the front of the queue and runs it on the state with the queue's rest. -/
def Obligations.StepRunsFront : Prop :=
  ∀ (s : State) (c : Instr) (cs : List Instr), s.pending = c :: cs → step s = exec c { s with pending := cs }

/-- With no command waiting a step lets 1 ns pass (the model's choice, log entry 2): time alone where nothing answers; in Doldrums the contents of
the memories go (R76), until a low WAKE# noted in steps 2 and 3 wakes the device at the end of step 3 (R75, R77). -/
def Obligations.IdleStep : Prop :=
  ∀ s : State, s.pending = [] → ∃ t, step s = .next t ∧
    (s.dev.pw.state = .doldrums → s.dev.pw.wakeNoted = false ∨ s.now + 1 < s.dev.pw.armedAt →
      t = { s with now := s.now + 1, io := .reset, par := [], mem := [] }) ∧
    (s.dev.pw.state = .doldrums → s.dev.pw.wakeNoted = true → s.dev.pw.armedAt ≤ s.now + 1 →
      State.ResetTo s t 0x04 ∧ t.now = s.now + 1 ∧ t.dev.boot.wakeCause = 2 ∧ t.dev.pw.state = .calm) ∧
    (s.dev.pw.state ≠ .doldrums → s.dev.deaf = true → t = { s with now := s.now + 1 }) ∧
    (s.dev.deaf = false → t.now = s.now + 1 ∧ t.pending = [])

/-! ### Invariants -/

/-- Every step keeps, together: the memories' canonical form; at most 1,024 events in the FIFO and in the record kept while ACTIVATING (R55, R509);
MARK_HIT latched wherever its condition holds (R58); commands in progress and completions unread at 64 or fewer, so that no completion is ever
lost (R46); every stored parameter in its range (R486). -/
def Obligations.InvariantsKept : Prop :=
  ∀ s t : State, step s = .next t → s.memOk → s.io.fifoOk → s.io.markOk → s.io.roomOk → s.paramsOk →
    t.memOk ∧ t.io.fifoOk ∧ t.io.markOk ∧ t.io.roomOk ∧ t.paramsOk

/-- R41, R45: every step leaves at most 64 entries between CMD_HEAD and CMD_TAIL. -/
def Obligations.CommandRingBounded : Prop := ∀ s t : State, step s = .next t → s.io.ringOk → t.io.ringOk

/-- The reset state meets every invariant. -/
def Obligations.ResetMeetsInvariants : Prop :=
  State.reset.memOk ∧ State.reset.io.fifoOk ∧ State.reset.io.markOk ∧ State.reset.io.roomOk ∧ State.reset.io.ringOk ∧ State.reset.paramsOk

/-- The block never stops: from every state every command answers a next state. -/
def Obligations.NeverStops : Prop := ∀ (i : Instr) (s : State), ∃ t, exec i s = .next t

/-! ### Frames -/

/-- Every row leaves the rest of the queue; and the time base but for a loss of supply and what ends it (R83). -/
def Obligations.TimeAndQueueKept : Prop :=
  ∀ (i : Instr) (s t : State), exec i s = .next t → t.pending = s.pending ∧ (kindOf i ≠ .supply → t.now = s.now)

/-- No event of the device and no mailbox command changes a register that is the host's (R44, R55, R59, R63, R465). -/
def Obligations.HostRegistersKept : Prop :=
  ∀ (i : Instr) (s t : State), exec i s = .next t → kindOf i = .event ∨ kindOf i = .command → Io.HostSame s.io t.io

/-- What carrying out a change of the device leaves unchanged, by the requests the device then makes: time, queue and the host's registers; every byte of
DRAM outside the stored ones; parameters; completion ring and commands in progress; the event FIFO; and nothing of the device but what has changed. -/
def Obligations.CommitFrame : Prop :=
  ∀ (s : State) (d : Dev), let d1 := d.follow s.env; let t := s.commit d
    t.now = s.now ∧ t.pending = s.pending ∧ Io.HostSame s.io t.io ∧
    ((∀ x ∈ d1.out, x.storing = false) → t.mem = s.mem) ∧
    (s.mem.wf = true → (∀ x ∈ d1.out, x.storing = true → ∃ p bs, x = .dram p bs) →
      ∀ a, (∀ p bs, .dram p bs ∈ d1.out → a < p ∨ p + bs.length ≤ a) → t.mem.read a = s.mem.read a) ∧
    ((∀ x ∈ d1.out, x.setting = false) → t.par = s.par) ∧
    ((∀ x ∈ d1.out, x.finishing = false) → t.io.cplRing = s.io.cplRing ∧ t.io.cplTail = s.io.cplTail ∧ t.io.inflight = s.io.inflight) ∧
    ((∀ x ∈ d1.out, x.entering = false) → t.io.evts = s.io.evts ∧ t.io.evtSeq = s.io.evtSeq ∧ t.io.held = s.io.held ∧ t.io.mbxState = s.io.mbxState) ∧
    ((∀ x ∈ d1.out, x.finishing = true → x.storing = false) → t.dev = { d1 with out := [] })

/-- A command that is refused changes neither device, parameters, DRAM nor the event FIFO: it leaves the commands in progress, and one completion is written
(R16, R43). -/
def Obligations.RefusalFrame : Prop :=
  ∀ (s1 : State) (f : CmdForm) (e : CmdEntry) (st : Status) (detail : Nat), st ≠ .internal →
    s1.io.inflight.any (isWaiting f.op (canonEntry e)) = true → let t := s1.refuses f e st detail
    t.dev = s1.dev ∧ t.par = s1.par ∧ t.mem = s1.mem ∧ t.now = s1.now ∧ t.pending = s1.pending ∧ Io.HostSame s1.io t.io ∧
    t.io.evts = s1.io.evts ∧ t.io.mbxState = s1.io.mbxState ∧ t.io.cplTail = s1.io.cplTail + 1 ∧ t.io.inflight.length + 1 = s1.io.inflight.length ∧
    (s1.io.cplRing.wf = true → ∀ a, (a < 0x5000 + 64 * (s1.io.cplTail.toNat % 64) ∨ 0x5000 + 64 * (s1.io.cplTail.toNat % 64) + 64 ≤ a) →
      t.io.cplRing.read a = s1.io.cplRing.read a)

/-! ### The mailbox -/

/-- R44, R45: the doorbell and the freeing of completion slots, from an interface that MBX_PORT lets through. -/
def Obligations.RingPointers : Prop :=
  ∀ (s : State) (via : Via) (v : Word), s.dev.deaf = false → s.io.excludes via = false →
    (((v.setWidth 7 : RingPtr) - s.io.cmdHead).toNat ≤ 64 →
      exec (.cmdTailWrite via v) s = .next { s with io := { s.io with cmdTail := v.setWidth 7 } }) ∧
    (64 < ((v.setWidth 7 : RingPtr) - s.io.cmdHead).toNat →
      exec (.cmdTailWrite via v) s = .next { s with io := { s.io with mbxErr := s.io.mbxErr ||| 1 }.raiseInt intMbxErr }) ∧
    (((v.setWidth 7 : RingPtr) - s.io.cplHead).toNat ≤ s.io.unread →
      exec (.cplHeadWrite via v) s = .next { s with io := { s.io with cplHead := v.setWidth 7 } }) ∧
    (s.io.unread < ((v.setWidth 7 : RingPtr) - s.io.cplHead).toNat →
      exec (.cplHeadWrite via v) s = .next { s with io := { s.io with mbxErr := s.io.mbxErr ||| 2 }.raiseInt intMbxErr })

/-- R65: a write that MBX_PORT shuts out is dropped and sets PORT_DROP, whichever register it meant; MBX_PORT itself takes 0 to 2 while it is 0, and once it is
not, only from the permitted interface with both rings empty. -/
def Obligations.PortExclusion : Prop :=
  ∀ (s : State) (via : Via) (v : Word), s.dev.deaf = false →
    (s.io.excludes via = true → ∀ off : BitVec 20, off.toNat % 4 = 0 → restricted off.toNat = true →
      exec (.registerWrite via off v) s = exec (.portDropWrite via off v) s ∧
      exec (.portDropWrite via off v) s = .next { s with io := { s.io with mbxErr := s.io.mbxErr ||| 4 }.raiseInt intMbxErr }) ∧
    (s.io.mbxPort = 0 → (v.setWidth 2 : BitVec 2) ≠ 3 → exec (.mbxPortWrite via v) s = .next { s with io := { s.io with mbxPort := v.setWidth 2 } }) ∧
    (s.io.mbxPort ≠ 0 → s.io.excludes via = false → s.io.cmdHead = s.io.cmdTail → s.io.cplHead = s.io.cplTail → (v.setWidth 2 : BitVec 2) ≠ 3 →
      exec (.mbxPortWrite via v) s = .next { s with io := { s.io with mbxPort := v.setWidth 2 } }) ∧
    ((v.setWidth 2 : BitVec 2) = 3 ∨ (s.io.mbxPort ≠ 0 ∧ (s.io.excludes via = true ∨ s.io.cmdHead ≠ s.io.cmdTail ∨ s.io.cplHead ≠ s.io.cplTail)) →
      exec (.mbxPortWrite via v) s = .next { s with io := { s.io with mbxErr := s.io.mbxErr ||| 4 }.raiseInt intMbxErr })

/-- R46, R51: a waiting entry is consumed into the commands in progress while READY; while BOOTING, ACTIVATING or FAULT the responder consumes it and
completes it at once; neither happens with 64 commands outstanding. -/
def Obligations.Consumption : Prop :=
  ∀ (s : State) (op : Nat) (e : CmdEntry), s.dev.deaf = false → s.io.cmdHead ≠ s.io.cmdTail → s.io.headEntry = (op, e) →
    (s.io.mbxState = .ready → s.io.outstanding < 64 →
      exec .commandConsume s = .next { s with io := { s.io with
        cmdHead := s.io.cmdHead + 1, inflight := s.io.inflight ++ [⟨op, e, s.now, false, 0, false⟩] } }) ∧
    (s.io.mbxState = .activating → s.io.outstanding < 64 →
      exec .responderComplete s = .next { s with io := { s.io with cmdHead := s.io.cmdHead + 1 }.complete s.par s.now op e s.now .busy 1 [] }) ∧
    (s.io.mbxState = .booting ∨ s.io.mbxState = .fault → s.io.outstanding < 64 →
      exec .responderComplete s = .next { s with io := { s.io with cmdHead := s.io.cmdHead + 1 }.complete s.par s.now op e s.now .state 0 [] }) ∧
    (64 ≤ s.io.outstanding → exec .commandConsume s = .next s ∧ exec .responderComplete s = .next s)

/-- R43: a completion entry holds, in the slot CPL_TAIL names, TAG, OPCODE, STATUS, PHASE, DETAIL, EXEC_TIME and RESULT; the ring's other slots stay. -/
def Obligations.CompletionEntry : Prop :=
  ∀ (io : Io) (par : Params) (now op : Nat) (e : CmdEntry) (at_ : Nat) (st : Status) (detail : Nat) (r : List Byte),
    io.cplRing.wf = true → op < 2 ^ 16 → detail < 2 ^ 16 →
    let base := 0x5000 + 64 * (io.cplTail.toNat % 64)
    let t := io.complete par now op e at_ st detail r
    t.cplTail = io.cplTail + 1 ∧
    fieldAt (t.cplRing.readAll base 64) 0 2 = e.tag.toNat ∧ fieldAt (t.cplRing.readAll base 64) 2 2 = op ∧
    fieldAt (t.cplRing.readAll base 64) 4 1 = st.code ∧
    fieldAt (t.cplRing.readAll base 64) 5 1 = (if io.cplTail.toNat < 64 then 1 else 0) ∧
    fieldAt (t.cplRing.readAll base 64) 6 2 = detail ∧
    fieldAt (t.cplRing.readAll base 64) 8 4 = min (2 ^ 32 - 1) ((now - at_) / 1000) ∧
    (∀ k, k < 52 → t.cplRing.read (base + 12 + k) = ((r[k]?).getD 0)) ∧
    (∀ a, (a < base ∨ base + 64 ≤ a) → t.cplRing.read a = io.cplRing.read a)

/-- R55 to R58: EVT_MARK, EVT_STATUS, MARK_HIT and EVT_POP, from an interface that MBX_PORT lets through. -/
def Obligations.EventRegisters : Prop :=
  ∀ (s : State) (via : Via) (v : Word), s.dev.deaf = false → s.io.excludes via = false →
    (exec (.evtMarkWrite via v) s = .next { s with io := Io.reMark s.io { s.io with
      evtMark := if 1024 < v.toNat % 2048 then 1024 else BitVec.ofNat 11 (v.toNat % 2048) } }) ∧
    (v.toNat % 8 = 2 → s.io.runMode = false → exec (.evtRunWrite via v) s = .next { s with io := Io.reMark s.io { s.io with runMode := true } }) ∧
    (v.toNat % 8 = 0 → exec (.evtRunWrite via v) s = .next s) ∧
    (s.io.markHit = true → s.io.markCond = false → exec (.markHitClear via) s = .next { s with io := { s.io with markHit := false } }) ∧
    (s.io.markHit = true → s.io.markCond = true → exec (.markHitClear via) s = .next { s with io := s.io.raiseInt intEvtMark }) ∧
    (v.toNat % 2 = 1 → exec (.evtPopWrite via v) s = .next { s with io := { s.io with evts := s.io.evts.drop 1 }.overflowEntry s.now }) ∧
    (v.toNat % 2 = 0 → exec (.evtPopWrite via v) s = .next s)

/-- R59, R62, R265, R345, R465: INT_ENABLE, messages, accesses that fault, and writes to DRAM. A faulting read answers 0xD0FF_D0FF, a faulting write is dropped; the
first fault since ACCESS_FAULT was cleared leaves its offset and direction. A read of the key-slot memory answers 0 and is no fault, whatever its domain's state. -/
def Obligations.AccessRows : Prop :=
  ∀ (s : State) (via : Via), s.dev.deaf = false →
    (∀ v : Word, s.io.excludes via = false → exec (.intEnableWrite via v) s = .next { s with io := { s.io with
      intEnable := v.setWidth 16,
      msgDue := s.io.msgDue ++ (List.range 16).filter fun k => v.getLsbD k && s.io.intStatus.getLsbD k } }) ∧
    (∀ src : Fin 12, s.io.msgDue.contains src.val = true →
      exec (.msixMessageSend src false) s = .next { s with io := { s.io with
        msgDue := s.io.msgDue.erase src, lastMsg := some (s.io.vec src).toNat, msixPending := s.io.msixPending.erase (s.io.vec src).toNat } } ∧
      (s.io.msixPending.contains (s.io.vec src).toNat = false → exec (.msixMessageSend src true) s = .next { s with io := { s.io with
        msgDue := s.io.msgDue.erase src, msixPending := s.io.msixPending ++ [(s.io.vec src).toNat] } })) ∧
    (∀ src : Fin 12, s.io.msgDue.contains src.val = false → s.io.msixPending.contains (s.io.vec src).toNat = true →
      exec (.msixMessageSend src false) s = .next { s with io := { s.io with
        lastMsg := some (s.io.vec src).toNat, msixPending := s.io.msixPending.erase (s.io.vec src).toNat } }) ∧
    (∀ off : BitVec 20, debugRegion off.toNat = some (some domCrypto) → ∃ t, exec (.debugWindowFaultAccess via off false) s = .next t ∧ t.dev = s.dev ∧ t.mem = s.mem ∧
      (keySlotWord off.toNat = true → t.io = { s.io with lastRead := leBytes 4 0 })) ∧
    (∀ (off : BitVec 20) (wr : Bool), s.debugFaults off.toNat = true → wr = true ∨ keySlotWord off.toNat = false → s.io.intStatus &&& bit16 intAccessFault = 0 →
      ∃ t, exec (.debugWindowFaultAccess via off wr) s = .next t ∧ t.io.accessFaultAddr.toNat = off.toNat + 2 ^ 31 * b2n wr ∧
        t.io.intStatus = s.io.intStatus ||| bit16 intAccessFault ∧ t.dev = s.dev ∧ t.mem = s.mem ∧ t.par = s.par ∧
        (wr = false → leNat t.io.lastRead = 0xD0FFD0FF) ∧ (wr = true → t.io.lastRead = s.io.lastRead)) ∧
    (∀ (off : BitVec 30) (stack : Fin 2) (wr : Bool), s.dev.domOn (domStack stack) = false →
      ∃ t, exec (.bar2OffStackAccess off stack wr) s = .next t ∧ t.io.intStatus &&& bit16 intAccessFault ≠ 0 ∧ t.mem = s.mem ∧ t.par = s.par ∧
        (wr = false → leNat t.io.lastRead = 0xD0FFD0FF) ∧ (wr = true → t.io.lastRead = s.io.lastRead)) ∧
    (∀ (off : BitVec 30) (data : List Byte), s.dev.inService = true → s.dev.anyStack = true → off.toNat + data.length ≤ 2 ^ 30 → s.mem.wf = true →
      ∃ t, exec (.bar2HostWrite off data) s = .next t ∧ t.io = s.io ∧ t.dev = s.dev ∧ t.par = s.par ∧
        (∀ k, k < data.length → t.mem.read (off.toNat + k) = (data[k]?).getD 0) ∧
        (∀ a, (a < off.toNat ∨ off.toNat + data.length ≤ a) → t.mem.read a = s.mem.read a))

/-- REGISTER_WRITE at the offset of a register is that register's own command (R44, R55, R59, R465), and a write to an offset of no register changes
nothing (R39). -/
def Obligations.RegisterMap : Prop :=
  ∀ (s : State) (via : Via) (v : Word),
    exec (.registerWrite via 0x6000 v) s = exec (.cmdTailWrite via v) s ∧
    exec (.registerWrite via 0x6008 v) s = exec (.cplHeadWrite via v) s ∧
    exec (.registerWrite via 0x6014 v) s = exec (.mbxPortWrite via v) s ∧
    exec (.registerWrite via 0x7024 v) s = exec (.evtMarkWrite via v) s ∧
    exec (.registerWrite via 0x7028 v) s = exec (.evtRunWrite via v) s ∧
    exec (.registerWrite via 0x7028 1) s = exec (.markHitClear via) s ∧
    exec (.registerWrite via 0x7030 v) s = exec (.evtPopWrite via v) s ∧
    exec (.registerWrite via 0x8004 v) s = exec (.intEnableWrite via v) s ∧
    exec (.registerWrite via 0x20000 v) s = exec (.snapRunWrite via v) s ∧
    exec (.snapDmaEnWrite via v) s = exec (.snapRunWrite via v) s ∧
    exec (.snapTrigWrite via v) s = exec (.snapRunWrite via v) s ∧
    (s.dev.deaf = false → s.io.excludes via = false →
      exec (.registerWrite via 0x6018 v) s = .next { s with io := { s.io with mbxErr := s.io.mbxErr &&& ~~~ v.setWidth 3 } } ∧
      exec (.registerWrite via 0x8000 v) s = .next { s with io := { s.io with intStatus := s.io.intStatus &&& ~~~ v.setWidth 16 } } ∧
      exec (.registerWrite via 0x702C v) s = .next { s with io := { s.io with evtDropped := s.io.evtDropped &&& ~~~ v } } ∧
      exec (.registerWrite via 0x9000 v) s = .next s ∧
      (∀ n : Nat, n < 4096 → s.io.cmdRing.wf = true → ∃ t, exec (.registerWrite via (BitVec.ofNat 20 (0x1000 + 4 * n)) v) s = .next t ∧
        leNat (t.io.cmdRing.readAll (0x1000 + 4 * n) 4) = v.toNat ∧
        (∀ a, (a < 0x1000 + 4 * n ∨ 0x1000 + 4 * n + 4 ≤ a) → t.io.cmdRing.read a = s.io.cmdRing.read a) ∧
        t.io.cmdTail = s.io.cmdTail ∧ t.io.inflight = s.io.inflight ∧ t.dev = s.dev ∧ t.mem = s.mem ∧ t.par = s.par))

/-- R63: an MGP transaction of one register writes or reads that register, and leaves the offset pointer after it. -/
def Obligations.MgpTransactions : Prop :=
  ∀ (s : State) (n : Nat), s.dev.deaf = false → n < 2 ^ 18 →
    (∀ data : List Byte, data.length = 4 → ∃ t, exec (.registerWrite .mgp (BitVec.ofNat 20 (4 * n)) (BitVec.ofNat 32 (leNat data))) s = .next t ∧
      exec (.mgpWriteTransaction (BitVec.ofNat 20 (4 * n)) data) s = .next { t with io := { t.io with mgpOffset := BitVec.ofNat 20 (4 * n + 4) } }) ∧
    (∀ data : List Byte, data.length < 4 →
      exec (.mgpWriteTransaction (BitVec.ofNat 20 (4 * n)) data) s = .next { s with io := { s.io with mgpOffset := BitVec.ofNat 20 (4 * n) } }) ∧
    (debugRegion (4 * n) = none →
      exec (.mgpReadTransaction (BitVec.ofNat 20 (4 * n)) 4) s = .next { s with io := { s.io with
        lastRead := leBytes 4 (s.regRead (4 * n)), mgpOffset := BitVec.ofNat 20 (4 * n + 4) } })

/-! ### Supply, resets, power states -/

/-- R68, R74, R75, R77, R83 to R85, R89: what each loss of supply, reset and wake does, in every case: the reset it makes, the RESET_CAUSE bit it sets, the time
base, the state and the pins it leaves; and where nothing is to be done, that the row leaves everything as it is. That a device in the off state without a
thermal shutdown only takes in the level of SYSRST# is log entry 101. -/
def Obligations.ResetRows : Prop :=
  ∀ (s : State) (vin : Nat), let p := s.dev.pw
    (p.state = .off ∧ p.ovShut = false ∧ p.hotShut = false →
      ∃ t, exec (.powerOnReset vin) s = .next t ∧ State.ResetTo s t 0x01 ∧ t.now = 0 ∧ t.dev.pw.state = .calm ∧ t.dev.pw.vin = vin ∧
        t.dev.pw.vinLow = true ∧ t.dev.pw.inReset = p.inReset) ∧
    (p.state ≠ .off ∨ p.ovShut = true ∨ p.hotShut = true → exec (.powerOnReset vin) s = .next s) ∧
    (∃ t, exec (.uvloShutdown vin) s = .next t ∧ State.ResetTo s t 0 ∧ t.now = 0 ∧ t.dev.pw.state = .off ∧ t.dev.pw.ovShut = false ∧
      t.dev.pw.hotShut = false ∧ t.dev.pw.vin = vin ∧ t.dev.pw.vinLow = true) ∧
    (p.state ≠ .off ∨ p.hotShut = true →
      ∃ t, exec (.overvoltageShutdown vin) s = .next t ∧ State.ResetTo s t 0 ∧ t.now = 0 ∧ t.dev.pw.state = .off ∧ t.dev.pw.ovShut = true ∧
        t.dev.pw.vin = vin) ∧
    (p.state = .off ∧ p.hotShut = false → exec (.overvoltageShutdown vin) s = .next s) ∧
    (p.ovShut = true → ∃ t, exec (.overvoltageRestart vin) s = .next t ∧ State.ResetTo s t 0x10 ∧ t.now = 0 ∧ t.dev.pw.state = .calm ∧
      t.dev.pw.ovShut = false ∧ t.dev.pw.vin = vin) ∧
    (p.ovShut = false → exec (.overvoltageRestart vin) s = .next s) ∧
    (p.state ≠ .off →
      ∃ t, exec .sysrstAssert s = .next t ∧ State.ResetTo s t 0x02 ∧ t.now = s.now ∧ t.dev.pw.inReset = true ∧ t.dev.pw.state = .calm) ∧
    (p.state = .off ∧ p.hotShut = true →
      ∃ t, exec .sysrstAssert s = .next t ∧ State.ResetTo s t 0x02 ∧ t.now = s.now ∧ t.dev.pw.inReset = true ∧ t.dev.pw.state = .off ∧
        t.dev.pw.hotShut = true) ∧
    (p.state = .off ∧ p.hotShut = false → exec .sysrstAssert s = .next { s with dev := { s.dev with pw := { p with inReset := true } } }) ∧
    (exec .sysrstRelease s = .next (s.commit { s.dev with pw := { p with inReset := false } })) ∧
    (p.resetDue = true → ∃ t, exec .sysResetDelayExpiry s = .next t ∧ State.ResetTo s t 0x08 ∧ t.now = s.now ∧ t.dev.pw.resetDue = false ∧
      t.dev.pw.state = .calm) ∧
    (p.resetDue = false → exec .sysResetDelayExpiry s = .next s) ∧
    (p.state = .calm ∨ p.state = .service →
      ∃ t, exec .hwThermalShutdown s = .next t ∧ State.ResetTo s t 0 ∧ t.now = s.now ∧ t.dev.pw.state = .off ∧ t.dev.pw.hotShut = true) ∧
    (p.state = .off ∨ p.state = .doldrums → exec .hwThermalShutdown s = .next s) ∧
    (p.hotShut = true → ∃ t, exec .thermalRestart s = .next t ∧ State.ResetTo s t 0x20 ∧ t.now = s.now ∧ t.dev.pw.state = .calm ∧
      t.dev.pw.hotShut = false) ∧
    (p.hotShut = false → exec .thermalRestart s = .next s) ∧
    (p.state = .doldrums ∧ bitAt p.wakeSources 1 = true ∧ p.armedAt ≤ s.now →
      ∃ t, exec .wakePin s = .next t ∧ State.ResetTo s t 0x04 ∧ t.now = s.now ∧ t.dev.boot.wakeCause = 2 ∧ t.dev.pw.state = .calm) ∧
    (p.state = .doldrums ∧ bitAt p.wakeSources 1 = true ∧ s.now < p.armedAt →
      exec .wakePin s = .next { s with dev := { s.dev with pw := { p with wakeNoted := true } } }) ∧
    (p.state ≠ .doldrums ∨ bitAt p.wakeSources 1 = false → exec .wakePin s = .next s) ∧
    (∀ addr : BitVec 7,
      (p.state = .doldrums ∧ bitAt p.wakeSources 0 = true ∧ p.armedAt ≤ s.now ∧ addr.toNat = 0x58 + p.addrStrap.toNat →
        ∃ t, exec (.wakeMgpMatch addr) s = .next t ∧ State.ResetTo s t 0x04 ∧ t.now = s.now ∧ t.dev.boot.wakeCause.toNat = 1 + 256 * addr.toNat ∧
          t.dev.pw.state = .calm) ∧
      (p.state ≠ .doldrums ∨ bitAt p.wakeSources 0 = false ∨ s.now < p.armedAt ∨ addr.toNat ≠ 0x58 + p.addrStrap.toNat →
        exec (.wakeMgpMatch addr) s = .next s)) ∧
    (exec .pcieReset s = .next { s with io := { s.io with msgDue := [], msixPending := [], snap := { s.io.snap with dmaEn := false } } })

/-- R66, R67, R69, R88 to R90, R408: the supply warnings, the current limit, droops, temperatures, boost and the reference oscillator. -/
def Obligations.SupplyEvents : Prop :=
  ∀ (s : State) (vin : Nat), let d := s.dev; let p := s.dev.pw
    (exec (.pwrwarnAssert vin) s = .next (s.commit
      ({ d with pw := { p with vin := vin, vinLow := true } }.raiseIf (!d.pwrWarn && s.env.frelvo && d.rails) .pwrWarn 0 [(4, vin)]))) ∧
    (exec (.pwrwarnRelease vin) s = .next (s.commit { d with pw := { p with vin := vin, vinLow := false } })) ∧
    (d.rails = true → exec (.currentLimitEngage vin) s = .next (s.commit
      ({ d with pw := { p with vin := vin, ilimit := true } }.raiseIf (!d.pwrWarn && s.env.frelvo) .pwrWarn 0 [(4, vin)]))) ∧
    (exec (.currentLimitRelease vin) s = .next (s.commit { d with pw := { p with vin := vin, ilimit := false } })) ∧
    (d.rails = false → exec (.currentLimitEngage vin) s = .next (s.commit { d with pw := { p with vin := vin } })) ∧
    (p.ilimit = true → d.inService = true → ∃ n, n ≤ 150 * ms ∧ ∃ d1 : Dev, d1 = Dev.toCalm { d with pw := { p with vin := vin } } s.env .domainOff ∧
      exec (.currentLimitDrop vin) s = .next (s.commit
        (Dev.raise { d1 with drawn := d1.drawn + 1, pw := { d1.pw with transEnd := s.now + n, changing := d.notOff } } .pwrIlimit 0 [(4, vin)]))) ∧
    (p.ilimit = true → p.state = .calm → exec (.currentLimitDrop vin) s = .next (s.commit
      (Dev.raise { d with pw := { p with vin := vin } } .pwrIlimit 0 [(4, vin)]))) ∧
    (∀ veng vmc : Bool, d.inService = true → (veng || vmc) = true → (∀ x, p.squallAt = some x → s.now < x + sec) → p.squallAt ≠ none →
      exec (.squallDroop veng vmc) s = .next (s.commit
        ((Dev.count { d with pw := { p with squall := true } } (ckey 2 0) (b2n veng)).count (ckey 2 1) (b2n vmc)))) ∧
    (exec .squallRestore s = .next (s.commit { d with pw := { p with squall := false } })) ∧
    (exec .throttleHoldExpiry s = .next (s.commit { d with pw := { p with throttleHeld := p.throttleHeld || p.throttle } })) ∧
    (p.boost = true → p.boostSpent = false → 20000 ≤ p.boostUsed s.now → exec .boostWindowSpent s = .next (s.commit (Dev.raise { d with pw := { p with boostSpent := true } } .boostSpent 0 []))) ∧
    (p.boostUsed s.now < 20000 → exec .boostWindowSpent s = .next (s.commit { d with pw := { p with boostSpent := false } })) ∧
    (p.boostUsed s.now < 20000 → exec .boostWindowFree s = .next (s.commit { d with pw := { p with boostSpent := false } })) ∧
    (∀ ppm : Int, d.inService = true → s.env.frelvo = true → 200 < ppm.natAbs → ∃ n, n ≤ 10 * ms ∧
      ∃ d1 : Dev, d1 = Dev.toCalm (Dev.raise { d with drawn := d.drawn + 1 } .timXoFail 0 [(4, ppm)]) s.env .domainOff ∧
      exec (.xoFail false ppm) s = .next (s.commit { d1 with drawn := d1.drawn + 1, pw := { d1.pw with transEnd := s.now + n, changing := d.notOff } })) ∧
    (∀ ppm : Int, p.state = .calm → s.env.frelvo = true → exec (.xoFail true ppm) s = .next (s.commit
      (Dev.raise { d with drawn := d.drawn + 1 } .timXoFail 0 [(4, (Config.freeValue d.drawn : Int))])))

/-- R89: a temperature sample; throttling from P_THERM_THROTTLE up until 5 °C below it, the trip at 115 °C. -/
def Obligations.ThermalGovernor : Prop :=
  ∀ (s : State) (core cv0 cv1 io : Int) (vin : Nat), s.dev.rails = true → s.env.frelvo = true →
    let d1 : Dev := { s.dev with pw := { s.dev.pw with tjCore := core, tjCv0 := cv0, tjCv1 := cv1, tjIo := io, vin := vin } }
    let tj := max (max core cv0) (max cv1 io)
    let limit := s.par.val pThermThrottle * 10
    (tj < limit → limit - 50 ≤ tj → tj < 1150 → exec (.thermalSample core cv0 cv1 io vin) s = .next (s.commit d1)) ∧
    (s.dev.pw.throttle = false → limit ≤ tj → tj < 1150 → ∃ d2 : Dev, d2.pw = { d1.pw with throttle := true } ∧
      exec (.thermalSample core cv0 cv1 io vin) s = .next (s.commit d2)) ∧
    (s.dev.pw.throttle = true → tj < limit - 50 → tj < 1150 →
      exec (.thermalSample core cv0 cv1 io vin) s = .next (s.commit { d1 with pw := { d1.pw with throttle := false, throttleHeld := false } })) ∧
    (1150 ≤ tj → s.dev.pw.throttle = true → limit - 50 ≤ tj → s.dev.pw.tripped = false → s.dev.inService = false →
      ∃ d2 : Dev, d2.pw.tripped = true ∧ d2.pw.state = s.dev.pw.state ∧ d2.pw.transEnd = s.dev.pw.transEnd ∧ d2.pw.dom = s.dev.pw.dom ∧
        exec (.thermalSample core cv0 cv1 io vin) s = .next (s.commit d2)) ∧
    (1150 ≤ tj → s.dev.pw.throttle = true → limit - 50 ≤ tj → s.dev.pw.tripped = false → s.dev.inService = true →
      ∃ d2 : Dev, d2.pw.tripped = true ∧ d2.pw.state = .calm ∧ d2.pw.dom = [] ∧ d2.pw.transEnd ≤ s.now + 10 * ms ∧ d2.pw.changing = s.dev.notOff ∧
        exec (.thermalSample core cv0 cv1 io vin) s = .next (s.commit d2))

/-- R86, R260: a watchdog expiry and an uncorrectable error in Frelvo's memory restart Frelvo: nothing in FAULT, a failed boot while BOOTING, FAULT at a second
one within 60 s, else ACTIVATING with the commands consumed cut off; FRELVO_RESTART_READY ends it. -/
def Obligations.FrelvoRestarts : Prop :=
  ∀ s : State, s.dev.rails = true → s.dev.pw.inReset = false →
    (s.io.mbxState = .fault → exec .watchdogExpiry s = .next s) ∧
    (s.io.mbxState = .booting → exec .watchdogExpiry s = .next (s.commit
      ({ s.dev with boot := { s.dev.boot with phase := 6, failed := true, failCode := 6 } }.emit (.mbx .fault)))) ∧
    (s.io.mbxState = .ready → s.dev.boot.activating = none → (∀ x, s.dev.boot.expiryAt = some x → x + 60 * sec ≤ s.now) → ∃ d : Dev,
      d.boot.restartCause = 0 ∧ d.boot.expiryAt = some s.now ∧ d.msys.track = [] ∧
      exec .watchdogExpiry s = .next (State.commit { s with io := { s.io with inflight := s.io.inflight.map fun r => { r with cut := true } } }
        (d.emit (.mbx .activating)))) ∧
    (s.io.mbxState = .ready → s.dev.boot.activating = none → (∃ x, s.dev.boot.expiryAt = some x ∧ s.now < x + 60 * sec) →
      exec .watchdogExpiry s = .next ((s.commit (s.dev.emit (.mbx .fault))).completeAll (fun _ => true) .state 0)) ∧
    (∃ (d : Dev) (s1 : State), s1 = s.commit d ∧ d.msys.logSeq = (s.dev.msys.logSeq + 1) % 2 ^ 32 ∧ exec .frelvoMemoryUe s = .next (frelvoDies 1 s1)) ∧
    (s.io.mbxState = .activating → s.dev.boot.activating = none →
      exec .frelvoRestartReady s = .next ((s.completeAll (fun r => r.cut) .busy 2).commit
        ((s.dev.emit (.mbx .ready)).raise .frelvoRestart 0 [(1, s.dev.boot.restartCause)])))

/-- R72, R73, R79, R80, R84, R481, R513: the commands of the system and power families, and the queued entry to Doldrums. `w.cut` and `r.cut` are the
drop, if any, that takes a transition over. -/
def Obligations.PowerCommands : Prop :=
  ∀ (e : CmdEntry) (s s1 : State) (w : PowerEvidence) (r : DomainRun), let d := s.dev; let p := s.dev.pw; let l := domEntries r.toCmdEntry
    (Runs formSysInfo e s s1 → exec (.cmdSysInfo e) s = .next (s1.completes formSysInfo e
      (resultBits [(64, s.now), (32, d.boot.dumpCount), (32, if d.inService && d.anyStack && d.boot.dumpHeld then 0x3F600000 else 0),
        (32, d.boot.dumpLen), (16, d.boot.dumpOpcode), (16, 954), (2, s.io.mbxPort.toNat)]) d)) ∧
    (Runs formSysReset e s s1 → exec (.cmdSysReset e) s = .next (s1.completes formSysReset e [] { d with pw := { p with resetDue := true } })) ∧
    (Runs formPowerState e s s1 → p.queued = false → p.transEnd ≤ s.now →
      (u8 e 0 = 2 → d.inService = true → exec (.cmdPowerState e w) s = .next (s1.completes formPowerState e [] d)) ∧
      (u8 e 0 = 2 → d.inService = false → d.tooHot = false → (p.recorded.get .off 0x30 = .on ∨ p.recorded.get .off 0x31 = .on) →
        (∀ id ∈ w.failed, p.recorded.get .off id ≠ .on) →
        (w.cut = none → exec (.cmdPowerState e w) s = .next (s1.completes formPowerState e [] (d.toService s.env))) ∧
        (∀ vin : Nat, w.cut = some (.limit vin) → p.ilimit = true → p.state = .calm →
          exec (.cmdPowerState e w) s = .next (s1.fails formPowerState e .busy 0
            (Dev.raise { d with pw := { p with vin := vin, transEnd := s.now } } .pwrIlimit 0 [(4, vin)])))) ∧
      (u8 e 0 = 2 → d.inService = false → d.tooHot = true → exec (.cmdPowerState e w) s = .next (s1.refuses formPowerState e .state 0)) ∧
      (u8 e 0 = 1 → d.inService = false → exec (.cmdPowerState e w) s = .next (s1.completes formPowerState e [] d)) ∧
      (u8 e 0 = 1 → d.inService = true → w.cut = none → (∀ n ∈ carriers, (d.tx n).state = .dark) → ∃ d1 : Dev, d1.pw.state = .calm ∧ d1.pw.dom = [] ∧
        exec (.cmdPowerState e w) s = .next (s1.completes formPowerState e [] d1)) ∧
      (u8 e 0 ≠ 2 → d.inService = true → (∃ n ∈ carriers, (d.tx n).state ≠ .dark) → force e = false →
        exec (.cmdPowerState e w) s = .next (s1.refuses formPowerState e .trafficPresent 0)) ∧
      (u8 e 0 = 0 → d.inService = false → s.par.val pWakeSources ≠ 0 → d.tooHot = false →
        exec (.cmdPowerState e w) s = .next (s1.completes formPowerState e [] (d.toDoldrums s.env (s.par.nat pWakeSources)))) ∧
      (u8 e 0 = 0 → d.inService = false → s.par.val pWakeSources = 0 →
        exec (.cmdPowerState e w) s = .next (s1.refuses formPowerState e .badParam pWakeSources))) ∧
    (Runs formPowerState e s s1 → p.queued = false → s.now < p.transEnd → u8 e 0 = 0 →
      exec (.cmdPowerState e w) s = .next (s1.starts formPowerState e (250 * ms) { d with pw := { p with queued := true } })) ∧
    (Runs formPowerState e s s1 → p.queued = true ∨ (s.now < p.transEnd ∧ u8 e 0 ≠ 0) →
      exec (.cmdPowerState e w) s = .next (s1.refuses formPowerState e .busy 0)) ∧
    ((Runs formDomainSet r.toCmdEntry s s1 → domFault r.toCmdEntry = none → p.queued = false → p.transEnd ≤ s.now → d.inService = true → r.cut = none →
        (∀ m ∈ l, m.2 = .on) → stacksIn (recordAll p.dom l) ≠ 0 →
        exec (.cmdDomainSet r) s = .next (s1.completes formDomainSet r.toCmdEntry []
          (Dev.domMoves { d with pw := { p with recorded := recordAll p.recorded l } } s.env true l))) ∧
      (Runs formDomainSet r.toCmdEntry s s1 → domFault r.toCmdEntry = none → p.queued = false → p.transEnd ≤ s.now → d.inService = true →
        force r.toCmdEntry = false → stacksIn (recordAll p.dom l) ≠ 0 → (∃ m ∈ l, m.2 ≠ .on ∧ m.2 ≠ d.domState m.1 ∧ d.depends m.1 = true) →
        exec (.cmdDomainSet r) s = .next (s1.refuses formDomainSet r.toCmdEntry .trafficPresent 0)) ∧
      (Runs formDomainSet r.toCmdEntry s s1 → ∀ k, domFault r.toCmdEntry = some k →
        exec (.cmdDomainSet r) s = .next (s1.refuses formDomainSet r.toCmdEntry .badParam (9 + 2 * k)))) ∧
    (Runs formPowerStatus e s s1 → ∃ res, exec (.cmdPowerStatus e) s = .next (s1.completes formPowerStatus e res d) ∧
      bitsAt (leNat res) 0 2 = (if d.inService then 2 else 1) ∧ bitAt (leNat res) 2 = decide (s.now < p.transEnd) ∧ bitAt (leNat res) 3 = p.queued ∧
      (∀ k id, domIds[k]? = some id → bitsAt (leNat res) (64 + 2 * k) 2 = (if s.now < p.transEnd ∧ id ∈ p.changing then 3 else (d.domState id).code) ∧
        bitsAt (leNat res) (144 + 2 * k) 2 = (p.recorded.get .off id).code)) ∧
    (p.queued = true → p.state = .calm → s.par.val pWakeSources ≠ 0 → d.tooHot = false →
      exec .queuedDoldrumsEntry s = .next (s.commit (Dev.toDoldrums
        (Dev.finish { d with pw := { p with queued := false, transEnd := s.now } } 0x0201 0 .ok 0 []) s.env (s.par.nat pWakeSources)))) ∧
    (p.queued = true → p.state = .calm → s.par.val pWakeSources = 0 →
      exec .queuedDoldrumsEntry s = .next (s.commit
        (Dev.finish { d with pw := { p with queued := false, transEnd := s.now } } 0x0201 0 .badParam pWakeSources [])))

/-- R53, R486: parameters are read and written by identifier, all entries of a write or none; an unknown opcode completes with E_BAD_OPCODE (R14). -/
def Obligations.ParameterCommands : Prop :=
  ∀ (e : CmdEntry) (s s1 : State),
    (Runs formParamSet e s s1 → ∀ xs p, xs = (List.range (u8 e 0)).map (setEntry e) → s.dev.setAll 0 xs s.par = (p, none) →
      exec (.cmdParamSet e) s = .next (State.completes { s1 with par := p } formParamSet e []
        (xs.foldl (fun d x => d.paramApplied { s.env with par := p } s.par x.1) s.dev)) ∧
      (∀ (k : Nat) (x : Nat × Nat × Int), xs[k]? = some x → (∀ j y, k < j → xs[j]? = some y → y.1 ≠ x.1) → p.val x.1 = x.2.2) ∧
      (∀ id, (∀ x ∈ xs, x.1 ≠ id) → p.val id = s.par.val id)) ∧
    (Runs formParamSet e s s1 → ∀ xs p k st, xs = (List.range (u8 e 0)).map (setEntry e) → s.dev.setAll 0 xs s.par = (p, some (k, st)) →
      exec (.cmdParamSet e) s = .next (s1.refuses formParamSet e st (9 + 12 * k))) ∧
    (Runs formParamGet e s s1 → (∀ k, k < u8 e 0 → ∃ sp, paramSpec (u16 e (1 + 2 * k)) = some sp ∧ sp.cls ≠ .measured) →
      exec (.cmdParamGet e) s = .next (s1.completes formParamGet e
        ((List.range (u8 e 0)).flatMap fun k => leBytes 8 (ofSigned 64 (s.par.val (u16 e (1 + 2 * k))))) s.dev)) ∧
    (Runs formParamGet e s s1 → ∀ k, k < u8 e 0 → paramSpec (u16 e (1 + 2 * k)) = none → (∀ j, j < k → paramSpec (u16 e (1 + 2 * j)) ≠ none) →
      exec (.cmdParamGet e) s = .next (s1.refuses formParamGet e .badParam (9 + 2 * k))) ∧
    (∀ op : BitVec 16, knownOpcodes.contains op.toNat = false → Runs (form op.toNat .own []) e s s1 →
      exec (.unknownOpcode op e) s = .next (s1.refuses (form op.toNat .own []) e .badOpcode 0))

/-- R21, R22, R482, R483: the links between the dies. A flit's retransmissions are counted; after 16 failed ones, or three bad 1 ms windows in a row, the link
has failed, and fails again while it serves a carrier that is not held down (log entry 175); CMD_CARRIER_RECOVER lets the carriers go once every failed link passes. -/
def Obligations.SeamRows : Prop :=
  ∀ (s : State) (link : SeamLink), let l := seamNo link; let x := s.dev.seamAt l
    (∀ fails, s.dev.inService = true → s.dev.seamSpent l = false → fails < 16 → ∃ d : Dev,
      exec (.seamFlitRetry link fails) s = .next (s.commit d) ∧ d.counter (ckey 1 l) = (s.dev.counter (ckey 1 l) + fails + 1) % 2 ^ 48 ∧
        (d.seamAt l).window = x.window + fails + 1 ∧ (d.seamAt l).failed = x.failed) ∧
    (∀ fails, s.dev.inService = true → s.dev.seamSpent l = false → 16 ≤ fails → ∃ (d1 : Dev) (n : Nat),
      exec (.seamFlitRetry link fails) s = .next (s.commit (d1.seamFail s.env l n)) ∧
      d1.counter (ckey 1 l) = (s.dev.counter (ckey 1 l) + 16) % 2 ^ 48) ∧
    (∀ fails, s.dev.inService = true → s.dev.seamSpent l = true → exec (.seamFlitRetry link fails) s = .next (s.commit
      (s.dev.count (ckey 1 l) (min 16 (fails + 1))))) ∧
    (s.dev.seamSpent l = false → x.window ≤ 10000 → exec (.seamWindowEnd link) s = .next (s.commit (s.dev.updSeam l fun y => { y with window := 0, badWindows := 0 }))) ∧
    (s.dev.seamSpent l = false → 10000 < x.window → x.badWindows < 2 →
      exec (.seamWindowEnd link) s = .next (s.commit (s.dev.updSeam l fun y => { y with window := 0, badWindows := x.badWindows + 1 }))) ∧
    (s.dev.seamSpent l = false → 10000 < x.window → 2 ≤ x.badWindows → exec (.seamWindowEnd link) s = .next (s.commit (s.dev.seamFail s.env l x.window))) ∧
    (∀ (e : CmdEntry) (s1 : State) (retrains : Bool), Runs formCarrierRecover e s s1 → s.dev.inService = true → (s.dev.carrier (u8 e 0)).heldDown = true →
      s.dev.domOn (u8 e 0) = true →
      (retrains = true → let ls := (seamLinks (u8 e 0)).filter fun l => (s.dev.seamAt l).failed
        exec (.cmdCarrierRecover e retrains) s = .next (s1.completes formCarrierRecover e []
          ((ls.flatMap seamCarriers).foldl (fun d m => d.letGo s.env m) (ls.foldl (fun d l => d.updSeam l fun _ => .reset) s.dev)))) ∧
      (retrains = false → exec (.cmdCarrierRecover e retrains) s = .next (s1.refuses formCarrierRecover e .internal (s.dev.carrier (u8 e 0)).link)))

/-! ### Line transmit -/

/-- R99, R102, R111, R116, R117, R119, R507: what the transmit events do on a carrier: the start of an enable, ramps, mute causes and their clearing, clip
windows, seed reloads of a native carrier (an interop one has no native pilots, R99), cross-fade ends. Entering MUTED sets the state, counts it in TX_MUTES_Cn, and touches no other carrier's transmitter; a disable
clears every cause, an event that makes a carrier DARK keeps HOST and a latched INTERLOCK. -/
def Obligations.TransmitEvents : Prop :=
  (∀ (s : State) (c : Fin 4), let n : Nat := c; let d := s.dev; let x := s.dev.tx n
      (x.state = .starting → x.txok = true → x.causes = 0 → exec (.txFramerStart c) s = .next (s.commit
        (Dev.updTx (Dev.txEpochStart (d.updTx n fun t => t.startPilots s.now) s.env n) n fun t => { t with state := .rampUp }))) ∧
      (x.state = .starting → x.txok = false → x.muteInterlock = false → exec (.txFramerStart c) s = .next (s.commit
        (Dev.enterMuted (Dev.raise (Dev.updTx (Dev.txEpochStart (d.updTx n fun t => t.startPilots s.now) s.env n) n fun t => { t with muteInterlock := true })
          .txInterlock n []) n))) ∧
      (x.state = .rampUp → exec (.txRampEnd c) s = .next (s.commit
        (Dev.finishTx (Dev.raise (d.updTx n fun t => { t with state := .on }) .txOn n []) n .ok))) ∧
      (x.state = .rampDown → x.rampToDark = true → exec (.txRampEnd c) s = .next (s.commit (Dev.finishTx (d.enterDark s.env n) n .ok))) ∧
      (x.state = .rampDown → x.rampToDark = false → exec (.txRampEnd c) s = .next (s.commit (d.enterMuted n))) ∧
      (x.state = .dark → exec (.txokLow c) s = .next (s.commit (d.updTx n fun t => { t with txok := false }))) ∧
      (x.state = .on → x.muteInterlock = false → exec (.txokLow c) s = .next (s.commit
        (Dev.enterMuted (Dev.raise (d.updTx n fun t => { t with txok := false, muteInterlock := true }) .txInterlock n []) n))) ∧
      (exec (.txokHigh c) s = .next (s.commit (d.updTx n fun t => { t with txok := true }))) ∧
      (s.par.on (pTxIlAuto + n) = true → x.txok = true → x.state = .muted → { x with muteInterlock := false }.causes = 0 →
        exec (.interlockAutoClear c) s = .next (s.commit (d.updTx n fun t => { t with muteInterlock := false, state := .rampUp }))) ∧
      (x.state = .dark → exec (.presHigh c) s = .next (s.commit (d.updTx n fun t => { t with present := false }))) ∧
      (x.state = .on → x.mutePresence = false → exec (.presHigh c) s = .next (s.commit
        (Dev.enterMuted (Dev.raise (d.updTx n fun t => { t with present := false, mutePresence := true }) .cpAbsent n []) n))) ∧
      (x.state = .on → exec (.txClockUnlock c) s = .next (s.commit (Dev.enterMuted (d.updTx n fun t => { t with muteClock := true }) n))) ∧
      (x.state = .dark → exec (.txClockUnlock c) s = .next (s.commit d)) ∧
      (x.state = .muted → { x with muteClock := false }.causes = 0 →
        exec (.txClockRelock c) s = .next (s.commit (d.updTx n fun t => { t with muteClock := false, state := .rampUp }))) ∧
      (∀ clipped samples : Nat, 0 < samples → exec (.txClipWindow c clipped samples) s = .next (s.commit
        (Dev.raiseIf (Dev.updTx (d.count (ctrTxClip n) clipped) n fun t => { t with clipPpm := clipped * 1000000 / samples })
          (decide (samples * s.par.nat (pTxClipAlarm + n) < clipped * 1000000)) .txClip n [(4, (clipped * 1000000 / samples : Nat))]))) ∧
      (x.state ≠ .dark → x.state ≠ .starting →
        exec (.pilotSeedReload c) s = .next (s.commit (d.updTx n fun t => t.startPilots s.now))) ∧
      (exec (.txXfadeEnd c .nlc) s = .next (s.commit (d.updTx n fun t => { t with nlc := t.nlc.fadeEnd })) ∧
        exec (.txXfadeEnd c .taps) s = .next (s.commit (d.updTx n fun t => { t with taps := t.taps.fadeEnd })) ∧
        exec (.txXfadeEnd c .cdPre) s = .next (s.commit (d.updTx n fun t => { t with cdPre := t.cdPre.fadeEnd })) ∧
        exec (.txXfadeEnd c .count) s = .next (s.commit (d.updTx n fun t => { t with nlcCount := t.nlcCount.fadeEnd })))) ∧
  (∀ (d : Dev) (env : Env) (n : Nat), let x := d.tx n
      ((d.enterMuted n).tx n = { x with state := .muted } ∧ (d.enterMuted n).counter (ctrTxMutes n) = (d.counter (ctrTxMutes n) + 1) % 2 ^ 48 ∧
        (∀ m, m ≠ n → (d.enterMuted n).tx m = d.tx m)) ∧
      ((d.enterDark env n).tx n = { x with state := .dark, rampToDark := false, muteHost := false, muteInterlock := false, mutePresence := false, muteClock := false } ∧
        ((d.enterDark env n).tx n).causes = 0 ∧ (∀ m, m ≠ n → (d.enterDark env n).tx m = d.tx m)) ∧
      ((d.goDark env n).tx n = { x with state := .dark, rampToDark := false, mutePresence := false, muteClock := false } ∧
        (∀ m, m ≠ n → (d.goDark env n).tx m = d.tx m))) ∧
  (∀ (t : Tx) (now : Nat) (p : OpPoint), t.op = some p →
      (p.profile = 0 → t.startPilots now = { t with pilotState := BitVec.ofNat 15 t.pilotSeed, pilotCount := 0, pilotSince := now }) ∧
      (p.profile ≠ 0 → t.startPilots now = t))


/-- R62, R104, R114, R116 to R119, R484: the transmit commands in the cases written out: their effect, and refusals of an enable. -/
def Obligations.TransmitCommands : Prop :=
  ∀ (e : CmdEntry) (s s1 : State), let n := u8 e 0; let d := s.dev; let x := s.dev.tx n
    (Runs formTxEnable e s s1 → bitAt (u8 e 1) 0 = true → d.inService = true → x.present = true → (d.carrier n).heldDown = false →
      (d.domOn n = false → exec (.cmdTxEnable e) s = .next (s1.refuses formTxEnable e .domainOff 0)) ∧
      (d.domOn n = true → x.op = none → exec (.cmdTxEnable e) s = .next (s1.refuses formTxEnable e .sequence 0)) ∧
      (d.domOn n = true → x.op.isSome = true → d.dacCalDone n = true → x.state ≠ .dark →
        exec (.cmdTxEnable e) s = .next (s1.completes formTxEnable e [] d)) ∧
      (d.domOn n = true → x.op.isSome = true → d.dacCalDone n = true → x.state = .dark →
        exec (.cmdTxEnable e) s = .next (s1.starts formTxEnable e (5 * ms + s.par.nat (pTxRamp + n) * us)
          (d.updTx n fun t => { t with state := .starting, classOWas := (t.rolloff, t.pilotGain, t.pilotSeed), rolloff := s.par.nat (pTxRolloff + n), pilotGain := s.par.nat (pTxPilotGain + n),
                                       pilotSeed := s.par.nat (pTxPilotSeed + n) })))) ∧
    (Runs formTxEnable e s s1 → bitAt (u8 e 1) 0 = false →
      (d.anyBundleEnabled n = true → exec (.cmdTxEnable e) s = .next (s1.refuses formTxEnable e .trafficPresent 0)) ∧
      (d.anyBundleEnabled n = false → d.domState n = .off → exec (.cmdTxEnable e) s = .next (s1.refuses formTxEnable e .domainOff 0)) ∧
      (d.anyBundleEnabled n = false → d.domState n ≠ .off → x.state = .muted → exec (.cmdTxEnable e) s = .next (s1.completes formTxEnable e [] (d.enterDark s.env n))) ∧
      (d.anyBundleEnabled n = false → d.domState n ≠ .off → x.state = .on → exec (.cmdTxEnable e) s = .next (s1.starts formTxEnable e (5 * ms + s.par.nat (pTxRamp + n) * us)
        (d.updTx n fun t => { t with state := .rampDown, rampToDark := true })))) ∧
    (Runs formTxMute e s s1 → d.domState n = .off → exec (.cmdTxMute e) s = .next (s1.refuses formTxMute e .domainOff 0)) ∧
    (Runs formTxMute e s s1 → d.domState n ≠ .off → bitAt (u8 e 1) 0 = true →
      (x.state = .on → exec (.cmdTxMute e) s = .next (s1.starts formTxMute e 0
        (d.updTx n fun t => { t with muteHost := true, state := .rampDown, rampToDark := false }))) ∧
      (x.state = .muted → exec (.cmdTxMute e) s = .next (s1.completes formTxMute e [] (d.updTx n fun t => { t with muteHost := true })))) ∧
    (Runs formTxMute e s s1 → d.domState n ≠ .off → bitAt (u8 e 1) 0 = false → x.state = .muted → x.txok = true → x.mutePresence = false → x.muteClock = false →
      exec (.cmdTxMute e) s = .next (s1.starts formTxMute e 0
        (d.updTx n fun t => { t with muteHost := false, muteInterlock := false, causesWas := (x.muteHost, x.muteInterlock), state := .rampUp }))) ∧
    (Runs formTxCoefLoad e s s1 → txCoefFault e = none → d.domState n ≠ .off → d.txTableGranted n (u8 e 1) = false → bitAt (u8 e 4) 0 = false →
      (u8 e 1 = 0 → exec (.cmdTxCoefLoad e) s = .next (s1.completes formTxCoefLoad e []
        (d.updTx n fun t => { t with nlc := { t.nlc with staged := stageEntries e 8 (u8 e 2) (u8 e 3) x.nlc.staged } }))) ∧
      (u8 e 1 = 1 → exec (.cmdTxCoefLoad e) s = .next (s1.completes formTxCoefLoad e []
        (d.updTx n fun t => { t with taps := { t.taps with staged := stageEntries e 2 (u8 e 2) (u8 e 3) x.taps.staged } })))) ∧
    (Runs formTxCoefLoad e s s1 → ∀ k, txCoefFault e = some k → exec (.cmdTxCoefLoad e) s = .next (s1.refuses formTxCoefLoad e .badParam k)) ∧
    (Runs formTxStatus e s s1 → d.domState n = .off → exec (.cmdTxStatus e) s = .next (s1.refuses formTxStatus e .domainOff 0)) ∧
    (Runs formTxStatus e s s1 → d.domState n ≠ .off → ∃ r, exec (.cmdTxStatus e) s = .next (s1.completes formTxStatus e r d) ∧
      bitsAt (leNat r) 0 3 = x.state.code ∧ bitAt (leNat r) 8 = x.muteHost ∧ bitAt (leNat r) 9 = x.muteInterlock ∧ bitAt (leNat r) 10 = x.mutePresence ∧
      bitAt (leNat r) 11 = x.muteClock ∧ bitsAt (leNat r) 16 2 = x.coefState ∧ bitsAt (leNat r) 32 32 = x.clipPpm % 2 ^ 32 ∧
      bitsAt (leNat r) 64 48 = d.counter (ctrTxMutes n) % 2 ^ 48) ∧
    (∀ rx : List Byte, Runs formCpSpi e s s1 →
      (x.present = true → exec (.cmdCpSpi e rx) s = .next (s1.completes formCpSpi e (padTo (min 52 (u8 e 1)) rx)
        (d.updTx n fun t => { t with spiSent := (payload e).drop 2 }))) ∧
      (x.present = false → exec (.cmdCpSpi e rx) s = .next (s1.refuses formCpSpi e .state 0)))

/-! ### Line receive: dispersion and the pool of lasts -/

/-- R29, R96 to R98, R141, R144: CMD_CARRIER_SET, CMD_CD_REACH and CMD_LAST_STATUS in the cases written out: their effect, and refusals. -/
def Obligations.DispersionCommands : Prop :=
  ∀ (e : CmdEntry) (s s1 : State), let n := u8 e 0; let d := s.dev; let r := s.dev.rx n
    (∀ p : OpPoint, Runs formCarrierSet e s s1 → csProfile e = 0 → p = targetPoint (csSlots e) (csMode1 e) (csEntropy e) (csRate e) →
      layoutFault (payload e) (csLayout e) = none → pointFault s.env n p (csMode1 e) (csEntropy e) = none →
      ((d.tx n).state ≠ .dark → exec (.cmdCarrierSet e) s = .next (s1.refuses formCarrierSet e .state 0)) ∧
      ((d.tx n).state = .dark → d.inService = true → p.profile = 0 → d.domOn n = true → d.bundleAbove n p.slots = false → r.build = none → r.restoring = false →
        (0 < d.stepAdds n p.slots → fitsBandwidth d.stacksFor (d.bufferedChans + d.stepAdds n p.slots) d.protectedChans = false →
          exec (.cmdCarrierSet e) s = .next (s1.refuses formCarrierSet e .dramBw 0)) ∧
        (d.stepAdds n p.slots = 0 ∨ fitsBandwidth d.stacksFor (d.bufferedChans + d.stepAdds n p.slots) d.protectedChans = true →
        (∀ d1 : Dev, lastsForPoint s.env n (p.need (s.par.val (pCdRangeLo + n)) (s.par.val (pCdRangeHi + n)))
            (decide (r.op.map OpPoint.symrate ≠ some p.symrate)) d = some d1 →
          ∃ d2 d3 : Dev, d2 = ((d1.stopRx s.env n .down).restored n (p.need (s.par.val (pCdRangeLo + n)) (s.par.val (pCdRangeHi + n)))).updCarrier n (fun k =>
              { k with
                tx := { k.tx.capture s.par n with op := some p },
                rx := { k.rx.capture s.par n with op := some p, build := none, preempted := false, short := false, stale := true, acqFailAt := none,
                                                  recentreDeferred := false, trimLimitRaised := false } }) ∧
            d3 = (d2.growElastic n p.slots).carrierConfigured s.env n (fsChanges r.op p || fsChanges (d.tx n).op p) ∧
            exec (.cmdCarrierSet e) s = .next (s1.completes formCarrierSet e (carrierSetResult p d3).1 (carrierSetResult p d3).2)) ∧
        (lastsForPoint s.env n (p.need (s.par.val (pCdRangeLo + n)) (s.par.val (pCdRangeHi + n)))
            (decide (r.op.map OpPoint.symrate ≠ some p.symrate)) d = none →
          exec (.cmdCarrierSet e) s = .next (s1.refuses formCarrierSet e .noLast 0))))) ∧
    (∀ p : OpPoint, Runs formCdReach e s s1 → i32 e 4 ≤ i32 e 8 → d.inService = true → d.domOn n = true → r.op = some p →
      (20 < p.need (i32 e 4) (i32 e 8) → exec (.cmdCdReach e) s = .next (s1.refuses formCdReach e .badParam
        (if (i32 e 8).natAbs < (i32 e 4).natAbs then 12 else 16))) ∧
      (p.need (i32 e 4) (i32 e 8) ≤ 20 → d.rateBusy n = false → r.build = none →
        (d.locked n = true → r.cd < i32 e 4 ∨ i32 e 8 < r.cd → force e = false →
          exec (.cmdCdReach e) s = .next (s1.refuses formCdReach e .trafficPresent 0)) ∧
        (d.locked n = true → i32 e 4 ≤ r.cd → r.cd ≤ i32 e 8 → p.need (i32 e 4) (i32 e 8) = d.setSize n →
          exec (.cmdCdReach e) s = .next (s1.completes formCdReach e [] (d.setWindow n (i32 e 4) (i32 e 8)))) ∧
        (d.locked n = true → i32 e 4 ≤ r.cd → r.cd ≤ i32 e 8 → p.profile = 0 → p.need (i32 e 4) (i32 e 8) ≠ d.setSize n →
          ∀ d1 : Dev, d.allocShadow s.env n (p.need (i32 e 4) (i32 e 8)) = some d1 → exec (.cmdCdReach e) s =
            .next (s1.starts formCdReach e (50 * ms) (d1.startBuild s.env n ⟨.reach (i32 e 4) (i32 e 8), false, r.dL, false⟩))))) ∧
    (Runs formCdReach e s s1 → i32 e 8 < i32 e 4 → exec (.cmdCdReach e) s = .next (s1.refuses formCdReach e .badParam
      (if (i32 e 8).natAbs < (i32 e 4).natAbs then 12 else 16))) ∧
    (Runs formLastStatus e s s1 → ∃ rs, exec (.cmdLastStatus e) s = .next (s1.completes formLastStatus e rs d) ∧
      (∀ i, i < 32 → bitsAt (leNat rs) (4 * i) 4 = (d.last i).owner ∧ bitsAt (leNat rs) (128 + 4 * i) 4 = (d.last i).lender))

/-- R125, R126, R133, R136 to R138, R140: what the dispersion events do: loss of signal below P_RX_LOS_THR and its clearing 3 dB above it, clip windows, the end of a load, the switch to a
shadow set, reallocation, the end of a CD search, the trim. -/
def Obligations.DispersionEvents : Prop :=
  ∀ (s : State) (c : Fin 4), let n : Nat := c; let d := s.dev; let r := s.dev.rx n
    (∀ rms : Nat, r.los = false → d.domOn n = true → r.op.isSome = true → rms < 100 * s.par.nat (pRxLosThr + n) →
      exec (.rxLosDeclare ⟨c, rms⟩) s = .next (s.commit
        (Dev.breezeRxLost (Dev.updCal (Dev.updRx ((d.raise .rxLos n []).stopRx s.env n .noSignal) n fun r => { r with los := true }) n
          fun k => { k with losSeen := true }) n))) ∧
    (∀ rms : Nat, r.los = true → (100 * s.par.nat (pRxLosThr + n)) ^ 20 * 10 ^ 3 ≤ rms ^ 20 →
      (r.rebuild = false → exec (.rxLosClear ⟨c, rms⟩) s = .next (s.commit
        (Dev.goFast (Dev.raise (d.updRx n fun r => { r with los := false, acq := .down }) .rxLosClr n []) s.env n))) ∧
      (r.rebuild = true → exec (.rxLosClear ⟨c, rms⟩) s = .next (s.commit
        (Dev.startFull (Dev.raise (d.updRx n fun r => { r with los := false, acq := .down }) .rxLosClr n []) s.env n)))) ∧
    (∀ clipped samples : Nat, 0 < samples → exec (.adcClipWindow c clipped samples) s = .next (s.commit
      (Dev.raiseIf (Dev.updRx (d.count (ctrRxClip n) clipped) n fun r => { r with clipPpm := clipped * 1000000 / samples })
        (decide (samples * s.par.nat (pRxAdcClipAlarm + n) < clipped * 1000000)) .adcClip n [(4, (clipped * 1000000 / samples : Nat))]))) ∧
    (∀ b : Build, r.build = some b → b.why ≠ .candidate → b.why ≠ .rateStep → d.runPlaced .builder n = true → b.inPlace = false → d.locked n = true → r.restoring = false →
      exec (.lastLoadEnd c) s = .next (s.commit ((d.endRun .builder n).updRx n fun r => { r with build := some { b with loaded := true } }))) ∧
    (r.restoring = true → d.runPlaced .builder n = true → exec (.lastLoadEnd c) s = .next (s.commit
      (((d.endRun .builder n).updRx n fun r => { r with restoring := false }).startFast s.env n))) ∧
    (∀ b : Build, r.build = some b → b.loaded = true → d.locked n = true → b.why ≠ .rateStep →
      exec (.shadowSwitch c) s = .next (s.commit ((d.switchSets n).afterSwitch n b))) ∧
    (∀ d1 : Dev, r.short = true → r.build = none → d.domOn n = true → d.allocActive s.env n (d.needOf n) = some d1 →
      exec (.lastReallocate c) s = .next (s.commit
        (Dev.startFull (Dev.restored (d1.updRx n fun r => { r with stale := true }) n (d.needOf n)) s.env n))) ∧
    (∀ found : SearchReport, r.acq = .search → d.runPlaced .search n = true →
      (∀ (cand : Int) (rest : List Int), r.candidatesOf found = cand :: rest → exec (.cdSearchEnd c found) s = .next (s.commit
        (Dev.loadCandidate (Dev.raise (d.endRun .search n) .cdSearchDone n [(4, cand), (1, (rest.length + 1 : Nat))]) s.env n cand rest))) ∧
      (r.candidatesOf found = [] → exec (.cdSearchEnd c found) s = .next (s.commit
        (Dev.acqFail (Dev.raise (d.endRun .search n) .cdSearchFail n [(4, r.lo), (4, r.hi)]) s.env n .noCd))) ∧
      (r.candidatesOf found).length ≤ 3) ∧
    (∀ (p : OpPoint) (q : QualityReport), r.op = some p → d.locked n = true → q.sigX ≠ 0 → q.sigY ≠ 0 → q.errX ≠ 0 → q.errY ≠ 0 →
      let resid := Config.eqResidual q.taps
      let dT := max (-(p.trimMax : Int)) (min (p.trimMax : Int) (r.dT + max (-50) (min 50 resid)))
      let d1 : Dev := d.updRx n fun r => { r with mimo := q.taps, meas :=
        ⟨(qualitySnr p q).1, (qualitySnr p q).2.1, (qualitySnr p q).2.2.1, (qualitySnr p q).2.2.2, Config.eqDgd q.taps, q.freq, q.clock, resid,
         Config.eqPdl q.taps, Config.eqSopRate r.mimo q.taps, q.pilotBer⟩ }
      p.trimWithin dT 80 = true → r.recentreDeferred = false →
        exec (.cdTrimUpdate c q) s = .next (s.commit (d1.updRx n fun r => r.moveTrim s.now dT)))

/-! ### Line receive: acquisition and recovery -/

/-- R148 to R167: what the acquisition and recovery events do. -/
def Obligations.AcquisitionEvents : Prop :=
  ∀ (s : State) (c : Fin 4), let n : Nat := c; let d := s.dev; let r := s.dev.rx n
    (r.acq = .down ∨ r.acq = .noSignal → d.canAcquire n = true →
      let d1 : Dev := Dev.startRun (Dev.endRun (Dev.updRx (d.fecCapture s.env n) n fun r => r.captureAcq s.par n) .search n) s.env .search n
      exec (.acqStart c) s = .next (s.commit (if d1.runPlaced .search n
        then d1.updRx n fun r => { r with acq := .search, fast := false, candidates := [], attemptStart := s.now }
        else d1.updRx n fun r => { r with acq := .wait, fast := false, candidates := [], attemptStart := s.now, failCause := .noEngine }))) ∧
    (∀ b : Build, r.build = some b → r.acq = .load → b.why = .candidate → d.runPlaced .builder n = true →
      exec (.candidateLoadEnd c) s = .next (s.commit
        ((d.endRun .builder n).updRx n fun r => { r.setTrim 0 with acq := .coarse, dL := b.dL, build := none, stale := false, rebuild := false }))) ∧
    (∀ sp : Spectrum, r.acq = .coarse → 0 < (centroid sp).2 → (centroid sp).1.natAbs ≤ r.foRange * (centroid sp).2 →
      let d1 : Dev := d.updRx n fun r => { r with derot := roundHalfAway (1000 * (centroid sp).1) (centroid sp).2 }
      exec (.coarseEnd c sp true) s = .next (s.commit (d1.updRx n fun r => { r with acq := .preconverge })) ∧
      exec (.coarseEnd c sp false) s = .next (s.commit (d1.acqFail s.env n .noTiming))) ∧
    (∀ (sp : Spectrum) (ok : Bool), r.acq = .coarse → 0 < (centroid sp).2 → r.foRange * (centroid sp).2 < (centroid sp).1.natAbs →
      exec (.coarseEnd c sp ok) s = .next (s.commit (d.acqFail s.env n .noFreq))) ∧
    (r.acq = .preconverge → exec (.preconvergeEnd c) s = .next (s.commit (d.updRx n fun r => { r with acq := .pilotSync }))) ∧
    (∀ rep : PilotReport, rep.car = c → r.acq = .pilotSync →
      (∀ p : OpPoint, r.op = some p → p.profile ≠ 0 → exec (.pilotSyncEnd rep) s = .next (s.commit (d.updRx n fun r => { r with acq := .track }))) ∧
      (∀ (p : OpPoint) (sw : Bool) (a b : Nat) (g : BitVec 15), r.op = some p → p.profile = 0 → pilotAccepted rep = some ((sw, a, b), g) →
        exec (.pilotSyncEnd rep) s = .next (s.commit (d.updRx n fun r =>
          { r with acq := .track, pilotPos := pilotPosition rep, pilotSwap := sw, pilotTurn := (a, b), pilotGen := g, repeatAt := none }))) ∧
      (∀ p : OpPoint, r.op = some p → p.profile = 0 → pilotAccepted rep = none →
        exec (.pilotSyncEnd rep) s = .next (s.commit (d.acqFail s.env n .noPilot)))) ∧
    (∀ rep : LockReport, rep.car = c → r.acq = .track → 16 ≤ rep.windows.length →
      (∀ w ∈ rep.windows.take 16, w.errs * 100 < 5 * 4096 ∧ w.timing.natAbs ≤ 150000 ∧ w.resid.natAbs < 50 ∧ w.corr < 500) →
      exec (.rxLock rep) s = .next (s.commit
        (Dev.rxLocked (Dev.endReacq (Dev.raise (d.updRx n fun x => { x.setCount (s.env.nlcTarget n) with
          acq := .locked, fast := false, acqTime := (s.now - r.attemptStart) / 1000, acqCount := x.acqCount + 1, lockedSince := s.now, seedsSeen := [],
          acqFailAt := none, candidates := [] })
            .rxLock n [(4, ((s.now - r.attemptStart) / 1000 : Nat))]) n .ok 0) n))) ∧
    (r.acq = .search → exec (.acqStateTimeout c) s = .next (s.commit ((d.endRun .search n).acqFail s.env n .noCd))) ∧
    (r.acq = .pilotSync → exec (.acqStateTimeout c) s = .next (s.commit (d.acqFail s.env n .noPilot))) ∧
    (r.acq = .wait → d.runWaiting .search n = false → exec (.acqWaitEnd c) s = .next (s.commit (d.startFull s.env n))) ∧
    (∀ (ws : List PilotWindow) (why : LolCause), d.locked n = true → lolCause ws = some why → exec (.lossOfLock c ws) s = .next (s.commit
      (Dev.startFast (Dev.updRx (Dev.endRun ((d.raise .rxLol n [(1, lolCode why)]).stopRx s.env n .down) .trainer n) n
        fun r => { r with nlc := { r.nlc with fading := none, waiting := none }, nlcCount := { r.nlcCount with fading := none, waiting := none },
                          nlcTraining := false }) s.env n))) ∧
    (∀ ws : List PilotWindow, lolCause ws = none → exec (.lossOfLock c ws) s = .next (s.commit d)) ∧
    (∀ seed : BitVec 15, r.repeatDue s.now = false → exec (.pilotSeedRepeat c seed) s = .next (s.commit d)) ∧
    (∀ seed : BitVec 15, r.acq = .locked → r.repeatDue s.now = true → r.pilotSeed ≠ 0 → ∃ d1 : Dev,
      (d1.rx n).seedRx = seed.toNat ∧ (d1.rx n).seedsSeen = (seed.toNat :: r.seedsSeen).take 3 ∧ (d1.rx n).pilotGen = seed ∧ (d1.rx n).repeatAt = some s.now ∧
        exec (.pilotSeedRepeat c seed) s = .next (s.commit d1)) ∧
    (∀ rep : SlipReport, rep.car = c → d.locked n = true →
      (8192 ≤ (rep.directed - rep.pilot).toInt.natAbs → ∃ d1 : Dev, exec (.cycleSlip rep) s = .next (s.commit d1) ∧
        d1.counter (ctrSlips n) = (d.counter (ctrSlips n) + 1) % 2 ^ 48 ∧ (d1.rx n) = { r with slips := r.slips + 1, ddPhase := rep.pilot } ∧
        d1.out = d.out ++ [.pulse 6 n]) ∧
      ((rep.directed - rep.pilot).toInt.natAbs < 8192 → exec (.cycleSlip rep) s = .next (s.commit (d.updRx n fun r => { r with ddPhase := rep.directed })))) ∧
    (∀ more : Nat, d.locked n = true → exec (.cycleSlipWindow c more) s = .next (s.commit
      (Dev.raiseIf (Dev.updRx (d.countSlips n more) n fun r => { r with slips := 0 }) (decide (s.par.nat (pRxSlipAlarm + n) < r.slips + more))
        .cycleSlip n [(4, (r.slips + more : Nat))]))) ∧
    (∀ (p : OpPoint) (q : QualityReport), r.op = some p → d.locked n = true → q.sigX ≠ 0 → q.sigY ≠ 0 → q.errX ≠ 0 → q.errY ≠ 0 →
      exec (.qualityWindow c q) s = .next (s.commit (d.updRx n fun r => { r with mimo := q.taps, meas :=
        ⟨(qualitySnr p q).1, (qualitySnr p q).2.1, (qualitySnr p q).2.2.1, (qualitySnr p q).2.2.2, Config.eqDgd q.taps, q.freq, q.clock,
         Config.eqResidual q.taps, Config.eqPdl q.taps, Config.eqSopRate r.mimo q.taps, q.pilotBer⟩ }))) ∧
    (∀ p : OpPoint, s.par.val (pRxNlcMode + n) = 1 → d.locked n = true → r.nlcTraining = false → r.op = some p → p.profile = 0 →
      r.lockedSince + sec ≤ s.now → r.trainFrom ≤ s.now → exec (.nlcTrainStart c) s = .next (s.commit
        (Dev.startRun (d.updRx n fun r => { r with nlcTraining := true, trainFrom := s.now + s.par.nat (pRxNlcPeriod + n) * sec }) s.env .trainer n))) ∧
    (∀ (fit : List (BitVec 48)) (new old : Int), r.nlcTraining = true → d.runPlaced .trainer n = true →
      let d1 : Dev := (d.endRun .trainer n).updRx n fun r => { r with nlcTraining := false }
      (new < old + 5 → exec (.nlcTrainEnd c fit new old) s = .next (s.commit d1)) ∧
      (old + 5 ≤ new → s.par.val (pRxNlcMode + n) = 1 → exec (.nlcTrainEnd c fit new old) s = .next (s.commit
        (Dev.countSuperseded (d1.updRx n fun _ => ((d1.rx n).commitNlc (fitTable fit (s.par.nat (pRxNlcTriplets + n))) (d.runCluster .trainer n)).1)
          ((d1.rx n).commitNlc (fitTable fit (s.par.nat (pRxNlcTriplets + n))) (d.runCluster .trainer n)).2)))) ∧
    (r.nlc.fading.isSome = true → exec (.nlcXfadeEnd c) s = .next (s.commit
      (Dev.raise (d.updRx n fun r => { r.endNlcFade with nlcUpdates := (d.rx n).nlcUpdates + 1 }) .nlcApplied n
        [(4, (r.nlcUpdates + 1 : Nat))])))

/-- R62, R157, R165, R166, R483: the receive commands in the cases written out: their effect, and refusals of a re-acquisition. -/
def Obligations.ReceiveCommands : Prop :=
  ∀ (e : CmdEntry) (s s1 : State), let n := u8 e 0; let d := s.dev; let r := s.dev.rx n
    (Runs formRxStatus e s s1 → d.domState n = .off → exec (.cmdRxStatus e) s = .next (s1.refuses formRxStatus e .domainOff 0)) ∧
    (Runs formRxStatus e s s1 → d.domState n ≠ .off → ∃ rs, exec (.cmdRxStatus e) s = .next (s1.completes formRxStatus e rs d) ∧
      bitsAt (leNat rs) 0 4 = r.stateCode ∧ bitsAt (leNat rs) 4 4 = r.failCause.code % 16 ∧ bitsAt (leNat rs) 8 2 = nlcState s.env n r ∧
      bitsAt (leNat rs) 16 16 = ofSigned 16 r.meas.snr ∧ bitsAt (leNat rs) 240 32 = r.acqTime % 2 ^ 32 ∧
      bitsAt (leNat rs) 272 48 = d.counter (ctrSlips n) % 2 ^ 48 ∧ bitsAt (leNat rs) 320 32 = r.acqCount % 2 ^ 32) ∧
    (Runs formRxReacquire e s s1 → d.inService = true → (d.carrier n).heldDown = false → d.domOn n = true →
      (r.op = none → exec (.cmdRxReacquire e) s = .next (s1.refuses formRxReacquire e .sequence 0)) ∧
      (r.op.isSome = true → d.rateBusy n = true → exec (.cmdRxReacquire e) s = .next (s1.refuses formRxReacquire e .busy 0)) ∧
      (r.op.isSome = true → d.rateBusy n = false → r.build = none → d.locked n = true → d.anyBundleEnabled n = true → force e = false →
        exec (.cmdRxReacquire e) s = .next (s1.refuses formRxReacquire e .trafficPresent 0)) ∧
      (r.op.isSome = true → d.rateBusy n = false → r.build = none → r.restoring = false → r.los = false → (d.locked n = false ∨ d.anyBundleEnabled n = false ∨ force e = true) →
        ∃ d1 : Dev, d1 = Dev.updRx ((d.endRun .builder n).stopRx s.env n .down) n (fun r => { r with reacq := true, build := none }) ∧
          (bitAt (u8 e 1) 0 = true → exec (.cmdRxReacquire e) s = .next (s1.starts formRxReacquire e (fullBound d n) (d1.startFull s.env n))) ∧
          (bitAt (u8 e 1) 0 = false → exec (.cmdRxReacquire e) s = .next (s1.starts formRxReacquire e (if r.stale then fullBound d n else 5500 * us) (d1.startFast s.env n))))) ∧
    (Runs formRxNlcLoad e s s1 → nlcLoadFault e = none → s.par.val (pRxNlcMode + n) = 2 → d.domOn n = true → bitAt (u8 e 4) 0 = false →
      exec (.cmdRxNlcLoad e) s = .next (s1.completes formRxNlcLoad e [] (d.updRx n fun r => { r with nlc := { r.nlc with
        staged := (List.range (u8 e 3)).foldl (fun t k => t.set (u8 e 2 + k) (fieldAt (payload e) (8 + 8 * k) 8)) (d.rx n).nlc.staged } }))) ∧
    (Runs formRxNlcLoad e s s1 → nlcLoadFault e = none → s.par.val (pRxNlcMode + n) ≠ 2 →
      exec (.cmdRxNlcLoad e) s = .next (s1.refuses formRxNlcLoad e .state 0))

/-! ### Converter calibration -/

/-- R171 to R180, R483: what the calibration events do; the calibration commands in the cases written out, their effect and refusals. -/
def Obligations.Calibration : Prop :=
  (∀ (s : State) (c : Fin 4), let n : Nat := c; let d := s.dev; let k := s.dev.cal n
      (s.io.mbxState = .ready → k.phase = .idle → s.par.nat (pCalMode + n) = 2 → d.canCalibrate n = true → exec (.calRoundTrigger c) s = .next (s.commit
        (d.updCal n fun k => k.begin s.now .round 0xFF 6 (d.rx n).los))) ∧
      (s.io.mbxState = .ready → k.phase = .idle → s.par.nat (pCalMode + n) = 1 → d.canCalibrate n = true →
        10 * s.par.nat (pCalTempTrig + n) < (d.convTemp n - k.prevTemp).natAbs → exec (.calRoundTrigger c) s = .next (s.commit
        (d.updCal n fun k => k.begin s.now .round 0xFF 2 (d.rx n).los))) ∧
      (s.io.mbxState = .ready → k.phase = .idle → s.par.nat (pCalMode + n) = 1 → d.canCalibrate n = true →
        (d.convTemp n - k.prevTemp).natAbs ≤ 10 * s.par.nat (pCalTempTrig + n) → k.prevEnd + s.par.nat (pCalPeriod + n) * sec ≤ s.now →
        exec (.calRoundTrigger c) s = .next (s.commit
          (d.updCal n fun k => k.begin s.now .round 0xFF 1 (d.rx n).los))) ∧
      (s.par.nat (pCalMode + n) = 0 ∨ s.io.mbxState ≠ .ready → exec (.calRoundTrigger c) s = .next (s.commit d)) ∧
      (∀ (t : Nat × Nat) (rest : List (Nat × Nat)), s.io.mbxState = .ready → k.fsDue = t :: rest → t.1 ≤ s.now → k.phase = .idle → d.canCalibrate n = true → exec (.calFsChangeTrigger c) s = .next (s.commit
        (d.updCal n fun k => { k with fsDue := rest }.begin s.now .round t.2 4 (d.rx n).los))) ∧
      (∀ found : List ConvReport, k.phase = .round → k.action = 0 → roundWhole k.left found = true → exec (.calRoundEnd c found) s = .next (s.commit
        (Dev.finish (Dev.updCal (found.foldl (fun d r => d.calReport s.env n r) d) n fun k =>
          { k with phase := .idle, left := 0, prevEnd := s.now, prevTemp := d.convTemp n }) 0x0318 n .ok 0 []))) ∧
      (∀ found : List ConvReport, k.phase = .idle ∨ roundPart k.left found = false → exec (.calRoundEnd c found) s = .next (s.commit d)) ∧
      (∃ d1 : Dev, exec (.calApplyEnd c) s = .next (s.commit d1) ∧ (∀ m, m ≠ n → d1.cal m = d.cal m) ∧ d1.out = d.out ∧
        ∀ j, j < 8 → (d1.cal n).convAt j = if (k.convAt j).applied s.now (s.par.nat (pCalApply + n)) then
          { k.convAt j with was := [], applySince := none } else k.convAt j) ∧
      (∀ found : List ConvReport, k.dacBusy = true → k.action = 2 → d.domOn n = true → dacWhole k.dacMask found = true → exec (.dacInitCalEnd c found) s = .next (s.commit
        (Dev.finish (Dev.raise (Dev.updCal (found.foldl (fun d r => r.slices.foldl (fun d q => d.initSlice n r.conv q) d) d) n
          fun k => { k with dacBusy := false, dacDone := true }) .calReady n []) 0x0318 n .ok 0 [])))) ∧
  (∀ (e : CmdEntry) (s s1 : State) (ev : CalEvidence), let n := u8 e 0; let d := s.dev; let k := s.dev.cal n
      (Runs formCalRun e s s1 → d.inService = false ∨ (d.carrier n).heldDown = true → exec (.cmdCalRun e ev) s = .next (s1.refuses formCalRun e .state 0)) ∧
      (Runs formCalRun e s s1 → d.inService = true → (d.carrier n).heldDown = false → d.domOn n = false →
        exec (.cmdCalRun e ev) s = .next (s1.refuses formCalRun e .domainOff 0)) ∧
      (Runs formCalRun e s s1 → d.inService = true → (d.carrier n).heldDown = false → d.domOn n = true →
        (u8 e 1 = 0 → exec (.cmdCalRun e ev) s = .next (s1.starts formCalRun e (200 * ms) 
          (Dev.updCal (d.startRound s.env n (if u8 e 2 = 0 then 0xFF else u8 e 2) 3) n fun k => { k with action := 0 }))) ∧
        (u8 e 1 = 1 → d.locked n = true → force e = false → exec (.cmdCalRun e ev) s = .next (s1.refuses formCalRun e .trafficPresent 0)) ∧
        (u8 e 1 = 2 → u8 e 2 = 0 → (d.tx n).state = .dark → exec (.cmdCalRun e ev) s = .next (s1.starts formCalRun e (40 * ms)
          (d.updCal n fun k => { k with dacBusy := true, dacMask := (if k.dacBusy then k.dacMask else 0) ||| 0xF0, action := 2,
                                        conv := (convs 0xF0).foldl (fun t j => t.upd .factory j fun v => { v with shown := 0 }) k.conv }))) ∧
        (u8 e 1 = 2 → (d.tx n).state ≠ .dark → exec (.cmdCalRun e ev) s = .next (s1.refuses formCalRun e .state 0)) ∧
        (u8 e 1 = 3 → exec (.cmdCalRun e ev) s = .next (s1.completes formCalRun e [] (d.stopRound s.env n ev.reports)))) ∧
      (Runs formCalStatus e s s1 → d.domState n = .off → exec (.cmdCalStatus e) s = .next (s1.refuses formCalStatus e .domainOff 0)) ∧
      (Runs formCalStatus e s s1 → d.domState n ≠ .off → k.phase = .idle → k.dacBusy = false → ∃ r, exec (.cmdCalStatus e) s = .next (s1.completes formCalStatus e r d) ∧
        bitsAt (leNat r) 0 3 = calStateCode s.env n (u8 e 1) d ∧ bitsAt (leNat r) 8 8 = 0xFF ∧
        bitsAt (leNat r) 16 4 = min 15 (k.convAt (u8 e 1)).failCount ∧ bitAt (leNat r) 22 = (k.convAt (u8 e 1)).toneValid ∧
        bitsAt (leNat r) 32 32 = (k.convAt (u8 e 1)).rounds % 2 ^ 32))


/-! ### Forward error correction -/

/-- R190, R194 to R199, R201 to R203: what the FEC events do; the FEC commands in the cases written out, their effect and refusals. -/
def Obligations.ForwardErrorCorrection : Prop :=
  (∀ (s : State) (c : Fin 4), let n : Nat := c; let d := s.dev; let f := s.dev.fec n
      (∀ x : LockSearch, x.car = c → f.lock = .search → d.locked n = true → d.blockFound n x = true → exec (.fecBlockLock x) s = .next (s.commit
        (Dev.frmHunt (Dev.raise (d.updFec n fun f => { f with
          lock := .locked, lockTime := (s.now - (d.rx n).lockedSince) / 1000, offset := x.offset,
          align := (stairAlign (pointH (d.rx n).op) (x.blocks.map fun b => (b.fill, b.sbStart.toNat))).getD 0 }) .fecLock n
          [(4, ((s.now - (d.rx n).lockedSince) / 1000 : Nat))]) n))) ∧
      (∀ why : FecLolCause, f.lock = .locked → d.locked n = true → fecLolHolds (d.interop n) why = true → exec (.fecLossOfBlockLock c why) s = .next (s.commit
        (Dev.stepLoss (Dev.raise (Dev.frmDown (d.updFec n fun f => { f with lock := .search }) s.env n) .fecLol n [(1, fecLolCode why)]) s.env n))) ∧
      (∀ w : FecWindow, f.lock ≠ .down → w.bits ≠ 0 → w.blocks ≠ 0 → s.io.mbxState ≠ .ready → ∃ d1 : Dev, exec (.fecDegWindow c w) s = .next (s.commit d1) ∧
        d1.car = d.car ∧ d1.counter (ctrFec fecBits n) = (d.counter (ctrFec fecBits n) + w.bits) % 2 ^ 48 ∧
        d1.counter (ctrFec fecCorr n) = (d.counter (ctrFec fecCorr n) + (w.innerCorr + w.outerCorr)) % 2 ^ 48 ∧
        d1.counter (ctrFec fecBlocks n) = (d.counter (ctrFec fecBlocks n) + w.blocks) % 2 ^ 48) ∧
      (∀ w : FecWindow, f.lock ≠ .down → w.bits ≠ 0 → w.blocks ≠ 0 → s.io.mbxState = .ready → ∃ d1 : Dev, exec (.fecDegWindow c w) s = .next (s.commit d1) ∧
        (d1.fec n).preBer = min 0xFFFFFFFF (w.innerCorr * 10 ^ 10 / w.bits) ∧ (d1.fec n).iterMean = d.itersIn s.env n w * 256 / w.blocks ∧
        (f.deg = false → (d1.fec n).deg = decide (s.par.nat (pFecDegWin + n) ≤
          (if s.par.nat (pFecDegThr + n) * w.bits < w.innerCorr * 10 ^ 6 then f.above + 1 else 0)))) ∧
      (f.lock = .locked → s.par.on (pFecUncorrAct + n) = false → (∃ t, f.uncorrAt = some t ∧ s.now < t + sec) → exec (.fecUncorrBlock c) s = .next (s.commit
        (((d.count (ctrFec fecUncorr n) 1).emit (.pulse 7 n)).updFec n fun f => { f with uncorr := f.uncorr + 1 }))) ∧
      (∀ i : Injection, f.inj = some i → i.mode = 2 → 2 ≤ i.left → i.transmit = false → f.lock ≠ .down → exec (.fecInjectTick c) s = .next (s.commit
        ((d.updFec n fun f => { f with inj := some { i with left := i.left - 1 } }).count (ctrFec fecInjected n) i.burst))) ∧
      (∀ i : Injection, f.inj = some i → i.mode ≠ 1 → i.left = 1 → i.transmit = true → exec (.fecInjectTick c) s = .next (s.commit
        (d.updFec n fun f => { f with inj := none }))) ∧
      (∀ (i : Injection) (t : Nat), f.inj = some i → i.ends = some t → t ≤ s.now → exec (.fecInjectEnd c) s = .next (s.commit
        (d.updFec n fun f => { f with inj := none })))) ∧
  (∀ (e : CmdEntry) (s s1 : State), let n := u8 e 0; let d := s.dev; let f := s.dev.fec n
      (Runs formFecStatus e s s1 → d.domOn n = true → ∃ r, exec (.cmdFecStatus e) s = .next (s1.completes formFecStatus e r d) ∧
        bitsAt (leNat r) 0 2 = f.lock.code ∧ bitsAt (leNat r) 8 5 = f.iter % 32 ∧ bitsAt (leNat r) 16 32 = f.preBer % 2 ^ 32 ∧
        bitsAt (leNat r) 80 48 = d.counter (ctrFec fecCorr n) % 2 ^ 48 ∧ bitsAt (leNat r) 176 48 = d.counter (ctrFec fecUncorr n) % 2 ^ 48 ∧
        bitAt (leNat r) 352 = f.inj.isSome) ∧
      (Runs formFecStatus e s s1 → d.domOn n = false → exec (.cmdFecStatus e) s = .next (s1.refuses formFecStatus e .domainOff 0)) ∧
      (Runs formFecInject e s s1 → ∀ k, injFault e = some k → exec (.cmdFecInject e) s = .next (s1.refuses formFecInject e .badParam k)) ∧
      (∀ p : OpPoint, Runs formFecInject e s s1 → injFault e = none → d.inService = true → (d.rx n).op = some p → p.profile = 0 → d.domOn n = true →
        (d.anyBundleEnabled n = true → injHarmful (d.fecThreshold4 n) e = true → force e = false →
          exec (.cmdFecInject e) s = .next (s1.refuses formFecInject e .trafficPresent 0)) ∧
        (d.anyBundleEnabled n = false ∨ injHarmful (d.fecThreshold4 n) e = false ∨ force e = true →
          exec (.cmdFecInject e) s = .next (s1.completes formFecInject e [] (d.updFec n fun f => { f with inj := injNew s.env e })))))

/-! ### The line frame -/

/-- R207, R209, R210, R213, R214, R220, R221: what the frame events of a carrier and of a channel do; what LOF makes of a carrier: HUNT, the section action,
LOF_COUNT one higher, and no other carrier's framer changes by it. -/
def Obligations.FrameEvents : Prop :=
  (∀ (s : State) (c : Fin 4), let n : Nat := c; let d := s.dev; let f := s.dev.frm n
      (f.st = .hunt → f.lof = true → exec (.inFrameDeclare c) s = .next (s.commit
        (Dev.raise (d.updFrm n fun f => { f with st := .inFrame, mf := .none, lof := false }) .lofClr n []))) ∧
      (f.st = .hunt → f.lof = false → exec (.inFrameDeclare c) s = .next (s.commit (d.updFrm n fun f => { f with st := .inFrame, mf := .none, lof := false }))) ∧
      (f.st = .hunt → exec (.falseCandidate c) s = .next (s.commit (d.count (ctrFrm frmFalse n) 1))) ∧
      (f.st = .inFrame → exec (.lofDeclare c) s = .next (s.commit (Dev.reacquireMissed (Dev.stepLoss (Dev.raise (Dev.count
        ((d.parityOf n).updFrm n fun f => { f with st := .hunt, mf := .none, lof := true, ca := true, dirtyAt := some s.now }) (ctrFrm frmLof n) 1) .lof n []) s.env n)
        s.env n))) ∧
      (∀ mfas : BitVec 7, f.st = .inFrame → f.mf = .none → f.lom = false → exec (.mfAlign c mfas) s = .next (s.commit
        (d.updFrm n fun f => { f with mf := .aligned, lom := false, mfas := mfas.toNat, mfasAt := s.now }))) ∧
      (∀ mfas : BitVec 7, f.st = .inFrame → f.mf = .oom → f.lom = true → f.frameNo s.now ≠ mfas.toNat → exec (.mfAlign c mfas) s = .next (s.commit
        (Dev.raise (d.updFrm n fun f => { f with mf := .aligned, lom := false, mfas := mfas.toNat, mfasAt := s.now, ca := true, dirtyAt := some s.now }) .lomClr n []))) ∧
      (f.st = .inFrame → f.mf = .aligned → exec (.oomDeclare c) s = .next (s.commit (d.updFrm n fun f => { f with mf := .oom }))) ∧
      (f.mf = .oom → f.lom = false → exec (.lomDeclare c) s = .next (s.commit
        (Dev.raise (d.updFrm n fun f => { f with lom := true, ca := true, dirtyAt := some s.now }) .lom n []))) ∧
      (∀ tti : List Byte, d.interop n = false → s.par.val (pFrmTimMode + n) = 0 → exec (.ttiAccept c tti) s = .next (s.commit
        (d.updFrm n fun f => { f with ttiRx := some (padTo 64 tti), tim := false }))) ∧
      (∀ on : Bool, d.interop n = false → f.sbdi ≠ on → exec (.sbdiRxChange c on) s = .next (s.commit
        (Dev.raise (d.updFrm n fun f => { f with sbdi := on }) .sbdi n [(1, if on then 1 else 0)]))) ∧
      (∀ (ch : Fin 512) (x : BitVec 5), d.domOn (ch / 128) = true → ch % 128 < d.rxSlots (ch / 128) → d.interop (ch / 128) = false → exec (.pathDefectChange ch x) s = .next (s.commit
        (Dev.reportPath (d.updChan ch fun k => { k with
          defects := x.toNat, ca := k.ca || Dev.defectsAct s.env ch x.toNat, ones := k.ones || Dev.defectsOnes s.env ch x.toNat,
          raised := k.raised ||| (x.toNat - (x.toNat &&& (d.chanAt ch).defects)),
          cleared := k.cleared ||| ((d.chanAt ch).defects - ((d.chanAt ch).defects &&& x.toNat)) }) s.env ch))) ∧
      (f.ca = true → f.clean (decide (s.par.val (pFrmTimMode + n) = 2)) = true → d.chan = [] → exec (.consequentActionEnd c) s = .next (s.commit
        (d.updFrm n fun f => { f with ca := false, dirtyAt := some s.now }))) ∧
      (∀ bytes : List Byte, d.interop n = false → exec (.rsFieldsAccept c bytes) s = .next (s.commit (d.updFrm n fun f => { f with rsRx := padTo 5 bytes }))) ∧
      ((d.rate n).tx.op = opCommit → 1 < (d.rate n).tx.cd → exec (.rsCountdownTick c) s = .next (s.commit
        (d.updRate n fun r => { r with tx := { r.tx with cd := r.tx.cd - 1 } })))) ∧
  (∀ (d : Dev) (env : Env) (n : Nat), (d.frm n).st = .inFrame → (d.rate n).st = .idle → (d.rate n).missed = none →
      ((lofDeclare env n d).frm n).st = .hunt ∧ ((lofDeclare env n d).frm n).lof = true ∧ ((lofDeclare env n d).frm n).ca = true ∧
      (lofDeclare env n d).counter (ctrFrm frmLof n) = (d.counter (ctrFrm frmLof n) + 1) % 2 ^ 48 ∧
      (∀ m, m ≠ n → (lofDeclare env n d).frm m = d.frm m))


/-- R213, R218, R222 to R229: the bundle and frame commands in the cases written out, their effect and refusals, and the two bundle events; frame and channel status, and the
trail traces. -/
def Obligations.BundleAndFrameCommands : Prop :=
  (∀ (e : CmdEntry) (s s1 : State), let b := u8 e 0; let d := s.dev; let x := s.dev.bundleAt b
      (Runs formBundleCreate e s s1 → ∀ p : OpPoint, (d.tx (u8 e 1)).op = some p → (d.rx (u8 e 1)).op = some p → p.profile = 0 →
        let y : Bundle := { Bundle.absent with carrier := u8 e 1, first := u8 e 2, count := u8 e 3, buffered := bitAt (u8 e 4) 0,
                                               toLine := s.par.val (pMemBufDir + b) = 0, depth := s.par.nat pMemBufDepth }
        (d.hasBundle b = true → exec (.cmdBundleCreate e) s = .next (s1.refuses formBundleCreate e .badParam 8)) ∧
        (d.hasBundle b = false → p.slots < u8 e 2 + u8 e 3 → exec (.cmdBundleCreate e) s = .next (s1.refuses formBundleCreate e .badParam 10)) ∧
        (d.hasBundle b = false → u8 e 2 + u8 e 3 ≤ p.slots → (∀ ch ∈ y.chans, d.bundleOf ch = none) → bitAt (u8 e 4) 0 = false → d.rateBusy (u8 e 1) = false →
          exec (.cmdBundleCreate e) s = .next (s1.completes formBundleCreate e [] { d with bundle := d.bundle.set b y }))) ∧
      (Runs formBundleCreate e s s1 → (d.tx (u8 e 1)).op = none → exec (.cmdBundleCreate e) s = .next (s1.refuses formBundleCreate e .sequence 0)) ∧
      (Runs formBundleDelete e s s1 → x.on = false → x.attach = .none → d.groupsOf b = [] →
        (d.hasBundle b = false → exec (.cmdBundleDelete e) s = .next (s1.refuses formBundleDelete e .badParam 8)) ∧
        (d.hasBundle b = true → d.rateBusy x.carrier = false →
          exec (.cmdBundleDelete e) s = .next (s1.completes formBundleDelete e [] { d with bundle := d.bundle.drop b }))) ∧
      (Runs formBundleDelete e s s1 → x.on = true → exec (.cmdBundleDelete e) s = .next (s1.refuses formBundleDelete e .trafficPresent 0)) ∧
      (Runs formBundleEnable e s s1 → d.hasBundle b = true → bitAt (u8 e 1) 0 = true → x.on = false →
        (d.attached b = false → exec (.cmdBundleEnable e) s = .next (s1.refuses formBundleEnable e .sequence 0)) ∧
        (d.attached b = true → d.domOn x.carrier = false → exec (.cmdBundleEnable e) s = .next (s1.refuses formBundleEnable e .domainOff 0)) ∧
        (d.attached b = true → d.domOn x.carrier = true → d.rateBusy x.carrier = false → exec (.cmdBundleEnable e) s = .next
          (s1.starts formBundleEnable e 0 (d.updBundle b fun x => { x with st := .enabling })))) ∧
      (Runs formBundleEnable e s s1 → d.hasBundle b = true → bitAt (u8 e 1) 0 = false → x.on = true → exec (.cmdBundleEnable e) s = .next
        (s1.starts formBundleEnable e 0 (d.updBundle b fun x => { x with st := .draining }))) ∧
      (∀ k : Fin 128, (d.bundleAt k).st = .enabling → exec (.bundleBoundaryApply k) s = .next (s.commit
        (Dev.finish (d.updBundle k fun x => { x with st := .enabled }) 0x0403 k .ok 0 []))) ∧
      (∀ k : Fin 128, (d.bundleAt k).st = .closing → exec (.bundleBoundaryApply k) s = .next (s.commit (d.updBundle k fun x => { x with st := .disabled }))) ∧
      (∀ (k : Fin 128) (bytes : Nat), (d.bundleAt k).st = .draining → exec (.bundleDrainEnd k bytes) s = .next (s.commit
        (Dev.finish (Dev.count (Dev.insoleClear (d.updBundle k fun x => { x with st := .closing }) k) (ckey 4 (1536 + k)) bytes) 0x0403 k .ok 0 [])))) ∧
  (∀ (e : CmdEntry) (s s1 : State), let n := u8 e 0; let d := s.dev; let f := s.dev.frm n
      (Runs formFrmStatus e s s1 → d.domOn n = true → f.st = .inFrame → f.mf = .aligned → ∃ r, let d1 := d.parityRuns n (sectionParity n)
        exec (.cmdFrmStatus e) s = .next (s1.completes formFrmStatus e r d1) ∧ bitsAt (leNat r) 72 48 = d1.counter (ckey 4 n) % 2 ^ 48 ∧
        bitsAt (leNat r) 0 2 = f.st.code ∧ bitsAt (leNat r) 2 2 = f.mfCode ∧ bitAt (leNat r) 4 = f.lof ∧ bitAt (leNat r) 5 = f.lom ∧ bitAt (leNat r) 6 = f.tim ∧
        bitAt (leNat r) 7 = f.sbdi ∧ bitAt (leNat r) 8 = f.ca ∧ bitsAt (leNat r) 24 7 = (f.mfas + framesIn (s.now - f.mfasAt)) % 128) ∧
      (Runs formFrmStatus e s s1 → d.domOn n = false → exec (.cmdFrmStatus e) s = .next (s1.refuses formFrmStatus e .domainOff 0)) ∧
      (Runs formChanStatus e s s1 → d.domOn (u16 e 0 / 128) = true → u16 e 0 % 128 < d.rxSlots (u16 e 0 / 128) → ∃ r,
        exec (.cmdChanStatus e) s = .next (s1.completes formChanStatus e r (d.parityRuns (u16 e 0 / 128) (pathParity (u16 e 0)))) ∧ bitAt (leNat r) 7 = (d.bundleOf (u16 e 0)).isSome ∧
        bitsAt (leNat r) 16 5 = (d.chanAt (u16 e 0)).defects % 32 ∧ bitAt (leNat r) 21 = d.chanCa (u16 e 0)) ∧
      (Runs formChanStatus e s s1 → d.domOn (u16 e 0 / 128) = true → d.rxSlots (u16 e 0 / 128) ≤ u16 e 0 % 128 →
        exec (.cmdChanStatus e) s = .next (s1.refuses formChanStatus e .badParam 8)) ∧
      (Runs formFrmTti e s s1 → ttiFault e = none → d.domState n = .off → exec (.cmdFrmTti e) s = .next (s1.refuses formFrmTti e .domainOff 0)) ∧
      (Runs formFrmTti e s s1 → ttiFault e = none → d.domState n ≠ .off → u8 e 1 = 0 → exec (.cmdFrmTti e) s = .next (s1.completes formFrmTti e []
        (d.updFrm n fun f => { f with ttiTx := ((payload e).drop 3).take 64 }))) ∧
      (Runs formFrmTti e s s1 → ttiFault e = none → d.domState n ≠ .off → u8 e 1 = 1 → s.par.val (pFrmTimMode + n) = 0 → exec (.cmdFrmTti e) s = .next (s1.completes formFrmTti e []
        (d.updFrm n fun f => { f with ttiExp := ((payload e).drop 3).take 64, tim := false }))) ∧
      (Runs formFrmTti e s s1 → ∀ k, ttiFault e = some k → exec (.cmdFrmTti e) s = .next (s1.refuses formFrmTti e .badParam k)))

/-! ### Rate steps -/

/-- R233, R235, R236, R243, R256, R483: the rate commands in the cases written out, their effect and refusals. -/
def Obligations.RateCommands : Prop :=
  ∀ (e : CmdEntry) (s s1 : State), let n := u8 e 0; let d := s.dev; let r := s.dev.rate n; let b := u8 e 0; let x := s.dev.bundleAt b
    let p := targetPoint (csSlots e) (csMode1 e) (csEntropy e) (csRate e)
    (∀ roomOk, Runs formRateStep e s s1 → layoutFault (payload e) (csLayout e) = none → csProfile e = 0 → d.inService = true → (d.carrier n).heldDown = false →
      (d.domOn n = false → exec (.cmdRateStep e roomOk) s = .next (s1.refuses formRateStep e .domainOff 0)) ∧
      (d.domOn n = true → d.stepReady n = false → exec (.cmdRateStep e roomOk) s = .next (s1.refuses formRateStep e .state 0)) ∧
      (d.domOn n = true → d.stepReady n = true → d.stepFault s.env n p (csMode1 e) (csEntropy e) = none →
        ((d.tx n).op = some p → (d.rx n).op = some p → exec (.cmdRateStep e roomOk) s = .next (s1.refuses formRateStep e .badParam (if csMode1 e then 14 else 12))) ∧
        ((d.tx n).op ≠ some p → d.stepTraffic n p.slots = true → exec (.cmdRateStep e roomOk) s = .next (s1.refuses formRateStep e .trafficPresent 0)) ∧
        (∀ q : OpPoint, (d.rx n).op = some q → q ≠ p → q.symrate = p.symrate → d.stepTraffic n p.slots = false → d.elasticOf n = none → d.anyRateBusy = false →
          exec (.cmdRateStep e roomOk) s = .next (s1.starts formRateStep e (s.par.nat (pRsAckTimeout + n) * ms + 5 * ms) (Dev.sendRs
            (d.updRate n fun r => { r with
              st := .reqSent, responder := false, seq := (r.seq + 1) % 16, slots := p.slots, h := p.h, oldSlots := q.slots, oldH := q.h,
              txDone := false, rxDone := false, shadow := false, loading := false, throttling := false, throttled := false, room := roomOk, auto := false,
              start := s.now, missed := none })
            s.env n ⟨opReq, (r.seq + 1) % 16, p.slots, p.h, 0⟩))))) ∧
    (∀ roomOk, Runs formRateStep e s s1 → layoutFault (payload e) (csLayout e) = none → csProfile e ≠ 0 →
      exec (.cmdRateStep e roomOk) s = .next (s1.refuses formRateStep e .state 0)) ∧
    (Runs formRateStatus e s s1 → d.domState n = .off → exec (.cmdRateStatus e) s = .next (s1.refuses formRateStatus e .domainOff 0)) ∧
    (Runs formRateStatus e s s1 → d.domState n ≠ .off → ∃ res, exec (.cmdRateStatus e) s = .next (s1.completes formRateStatus e res d) ∧
      bitsAt (leNat res) 0 3 = r.st.code ∧ bitAt (leNat res) 3 = r.responder ∧ bitsAt (leNat res) 4 4 = r.seq % 16 ∧ bitsAt (leNat res) 8 8 = r.slots % 256 ∧
      bitsAt (leNat res) 16 16 = r.h % 65536 ∧ bitsAt (leNat res) 32 8 = r.lastCause % 256 ∧
      bitsAt (leNat res) 64 32 = d.counter (ctrStepsDone n) % 2 ^ 32 ∧ bitsAt (leNat res) 96 32 = d.counter (ctrStepsFailed n) % 2 ^ 32) ∧
    (Runs formRateElastic e s s1 → d.hasBundle b = true → bitAt (u8 e 1) 0 = true →
      (x.first + x.count = d.txSlots x.carrier → d.elasticOf x.carrier = none → x.attach = .none → d.groupsOf b = [] →
        exec (.cmdRateElastic e) s = .next (s1.completes formRateElastic e [] (d.updBundle b fun x => { x with elastic := true }))) ∧
      (x.first + x.count ≠ d.txSlots x.carrier ∨ (d.elasticOf x.carrier).isSome = true ∨ (∃ q, x.attach = .eth q) ∨ d.groupsOf b ≠ [] →
        exec (.cmdRateElastic e) s = .next (s1.refuses formRateElastic e .state 0))) ∧
    (Runs formRateElastic e s s1 → d.hasBundle b = false → exec (.cmdRateElastic e) s = .next (s1.refuses formRateElastic e .badParam 8)) ∧
    (Runs formRateElastic e s s1 → d.hasBundle b = true → bitAt (u8 e 1) 0 = false →
      exec (.cmdRateElastic e) s = .next (s1.completes formRateElastic e [] (d.updBundle b fun x => { x with elastic := false })))

/-- R237 to R243: each event of the handshake, where it is that event of the step in hand; and the receiver's second attempt after a missed switch. -/
def Obligations.HandshakeEvents : Prop :=
  ∀ (s : State) (c : Fin 4), let n : Nat := c; let d := s.dev; let r := s.dev.rate n; let f := s.dev.rsIn n
    (∀ roomOk, f.op = opReq → r.st = .idle → s.par.val (pRsAccept + n) = 0 →
      exec (.rsReqRx c roomOk) s = .next (s.commit (d.sendRs s.env n ⟨opNak, f.seq, f.slots, f.h, 1⟩))) ∧
    (∀ roomOk, f.op = opReq → r.st = .reqSent →
      exec (.rsReqRx c roomOk) s = .next (s.commit (Dev.nak (d.stepFail s.env n 7 .busy 0) s.env n 7))) ∧
    (∀ (roomOk : Bool) (q : OpPoint), f.op = opReq → r.st = .idle → s.par.val (pRsAccept + n) ≠ 0 → d.anyRateBusy = false →
      d.reqCheck s.env n ⟨0, f.slots, f.h⟩ = none → (d.rx n).op = some q → q.symrate = (⟨0, f.slots, f.h⟩ : OpPoint).symrate → d.stepTraffic n f.slots = false →
      d.elasticOf n = none → exec (.rsReqRx c roomOk) s = .next (s.commit (Dev.sendRs
        (Dev.updRate (Dev.raise d .rateReqRx n [(1, f.seq), (1, f.slots), (2, f.h)]) n fun r => { r with
          st := .ackSent, responder := true, seq := f.seq, slots := f.slots, h := f.h, oldSlots := q.slots, oldH := q.h,
          txDone := false, rxDone := false, shadow := false, loading := false, throttling := false, throttled := false, room := roomOk, auto := false,
          start := s.now, missed := none })
        s.env n ⟨opAck, f.seq, f.slots, f.h, 0⟩))) ∧
    (∀ roomOk : Bool, f.op = opReq → r.st = .idle → s.par.val (pRsAccept + n) ≠ 0 → d.anyRateBusy = false → d.reqCheck s.env n ⟨0, f.slots, f.h⟩ = none →
      d.stepTraffic n f.slots = true → exec (.rsReqRx c roomOk) s = .next (s.commit (Dev.nak (Dev.stepFail
        (Dev.updRate (Dev.raise d .rateReqRx n [(1, f.seq), (1, f.slots), (2, f.h)]) n fun r => { r with
          responder := true, seq := f.seq, slots := f.slots, h := f.h, start := s.now }) s.env n 3 .state 0) s.env n 3))) ∧
    (r.st = .reqSent → f.op = opAck → f.seq = r.seq → exec (.rsAckRx c) s = .next (s.commit
      (Dev.sendRs (d.updRate n fun r => { r with st := .committed }) s.env n ⟨opCommit, r.seq, r.slots, r.h, s.par.nat (pRsCountdown + n)⟩))) ∧
    (r.st = .reqSent → f.op = opNak → f.seq = r.seq →
      exec (.rsNakRx c) s = .next (s.commit (d.stepAbandon s.env n f.cd .state (0x0100 + f.cd)))) ∧
    (r.st = .ackSent → f.op = opCommit → f.seq = r.seq → exec (.rsCommitRx c) s = .next (s.commit
      (Dev.sendRs (d.updRate n fun r => { r with st := .committed }) s.env n ⟨opCommit, r.seq, r.slots, r.h, s.par.nat (pRsCountdown + n)⟩))) ∧
    (r.responder = true → r.uncommitted = true → f.op = opAbort → f.seq = r.seq →
      exec (.rsAbortRx c) s = .next (s.commit (Dev.sendIdle (d.stepFail s.env n 10 .state 0) s.env n))) ∧
    (r.st = .reqSent → exec (.rsAckTimeout c) s = .next (s.commit (d.stepAbandon s.env n 9 .timeout 0))) ∧
    (r.st = .prepare → r.throttling = true → d.throttleMet n = true → r.responder = false → d.stepNeedsRoom n = false ∨ r.room = true → exec (.rsThrottleDone c) s = .next (s.commit
      (Dev.sendRs (d.updRate n fun r => { r with throttling := false, st := .reqSent }) s.env n ⟨opReq, r.seq, r.slots, r.h, 0⟩))) ∧
    (r.st = .prepare → r.throttling = true → r.responder = false → exec (.rsThrottleTimeout c) s = .next (s.commit (d.stepFail s.env n 8 .noCredit 0))) ∧
    (r.st = .prepare → r.throttling = true → r.responder = true → exec (.rsThrottleTimeout c) s = .next (s.commit
      (Dev.sendRs (d.stepFail s.env n 8 .noCredit 0) s.env n ⟨opNak, r.seq, r.slots, r.h, 8⟩))) ∧
    (r.st = .txSwitched → r.rxDone = false → exec (.rsSplitTimeout c) s = .next (s.commit
      (Dev.updRate (d.stepFail s.env n 12 .state 0) n fun r => { r with st := .split, split := true }))) ∧
    (r.missed = some false → d.locked n = false → exec (.missedSwitchRetry c) s = .next (s.commit (Dev.startFast
      (Dev.updRx (Dev.stopRx (Dev.calPoint (d.updRate n fun r => { r with missed := some true }) s.env n ⟨0, r.slots, r.h⟩) s.env n .down) n fun x => { x with
        op := some ⟨0, r.slots, r.h⟩ }) s.env n)))

/-- R214, R240 to R243: the switches. At the end of its countdown the transmitter takes the new point; the receiver takes it at the far end's frame; the one that
comes second ends the step: the state is IDLE, no cause stands, RATE_STEP_DONE_Cn is raised and the step counts; the other carriers' steps stay. -/
def Obligations.RateSwitches : Prop :=
  (∀ (s : State) (c : Fin 4), let n : Nat := c; let d := s.dev; let r := s.dev.rate n; let p : OpPoint := ⟨0, (s.dev.rate n).slots, (s.dev.rate n).h⟩
      (∀ q : OpPoint, (d.tx n).op = some q → q.sameFs p = true → r.st = .committed → r.tx.cd ≤ 1 → d.elasticOf n = none → r.responder = true → r.missed = none →
        r.rxDone = false → ∃ res d4, exec (.rsTxSwitch c) s = .next (s.commit d4) ∧
        carrierSetResult p (Dev.sendIdle (Dev.updRate (d.updTx n fun t => t.switchPoint s.now p) n fun r => { r with
          st := .txSwitched, txDone := true, throttled := false, txSwitchAt := s.now }) s.env n) = (res, d4)) ∧
      (r.st = .txSwitched → r.rxDone = false → r.txDone = true → r.shadow = false → d.locked n = true → exec (.rsRxSwitch c) s = .next (s.commit
        (Dev.stepDone (Dev.updSense (Dev.updRate (Dev.updRx (d.calPoint s.env n p) n fun x => { x with op := some p, repeatAt := none }) n
          fun r => { r with rxDone := true, shadow := false }) n fun x => { x with sigma := some s.now }) s.env n))) ∧
      (r.st = .committed → r.rxDone = false → r.txDone = false → r.shadow = false → d.locked n = true → exec (.rsRxSwitch c) s = .next (s.commit
        (Dev.updSense (Dev.updRate (Dev.updRx (d.calPoint s.env n p) n fun x => { x with op := some p, repeatAt := none }) n
          fun r => { r with rxDone := true, shadow := false }) n fun x => { x with sigma := some s.now })))) ∧
  (∀ (d : Dev) (env : Env) (n : Nat), let t := d.stepDone env n
      (t.rate n).st = .idle ∧ (t.rate n).lastCause = 0 ∧ (t.rate n).lastDuration = (env.now - (d.rate n).start) / us ∧ (t.rate n).seq = (d.rate n).seq ∧
      t.counter (ctrStepsDone n) = (d.counter (ctrStepsDone n) + 1) % 2 ^ 48 ∧ (∀ m, m ≠ n → t.rate m = d.rate m) ∧ t.tx n = d.tx n ∧ t.rx n = d.rx n)


/-- R244, R245, R364: each second a run of the policy program starts on its engines, and a run that finds no room raises RATE_BLOCKED_Cn of reason 1, once in 60 s;
a decision needs the run, and ends it: with the policy off nothing else; and where the predicted margin is
below the floor, with a policy that advises, RATE_ADVICE_Cn. That the seconds are those of the time base is the model's choice (log entry 184). -/
def Obligations.RatePolicy : Prop :=
  (∀ (s : State) (c : Fin 4), let n : Nat := c; let d := s.dev; let d1 := s.dev.endRun .ratePolicy n
    (d.runPlaced .ratePolicy n = false → exec (.ratePolicyDecision c) s = .next (s.commit d)) ∧
    (d.runPlaced .ratePolicy n = true → s.par.val (pRsPolicy + n) = 0 ∨ d1.policyReady n = false →
      exec (.ratePolicyDecision c) s = .next (s.commit (d1.updRate n fun r => { r with upSince := none }))) ∧
    (∀ (down : Bool) (p : OpPoint), s.par.nat (pRsMinSlots + n) ≤ p.slots → p.slots ≤ s.par.nat (pRsMaxSlots + n) → (down = true → d.stepTraffic n p.slots = false) →
      s.par.val (pRsPolicy + n) = 1 → d.policyAct s.env n down p =
        Dev.raise (d.updRate n fun r => { r with adviceSlots := p.slots, adviceH := p.h }) .rateAdvice n [(1, p.slots), (2, p.h)]) ∧
    (∀ (m : Int) (t : Nat), s.par.val (pRsPolicy + n) = 1 → d.runPlaced .ratePolicy n = true → d1.policyReady n = true →
      m = 4 * (d1.rx n).meas.margin - snrShift4 (d1.fec n).iter (d1.fec n).latmode → (d1.rate n).margins = [(t, m)] → t < s.now → s.now < t + s.par.nat (pRsTrendWin + n) * sec →
      ¬ m < 4 * s.par.val (pRsDownMargin + n) → ¬ 64 * s.par.val (pRsUpMargin + n) +
        (((policyTarget s.env n (d1.txSlots n + s.par.nat (pRsStepSlots + n)) d1).requiredSnr64 : Int) - (((d1.tx n).op.map OpPoint.requiredSnr64).getD 0 : Nat)) < 16 * m →
      exec (.ratePolicyDecision c) s = .next (s.commit (d1.updRate n fun r => { r with margins := [(s.now, m), (t, m)], upSince := none })))) ∧
  (∀ (d : Dev) (env : Env) (n : Nat), env.par.val (pRsPolicy + n) ≠ 0 → (d.rate n).policySec < env.now / sec → d.inService = true → d.domOn n = true →
    d.runs.any (isRun .ratePolicy n) = false → env.mbx = .ready →
    let d1 := Dev.startRun (d.updRate n fun r => { r with policySec := env.now / sec }) env .ratePolicy n
    (d1.runPlaced .ratePolicy n = true → d.policyFollow env n = d1) ∧
    (d1.runPlaced .ratePolicy n = false → (d1.rate n).blockedAt = none → d.policyFollow env n =
      Dev.raise (d1.updRate n fun r => { r with upSince := none, blockedAt := some env.now }) .rateBlocked n [(1, 1), (1, 0)]) ∧
    (∀ t, d1.runPlaced .ratePolicy n = false → (d1.rate n).blockedAt = some t → env.now < t + 60 * sec →
      d.policyFollow env n = d1.updRate n fun r => { r with upSince := none }))

/-! ### Protection groups -/

/-- R246 to R254, R256, R258: the protection commands in the cases written out, their effect and refusals. -/
def Obligations.ProtectionCommands : Prop :=
  ∀ (e : CmdEntry) (s s1 : State), let g := u8 e 0; let d := s.dev; let x := s.dev.groupAt g
    (Runs formProtCreate e s s1 → let w := d.bundleAt (u8 e 1); let p := d.bundleAt (u8 e 2)
      (d.hasGroup g = true → exec (.cmdProtCreate e) s = .next (s1.refuses formProtCreate e .badParam 8)) ∧
      (d.hasGroup g = false → d.interop w.carrier = false → d.interop p.carrier = false → d.hasBundle (u8 e 1) = true → w.buffered = false → w.elastic = false → d.hasBundle (u8 e 2) = true → p.buffered = false →
        p.elastic = false → p.count = w.count → p.carrier ≠ w.carrier → p.st = .disabled → d.attached (u8 e 2) = false → d.protectedChans + w.count ≤ 256 →
        fitsRegion d.stacksFor (d.protectedChans + w.count) (s.par.nat pProtMaxDelay) = true → fitsBandwidth d.stacksFor d.bufferedChans (d.protectedChans + w.count) = true →
        d.rateBusy w.carrier = false → d.rateBusy p.carrier = false → exec (.cmdProtCreate e) s = .next (s1.completes formProtCreate e [] { d with
          group := d.group.set g { Group.absent with work := u8 e 1, prot := u8 e 2, revert := bitAt (u8 e 3) 0, sdEn := bitAt (u8 e 3) 1,
                                                     holdoff := u16 e 4, wtr := u16 e 6 } }))) ∧
    (Runs formProtDelete e s s1 → d.hasGroup g = true →
      (x.armed = true → exec (.cmdProtDelete e) s = .next (s1.refuses formProtDelete e .trafficPresent 0)) ∧
      (x.armed = false → exec (.cmdProtDelete e) s = .next (s1.completes formProtDelete e [] { d with group := d.group.drop g }))) ∧
    (Runs formProtArm e s s1 → d.hasGroup g = true → bitAt (u8 e 1) 0 = true → x.armed = false → (d.bundleAt x.work).carrier < 4 → (d.bundleAt x.prot).carrier < 4 →
      (d.domOn (d.bundleAt x.work).carrier = false → exec (.cmdProtArm e) s = .next (s1.refuses formProtArm e .domainOff 0)) ∧
      (d.domOn (d.bundleAt x.work).carrier = true → d.domOn (d.bundleAt x.prot).carrier = true → d.anyStack = true →
        fitsRegion d.stacksFor d.protectedChans (s.par.nat pProtMaxDelay) = true → exec (.cmdProtArm e) s = .next
          (s1.starts formProtArm e (s.par.nat pProtMaxDelay * us + 50 * ms)
            (Dev.updBundle (d.updGroup g fun x => { x with st := .filling, armForce := force e, selProt := false, protWas := decide ((d.bundleAt x.prot).st = .enabled) }) x.prot fun b =>
              { b with st := if b.st = .enabled then .enabled else .enabling })))) ∧
    (Runs formProtArm e s s1 → d.hasGroup g = true → bitAt (u8 e 1) 0 = false →
      (x.armed = false → exec (.cmdProtArm e) s = .next (s1.completes formProtArm e [] d)) ∧
      (x.st = .filling → exec (.cmdProtArm e) s = .next (s1.completes formProtArm e [] (d.disarm g)))) ∧
    (Runs formProtSwitch e s s1 → d.hasGroup g = true →
      (x.armed = false → exec (.cmdProtSwitch e) s = .next (s1.refuses formProtSwitch e .state 0)) ∧
      (x.armed = true → u8 e 1 = 0 → exec (.cmdProtSwitch e) s = .next (s1.completes formProtSwitch e []
        (d.updGroup g fun x => { x with host := 0, wtrEnd := none }))) ∧
      (x.armed = true → u8 e 1 = 1 ∨ u8 e 1 = 2 → exec (.cmdProtSwitch e) s = .next (s1.completes formProtSwitch e [] (d.updGroup g fun x => { x with host := u8 e 1 }))) ∧
      (x.armed = true → 3 ≤ u8 e 1 → 1 ≤ x.winner.1 → x.winner.1 ≤ 5 → exec (.cmdProtSwitch e) s = .next (s1.refuses formProtSwitch e .state 0))) ∧
    (Runs formProtStatus e s s1 → d.hasGroup g = true → ∃ r, let d1 := (d.diffRuns s.env g).framesRun g; let y := d1.groupAt g
      exec (.cmdProtStatus e) s = .next (s1.completes formProtStatus e r d1) ∧
      bitsAt (leNat r) 0 2 = x.st.code ∧ bitAt (leNat r) 2 = x.selProt ∧ bitAt (leNat r) 3 = y.earlierProt ∧ bitsAt (leNat r) 4 4 = x.rank % 16 ∧
      bitAt (leNat r) 12 = x.wAligned ∧ bitAt (leNat r) 13 = x.pAligned ∧ bitsAt (leNat r) 32 32 = y.diff % 2 ^ 32 ∧
      (x.st ≠ .aligned → y.diff = x.diff ∧ y.earlierProt = x.earlierProt)) ∧
    (Runs formProtStatus e s s1 → d.hasGroup g = false → exec (.cmdProtStatus e) s = .next (s1.refuses formProtStatus e .badParam 8))

/-- R249 to R255, Table 10-6: the protection events; which request wins, from the highest rank to the lowest; and a switch counts and moves SEL, of this
group alone. -/
def Obligations.ProtectionEvents : Prop :=
  (∀ (s : State) (g : Fin 64), let d := s.dev; let x := s.dev.groupAt g
      (∀ (diff : Nat) (ep : Bool) (m : LegMatch), x.st = .filling → 1 < (matchOffsets m).length → x.ambig = false → exec (.protAlign g diff ep m) s = .next (s.commit
        (Dev.raise (d.updGroup g fun x => { x with ambig := true }) .protAlignAmbig g []))) ∧
      (∀ (diff : Nat) (ep : Bool) (m : LegMatch), x.st = .filling → matchOffsets m = [multiframesIn diff] → s.par.nat pProtMaxDelay * us < diff →
        exec (.protAlign g diff ep m) s = .next (s.commit
        (Dev.finish (Dev.disarm (Dev.raise d .protDelayRange g [(4, diff)]) g) 0x0512 g .badParam 0x0540 []))) ∧
      (∀ (diff : Nat) (m : LegMatch), x.st = .filling → matchOffsets m = [multiframesIn diff] → diff ≤ s.par.nat pProtMaxDelay * us →
        exec (.protAlign g diff true m) s = .next (s.commit
        (Dev.finish (Dev.raise (Dev.count (d.updGroup g fun x =>
          { x with st := .aligned, wAligned := true, pAligned := true, earlierProt := true, diff := diff, wHold := 0, pHold := diff, diffAt := s.now })
          (ctrProt protGapUs g) 0) .protAligned g [(4, diff), (1, 1)]) 0x0512 g .ok 0 []))) ∧
      (∀ subst damaged : Nat, x.armed = true → exec (.protHoldoffExpiry g subst damaged) s = .next (s.commit (Dev.countFrames
        (Dev.protSelect (d.updGroup g fun x => { x with
          wSf := x.acting s.now x.wSf x.wSfAt, pSf := x.acting s.now x.pSf x.pSfAt, wSd := x.acting s.now x.wSd x.wSdAt, pSd := x.acting s.now x.pSd x.pSdAt,
          wtrEnd := (if x.acting s.now x.wSf x.wSfAt || (x.sdEn && x.acting s.now x.wSd x.wSdAt) then none else x.wtrEnd) }) g)
        g subst damaged))) ∧
      (s.io.mbxState = .ready → x.wtrEnd.isSome = true → exec (.protWtrExpiry g) s = .next (s.commit
        (Dev.protSelect (d.updGroup g fun x => { x with wtrEnd := none }) g))) ∧
      (∀ (early : Int) (diff subst damaged : Nat), x.st = .degraded → x.stuck = false → d.legFails s.env x.work = false → x.wAligned = false → x.pAligned = true →
        diff ≤ s.par.nat pProtMaxDelay * us → 2000 ≤ early → early - 2000 ≤ (s.par.nat pProtMaxDelay * us : Nat) → exec (.protLegReturn g false early diff subst damaged) s = .next (s.commit
          (Dev.updGroup (d.countFrames g subst damaged) g fun x => x.rejoin s.now false (early - 2000).toNat 0))) ∧
      (∀ (early : Int) (diff subst damaged : Nat), x.st = .degraded → x.stuck = false → d.legFails s.env x.prot = false → x.pAligned = false →
        s.par.nat pProtMaxDelay * us < diff ∨ (s.par.nat pProtMaxDelay * us : Nat) < early - 2000 → exec (.protLegReturn g true early diff subst damaged) s = .next (s.commit
          (Dev.raise (Dev.updGroup (d.countFrames g subst damaged) g fun x => { x with stuck := true }) .protDelayRange g [(4, diff)])))) ∧
  (∀ (x : Group) (now hold raise : Nat), let y := x.rejoin now false hold raise
      y.wAligned = true ∧ y.pAligned = x.pAligned ∧ y.st = (if x.pAligned then .aligned else .degraded) ∧ y.wHold = hold ∧ y.pHold = x.pHold + raise ∧
      y.diff = ((hold : Int) - (x.pHold + raise : Nat)).natAbs ∧ (hold < x.pHold + raise → y.earlierProt = true) ∧ (x.pHold + raise < hold → y.earlierProt = false)) ∧
  ((∀ x : Group, (x.host = 1 → x.winner = (1, false)) ∧ (x.host ≠ 1 → x.pSf = true → x.winner = (2, false)) ∧
      (x.host = 2 → x.pSf = false → x.winner = (3, true)) ∧ (x.host ≠ 1 → x.host ≠ 2 → x.pSf = false → x.wSf = true → x.winner = (4, true)) ∧
      (x.host = 3 → x.pSf = false → x.wSf = false → x.pSd = false → x.wSd = false → x.winner = (6, true)) ∧
      (x.host = 3 → x.pSf = false → x.wSf = false → x.sdEn = false → x.wSd = true → x.revert = false → x.winner = (0, x.selProt)) ∧
      (x.host = 0 → x.pSf = false → x.wSf = false → x.sdEn = false → x.revert = true → x.wtrEnd.isSome = true → x.winner = (7, true)) ∧
      (x.host = 0 → x.pSf = false → x.wSf = false → x.sdEn = false → x.revert = true → x.wtrEnd = none → x.winner = (0, false)) ∧
      (x.host = 0 → x.pSf = false → x.wSf = false → x.sdEn = false → x.revert = false → x.winner = (0, x.selProt))) ∧
    (∀ (d : Dev) (g : Nat), ((d.protSelect g).groupAt g).selProt = (d.groupAt g).winner.2 ∧
      ((d.groupAt g).winner.2 ≠ (d.groupAt g).selProt → (d.protSelect g).counter (ctrProt protSwitches g) = (d.counter (ctrProt protSwitches g) + 1) % 2 ^ 48) ∧
      (∀ h, h ≠ g → (d.protSelect g).groupAt h = d.groupAt h)))

/-! ### Client lanes and Ethernet ports -/

/-- R283, R293 to R301, R307: the events of a lane, its status and its test state. -/
def Obligations.ClientLanes : Prop :=
  ∀ (s : State), let d := s.dev
    (∀ l : Fin 64, let x := d.lane l
      (d.lanePowered l = true → x.los = false → exec (.laneLosChange l true) s = .next (s.commit
        (Dev.count (d.updLane l fun x => { x with los := true, cdr := false, adapt := .off, chkLock := x.chkLock && decide (x.loopback = 2), chkInv := x.chkInv && decide (x.loopback = 2) }) (ctrLane laneLos l) 1))) ∧
      (d.lanePowered l = true → x.los = true → exec (.laneLosChange l false) s = .next (s.commit (d.updLane l fun x => { x with los := false }))) ∧
      (d.lanePowered l = true → x.los = false → exec (.laneCdrLock l) s = .next (s.commit (d.updLane l fun x => { x with cdr := true, adapt := .initial }))) ∧
      (x.cdr = true → exec (.laneCdrLockLoss l) s = .next (s.commit
        (d.updLane l fun x => { x with cdr := false, adapt := .off, chkLock := x.chkLock && decide (x.loopback = 2), chkInv := x.chkInv && decide (x.loopback = 2) }))) ∧
      (x.adapt = .initial → exec (.laneAdaptEnd l) s = .next (s.commit
        (d.draw.2.updLane l fun x => { x with adapt := if s.env.adaptMode l = 1 then .frozen else .tracking, ctle := d.draw.1 % 41, dfe1 := (d.draw.1 / 41 % 256 : Nat) - 128 }))) ∧
      (∀ r : LaneReport, x.adapt = .frozen → x.coefficients r = (x.ctle, x.dfe1)) ∧
      (∀ r : LaneReport, x.adapt = .tracking → x.coefficients r = (x.ctle, r.dfe1)) ∧
      (∀ r : LaneReport, d.lanePowered l = true → d.laneTunes l = false → x.cdr = true → ¬ r.fom < s.par.val pLaneFomMin → x.chkLock = false → exec (.laneFomWindow l r) s = .next (s.commit
        (d.updLane l fun _ => { x with fom := r.fom, fomLow := 0, ctle := (x.coefficients r).1, dfe1 := (x.coefficients r).2, freq := r.freq }))) ∧
      (∀ r : LaneReport, d.lanePowered l = true → d.laneTunes l = false → x.cdr = true → r.fom < s.par.val pLaneFomMin → x.fomLow = 9 → x.fomLowAt = none → x.chkLock = false →
        exec (.laneFomWindow l r) s = .next (s.commit (Dev.raise
          (d.updLane l fun _ => { x with fom := r.fom, fomLow := 10, ctle := (x.coefficients r).1, dfe1 := (x.coefficients r).2, freq := r.freq, fomLowAt := some s.now })
          .laneFomLow l [(2, r.fom)]))) ∧
      (∀ r : LaneReport, d.lanePowered l = true → d.laneTunes l = true → x.cdr = true → ¬ r.fom < s.par.val pLaneFomMin → x.chkLock = false →
        exec (.laneFomWindow l r) s = .next (s.commit (d.updLane l fun _ => Lane.sweepWindow
          { x with fom := r.fom, fomLow := 0, ctle := (x.coefficients r).1, dfe1 := (x.coefficients r).2, freq := r.freq } s.now r.fom))) ∧
      (∀ inv : Bool, d.lanePowered l = true → x.chk ≠ 0 → x.chkLock = false → exec (.prbsCheckerLock l inv) s = .next (s.commit
        (d.updLane l fun x => { x with chkLock := true, chkInv := inv }))) ∧
      (x.chkLock = true → exec (.prbsCheckerLoss l) s = .next (s.commit
        (Dev.count (d.updLane l fun x => { x with chkLock := false, chkInv := false }) (ctrLane laneRelock l) 1)))) ∧
    (∀ (e : CmdEntry) (s1 : State), let l := u8 e 0; let x := d.lane l
      (Runs formLaneStatus e s s1 → d.laneOn l = true → ∃ r, exec (.cmdLaneStatus e) s = .next (s1.completes formLaneStatus e r d) ∧
        bitsAt (leNat r) 0 2 = d.quadMode (l / 4) ∧ bitAt (leNat r) 2 = x.los ∧ bitAt (leNat r) 3 = x.cdr ∧ bitsAt (leNat r) 4 2 = x.adapt.code % 4 ∧
        bitsAt (leNat r) 6 2 = x.loopback % 4 ∧ bitsAt (leNat r) 16 4 = x.gen % 16 ∧ bitsAt (leNat r) 20 4 = x.chk % 16 ∧ bitAt (leNat r) 24 = x.chkLock) ∧
      (Runs formLaneStatus e s s1 → d.laneOn l = false → exec (.cmdLaneStatus e) s = .next (s1.refuses formLaneStatus e .domainOff 0)) ∧
      (Runs formLaneTest e s s1 →
        (64 < l + u8 e 1 → exec (.cmdLaneTest e) s = .next (s1.refuses formLaneTest e .badParam 9)) ∧
        (l + u8 e 1 ≤ 64 → 6 < ltGen e ∨ 5 < ltChk e → exec (.cmdLaneTest e) s = .next (s1.refuses formLaneTest e .badParam 10)) ∧
        (l + u8 e 1 ≤ 64 → ltGen e ≤ 6 → ltChk e ≤ 5 → d.inService = true → (∃ k ∈ ltLanes e, d.laneOn k = false) →
          exec (.cmdLaneTest e) s = .next (s1.refuses formLaneTest e .domainOff 0)) ∧
        (l + u8 e 1 ≤ 64 → ltGen e ≤ 6 → ltChk e ≤ 5 → d.inService = true → (∀ k ∈ ltLanes e, d.laneOn k = true) → d.partLoopback (ltLanes e) (ltLoopback e) = false →
          ltLoopback e ≠ 0 ∨ ltGen e ≠ 0 → (∃ k ∈ ltLanes e, d.laneTraffic k = true) → force e = false →
          exec (.cmdLaneTest e) s = .next (s1.refuses formLaneTest e .trafficPresent 0)) ∧
        (l + u8 e 1 ≤ 64 → ltGen e ≤ 6 → 0 < ltGen e → ltChk e ≤ 5 → d.inService = true → (∀ k ∈ ltLanes e, d.laneOn k = true) →
          d.partLoopback (ltLanes e) (ltLoopback e) = false → (∀ k ∈ ltLanes e, d.laneTraffic k = false) → bitAt (u8 e 3) 3 = false →
          (∀ k, (d.lane k).gen = 0) → (∀ k ∈ ltLanes e, ∀ p, d.stitchOfLane k = some p → (d.stitch p).srefLost = false) →
          exec (.cmdLaneTest e) s = .next (s1.completes formLaneTest e [] (d.setTest (ltLanes e) (ltLoopback e) (ltGen e) (ltChk e) (bitAt (u8 e 3) 2))))))

/-- R287 to R291, R302 to R306: the commands of an Ethernet port and its events. -/
def Obligations.EthernetPorts : Prop :=
  ∀ (s : State), let d := s.dev
    (∀ (e : CmdEntry) (s1 : State), let p := u8 e 0; let x := d.ethAt p
      (Runs formEthCreate e s s1 → let b := d.bundleAt (u8 e 3); let y : EthPort := { EthPort.absent with type := u8 e 1, first := u8 e 2, bundle := u8 e 3 }
        (d.hasEth p = true → exec (.cmdEthPortCreate e) s = .next (s1.refuses formEthCreate e .badParam 8)) ∧
        (d.hasEth p = false → y.first % ethLanes y.type ≠ 0 ∨ 64 < y.first + ethLanes y.type →
          exec (.cmdEthPortCreate e) s = .next (s1.refuses formEthCreate e .badParam 10)) ∧
        (d.hasEth p = false → y.first % ethLanes y.type = 0 → y.first + ethLanes y.type ≤ 64 →
          (∀ l ∈ y.lanes, d.ethOfLane l = none ∧ d.stitchOfLane l = none ∧ d.quadMode (l / 4) ≠ 2) →
          d.hasBundle (u8 e 3) = true → b.count = ethChans y.type → b.attach = .none → b.elastic = false → d.interop b.carrier = false → d.group = [] → d.rateBusy b.carrier = false →
          let d1 := (List.range 8).foldl (fun d k => d.restartCounter (ctrEth k p)) d
          exec (.cmdEthPortCreate e) s = .next (s1.completes formEthCreate e []
            (Dev.updBundle { d1 with cli := { d1.cli with eth := d1.cli.eth.set p y } } (u8 e 3) fun b => { b with attach := .eth p }))) ∧
        (d.hasEth p = false → y.first % ethLanes y.type = 0 → y.first + ethLanes y.type ≤ 64 →
          (∀ l ∈ y.lanes, d.ethOfLane l = none ∧ d.stitchOfLane l = none ∧ d.quadMode (l / 4) ≠ 2) → d.interop b.carrier = true →
          d.interopFits (u8 e 3) (d.rxSlots b.carrier) = false → exec (.cmdEthPortCreate e) s = .next (s1.refuses formEthCreate e .badParam 11))) ∧
      (Runs formEthDelete e s s1 →
        (d.hasEth p = false → exec (.cmdEthPortDelete e) s = .next (s1.refuses formEthDelete e .badParam 8)) ∧
        (d.hasEth p = true → x.enabled = true → exec (.cmdEthPortDelete e) s = .next (s1.refuses formEthDelete e .trafficPresent 0)) ∧
        (d.hasEth p = true → x.enabled = false → d.ethBundleOn p = false → exec (.cmdEthPortDelete e) s = .next (s1.completes formEthDelete e []
          (Dev.updBundle { d with cli := { d.cli with eth := d.cli.eth.drop p } } x.bundle fun b => { b with attach := .none })))) ∧
      (Runs formEthEnable e s s1 → d.hasEth p = true →
        (x.enabled = false → bitAt (u8 e 1) 0 = true → d.inService = true → (∃ l ∈ x.lanes, d.laneOn l = false) →
          exec (.cmdEthPortEnable e) s = .next (s1.refuses formEthEnable e .domainOff 0)) ∧
        (x.enabled = false → bitAt (u8 e 1) 0 = true → d.inService = true → (∀ l ∈ x.lanes, d.laneOn l = true) →
          exec (.cmdEthPortEnable e) s = .next (s1.completes formEthEnable e [] (d.updEth p fun x => { x with enabled := true }))) ∧
        (x.enabled = true → bitAt (u8 e 1) 0 = false → d.ethBundleOn p = true → force e = false →
          exec (.cmdEthPortEnable e) s = .next (s1.refuses formEthEnable e .trafficPresent 0)) ∧
        (x.enabled = bitAt (u8 e 1) 0 → exec (.cmdEthPortEnable e) s = .next (s1.completes formEthEnable e [] d))) ∧
      (Runs formEthStatus e s s1 → d.hasEth p = true → ∃ r, exec (.cmdEthPortStatus e) s = .next (s1.completes formEthStatus e r d) ∧
        bitsAt (leNat r) 0 3 = x.st.code ∧ bitsAt (leNat r) 3 2 = x.type % 4 ∧ bitsAt (leNat r) 8 6 = x.first % 64 ∧ bitsAt (leNat r) 16 7 = x.bundle % 128 ∧
        bitAt (leNat r) 23 = x.gfpSync ∧ bitsAt (leNat r) 24 2 = d.txFault p ∧ bitsAt (leNat r) 32 48 = d.counter (ctrEth 0 p) % 2 ^ 48) ∧
      (Runs formEthStatus e s s1 → d.hasEth p = false → exec (.cmdEthPortStatus e) s = .next (s1.refuses formEthStatus e .badParam 8))) ∧
    (∀ p : Fin 32, let x := d.ethAt p
      (∀ (locked : Bool) (corr uncorr : Nat), x.enabled = true → exec (.ethPortStateChange p locked corr uncorr) s = .next (s.commit (Dev.count (Dev.count
        (d.updEth p fun x => { x with aligned := locked && decide (uncorr ≤ s.par.nat pEthUncorrThr) }) (ctrEth 6 p) corr) (ctrEth 7 p) uncorr))) ∧
      (∀ frame : List Byte, x.st = .up → x.rxFault ≠ 1 → d.ethAdmits p = true → 64 ≤ frame.length → frame.length ≤ s.par.nat (pEthMaxFrame + p) → fcsOk frame = true →
        exec (.ethFrameRx p frame false) s = .next (s.commit (Dev.count (d.updEth p fun x => { x with mapped := frame }) (ctrEth 0 p) 1))) ∧
      (∀ frame : List Byte, x.st = .up → x.rxFault ≠ 1 → d.ethAdmits p = false → 64 ≤ frame.length → frame.length ≤ s.par.nat (pEthMaxFrame + p) → fcsOk frame = true →
        exec (.ethFrameRx p frame false) s = .next (s.commit d)) ∧
      (∀ frame : List Byte, x.st = .up → x.rxFault ≠ 1 → d.ethAdmits p = true → 64 ≤ frame.length → frame.length ≤ s.par.nat (pEthMaxFrame + p) →
        exec (.ethFrameRx p frame true) s = .next (s.commit (Dev.count (Dev.count (d.updEth p fun x => { x with mapped := spoilFcs frame })
          (ctrEth 0 p) 1) (ctrEth 1 p) 1))) ∧
      (∀ (frame : List Byte) (err : Bool), x.st = .up → x.rxFault ≠ 1 → s.par.nat (pEthMaxFrame + p) < frame.length ∨ frame.length < 64 →
        exec (.ethFrameRx p frame err) s = .next (s.commit (d.count (ctrEth 2 p) 1))) ∧
      (∀ (frame : List Byte) (held : Nat), x.gfpSync = true → d.lfCause p = true → exec (.ethFrameTx p frame held) s = .next (s.commit d)) ∧
      (∀ (frame : List Byte) (held : Nat), x.gfpSync = true → d.lfCause p = false → x.csfRf = false → d.ethSends p = true →
        (held + frame.length ≤ 2 * s.par.nat (pEthMaxFrame + p) → exec (.ethFrameTx p frame held) s = .next (s.commit
          (Dev.count (Dev.updEth (d.lfEnd p) p fun x => { x with sent := List.replicate 7 0x55 ++ 0xD5 :: frame,
                                                                 gap := if s.par.nat (pEthMaxFrame + p) < held then 9 else 12 }) (ctrEth 3 p) 1))) ∧
        (2 * s.par.nat (pEthMaxFrame + p) < held + frame.length → exec (.ethFrameTx p frame held) s = .next (s.commit (Dev.count (d.lfEnd p) (ctrEth 4 p) 1)))) ∧
      (x.gfpSync = true → exec (.gfpLossOfDelineation p) s = .next (s.commit (Dev.count (d.updEth p fun x => { x with gfpSync := false }) (ctrEth 5 p) 1))) ∧
      (x.gfpSync = false → exec (.gfpDelineationGain p) s = .next (s.commit (Dev.lfEnd (d.updEth p fun x => { x with gfpSync := true }) p))) ∧
      (s.par.on pEthCsfEn = true → d.csfUpi p ≠ 0 → exec (.csfFrameTimer p) s = .next (s.commit
        (d.updEth p fun x => { x with csfSent := d.csfUpi p, csfCount := x.csfCount + 1 }))) ∧
      (x.gfpSync = true → exec (.csfFrameRx p 1) s = .next (s.commit (d.updEth p fun x => { x with csf := 1 })) ∧
        exec (.csfFrameRx p 2) s = .next (s.commit (d.updEth p fun x => { x with csf := 2 })) ∧
        exec (.csfFrameRx p 0xFD) s = .next (s.commit (Dev.lfEnd (d.updEth p fun x => { x with csfRf := true }) p))) ∧
      exec (.csfHoldExpiry p false) s = .next (s.commit (d.updEth p fun x => { x with csf := 0 })) ∧
      exec (.csfHoldExpiry p true) s = .next (s.commit (d.updEth p fun x => { x with csfRf := false })) ∧
      (∀ fault : Fin 3, x.enabled = true → exec (.clientFaultRx p fault) s = .next (s.commit (d.updEth p fun x => { x with rxFault := fault }))))

/-! ### Stitch -/

/-- R293, R310 to R318, R331 to R336: the commands of a Stitch port, its training and its references. -/
def Obligations.StitchPorts : Prop :=
  ∀ (s : State), let d := s.dev
    (∀ (e : CmdEntry) (s1 : State), let p := u8 e 0; let x := d.stitch p; let b := d.bundleAt (u8 e 1)
      (Runs formStitchCreate e s s1 →
        (d.hasStitch p = true → exec (.cmdStitchPortCreate e) s = .next (s1.refuses formStitchCreate e .badParam 8)) ∧
        (d.hasStitch p = false → (∀ i < u8 e 1, d.ethOfLane (16 * p + i) = none ∧ d.quadMode ((16 * p + i) / 4) ≠ 1) → exec (.cmdStitchPortCreate e) s =
          .next (s1.completes formStitchCreate e [] (Dev.updStitch ((List.range 12).foldl (fun d j => d.restartCounter (ctrStitch j p)) d) p fun s =>
            { Stitch.absent with lanes := u8 e 1, baud := u16 e 2, srefLost := s.srefLost, srefFreq := s.srefFreq })))) ∧
      (Runs formStitchDelete e s s1 → d.hasStitch p = true →
        (x.enabled = true ∨ x.flows ≠ [] → exec (.cmdStitchPortDelete e) s = .next (s1.refuses formStitchDelete e .trafficPresent 0)) ∧
        (x.enabled = false → x.flows = [] → exec (.cmdStitchPortDelete e) s = .next (s1.completes formStitchDelete e []
          ((d.updLanes (d.stitchLanes p) Lane.untrain).updStitch p fun s => { Stitch.absent with srefLost := s.srefLost, srefFreq := s.srefFreq })))) ∧
      (Runs formStitchEnable e s s1 → bitAt (u8 e 1) 0 = true →
        (x.enabled = true → exec (.cmdStitchPortEnable e) s = .next (s1.completes formStitchEnable e [] d)) ∧
        (x.enabled = false → d.inService = true → (∃ l ∈ d.stitchLanes p, d.laneOn l = false) →
          exec (.cmdStitchPortEnable e) s = .next (s1.refuses formStitchEnable e .domainOff 0)) ∧
        (x.enabled = false → d.inService = true → (∀ l ∈ d.stitchLanes p, d.laneOn l = true) → d.hasStitch p = true → exec (.cmdStitchPortEnable e) s =
          .next (s1.starts formStitchEnable e (100 * ms) (Dev.stitchTrain (d.updStitch p fun s => { (s.capture s1.par p) with enabled := true }) p)))) ∧
      (Runs formStitchEnable e s s1 → bitAt (u8 e 1) 0 = false → d.hasStitch p = true → x.enabled = true → d.stitchTraffic p = true → force e = false →
        exec (.cmdStitchPortEnable e) s = .next (s1.refuses formStitchEnable e .trafficPresent 0)) ∧
      (Runs formStitchFlow e s s1 → d.hasStitch p = true → d.hasBundle (u8 e 1) = true → bitAt (u8 e 2) 0 = true →
        (b.attach ≠ .none → exec (.cmdStitchFlow e) s = .next (s1.refuses formStitchFlow e .badParam 9)) ∧
        (b.attach = .none → d.group = [] → (d.tx b.carrier).op = none → fitsPort x.lanes x.baud (b.flowSize + sumBy (fun f => (d.bundleAt f.bundle).flowSize) x.flows) =
          true → s.par.on (pStitchRttStrict + p) = false → d.rateBusy b.carrier = false → x.st = .down → exec (.cmdStitchFlow e) s =
          .next (s1.completes formStitchFlow e [] (Dev.updStitch (d.updBundle (u8 e 1) fun b => { b with attach := .stitch p }) p fun s =>
            { s with flows := s.flows ++ [⟨u8 e 1, []⟩] })))) ∧
      (Runs formStitchFlow e s s1 → d.hasStitch p = true → d.hasBundle (u8 e 1) = true → bitAt (u8 e 2) 0 = false → b.attach = .stitch p →
        (b.on = true → exec (.cmdStitchFlow e) s = .next (s1.refuses formStitchFlow e .trafficPresent 0)) ∧
        (b.on = false → exec (.cmdStitchFlow e) s = .next (s1.completes formStitchFlow e [] (Dev.updStitch
          (d.updBundle (u8 e 1) fun b => { b with attach := .none }) p fun s => { s with flows := s.flows.filter fun f => decide (f.bundle ≠ u8 e 1) })))) ∧
      (Runs formStitchStatus e s s1 → d.hasStitch p = true → ∃ r, exec (.cmdStitchStatus e) s = .next (s1.completes formStitchStatus e r d) ∧
        bitsAt (leNat r) 0 3 = d.stitchCode p ∧ bitsAt (leNat r) 3 4 = x.cause % 16 ∧ bitsAt (leNat r) 8 5 = x.lanes % 32 ∧ bitsAt (leNat r) 16 16 = x.baud % 65536 ∧
        bitsAt (leNat r) 32 16 = x.rtt % 65536 ∧ bitsAt (leNat r) 64 32 = d.counter (ctrStitch stCellsRx p) % 2 ^ 32)) ∧
    (∀ p : Fin 4, let x := d.stitch p
      (x.srefLost = false → x.st = .down → exec (.srefLoss p) s = .next (s.commit (Dev.updLanes
        (Dev.raise (d.draw.2.updStitch p fun s => { s with srefLost := true }) .srefLoss p [(1, (d.draw.1 % 2 : Nat))]) (d.stitchLanes p) Lane.powerDown))) ∧
      (x.srefLost = true → x.enabled = false → exec (.srefReturn p) s = .next (s.commit (d.updStitch p fun s => { s with srefLost := false }))) ∧
      (x.srefLost = true → x.enabled = true → exec (.srefReturn p) s = .next (s.commit (Dev.stitchTrain (d.updStitch p fun s => { s with srefLost := false }) p))) ∧
      (∀ lanes : List (List CwArrival), x.st = .training → x.enabled = true → d.laneCause p = none → (∀ l ∈ d.stitchLanes p, (d.lane l).adaptOk = true) →
        (∀ i < x.lanes, cwLocks i (lanes.getD i []) = true) →
        (x.txtune = true → exec (.stitchLanesLocked ⟨p, lanes⟩) s = .next (s.commit (Dev.updStitch
          (d.updLanes (d.stitchLanes p) fun y => { y with reqFir := (0, 0), reqSeq := (y.reqSeq + 1) % 256, confirmedAt := none }) p fun s => { s with st := .tune }))) ∧
        (x.txtune = false → exec (.stitchLanesLocked ⟨p, lanes⟩) s = .next (s.commit (d.updStitch p fun s => { s with st := .ready, tuneDone := true })))) ∧
      (∀ (l : Fin 16) (ctrl : List Byte), x.trains = true → l < x.lanes → fieldAt ctrl 0 2 ≠ x.linkId → exec (.stitchTrainingCwRx p l ctrl) s = .next (s.commit
        (d.updStitch p fun s => { s with st := .mismatch, cause := 5 }))) ∧
      (∀ (l : Fin 16) (ctrl : List Byte), x.trains = true → l < x.lanes → fieldAt ctrl 0 2 = x.linkId → fieldAt ctrl 4 1 ≠ 0 → fieldAt ctrl 2 1 ≤ 32 →
        fieldAt ctrl 3 1 ≤ 32 → exec (.stitchTrainingCwRx p l ctrl) s = .next (s.commit (d.updLane (16 * p + l) fun y =>
          { y with peerFir := some (fieldAt ctrl 2 1, fieldAt ctrl 3 1), appliedSeq := fieldAt ctrl 4 1,
                   confirmedAt := if x.st = .tune ∧ y.confirmedAt = none ∧ fieldAt ctrl 5 1 = y.reqSeq then some s.now else y.confirmedAt, peerReady := y.peerReady || bitAt (fieldAt ctrl 6 1) 0 }))) ∧
      (∀ foms : List (List Int), x.st = .tune → (∀ k ∈ (d.stitchLanes p).zipIdx, ((d.lane k.1).swept (foms.getD k.2 [])).length = 35) →
        exec (.stitchTuneDone p foms) s = .next (s.commit (Dev.updStitch
        ((d.stitchLanes p).zipIdx.foldl (fun d k => d.updLane k.1 fun l => let all := l.swept (foms.getD k.2 [])
          { l with sweep := all, reqFir := bestPoint all, reqSeq := 36, confirmedAt := none }) d) p
        fun s => { s with st := .ready, tuneDone := true }))) ∧
      (x.st = .ready → exec (.stitchPeerReady p) s = .next (s.commit (Dev.updStitch
        (d.updLanes (d.stitchLanes p) fun l => { l with peerReady := true }) p fun s => { s with st := .align }))) ∧
      (x.st = .align → exec (.stitchAlignDone p) s = .next (s.commit (Dev.finish (Dev.raise (d.updStitch p fun s =>
        { s with st := .up, chans := [], rtt := 0, probes := [], above := [], checkRun := 0 }) .stitchUp p []) 0x0703 p .ok 0 []))) ∧
      (∀ (l : Fin 16) (cws : List CwArrival), l < x.lanes → cwUnlocks cws = true → x.st = .up → exec (.stitchCodewordLockLoss p ⟨l, cws⟩) s = .next (s.commit (Dev.updStitch
        (Dev.stitchClear (Dev.raise d .stitchDown p [(1, 3)]) p) p fun s => { s with cause := 3, st := .down }))) ∧
      (∀ (l : Fin 16) (cws : List CwArrival), l < x.lanes → cwUnlocks cws = true → x.st ≠ .up → x.trains = true → exec (.stitchCodewordLockLoss p ⟨l, cws⟩) s = .next (s.commit (d.stitchTrain p))) ∧
      (x.enabled = true → x.st ≠ .up → x.srefLost = false → d.stitchTest p = false → exec (.stitchRetrainTimer p) s = .next (s.commit (d.stitchTrain p))))

/-- R314, R315, R319, R321, R324, R326, R328, R330, R331: what a cell does, by the outcome of Table 13-4 that it meets, and the cells a port sends. -/
def Obligations.StitchCells : Prop :=
  ∀ (s : State) (p : Fin 4), s.dev.stitchUp p = true → let d := s.dev; let x := s.dev.stitch p
    let d0 := s.dev.updStitch p fun t => { t with checkRun := 0 }
    (∀ c : List Byte, exec (.stitchCellRx p c .uncorrectable) s = .next (s.commit (Dev.count d0 (ctrStitch stBad p) 1))) ∧
    (∀ c : List Byte, x.checks c = false → x.checkRun < 63 → exec (.stitchCellRx p c .clean) s = .next (s.commit
      (Dev.count (d.updStitch p fun t => { t with checkRun := x.checkRun + 1 }) (ctrStitch stCheckErr p) 1))) ∧
    (∀ c : List Byte, x.checks c = false → exec (.stitchCellRx p c .corrected) s = .next (s.commit (Dev.count d0 (ctrStitch stCheckErr p) 1))) ∧
    (∀ (c : List Byte) (w : CellCw), w ≠ .uncorrectable → x.checks c = true →
      (cellBadForm c = true → exec (.stitchCellRx p c w) s = .next (s.commit (Dev.count d0 (ctrStitch stFormat p) 1))) ∧
      (cellBadForm c = false → let d1 := d0.useCredit p c
        (cellChannel c = chanIdle → exec (.stitchCellRx p c w) s = .next (s.commit d1)) ∧
        (cellChannel c = chanProbe → exec (.stitchCellRx p c w) s = .next (s.commit (Dev.updStitch d1 p fun t => { t with echoes := t.echoes ++ [cellSeq c] }))) ∧
        (cellChannel c = chanEcho → exec (.stitchCellRx p c w) s = .next (s.commit (d1.rxEcho s.env p (cellSeq c)))) ∧
        (cellChannel c < 512 → d.attachedTo p (cellChannel c) = false → exec (.stitchCellRx p c w) s = .next (s.commit (d1.rxMisdirected s.env p (cellChannel c)))) ∧
        (cellChannel c < 512 → d.attachedTo p (cellChannel c) = true → d.chanAdmits (cellChannel c) = false →
          exec (.stitchCellRx p c w) s = .next (s.commit (d1.rxDisabled p (cellChannel c) (cellSeq c) (cellIsSync c)))) ∧
        (cellChannel c < 512 → d.attachedTo p (cellChannel c) = true → d.chanAdmits (cellChannel c) = true →
          let e := (x.chan (cellChannel c)).e
          (2 ^ 31 ≤ seqAhead (cellSeq c) e → exec (.stitchCellRx p c w) s = .next (s.commit (d1.rxStale p (cellChannel c)))) ∧
          (seqAhead (cellSeq c) e < 2 ^ 31 → cellIsSync c = true → exec (.stitchCellRx p c w) s = .next (s.commit (d1.rxSync s.env p (cellChannel c) (cellSeq c)))) ∧
          (seqAhead (cellSeq c) e < 2 ^ 31 → cellIsSync c = false → inLimit (x.chan (cellChannel c)).limit (cellSeq c) = false →
            exec (.stitchCellRx p c w) s = .next (s.commit (d1.rxViolation s.env p (cellChannel c)))) ∧
          (seqAhead (cellSeq c) e < 2 ^ 31 → cellIsSync c = false → inLimit (x.chan (cellChannel c)).limit (cellSeq c) = true →
            exec (.stitchCellRx p c w) s = .next (s.commit (d1.rxAccept s.env p (cellChannel c) (cellSeq c))))))) ∧
    (∀ (ch cr : Fin 512) (payload : List Byte), let y := x.chan ch; let k := d.creditOf p cr
      x.echoes = [] → d.canSend p ch = true → exec (.stitchCellTx p ch cr payload) s = .next (s.commit (Dev.count (Dev.updSChan
        (d.updStitch p fun t => { t with sent := x.build ch y.tx (496 + k.1 + d.cellCa ch) k.2 payload }) p ch fun t =>
          { t with tx := (t.tx + 1) % 2 ^ 32, egCells := t.egCells - 1 }) (ctrStitch stCellsTx p) 1))) ∧
    (∀ ch : Fin 512, d.attachedTo p ch = true → let k := d.creditOf p ch
      ∃ pad d1, d.drawBytes 496 = (pad, d1) ∧ exec (.stitchSyncTimer p ch) s = .next (s.commit
        (Dev.updStitch d1 p fun t => { t with sent := t.build ch (t.chan ch).tx (512 + k.1) k.2 pad }))) ∧
    (∃ t d1 pad d2, d.draw = (t, d1) ∧ d1.drawBytes 496 = (pad, d2) ∧ exec (.stitchProbeTimer p) s = .next (s.commit
      (Dev.updStitch d2 p fun x => { x with token := some (t % 2 ^ 32, s.now), sent := x.build chanProbe (t % 2 ^ 32) 0 0 pad })))

/-! ### Keys and jobs -/

/-- R339 to R352: the key commands in the cases written out, their effect and refusals. -/
def Obligations.KeyCommands : Prop :=
  ∀ (e : CmdEntry) (s s1 : State), let d := s.dev; let slot := b2n (bitAt (u8 e 3) 0); let start := fieldAt (payload e) 12 8
    let lim := s.par.nat pKeyLimitLog2; let key := ((payload e).drop 20).take 32
    (Runs formKeyLoad e s s1 → u8 e 3 < 2 → e.plen = 52 →
      layoutFault (payload e) [⟨0, 2, 0x3FF, 0, 511, false⟩, fldU 2 1 1 128, ⟨3, 1, 7, 0, 7, false⟩, fldAny 4 4, fldAny 8 4] = none →
      (d.domOn domCrypto = false → exec (.cmdKeyLoad e) s = .next (s1.refuses formKeyLoad e .domainOff 0)) ∧
      (d.domOn domCrypto = true → (∀ ch ∈ kChans e, d.interopChan ch = false) →
        (s.par.on pKeyWrapOnly = true → exec (.cmdKeyLoad e) s = .next (s1.refuses formKeyLoad e .state 0)) ∧
        (s.par.on pKeyWrapOnly = false → kOneCarrier e = false → exec (.cmdKeyLoad e) s = .next (s1.refuses formKeyLoad e .badParam 10)) ∧
        (s.par.on pKeyWrapOnly = false → kOneCarrier e = true → saltsOverlap (u32 e 4) (u32 e 8) (kCount e) = true →
          exec (.cmdKeyLoad e) s = .next (s1.refuses formKeyLoad e .badParam 16)) ∧
        (s.par.on pKeyWrapOnly = false → kOneCarrier e = true → saltsOverlap (u32 e 4) (u32 e 8) (kCount e) = false → start + 2 ^ lim ≤ 2 ^ 64 - 1 →
          (∃ ch ∈ kChans e, (d.keyChan ch).active slot = true) → exec (.cmdKeyLoad e) s = .next (s1.refuses formKeyLoad e .slotActive 0)) ∧
        (s.par.on pKeyWrapOnly = false → kOneCarrier e = true → saltsOverlap (u32 e 4) (u32 e 8) (kCount e) = false → start + 2 ^ lim ≤ 2 ^ 64 - 1 →
          (∀ ch ∈ kChans e, (d.keyChan ch).active slot = false) → exec (.cmdKeyLoad e) s = .next (s1.completes formKeyLoad e []
            ((List.range (kCount e)).foldl (fun d i => d.updKey (kFirst e + i) fun c => (c.put slot
              (some ⟨key, (u32 e 4 + i) % 2 ^ 32, (u32 e 8 + i) % 2 ^ 32, start, lim, start, none, false⟩)).rollLater (multiframesIn s.now)) d))))) ∧
    (Runs formKeyActivate e s s1 → kOneCarrier e = true → d.domOn domCrypto = true → (∀ ch ∈ kChans e, d.interopChan ch = false) →
      (kaTx e < 2 → (∃ ch ∈ kChans e, (d.keyChan ch).usable (kaTx e) = false) → exec (.cmdKeyActivate e) s = .next (s1.refuses formKeyActivate e .sequence 0)) ∧
      (kaTx e < 2 → kaRx e = 1 → (∀ ch ∈ kChans e, (d.keyChan ch).usable (kaTx e) = true) → exec (.cmdKeyActivate e) s = .next
        (s1.completes formKeyActivate e [] ((kChans e).foldl (fun d ch => d.updKey ch fun c => { c.setTx (.slot (kaTx e)) with expect := 1 }) d))) ∧
      (kaTx e = 2 → kaRx e = 3 → (∃ ch ∈ kChans e, (d.bundleOf ch).isSome = true ∧ ((d.bundleOf ch).any fun kv => kv.2.on) = true ∧
        (d.keyChan ch).txSlot.isSome = true) → force e = false → exec (.cmdKeyActivate e) s = .next (s1.refuses formKeyActivate e .trafficPresent 0))) ∧
    (Runs formKeyActivate e s s1 → kOneCarrier e = true → d.domOn domCrypto = false → exec (.cmdKeyActivate e) s = .next (s1.refuses formKeyActivate e .domainOff 0)) ∧
    (Runs formKeyErase e s s1 → d.domState domCrypto = .off → exec (.cmdKeyErase e) s = .next (s1.refuses formKeyErase e .domainOff 0)) ∧
    (Runs formKeyErase e s s1 → u8 e 3 = 1 → d.domState domCrypto ≠ .off → kFirst e + kCount e ≤ 512 →
      ((∃ ch ∈ kChans e, (d.keyChan ch).active 0 = true) → force e = false → exec (.cmdKeyErase e) s = .next (s1.refuses formKeyErase e .slotActive 0)) ∧
      ((∀ ch ∈ kChans e, (d.keyChan ch).active 0 = false) ∨ force e = true → exec (.cmdKeyErase e) s = .next (s1.completes formKeyErase e []
        ((kChans e).foldl (fun d ch => d.updKey ch fun c => c.erase 0) d)))) ∧
    (Runs formKeyStatus e s s1 → d.domOn domCrypto = true → ∃ r, let c := d.keyChan (u16 e 0); exec (.cmdKeyStatus e) s = .next (s1.completes formKeyStatus e r d) ∧
      bitAt (leNat r) 0 = c.slot0.isSome ∧ bitAt (leNat r) 1 = decide (c.txSlot = some 0) ∧ bitAt (leNat r) 2 = c.rx 0 ∧ bitAt (leNat r) 3 = c.slot1.isSome ∧
      bitsAt (leNat r) 6 2 = c.tx.code % 4 ∧ bitsAt (leNat r) 8 2 = c.expect % 4 ∧ bitsAt (leNat r) 160 64 = (d.chanAt (u16 e 0)).mfc % 2 ^ 64) ∧
    (Runs formKeyStatus e s s1 → d.domOn domCrypto = false → exec (.cmdKeyStatus e) s = .next (s1.refuses formKeyStatus e .domainOff 0)) ∧
    (Runs formKekLoad e s s1 → d.domOn domCrypto = true → let half := ((payload e).drop 2).take 192
      (u8 e 0 = 0 → exec (.cmdKekLoad e) s = .next (s1.completes formKekLoad e [] (d.updKeys fun k => { k with kekHalf := some (half, s.env.cmds8 + 1) }))) ∧
      (u8 e 0 = 1 → d.key.kekHalf = none → exec (.cmdKekLoad e) s = .next (s1.refuses formKekLoad e .sequence 0)) ∧
      (∀ first, u8 e 0 = 1 → d.key.kekHalf = some (first, s.env.cmds8) →
        (Config.oaepDecode (first ++ half) = none → exec (.cmdKekLoad e) s = .next (s1.refuses formKekLoad e .authFail 0)) ∧
        (∀ k, Config.oaepDecode (first ++ half) = some k → exec (.cmdKekLoad e) s = .next (s1.completes formKekLoad e []
          (d.updKeys fun x => { x with kek := some k, kekHalf := none })))))

/-- R215 to R217, R260, R342 to R346: a slot's warning, its end, a lost slot, and the check of a received multiframe (of one channel): by ENC, RX_EXPECT, the slot
its KP names, its MFC and its tag it is delivered, decrypted or replaced; an accepted one leaves its MFC as the last, and only ascending MFCs from the slot's
start on are accepted. -/
def Obligations.CipherEvents : Prop :=
  (∀ (s : State) (ch : Fin 512), let d := s.dev; let c := s.dev.keyChan ch
      (∀ (t : Nat) (k : KeySlot), c.tx = .slot t → c.at_ t = some k → k.near = false → exec (.keyNearLimitReached ch 1) s = .next (s.commit
        (Dev.raise (d.updKey ch fun c => { c.put t (some { k with near := true, mfc := max k.mfc (k.warnAt (s.par.nat pKeyWarn)) }) with
          rollAt := if s.par.on pKeyRollAuto = true ∧ (c.usable (1 - t) = true ∨ s.io.mbxState ≠ .ready) then some (multiframesIn s.now + 1) else none })
          .keyNearLimit ch [(2, 1), (1, t)]))) ∧
      (∀ (t : Nat) (k : KeySlot), c.tx = .slot t → c.at_ t = some k → c.rollAt = none ∨ c.usable (1 - t) = false → exec (.keyLimitExpiry ch 1) s = .next (s.commit
        (Dev.raise (d.updKey ch fun c => { c.put t (some { k with mfc := max k.mfc k.limit }) with tx := .expired t, rollAt := none })
          .keyExpired ch [(2, 1), (1, t)]))) ∧
      (∀ m : MfReport, d.domOn (ch / 128) = true → ch % 128 < d.rxSlots (ch / 128) → d.interop (ch / 128) = false → c.failSince = 0 → d.mfOutcome s.env ch m ≠ .authFail →
        exec (.multiframeAuthCheck ch [m]) s = .next (s.commit (d.checkMf s.env ch m))) ∧
      (∀ (sl : Fin 2) (word : Nat), exec (.keySlotUe (.line ch sl) word) s = .next (s.commit
        (Dev.updKey (d.log s.env ⟨2, 0x30, 0, word, 0, 0xFF, 0, 7⟩) ch fun c => c.erase sl))) ∧
      (∀ (k : Fin 16) (word : Nat), exec (.keySlotUe (.job k) word) s = .next (s.commit
        (Dev.updKeys (d.log s.env ⟨2, 0x30, 0, word, 0, 0xFF, 0, 7⟩) fun x => { x with job := x.job.drop k })))) ∧
  (∀ (d : Dev) (env : Env) (ch : Nat) (m : MfReport), let c := d.keyChan ch; d.notChecked env ch = false →
      (m.enc = false → c.expect = 1 → d.mfOutcome env ch m = .zeros) ∧ (m.enc = false → c.expect ≠ 1 → d.mfOutcome env ch m = .delivered) ∧
      (m.enc = true → c.expect = 0 → d.mfOutcome env ch m = .zeros) ∧ (m.enc = true → c.expect ≠ 0 → c.at_ m.kp = none → d.mfOutcome env ch m = .noKey) ∧
      (∀ k, m.enc = true → c.expect ≠ 0 → c.at_ m.kp = some k → (k.rxLast = none ∧ m.mfc.toNat < k.start) ∨ (∃ x, k.rxLast = some x ∧ m.mfc.toNat ≤ x) →
        d.mfOutcome env ch m = .mfcReject) ∧
      (d.mfOutcome env ch m = .accepted → m.enc = true ∧ ∃ k, c.at_ m.kp = some k ∧ (lineOpen k m.mfc.toNat (ch % 128) m.text).2 = padTo 12 m.tag ∧ (∀ x, k.rxLast = some x → x < m.mfc.toNat) ∧
        (k.rxLast = none → k.start ≤ m.mfc.toNat) ∧ ((d.checkMf env ch m).keyChan ch).at_ m.kp = some { k with rxLast := some m.mfc.toNat }) ∧
      (∀ b, b ≠ ch → (d.checkMf env ch m).keyChan b = d.keyChan b))

/-- R354 to R358: jobs queued, started, ended and cancelled. -/
def Obligations.CryptoJobs : Prop :=
  ∀ (s : State), let d := s.dev
    (∀ (e : CmdEntry) (s1 : State), let is : Job → Bool := fun j => decide (j.id = u8 e 0)
      (Runs formCryptoJob e s s1 →
        (∀ k, cjField e = some k → exec (.cmdCryptoJob e) s = .next (s1.refuses formCryptoJob e .badParam k)) ∧
        (cjField e = none → d.domOn domCrypto = false → exec (.cmdCryptoJob e) s = .next (s1.refuses formCryptoJob e .domainOff 0)) ∧
        (cjField e = none → d.domOn domCrypto = true → (d.key.job.map (·.1)).contains (cjSlot e) = false →
          exec (.cmdCryptoJob e) s = .next (s1.refuses formCryptoJob e .sequence 0)) ∧
        (cjField e = none → d.domOn domCrypto = true → (d.key.job.map (·.1)).contains (cjSlot e) = true → cjAuto e = false →
          (∀ r ∈ cjRegions e, r.1 + r.2.1 ≤ jobArea) → overlapOf (cjChecked e) = none → (∀ j ∈ d.key.jobs, j.id ≠ u8 e 0) →
          (cjUrgent e = false → 8 ≤ d.key.normal.length → exec (.cmdCryptoJob e) s = .next (s1.refuses formCryptoJob e .busy 0)) ∧
          (cjUrgent e = false → d.key.normal.length < 8 → exec (.cmdCryptoJob e) s = .next (s1.completes formCryptoJob e []
            (d.updKeys fun x => { x with normal := x.normal ++ [jobOf e (d.key.job.get ⟨[], 0, 0, 0, 0⟩ (cjSlot e))] }))) ∧
          (cjUrgent e = true → d.key.urgent.length < 2 → exec (.cmdCryptoJob e) s = .next (s1.completes formCryptoJob e []
            (d.updKeys fun x => { x with urgent := x.urgent ++ [jobOf e (d.key.job.get ⟨[], 0, 0, 0, 0⟩ (cjSlot e))] }))))) ∧
      (Runs formCryptoCancel e s s1 → (∀ j ∈ d.key.jobs, j.id ≠ u8 e 0) → exec (.cmdCryptoCancel e) s = .next (s1.refuses formCryptoCancel e .badParam 8)) ∧
      (∀ j, Runs formCryptoCancel e s s1 → (d.key.running.toList ++ d.key.suspended.toList).find? is = none → (d.key.urgent ++ d.key.normal).find? is = some j →
        exec (.cmdCryptoCancel e) s = .next (s1.completes formCryptoCancel e [] (Dev.jobDone (d.updKeys fun k =>
          { k with urgent := k.urgent.filter fun j => !is j, normal := k.normal.filter fun j => !is j }) s.env j .state true 0 [])))) ∧
    (d.domOn domCrypto = true →
      (∀ r u us, d.key.running = some r → r.urgent = false → d.key.urgent = u :: us → exec .cryptoJobStart s = .next (s.commit
        (Dev.jobStart (d.updKeys fun k => { k with suspended := some r, urgent := us }) s.env u))) ∧
      (∀ r, d.key.running = none → d.key.urgent = [] → d.key.suspended = some r → exec .cryptoJobStart s = .next (s.commit
        (d.updKeys fun k => { k with running := some r, suspended := none }))) ∧
      (∀ n ns, d.key.running = none → d.key.urgent = [] → d.key.suspended = none → d.key.normal = n :: ns → exec .cryptoJobStart s = .next (s.commit
        (Dev.jobStart (d.updKeys fun k => { k with normal := ns }) s.env n)))) ∧
    (∀ j, d.key.running = some j → exec (.cryptoJobEnd false) s = .next (s.commit
      (Dev.jobDone (d.updKeys fun k => { k with running := none }) s.env j j.outcome.1 false j.len j.outcome.2)) ∧
      exec (.cryptoJobEnd true) s = .next (s.commit (Dev.jobStop (d.updKeys fun k => { k with running := none }) s.env j .internal false)))

/-! ### The engine array -/

/-- R374 to R382: the commands of hosted programs where they take effect, and their refusals. -/
def Obligations.EngineCommands : Prop :=
  ∀ (e : CmdEntry) (s s1 : State), let h := u8 e 0; let d := s.dev
    (Runs formEngLoad e s s1 → let len := u32 e 8; let img := s.mem.readAll (0x3C000000 + u32 e 4) (min len 0x2000000)
      ((d.prog h).isSome = true → exec (.cmdEngLoad e) s = .next (s1.refuses formEngLoad e .badParam 8)) ∧
      (d.prog h = none → u32 e 4 % 4096 ≠ 0 → exec (.cmdEngLoad e) s = .next (s1.refuses formEngLoad e .badParam 12)) ∧
      (d.prog h = none → u32 e 4 % 4096 = 0 → 0x2000000 < u32 e 4 + len ∨ len ≠ fieldAt img 12 4 → exec (.cmdEngLoad e) s =
        .next (s1.refuses formEngLoad e .badParam 16)) ∧
      (d.prog h = none → u32 e 4 % 4096 = 0 → u32 e 4 + len ≤ 0x2000000 → len = fieldAt img 12 4 →
        (∀ o, hdrRange img = some o → exec (.cmdEngLoad e) s = .next (s1.refuses formEngLoad e .badParam (0x1000 + o))) ∧
        (∀ key, hdrRange img = none → hdrRelation img = none → d.signerKey (fieldAt img 5 1) = some key →
          (Config.pssOk key (img.take 128 ++ img.drop 512) ((img.drop 128).take 384) = false → exec (.cmdEngLoad e) s = .next (s1.refuses formEngLoad e .authFail 0)) ∧
          (Config.pssOk key (img.take 128 ++ img.drop 512) ((img.drop 128).take 384) = true →
            (fieldAt img 8 4 < d.nv.engMin.get 0 (fieldAt img 5 1) → exec (.cmdEngLoad e) s = .next (s1.refuses formEngLoad e .fuse 0)) ∧
            (d.nv.engMin.get 0 (fieldAt img 5 1) ≤ fieldAt img 8 4 → sumBy (fun kv => kv.2.len) d.eng.prog + len ≤ storeBytes →
              exec (.cmdEngLoad e) s = .next (s1.completes formEngLoad e (leBytes 4 (progOf img).svn ++ leBytes 4 (progOf img).signer ++ (progOf img).digest.take 16)
                ([0, 1, 2].foldl (fun d k => d.restartCounter (ctrProg k h)) { d with eng := { d.eng with prog := d.eng.prog.set h (progOf img) } }))))))) ∧
    (Runs formEngStart e s s1 → ∀ p : Prog, d.prog h = some p → u8 e 1 ≤ 15 → d.inService = true →
      (p.placed = true → exec (.cmdEngStart e) s = .next (s1.refuses formEngStart e .state 0)) ∧
      (p.placed = false → bitAt s.env.mask (u8 e 1) = false → exec (.cmdEngStart e) s = .next (s1.refuses formEngStart e .badParam 9)) ∧
      (p.placed = false → bitAt s.env.mask (u8 e 1) = true → u8 e 2 < p.engMin ∨ p.engMax < u8 e 2 → exec (.cmdEngStart e) s =
        .next (s1.refuses formEngStart e .badParam 10)) ∧
      (p.placed = false → bitAt s.env.mask (u8 e 1) = true → p.engMin ≤ u8 e 2 → u8 e 2 ≤ p.engMax → u32 e 4 = 0 → u16 e 8 = 0 → p.outMib = 0 → p.intact = true →
        d.domOn (domCluster (u8 e 1)) = true → d.hasRoom p (u8 e 2) (u8 e 1) = true → d.spillUsed + p.spillMib ≤ 2048 → exec (.cmdEngStart e) s =
          .next (s1.completes formEngStart e [] (Dev.updProg (d.loadImage p (u8 e 1) ((d.freeEngines (u8 e 1)).take (u8 e 2)) ((d.freePages (u8 e 1)).take p.pages)) h
            fun p => { p with st := .running, cluster := u8 e 1, engs := (d.freeEngines (u8 e 1)).take (u8 e 2), shared := (d.freePages (u8 e 1)).take p.pages,
                              perm := 0, cntMask := 0, arg := fieldAt (payload e) 12 8, out := none, spill := [], records := 0, inbox := [], userTimes := [] })))) ∧
    (Runs formEngStart e s s1 → ∀ p : Prog, d.prog h = some p → u8 e 1 ≤ 15 → d.inService = true → p.placed = false → bitAt s.env.mask (u8 e 1) = true →
      p.engMin ≤ u8 e 2 → u8 e 2 ≤ p.engMax → u32 e 4 = 0 → u16 e 8 = 0 → p.outMib = 0 → d.domOn (domCluster (u8 e 1)) = true → d.hasRoom p (u8 e 2) (u8 e 1) = true →
      d.spillUsed + p.spillMib ≤ 2048 → Config.sha256 p.image ≠ p.digest →
      exec (.cmdEngStart e) s = .next (s1.fails formEngStart e .authFail 0 { d with eng := { d.eng with prog := d.eng.prog.drop h } })) ∧
    (Runs formEngStart e s s1 → u8 e 1 ≤ 15 → d.inService = true → d.prog h = none → exec (.cmdEngStart e) s = .next (s1.refuses formEngStart e .sequence 0)) ∧
    (Runs formEngStop e s s1 → (d.prog h = none → exec (.cmdEngStop e) s = .next (s1.refuses formEngStop e .sequence 0)) ∧
      (∀ p, d.prog h = some p → p.placed = false → exec (.cmdEngStop e) s = .next (s1.completes formEngStop e [] d)) ∧
      (∀ p, d.prog h = some p → p.placed = true → exec (.cmdEngStop e) s = .next (s1.starts formEngStop e (p.tileMax * 5 / 4)
        (d.updProg h fun p => { p with st := .stopping })))) ∧
    (Runs formEngUnload e s s1 →
      ((d.prog h).any Prog.placed = true → exec (.cmdEngUnload e) s = .next (s1.refuses formEngUnload e .state 0)) ∧
      ((d.prog h).any Prog.placed = false → exec (.cmdEngUnload e) s = .next (s1.completes formEngUnload e []
        { d with eng := { d.eng with prog := d.eng.prog.drop h } }))) ∧
    (Runs formEngMsg e s s1 → (d.prog h = none → exec (.cmdEngMsg e) s = .next (s1.refuses formEngMsg e .state 0)) ∧
      (∀ p, (d.progRuns h).prog h = some p → p.st = .running → p.inbox.length < 4 → exec (.cmdEngMsg e) s = .next (s1.completes formEngMsg e []
        (Dev.updProg (d.progRuns h) h fun p => { p with inbox := p.inbox ++ [(payload e).drop 1] })))) ∧
    (Runs formEngStatus e s s1 → ∃ r, exec (.cmdEngStatus e) s = .next (s1.completes formEngStatus e r (d.progRuns h)) ∧ ∀ p, (d.progRuns h).prog h = some p →
      bitsAt (leNat r) 0 3 = p.st.code ∧ bitsAt (leNat r) 3 4 = p.fault % 16 ∧ bitsAt (leNat r) 24 8 = p.signer % 256 ∧ bitsAt (leNat r) 32 32 = p.svn % 2 ^ 32) ∧
    (Runs formEngArray e s s1 → ∃ r, exec (.cmdEngArray e) s = .next (s1.completes formEngArray e r d) ∧ bitsAt (leNat r) 0 5 = (d.sysUse 0).1 % 32 ∧
      bitsAt (leNat r) 5 5 = (d.hostedUse 0).1 % 32 ∧ bitsAt (leNat r) 16 2 = (d.domState (domCluster 0)).code % 4 ∧ bitsAt (leNat r) 384 16 = d.engClock)

/-- R366 to R373: faults and stops of programs, runs placed and waiting, and what a hosted program may touch. -/
def Obligations.EngineEvents : Prop :=
  ∀ (s : State), let d := s.dev
    (∀ (h : Fin 32) (cause : Fin 7) (pc : BitVec 32) (p : Prog), d.prog h = some p → p.placed = true → exec (.engProgramFault (.hosted h) cause pc) s = .next (s.commit
      (Dev.finish (Dev.emit (Dev.countFault (Dev.updProg (Dev.progRelease (d.progRuns h) h) h fun p =>
        { p.released with st := .faulted, fault := cause + 1, faultPc := pc.toNat }))
        (.event .engFault h 3 [(1, (cause : Nat) + 1), (1, p.cluster), (4, pc.toNat)])) 0x0903 h .ok 0 []))) ∧
    (∀ h : Fin 32, (d.prog h).any (fun p => decide (p.st = .stopping)) = true → exec (.engTileEndStop h) s = .next (s.commit
      (Dev.finish (Dev.raise (Dev.updProg (Dev.zeroWindow (Dev.progRelease (d.progRuns h) h) h) h fun p =>
        { p.released with st := .loaded }) .engStopped h [(1, 0)]) 0x0903 h .ok 0 []))) ∧
    (s.io.mbxState = .ready → ∀ r, (d.runs.find? fun r => r.cluster.isNone && (d.choose s.env.mask r.prog).isSome) = some r → exec .sysRunPlace s = .next (s.commit
      (Dev.runStarted (d.placeRun r.prog r.carrier (d.choose s.env.mask r.prog)) s.env r.prog r.carrier))) ∧
    (s.io.mbxState ≠ .ready → exec .sysRunPlace s = .next (s.commit d)) ∧
    (∀ (row : Fin 5) (c : Fin 4) (r : SysRun), r ∈ d.runs → r.prog = sysRow row → r.carrier = c → r.cluster = none → r.warned = false →
      exec (.sysRunWaitExpiry (.system row c)) s = .next (s.commit (Dev.raise
        { d with runs := d.runs.map fun r => if isRun (sysRow row) c r then { r with warned := true } else r } .engSysWait (256 + row) [(1, row), (1, c)]))) ∧
    (∀ (c : Fin 4) (row : Fin 5) (k : Fin 4), d.locked c = true → d.eng.capture = [] → exec (.symbolCaptureRequest (.system row k) c) s = .next (s.commit
      { d with eng := { d.eng with capture := d.eng.capture.set c (.system (sysRow row) k) } })) ∧
    (∀ (c : Fin 4) (h : Fin 32) (p : Prog), d.prog h = some p → p.placed = true → bitAt p.perm (4 + c) = false →
      exec (.symbolCaptureRequest (.hosted h) c) s = .next (s.commit (d.progFaultAt h 3 0))) ∧
    (∀ (c : Fin 4) (h : Fin 32) (p : Prog), d.prog h = some p → p.placed = true → bitAt p.perm (4 + c) = true → d.locked c = false →
      exec (.symbolCaptureRequest (.hosted h) c) s = .next (s.commit (d.updProg h fun p => { p with answer := 2 }))) ∧
    (∀ (c : Fin 4) (h : Fin 32) (p : Prog), d.prog h = some p → p.placed = true → bitAt p.perm (4 + c) = true → d.locked c = true → d.eng.capture = [] →
      exec (.symbolCaptureRequest (.hosted h) c) s = .next (s.commit
        (Dev.updProg { d with eng := { d.eng with capture := d.eng.capture.set c (.hosted h) } } h fun p => { p with answer := 1 }))) ∧
    (∀ c : Fin 4, d.eng.capture = [] → exec (.symbolCaptureEnd c) s = .next (s.commit d)) ∧
    (∀ (c : Fin 4) (h : Fin 32) (p : Prog), d.eng.capture = [((c : Nat), .hosted h)] → d.prog h = some p → p.placed = true →
      let d1 := (p.shared.take 8).foldl (fun (d : Dev) g => (d.drawBytes pageBytes).2.setPage p.cluster g (d.drawBytes pageBytes).1) d
      exec (.symbolCaptureEnd c) s = .next (s.commit { d1 with eng := { d1.eng with capture := [] } })) ∧
    (∀ (h : Fin 32) (c : Fin 4) (es : List (Nat × BitVec 48)) (p : Prog), d.prog h = some p → p.placed = true → bitAt p.perm c = true →
      let new := ((d.tx c).nlc.stage 0 es).commit ((d.tx c).nlc.stage 0 es).staged (some (16 * (h + 1) + p.cluster))
      let newTaps := ((d.tx c).taps.stage 1 es).commit ((d.tx c).taps.stage 1 es).staged (some (16 * (h + 1) + p.cluster))
      exec (.engTxTableCommit h c 0 es) s = .next (s.commit (Dev.updProg (Dev.countSuperseded (d.updTx c fun x => { x with nlc := new.1 }) new.2) h
        fun p => { p with commits := (p.commits + 1) % 2 ^ 32 })) ∧
      exec (.engTxTableCommit h c 1 es) s = .next (s.commit (Dev.updProg (Dev.countSuperseded (d.updTx c fun x => { x with taps := newTaps.1 }) newTaps.2) h
        fun p => { p with commits := (p.commits + 1) % 2 ^ 32 }))) ∧
    (∀ (h : Fin 32) (cid : BitVec 32) (p : Prog), let live := d.countersRun
      live.prog h = some p → p.placed = true → cid.toNat / 65536 < 16 → bitAt p.cntMask (cid.toNat / 65536) = true →
      cid.toNat % 65536 < 2048 → exec (.engCounterRead h cid) s = .next (s.commit (live.updProg h fun p => { p with
        answer := (live.readCounter s.env.pcs (cid.toNat / 65536) (cid.toNat % 2048)).1 +
          2 ^ 48 * b2n (live.readCounter s.env.pcs (cid.toNat / 65536) (cid.toNat % 2048)).2.1 }))) ∧
    (∀ (h : Fin 32) (cid : BitVec 32) (p : Prog), d.countersRun.prog h = some p → p.placed = true → bitAt p.cntMask (cid.toNat / 65536) = false →
      exec (.engCounterRead h cid) s = .next (s.commit (Dev.count (d.countersRun.updProg h fun p => { p with answer := 0 }) (ctrProg 2 h) 1))) ∧
    (∀ (h : Fin 32) (bytes : List Byte) (p : Prog), d.prog h = some p → p.placed = true → bitAt p.perm 9 = true → p.userTimes = [] → 0 < s.par.nat pEngUserRate →
      exec (.engUserRaise h bytes) s = .next (s.commit (Dev.raise (d.updProg h fun p => { p with userTimes := [s.now] }) .engUser h
        ((padTo 12 bytes).map fun b => (1, (b.toNat : Int))))))

/-! ### Timing -/

/-- R388 to R408: the timing commands in the cases written out, their effect and refusals; the references' and the DPLL's events; pulse inputs. What follows of a change
by selection is `Dev.timSelect`, by the evaluation of R392 to R394. -/
def Obligations.Timing : Prop :=
  ∀ (s : State), let d := s.dev
    (∀ (e : CmdEntry) (s1 : State), let r := bitsAt (u8 e 0) 0 2; let x := d.timRef r; let outs := maskedOutputs (u8 e 0)
      (Runs formTimRefCfg e s s1 →
        (bitsAt (u8 e 2) 0 4 = 0 → exec (.cmdTimRefCfg e) s = .next (s1.refuses formTimRefCfg e .badParam 10)) ∧
        (bitsAt (u8 e 2) 0 4 ≠ 0 → u32 e 4 < 1000 ∨ 156250000 < u32 e 4 → exec (.cmdTimRefCfg e) s = .next (s1.refuses formTimRefCfg e .badParam 12)) ∧
        (bitsAt (u8 e 2) 0 4 ≠ 0 → 1000 ≤ u32 e 4 → u32 e 4 ≤ 156250000 → x.freq = u32 e 4 → x.enable = true → bitAt (u8 e 1) 0 = true →
          exec (.cmdTimRefCfg e) s = .next (s1.completes formTimRefCfg e [] (Dev.timSelect (d.updRef r fun y =>
            { y with enable := true, prio := bitsAt (u8 e 2) 0 4, ql := bitsAt (u8 e 2) 4 4, freq := u32 e 4,
                     wtrEnd := if bitsAt (u8 e 2) 4 4 < y.ql ∨ bitsAt (u8 e 2) 0 4 < y.prio then none else y.wtrEnd }) s1.env (x.eligible == false))))) ∧
      (Runs formTimRefQl e s s1 → exec (.cmdTimRefQl e) s = .next (s1.completes formTimRefQl e []
        (Dev.timSelect (d.updRef (u8 e 0) fun x => { x with ql := u8 e 1, wtrEnd := if u8 e 1 < x.ql then none else x.wtrEnd }) s1.env ((d.timRef (u8 e 0)).eligible == false)))) ∧
      (Runs formTimSelect e s s1 → let m := TimMode.of (u8 e 0)
        (m = .forced → (d.timRef (u8 e 1)).qualified = false → exec (.cmdTimSelect e) s = .next (s1.refuses formTimSelect e .state 0)) ∧
        (m = .holdover → d.tim.history = false → exec (.cmdTimSelect e) s = .next (s1.refuses formTimSelect e .state 0)) ∧
        (m = .auto ∨ m = .freerun → d.domOn domDpll = false → exec (.cmdTimSelect e) s = .next (s1.refuses formTimSelect e .domainOff 0)) ∧
        (m = .auto ∨ m = .freerun → d.domOn domDpll = true → exec (.cmdTimSelect e) s = .next (s1.completes formTimSelect e []
          (Dev.timSelect (d.updTim fun t => { t with mode := m }) s1.env false)))) ∧
      (Runs formTimPhaseStep e s s1 →
        (u8 e 0 = 0 → exec (.cmdTimPhaseStep e) s = .next (s1.refuses formTimPhaseStep e .badParam 8)) ∧
        (u8 e 0 ≠ 0 → i32 e 4 < -1000000 ∨ 1000000 < i32 e 4 → exec (.cmdTimPhaseStep e) s = .next (s1.refuses formTimPhaseStep e .badParam 12)) ∧
        (u8 e 0 ≠ 0 → -1000000 ≤ i32 e 4 → i32 e 4 ≤ 1000000 → (∀ o ∈ outs, (d.timOut o).stepsOffset o = false) →
          ((∃ o ∈ outs, (d.timOut o).enable = false) → exec (.cmdTimPhaseStep e) s = .next (s1.refuses formTimPhaseStep e .state 0)) ∧
          ((∀ o ∈ outs, (d.timOut o).enable = true) → d.domOn domDpll = false → exec (.cmdTimPhaseStep e) s = .next (s1.refuses formTimPhaseStep e .domainOff 0)) ∧
          ((∀ o ∈ outs, (d.timOut o).enable = true) → d.domOn domDpll = true → s.par.nat pTimStepRate = 0 → exec (.cmdTimPhaseStep e) s =
            .next (s1.completes formTimPhaseStep e [] (outs.foldl (fun d o => d.updOut o fun x => { x with
              phasePs := x.phasePs + i32 e 4, offsetPs := if x.stepsOffset o then x.offsetPs + i32 e 4 else x.offsetPs, next := x.next + i32 e 4 }) d))) ∧
          ((∀ o ∈ outs, (d.timOut o).enable = true) → d.domOn domDpll = true → s.par.nat pTimStepRate ≠ 0 → i32 e 4 ≠ 0 → exec (.cmdTimPhaseStep e) s =
            .next (s1.starts formTimPhaseStep e (ms + ceilDiv ((i32 e 4).natAbs * 1000000) (s.par.nat pTimStepRate))
              (d.updTim fun t => { t with step := some ⟨u8 e 0, i32 e 4, 0, s.par.nat pTimStepRate, s.now⟩ }))))) ∧
      (Runs formTimOutCfg e s s1 → let src := bitsAt (u8 e 1) 1 2
        (u8 e 0 < 4 → src ≠ 0 → exec (.cmdTimOutCfg e) s = .next (s1.refuses formTimOutCfg e .badParam 9)) ∧
        (u8 e 0 < 4 → src = 0 → u32 e 4 < 1000 ∨ 156250000 < u32 e 4 → exec (.cmdTimOutCfg e) s = .next (s1.refuses formTimOutCfg e .badParam 12)) ∧
        (4 ≤ u8 e 0 → src ≠ 3 → 100 ≤ u32 e 4 → u32 e 4 ≤ 200000000 → (i32 e 8).natAbs ≤ 500000000 → bitAt (u8 e 1) 0 = true → (d.timOut (u8 e 0)).enable = false →
          exec (.cmdTimOutCfg e) s = .next (s1.completes formTimOutCfg e [] (Dev.ppsStart (d.updOut (u8 e 0) fun x => { x with
            enable := true, source := src, freqWidth := u32 e 4, offsetPs := i32 e 8 * 1000, aligning := (x.aligning || !x.enable || decide (x.source ≠ src) ||
              decide (x.offsetPs ≠ i32 e 8 * 1000)) && decide (src ≠ 0),
            above := if !x.enable || decide (x.source ≠ src) || decide (x.offsetPs ≠ i32 e 8 * 1000) then 0 else x.above, atNominal := false }) s1.env (u8 e 0))))) ∧
      (Runs formTimStatus e s s1 → d.domOn domDpll = false → exec (.cmdTimStatus e) s = .next (s1.refuses formTimStatus e .domainOff 0)) ∧
      (Runs formTimStatus e s s1 → d.domOn domDpll = true → ∃ res d2, exec (.cmdTimStatus e) s = .next (s1.completes formTimStatus e res d2) ∧
        d2 = (d.coreNow s1.env).draw.2 ∧ bitsAt (leNat res) 96 32 = ofSigned 32 (d.coreNow s1.env).tim.core ∧ bitsAt (leNat res) 0 3 = d.tim.st.code ∧ bitsAt (leNat res) 3 2 = d.tim.mode.code ∧ bitAt (leNat res) 7 = d.tim.sel.isSome ∧
        bitAt (leNat res) 24 = d.tim.history)) ∧
    (d.domOn domDpll = true →
      (∀ r : Fin 4, let x := d.timRef r
        (x.enable = true → x.lost = false → exec (.refActivityLoss r) s = .next (s.commit (Dev.timSelect (Dev.timDisq
          (Dev.raise (d.updRef r fun x => { x with lost := true }) .timRefLos r []) r 0) s.env false))) ∧
        (x.enable = true → x.lost = true → exec (.refActivityReturn r) s = .next (s.commit
          (Dev.raise (d.updRef r fun x => { x with lost := false, since := s.now, okSince := none }) .timRefLosClr r []))) ∧
        (x.wtrEnd.isSome = true → exec (.refWtrExpiry r) s = .next (s.commit (Dev.timSelect (d.updRef r fun x => { x with wtrEnd := none }) s.env true)))) ∧
      (∀ offs : List Int, exec (.refFreqMeasure offs) s = .next (s.commit (Dev.timSelect
        (Dev.timVote (timRefs.foldl (fun d r => d.timMeasure s.env r (offs.getD r 0)) d) s.env) s.env true))) ∧
      (d.tim.st = .acquiring ∨ d.tim.st = .switching → exec .dpllLock s = .next (s.commit (Dev.timSelect
        (Dev.raise ((d.coreNow s.env).updTim fun t => { t with st := .locked, lockedSince := s.now }) .timLock 0 [(1, d.tim.sel.getD 0)]) s.env true))) ∧
      (d.tim.st = .holdover → exec .holdoverExpiry s = .next (s.commit (Dev.raise ((d.coreNow s.env).updTim fun t => { t with st := .freerun }) .timFreerun 0 []))) ∧
      (d.tim.st = .locked → exec .holdoverHistoryReady s = .next (s.commit (d.updTim fun t => { t with history := true }))) ∧
      (∀ p : Fin 2, let x := d.tim.pps.get .reset p
        (x.valid = true → exec (.ppsinLoss p) s = .next (s.commit
          (Dev.raise (d.updTim fun t => { t with pps := t.pps.set p ⟨0, false, true⟩ }) .timPpsLoss p []))) ∧
        (∀ (gap : Nat) (r0 r1 : Int), x.valid = false → x.edges = 1 → sec ≤ gap + 10 * us → gap ≤ sec + 10 * us → exec (.ppsinEdge p gap r0 r1) s = .next (s.commit
          (d.updTim fun t => { t with pps := t.pps.set p ⟨2, false, x.lost⟩ }))) ∧
        (∀ (gap : Nat) (r0 r1 : Int), x.valid = false → gap + 10 * us < sec ∨ sec + 10 * us < gap → exec (.ppsinEdge p gap r0 r1) s = .next (s.commit
          (d.updTim fun t => { t with pps := t.pps.set p ⟨1, false, x.lost⟩ })))))

/-- R392: a reference is eligible while it is enabled, qualified, not SUSPECT, its QL is not 15 and it has no wait-to-restore running. In AUTO mode selection
names the eligible reference with the lowest QL, then the lowest PRIO, then the lowest number; without an eligible one it names none. -/
def Obligations.ReferenceSelection : Prop :=
  ∀ (d : Dev),
    (∀ r, (d.timRef r).eligible = true ↔ (d.timRef r).enable = true ∧ (d.timRef r).qualified = true ∧ (d.timRef r).suspect = false ∧
      (d.timRef r).ql ≠ 15 ∧ (d.timRef r).wtrEnd = none) ∧
    (d.tim.mode = .auto → (∀ r, d.timWanted = some r → r < 4 ∧ (d.timRef r).eligible = true ∧ ∀ q, q < 4 → (d.timRef q).eligible = true →
      (d.timRef r).ql < (d.timRef q).ql ∨ ((d.timRef r).ql = (d.timRef q).ql ∧
        ((d.timRef r).prio < (d.timRef q).prio ∨ ((d.timRef r).prio = (d.timRef q).prio ∧ r ≤ q)))) ∧
      (d.timWanted = none ↔ ∀ q, q < 4 → (d.timRef q).eligible = false))

/-! ### Sensing and housekeeping -/

/-- R410 to R427: sensing and housekeeping, commands and events in the cases written out: their effect, and refusals. -/
def Obligations.SensingAndHousekeeping : Prop :=
  ∀ (s : State), let d := s.dev
    (∀ (e : CmdEntry) (s1 : State), let n := u8 e 0; let v := u8 e 0; let k := d.hkConv v; let mask := u32 e 4
      (Runs formSenseCoefLoad e s s1 → bitAt (u8 e 1) 0 = false → e.plen = 68 → layoutFault (payload e) [fldCarrier, fldBits 1 1 1, fldRsv 2 2] = none →
        (d.domOn n = false → exec (.cmdSenseCoefLoad e) s = .next (s1.refuses formSenseCoefLoad e .domainOff 0)) ∧
        (d.domOn n = true → 4 * 2 ^ 14 < sumBy Int.natAbs (senseTaps e) → exec (.cmdSenseCoefLoad e) s = .next (s1.refuses formSenseCoefLoad e .badParam 12)) ∧
        (d.domOn n = true → sumBy Int.natAbs (senseTaps e) ≤ 4 * 2 ^ 14 → (d.sense n).fading = none → exec (.cmdSenseCoefLoad e) s = .next
          (s1.completes formSenseCoefLoad e [] (d.updSense n fun x => { x with fading := some (.host (senseTaps e)), faded := 0 })))) ∧
      (Runs formSenseStatus e s s1 → d.domOn n = false → exec (.cmdSenseStatus e) s = .next (s1.refuses formSenseStatus e .domainOff 0)) ∧
      (Runs formSenseStatus e s s1 → d.domOn n = true → ∃ r, let x := d.sense n; exec (.cmdSenseStatus e) s = .next (s1.completes formSenseStatus e r d) ∧
        bitAt (leNat r) 4 = x.ph.active ∧ bitAt (leNat r) 5 = x.sop.active ∧ bitsAt (leNat r) 8 4 = x.k % 16 ∧ bitAt (leNat r) 12 = x.fading.isSome ∧
        bitsAt (leNat r) 32 32 = x.seq % 2 ^ 32) ∧
      (Runs formHkCfg e s s1 → (∀ b, hkBadEntry e = some b → exec (.cmdHkCfg e) s = .next (s1.refuses formHkCfg e .badParam (8 + b))) ∧
        (hkBadEntry e = none → k.cal.isSome = true → exec (.cmdHkCfg e) s = .next (s1.refuses formHkCfg e .busy 0)) ∧
        (hkBadEntry e = none → k.cal = none → bitAt (u8 e 1) 0 = false → exec (.cmdHkCfg e) s = .next (s1.completes formHkCfg e []
          (([28, 29, 30, 31] : List Nat).foldl (fun (d : Dev) i => d.updCmp i fun c => if v = 0 then { c with newA := false } else { c with newB := false })
            (d.updHk v fun c => { c with enable := false, warm := false, list := hkEntries e, suspect := false, res := [] }))))) ∧
      (Runs formHkRead e s s1 → ∃ bs d1, exec (.cmdHkRead e) s = .next (s1.completes formHkRead e bs d1) ∧ d.hkResults s.now (u8 e 0) (u8 e 1) (u8 e 2) = (bs, d1)) ∧
      (∀ codes : List (BitVec 16), Runs formHkCal e s s1 → e.plen = 12 → layoutFault (payload e) (hkCalLayout (u8 e 1)) = none →
        (u8 e 1 = 0 → k.cal.isSome = true → exec (.cmdHkCal e codes) s = .next (s1.refuses formHkCal e .busy 0)) ∧
        (u8 e 1 = 0 → k.cal = none → k.enable = false ∨ k.warm = false → exec (.cmdHkCal e codes) s = .next (s1.refuses formHkCal e .state 0)) ∧
        (u8 e 1 = 0 → k.cal = none → k.enable = true → k.warm = true → exec (.cmdHkCal e codes) s = .next (s1.completes formHkCal e []
          (d.updHk v fun c => { c with cal := some ⟨mask, c.convert v mask codes, 0, none⟩ }))) ∧
        (u8 e 1 = 1 ∨ u8 e 1 = 2 → k.cal = none → exec (.cmdHkCal e codes) s = .next (s1.refuses formHkCal e .sequence 0)) ∧
        (∀ o, u8 e 1 = 1 → k.cal = some o → o.mask = mask → exec (.cmdHkCal e codes) s = .next (s1.completes formHkCal e []
          (d.updHk v fun c => { c with cal := some { o with spanUv := i32 e 8, span := some (c.convert v mask codes) } }))) ∧
        (u8 e 1 = 3 → exec (.cmdHkCal e codes) s = .next (s1.completes formHkCal e [] (d.updHk v fun c => { c with cal := none }))))) ∧
    (∀ c : Fin 4, let n : Nat := c; let x := d.sense n
      (∀ (late : Nat) (valid : List Bool) (values : List (List (BitVec 16))), let ss := List.zipWith SenseSample.mk valid values
        x.running = true → ss.length = 2 ^ x.k → d.anyStack = false → d.eng.prog = [] →
        let y : Sense := { x with
          cic := ([0, 1, 2, 3] : List Nat).foldl (fun (t : Tbl Cic) j => t.set j ((Tbl.get Cic.reset t j).run x.k (4 * n + j) (streamSamples ss j))) x.cic,
          restValid := (ss.drop (turnFrames x.k (4 * n))).all (·.valid) }
        exec (.telemetryRecord c late valid values) s = .next (s.commit (d.updSense n fun _ => { y with
          seq := (x.seq + 1) % 2 ^ 32, discont := false, faded := x.faded + b2n x.fading.isSome,
          window := if d.runPlaced .front n = true
            then y.frontRecord s.env n (d.recordValid n ss) (x.stepIn (s.now - late) n) :: x.window else x.window }))) ∧
      (∀ f, x.fading = some f → exec (.senseXfadeEnd c) s = .next (s.commit (d.updSense n fun x => { x with set := f, fading := x.waiting, waiting := none, faded := 0 }))) ∧
      (∀ (ph sop : Nat) (phm sopm : Fin 1000), 2 * (1024 * 2 ^ x.k * (x.window.filter fun r => r.valid && !r.step).length) < 10000000 * s.par.nat pFrontWin →
        exec (.frontWindow c ph sop phm sopm) s = .next (s.commit (d.updSense n fun y => { y with window := [] }))) ∧
      (∀ (ph sop : Nat) (phm sopm : Fin 1000), let a := 1000 * ph + phm; let b := 1000 * sop + sopm
        let thrA := 1000 * s.par.nat (pFrontPhThr + n); let thrB := 1000 * s.par.nat (pFrontSopThr + n)
        d.runPlaced .front n = true → 10000000 * s.par.nat pFrontWin ≤ 2 * (1024 * 2 ^ x.k * (x.window.filter fun r => r.valid && !r.step).length) →
        (a ≤ thrA → b ≤ thrB → exec (.frontWindow c ph sop phm sopm) s = .next (s.commit (d.updSense n fun y => { y with
          window := []
          ph := { x.ph with last := (a + 500) / 1000, below := decide (2 * a < thrA), above := 0 },
          sop := { x.sop with last := (b + 500) / 1000, below := decide (2 * b < thrB), above := 0 } }))) ∧
        (x.ph.above = 1 → x.ph.active = false → thrA < a → b ≤ thrB →
          exec (.frontWindow c ph sop phm sopm) s = .next (s.commit (Dev.raise (Dev.count (d.updSense n fun y => { y with
            window := []
            ph := { x.ph with last := (a + 500) / 1000, below := decide (2 * a < thrA), above := 2, peak := max x.ph.peak ((a + 500) / 1000), active := true },
            sop := { x.sop with last := (b + 500) / 1000, below := decide (2 * b < thrB), above := 0 } }) (ckey 11 n) 1)
            .front n [(1, 0), (4, (max x.ph.peak ((a + 500) / 1000) : Nat)), (4, x.ph.first)])))) ∧
      (x.ph.active = true → x.ph.below = true → exec (.frontClearHold c 0) s = .next (s.commit
        (Dev.raise (d.updSense n fun y => { y with ph := { x.ph with active := false } }) .frontClr n [(1, 0)])))) ∧
    (∀ v : Fin 2, let k := d.hkConv v; d.powered = true → k.enable = true →
      (exec (.hkWarmupEnd v) s = .next (s.commit (d.updHk v fun c => { c with warm := true }))) ∧
      (∀ (i : Fin 32) (raw : BitVec 16) (y : HkEntry), let code : Int := if y.diff then raw.toInt else raw.toNat
        k.warm = true → k.list[i.val]? = some y → k.inCal y = false → y.input < 28 → exec (.hkConversion v i raw) s = .next
        (s.commit (Dev.hkLimit (d.updHk v fun c => { c with res := c.res.set y.key ⟨code, s.now, (k.res.find? fun kv => decide (kv.1 = y.key)).any (·.2.limit)⟩ })
          s.env v y (k.best v y code).1 (k.best v y code).2))) ∧
      (∀ c26 c27 : BitVec 16, k.warm = true → (Config.hkFactory v false c26.toNat - 1000000).natAbs ≤ 2000 → (Config.hkFactory v false c27.toNat).natAbs ≤ 1000 →
        exec (.hkSelfcheck v c26 c27) s = .next (s.commit (d.updHk v fun c => { c with suspect := false }))) ∧
      (∀ c26 c27 : BitVec 16, k.warm = true → k.suspect = false → 2000 < (Config.hkFactory v false c26.toNat - 1000000).natAbs → exec (.hkSelfcheck v c26 c27) s = .next (s.commit
        (Dev.raise (d.updHk v fun c => { c with suspect := true }) .hkSelfcheck v [(4, Config.hkFactory v false c26.toNat), (4, Config.hkFactory v false c27.toNat)]))))

/-! ### Breeze -/

/-- R432 to R443: the Breeze commands in the cases written out, their effect and refusals; tone, packets and the receiver's contexts. -/
def Obligations.BreezeRows : Prop :=
  ∀ (s : State), let d := s.dev
    (∀ (e : CmdEntry) (s1 : State), let n := u8 e 0; let b := d.brz n
      (Runs formBrzTxEnable e s s1 → d.inService = true → ∀ p : OpPoint, (d.rx n).op = some p → p.profile = 0 →
        (d.domOn n = false → n < 4 → exec (.cmdBrzTxEnable e) s = .next (s1.refuses formBrzTxEnable e .domainOff 0)) ∧
        (d.domOn n = true → b.tone = .rampUp ∨ b.tone = .rampDown → exec (.cmdBrzTxEnable e) s = .next (s1.refuses formBrzTxEnable e .busy 0)) ∧
        (d.domOn n = true → b.tone = .off → b.en = false → bitAt (u8 e 1) 0 = true → s.par.on (pBrzTxMode + n) = false →
          (d.brzOutput n = true → exec (.cmdBrzTxEnable e) s = .next (s1.starts formBrzTxEnable e (s.par.nat (pBrzRamp + n) * ms + ms)
            (d.updBrz n fun b => { b with en := true }))) ∧
          (d.brzOutput n = false → exec (.cmdBrzTxEnable e) s = .next (s1.completes formBrzTxEnable e [] (d.updBrz n fun b => { b with en := true })))) ∧
        (d.domOn n = true → b.tone = .on → b.en = true → bitAt (u8 e 1) 0 = false → b.queue = [] → exec (.cmdBrzTxEnable e) s =
          .next (s1.starts formBrzTxEnable e (134 * ms) (Dev.updBrz (d.updBrz n fun b => { b with queue := [] }) n fun b => { b with en := false, disabling := true })))) ∧
      (Runs formBrzTxEnable e s s1 → d.inService = true → d.domOn n = true → (d.rx n).op = none →
        exec (.cmdBrzTxEnable e) s = .next (s1.refuses formBrzTxEnable e .sequence 0)) ∧
      (Runs formBrzSend e s s1 →
        (d.domState n = .off → exec (.cmdBrzSend e) s = .next (s1.refuses formBrzSend e .domainOff 0)) ∧
        (d.domState n ≠ .off → b.en = false → exec (.cmdBrzSend e) s = .next (s1.refuses formBrzSend e .sequence 0)) ∧
        (∀ p : OpPoint, (d.rx n).op = some p → p.profile = 0 → d.domState n ≠ .off → b.en = true → 4 ≤ b.queue.length → exec (.cmdBrzSend e) s = .next (s1.refuses formBrzSend e .busy 0)) ∧
        (∀ p : OpPoint, (d.rx n).op = some p → p.profile = 0 → d.domState n ≠ .off → b.en = true → b.queue.length < 4 → exec (.cmdBrzSend e) s = .next (s1.completes formBrzSend e []
          (d.updBrz n fun b => { b with queue := b.queue ++ [⟨u16 e 2, ((payload e).drop 4).take (u8 e 1)⟩] })))) ∧
      (Runs formBrzRecv e s s1 → (b.holds (u32 e 2) = false → exec (.cmdBrzRecv e) s = .next (s1.refuses formBrzRecv e .badParam 10)) ∧
        (b.holds (u32 e 2) = true → exec (.cmdBrzRecv e) s = .next (s1.completes formBrzRecv e (s.mem.readAll (brzOffset n (u32 e 2) + 48 * u8 e 1) 48) d))) ∧
      (Runs formBrzStatus e s s1 → d.domOn n = false → exec (.cmdBrzStatus e) s = .next (s1.refuses formBrzStatus e .domainOff 0)) ∧
      (Runs formBrzStatus e s s1 → d.domOn n = true → ∃ r, exec (.cmdBrzStatus e) s = .next (s1.completes formBrzStatus e r d) ∧
        bitAt (leNat r) 0 = (b.en || b.disabling) ∧ bitsAt (leNat r) 1 2 = b.tone.code ∧ bitsAt (leNat r) 3 3 = b.queue.length % 8 ∧
        bitsAt (leNat r) 32 32 = b.wrSeq % 2 ^ 32 ∧ bitsAt (leNat r) 96 32 = d.counter (ctrBrz 0 n) % 2 ^ 32)) ∧
    (∀ c : Fin 4, let n : Nat := c; let b := d.brz n
      (b.tone = .rampUp → exec (.brzRampEnd c) s = .next (s.commit (Dev.finish (d.updBrz n fun b => { b with tone := .on }) 0x0C01 n .ok 0 []))) ∧
      (b.tone = .rampDown → b.disabling = true → exec (.brzRampEnd c) s = .next (s.commit
        (Dev.finish (d.updBrz n fun b => { b with tone := .off, disabling := false }) 0x0C01 n .ok 0 []))) ∧
      (∀ p ps, b.tone = .on → b.queue = p :: ps → d.brzOutput n = true → s.par.on (pBrzTxMode + n) = false → exec (.brzPacketTxStart c) s = .next (s.commit
        (d.updBrz n fun b => { b with tone := .sending, queue := ps, cur := some p, txCfg := s.env.brzTx n, line := brzLine (s.env.brzTx n) p.data }))) ∧
      (∀ p, b.cur = some p → exec (.brzPacketTxEnd c) s = .next (s.commit (Dev.raise (Dev.count (d.updBrz n fun b => { b with
        cur := none, line := [], tone := if s.par.on (pBrzTxMode + n) then .rampDown else .on }) (ctrBrz 5 n) 1) .breezeTxDone n [(2, p.tag)]))) ∧
      (∀ h : BrzHeard, h.level.toNat < s.par.nat (pBrzRxMin + n) → exec (.brzPreambleDetect c 0 h) s = .next (s.commit d)) ∧
      (∀ h : BrzHeard, let level := h.level.toNat;
        d.brzListens s.env n = true → (h.tone - 1000 * (b.rxCfg.freq : Int)).natAbs ≤ 1000 → s.par.nat (pBrzRxMin + n) ≤ level → b.ctx0 = .listening →
        (h.symbols = (List.range 16).map (preambleSymbol b.rxCfg.rate) ∨ h.symbols = (List.range 16).map fun i => preambleSymbol b.rxCfg.rate (i + 1)) →
        (b.ctx1 = .listening → exec (.brzPreambleDetect c 0 h) s = .next (s.commit (d.updBrz n fun b => { b with ctx0 := .sync s.now level false }))) ∧
        (∀ other cap, b.ctx1 = .recv other cap → sixDbAbove level other = true → exec (.brzPreambleDetect c 0 h) s = .next (s.commit
          (Dev.count (d.updBrz n fun b => { b with ctx0 := .sync s.now level true, ctx1 := .listening }) (ctrBrz 2 n) 1))) ∧
        (∀ other cap, b.ctx1 = .recv other cap → sixDbAbove level other = false → exec (.brzPreambleDetect c 0 h) s = .next (s.commit
          (d.count (ctrBrz 4 n) 1)))) ∧
      (∀ (since level : Nat) (cap : Bool) (last : BitVec 32), b.ctx0 = .sync since level cap → b.ctx1 = .listening →
        let errors := countTrue (List.zipWith xor (natBits 32 last.toNat) (natBits 32 b.rxCfg.sync))
        let inTime := (s.now - since) * brzSymbolRate b.rxCfg.rate ≤ 64 * 10000000
        (errors ≤ 2 → inTime → exec (.brzSyncFound c ⟨0, last⟩) s = .next (s.commit (d.updBrz n fun b => { b with ctx0 := .recv level cap }))) ∧
        (2 < errors ∨ ¬ inTime → exec (.brzSyncFound c ⟨0, last⟩) s = .next (s.commit d))) ∧
      (∀ since level cap, b.ctx1 = .sync since level cap → exec (.brzSyncTimeout c 1) s = .next (s.commit
        (Dev.count (d.updBrz n fun b => { b with ctx1 := .listening }) (ctrBrz 3 n) 1))) ∧
      (∀ (level : Nat) (cap : Bool) (bytes : List Byte) (r f : Int), b.ctx0 = .recv level cap → let len := fieldAt bytes 0 1; let body := padTo (1 + len) bytes
        (len = 0 ∨ 64 < len ∨ beNat (padTo 2 (bytes.drop (1 + len))) ≠ brzCrc body → exec (.brzPacketRxEnd c 0 bytes r f) s = .next (s.commit
          (Dev.count (d.updBrz n fun b => { b with ctx0 := .listening }) (ctrBrz 1 n) 1))) ∧
        (0 < len → len ≤ 64 → beNat (padTo 2 (bytes.drop (1 + len))) = brzCrc body → d.anyStack = true → exec (.brzPacketRxEnd c 0 bytes r f) s = .next (s.commit
          (Dev.raise (Dev.count (Dev.updBrz (Dev.emit (d.updBrz n fun b => { b with ctx0 := .listening })
            (.dram (brzOffset n b.wrSeq) (brzEntry (b.wrSeq % 2 ^ 32) len b.rxCfg.rate level s.now cap r f (body.drop 1)))) n fun b =>
              { b with wrSeq := b.wrSeq + 1, level := level }) (ctrBrz 0 n) 1) .breezeRx n [(4, (b.wrSeq % 2 ^ 32 : Nat)), (1, len), (2, level)])))))

/-! ### Counters and snapshots -/

/-- R457 to R469: the counter commands; SNAP_CTRL, the strobes and the end of a dump. -/
def Obligations.CounterRows : Prop :=
  ∀ (s : State), let d := s.dev; let x := s.io.snap
    (∀ (e : CmdEntry) (s1 : State),
      (Runs formCntRead e s s1 → (∃ k, k < u8 e 0 ∧ cidNamed (cidAt e k) = false ∧ (∀ j, j < k → cidNamed (cidAt e j) = true) ∧
          exec (.cmdCntRead e) s = .next (s1.refuses formCntRead e .badParam (9 + 4 * k))) ∨
        ((∀ k, k < u8 e 0 → cidNamed (cidAt e k) = true) ∧ exec (.cmdCntRead e) s = .next (s1.completes formCntRead e
          ((List.range (u8 e 0)).flatMap fun k => let r := d.countersRun.readCounter s.io.pcs (bitsAt (cidAt e k) 16 8) (bitsAt (cidAt e k) 0 11)
            cntEntry r.1 r.2.1 r.2.2) d.countersRun))) ∧
      (Runs formCntSelect e s s1 →
        (sourceCount (u16 e 2 / 1024) ≤ u16 e 2 % 1024 → exec (.cmdCntSelect e) s = .next (s1.refuses formCntSelect e .badParam 10)) ∧
        (u16 e 2 % 1024 < sourceCount (u16 e 2 / 1024) → exec (.cmdCntSelect e) s = .next (s1.completes formCntSelect e []
          (d.emit (.select (u8 e 0) (u8 e 1) (u16 e 2 / 1024) (u16 e 2 % 1024)))))) ∧
      (Runs formCntClear e s s1 → bitAt (u16 e 0) 13 = false → exec (.cmdCntClear e) s = .next (s1.completes formCntClear e []
        { d with cnt := d.cnt.map fun kv => if bitAt (u16 e 0) (kv.1 / 2048) then (kv.1, { kv.2 with ovf := false }) else kv }))) ∧
    (d.deaf = false → ∀ (via : Via) (v : Word), v.getLsbD 2 = false →
      let t : State := { s with io := { s.io with snap := { x with run := v.getLsbD 0, dmaEn := v.getLsbD 1 && decide (2 ≤ x.dmaCount.toNat) } } }
      exec (.snapRunWrite via v) s = .next t ∧ exec (.snapDmaEnWrite via v) s = .next t ∧ exec (.snapTrigWrite via v) s = .next t) ∧
    (d.deaf = false → d.snapReady = true → x.busy = none → ∀ (via : Via) (v : Word), v.getLsbD 2 = true → v.getLsbD 1 = false →
      let y : SnapDump := ⟨x.next.toNat, s.now, true, min (2 ^ 24 - 1) x.since, x.period.toNat, d.countersRun.latch s.io.pcs⟩
      exec (.snapTrigWrite via v) s = .next { s with dev := d.countersRun, io := { s.io with
        snap := { x with run := v.getLsbD 0, dmaEn := false, since := 0, busy := some y } } }) ∧
    (x.run = true → d.snapReady = true → x.busy = none →
      let y : SnapDump := ⟨x.next.toNat, s.now, false, min (2 ^ 24 - 1) x.since, x.period.toNat, d.countersRun.latch s.io.pcs⟩
      exec .snapshotStrobe s = .next { s with dev := d.countersRun, io := { s.io with snap := { x with since := 0, busy := some y } } }) ∧
    (x.run = true → d.snapReady = true → x.busy.isSome = true → ∃ t, exec .snapshotStrobe s = .next t ∧ t.io.snap.skip = true ∧
      t.io.snap.skipped.toNat = min (2 ^ 32 - 1) (x.skipped.toNat + 1) ∧ t.io.snap.busy = x.busy ∧ t.io.snap.next = x.next ∧ t.dev = d) ∧
    (x.busy.isSome = true → d.anyStack = false → ∀ ok : Bool, exec (.snapshotDumpEnd ok) s = .next { s with io := { s.io with snap := { x with busy := none } } }) ∧
    (∀ y : SnapDump, x.busy = some y → d.anyStack = true → x.dmaEn = false → ∃ t, exec (.snapshotDumpEnd true) s = .next t ∧ t.dev = d ∧ t.io.snap.busy = none ∧
      t.io.snap.seq = BitVec.ofNat 32 y.seq ∧ t.io.snap.next = BitVec.ofNat 32 (y.seq + 1) ∧ t.io.snap.late = (x.late || decide (y.time + ms < s.now)) ∧
      t.io.intStatus = s.io.intStatus ||| BitVec.twoPow 16 intSnapshot ∧
      (s.mem.wf = true → ∀ a, (a < snapOffset y.seq ∨ snapOffset y.seq + 0x40000 ≤ a) → (∀ c ∈ y.cells, c.slot < 32768) → t.mem.read a = s.mem.read a))

/-! ### Security and memory -/

/-- R445 to R456: the security commands in the cases written out, their effect and refusals; the ends of an activation; the boot ROM. -/
def Obligations.SecurityRows : Prop :=
  ∀ (s : State), let d := s.dev
    (∀ (e : CmdEntry) (s1 : State), let target := u8 e 0; let value := u8 e 1
      (Runs formSecStatus e s s1 → ∃ r, exec (.cmdSecStatus e) s = .next (s1.completes formSecStatus e r d) ∧ bitAt (leNat r) 0 = d.boot.bootB ∧
        bitAt (leNat r) 1 = d.boot.fallback ∧ bitAt (leNat r) 2 = d.boot.staged.isSome ∧ bitsAt (leNat r) 8 8 = d.boot.fallbackCode % 256 ∧
        bitsAt (leNat r) 16 8 = d.nv.fuseF % 256 ∧ bitsAt (leNat r) 128 32 = d.boot.activations % 2 ^ 32) ∧
      (∀ ok : Bool, Runs formFwStage e s s1 → let h := s.mem.readAll (fwArea + u32 e 0) 512; let img := s.mem.readAll (fwArea + u32 e 0) (fieldAt h 16 4)
        let x : FwImage := ⟨fieldAt h 8 4, fieldAt h 12 4, fieldAt h 16 4, padTo 32 (Config.sha256 img)⟩
        let good := Config.pssOk Config.firmwareKey (img.take 128 ++ img.drop 512) ((img.drop 128).take 384)
        (u32 e 0 % 4096 ≠ 0 ∨ 0x800000 ≤ u32 e 0 → exec (.cmdFwStage e ok) s = .next (s1.refuses formFwStage e .badParam 8)) ∧
        (u32 e 0 % 4096 = 0 → u32 e 0 < 0x800000 → d.inService = false → exec (.cmdFwStage e ok) s = .next (s1.refuses formFwStage e .state 0)) ∧
        (u32 e 0 % 4096 = 0 → u32 e 0 < 0x800000 → d.inService = true →
          (∀ k, fwHeaderFault h (0x800000 - u32 e 0) = some k → exec (.cmdFwStage e ok) s = .next (s1.refuses formFwStage e .badParam (0x1000 + k))) ∧
          (fwHeaderFault h (0x800000 - u32 e 0) = none → good = false → exec (.cmdFwStage e ok) s = .next (s1.refuses formFwStage e .authFail 0)) ∧
          (fwHeaderFault h (0x800000 - u32 e 0) = none → good = true → x.svn < d.nv.fuseF → exec (.cmdFwStage e ok) s = .next (s1.refuses formFwStage e .fuse 0)) ∧
          (fwHeaderFault h (0x800000 - u32 e 0) = none → good = true → d.nv.fuseF ≤ x.svn → bitAt (u8 e 4) 0 = false → exec (.cmdFwStage e true) s =
            .next (s1.completes formFwStage e (leBytes 4 x.version ++ leBytes 4 x.svn ++ x.digest)
              { d with nv := d.nv.setSlot (!d.boot.bootB) (some x), boot := { d.boot with staged := some x, stagedBad := false } })))) ∧
      (Runs formFwActivate e s s1 → (d.boot.staged = none → exec (.cmdFwActivate e) s = .next (s1.refuses formFwActivate e .sequence 0)) ∧
        (∀ x, d.boot.staged = some x → d.boot.running = none → d.boot.stagedBad = false → exec (.cmdFwActivate e) s = .next
          (s1.starts formFwActivate e (1500 * ms) (Dev.emit (Dev.updBoot (d.frelvoRestarts s1.env) fun b => { b with activating := some x }) (.mbx .activating))))) ∧
      (Runs formSecAttest e s s1 → ∃ salt d1, d.draw = (salt, d1) ∧ ∃ d2, exec (.cmdSecAttest e) s = .next (s1.completes formSecAttest e
          (padTo 32 (Config.sha256 (d.attestBody s1.env (payload e)))) d2) ∧
        d2.boot.attest = some (d.attestBody s1.env (payload e) ++ padTo 384 (Config.dikSign salt (d.attestBody s1.env (payload e))))) ∧
      (∀ burn : BurnEnd, Runs formSvnCommit e s s1 →
        (target = 0 → value ≠ 0 → exec (.cmdSecSvnCommit e burn) s = .next (s1.refuses formSvnCommit e .badParam 9)) ∧
        (target ≠ 0 → 16 < value ∨ value < svnOld d target → exec (.cmdSecSvnCommit e burn) s = .next (s1.refuses formSvnCommit e .badParam 9)) ∧
        (target ≠ 0 → value ≤ 16 → svnOld d target ≤ value → d.pwrWarn = true → exec (.cmdSecSvnCommit e burn) s = .next (s1.refuses formSvnCommit e .state 0)) ∧
        (target ≠ 0 → value ≤ 16 → svnOld d target ≤ value → d.pwrWarn = false → exec (.cmdSecSvnCommit e .whole) s = .next (s1.completes formSvnCommit e []
          (Dev.raise (d.updNv fun v => { v with engMin := v.engMin.set (target - 1) value }) .svnCommitted 0 [(1, target), (1, value)]))) ∧
        (∀ k, target ≠ 0 → value ≤ 16 → svnOld d target + k < value → d.pwrWarn = false →
          let d1 : Dev := d.updNv fun v => { v with engMin := v.engMin.set (target - 1) (svnOld d target + k) }
          exec (.cmdSecSvnCommit e (.failed k)) s = .next (s1.fails formSvnCommit e .fuse 0 d1) ∧
          ∀ vin, exec (.cmdSecSvnCommit e (.warned k vin)) s = .next (s1.fails formSvnCommit e .state 0 (warnRaise s1.env vin (fun p => { p with vinLow := true }) d1)))) ∧
      (∀ burn : BurnEnd, Runs formSecEnroll e s s1 → layoutFault (payload e) (enrollLayout (u8 e 1)) = none → u8 e 1 = 0 →
        (d.nv.ownerLock = true → exec (.cmdSecEnroll e burn) s = .next (s1.refuses formSecEnroll e .state 0)) ∧
        (d.nv.ownerLock = false → d.nv.keyDigest = [] → d.nv.revoked = [] → bitAt (u8 e 34) 0 = false → exec (.cmdSecEnroll e .whole) s =
          .next (s1.completes formSecEnroll e [] (d.updNv fun v => { v with keyDigest := v.keyDigest.set (u8 e 0) (((payload e).drop 2).take 32) })))) ∧
      (Runs formSecRead e s s1 → let bs := secRegion d (u8 e 0)
        (bs.length ≤ u32 e 1 → exec (.cmdSecRead e) s = .next (s1.refuses formSecRead e .badParam 9)) ∧
        (u32 e 1 < bs.length → exec (.cmdSecRead e) s = .next (s1.completes formSecRead e (padTo 48 (bs.drop (u32 e 1))) d)))) ∧
    (∀ x, d.boot.activating = some x → exec .activationReady s = .next (s.commit (Dev.finish (Dev.raise (Dev.emit (Dev.count (Dev.updBoot
      (d.updNv fun v => v.point (!d.boot.bootB)) fun b => { b with activating := none, running := some x, activations := b.activations + 1 }) (ckey 14 0) 1)
      (.mbx .ready)) .fwActivated 0 [(4, x.version)]) 0x0E03 0 .ok 0 []))) ∧
    (∀ x, d.boot.activating = some x → exec .activationFallback s = .next (s.commit (Dev.finish (Dev.raise (Dev.emit (d.updBoot fun b => { b with activating := none })
      (.mbx .ready)) .fwActivateFail 0 [(4, x.version)]) 0x0E03 0 .timeout 0 []))) ∧
    (s.io.mbxState = .booting → d.boot.phase = 0 → d.pw.state = .calm → d.pw.inReset = false →
      (∀ b : BootEvidence, b.fusesOk = false → exec (.bootRomRun b) s = .next (s.commit
        (Dev.emit (d.updBoot fun x => { x with phase := 1, failed := true, failCode := 0x04 }) (.mbx .fault)))) ∧
      (∀ x : FwImage, d.nv.selectedB = false → d.nv.slotA = some x → d.nv.fuseF ≤ x.svn → exec (.bootRomRun ⟨true, none, none, true⟩) s = .next (s.commit
        (Dev.bootReports (Dev.emit (Dev.updBoot (d.updBoot fun y => { y with bootB := false, fallback := false, fallbackCode := 0 }) fun y =>
          { y with phase := 7, running := some x }) (.mbx .ready))))) ∧
      (∀ x : FwImage, d.nv.selectedB = false → d.nv.slotB = some x → d.nv.fuseF ≤ x.svn → exec (.bootRomRun ⟨true, some 0x02, none, true⟩) s = .next (s.commit
        (Dev.bootReports (Dev.emit (Dev.raise (Dev.updBoot (d.updBoot fun y => { y with bootB := true, fallback := true, fallbackCode := 0x02 }) fun y =>
          { y with phase := 7, running := some x }) .bootFallback 0 [(1, 0), (1, 0x02)]) (.mbx .ready))))))

/-- R261 to R281: memory errors, scrubbing, full rings and the memory commands. -/
def Obligations.MemoryRows : Prop :=
  ∀ (s : State), let d := s.dev
    (∀ (e : CmdEntry) (s1 : State), let mem := u8 e 0; let unit := u16 e 1; let addr := fieldAt (payload e) 3 8
      (Runs formMemStatus e s s1 → ∃ r d1, exec (.cmdMemStatus e) s = .next (s1.completes formMemStatus e r d1) ∧ d1 = d.draw.2.draw.2 ∧
        bitsAt (leNat r) 0 2 = (d.domState (domStack 0)).code % 4 ∧ bitAt (leNat r) 4 = d.pw.restriping ∧ bitsAt (leNat r) 32 48 = d.counter ctrCeDram % 2 ^ 48 ∧
        bitsAt (leNat r) 80 32 = d.counter ctrUeDram % 2 ^ 32) ∧
      (Runs formMemRetire e s s1 →
        (∀ k, retireFault mem unit addr = some k → exec (.cmdMemRetire e) s = .next (s1.refuses formMemRetire e .badParam k)) ∧
        (retireFault mem unit addr = none → d.msys.isRetired mem unit addr = true → exec (.cmdMemRetire e) s = .next (s1.completes formMemRetire e [] d)) ∧
        (retireFault mem unit addr = none → d.msys.isRetired mem unit addr = false →
          (d.msys.hasSpare mem unit addr = false → exec (.cmdMemRetire e) s = .next (s1.refuses formMemRetire e .fuse 0)) ∧
          (d.msys.hasSpare mem unit addr = true → bistDomain mem unit d = true → exec (.cmdMemRetire e) s = .next (s1.completes formMemRetire e []
            (Dev.retireRow (d.drawRegion mem).2 s1.env 5 mem unit addr (d.drawRegion mem).1))))) ∧
      (∀ found : BistReport, Runs formMemBist e s s1 →
        (∀ k, bistFault mem unit = some k → exec (.cmdMemBist e found) s = .next (s1.refuses formMemBist e .badParam k)) ∧
        (bistFault mem unit = none → bistIdle mem unit d = false → exec (.cmdMemBist e found) s = .next (s1.refuses formMemBist e .trafficPresent 0)) ∧
        (bistFault mem unit = none → bistIdle mem unit d = true → d.inService = true → bistDomain mem unit d = true → mem ≠ 0x12 → found.rows = [] →
          exec (.cmdMemBist e found) s = .next (s1.completes formMemBist e (leBytes 4 found.words ++ leBytes 2 0 ++ leBytes 1 (d.msys.sparesLeft mem unit)) d)))) ∧
    (∀ k : Fin 2, d.inService = true → d.domOn (domStack k) = true →
      (∀ (a : BitVec 36) (y : BitVec 16) (bp : Byte) (rg : BitVec 3), exec (.dramCorrectableError k a y bp rg) s = .next (s.commit
        (Dev.raiseCe (Dev.correction (d.count ctrCeDram 1) s.env ⟨1, k, 0, a.toNat, y.toNat, bp.toNat, 0, rg.toNat⟩) s.env))) ∧
      (∀ (a : BitVec 36) (y : BitVec 16) (rg : BitVec 3), exec (.dramUncorrectableError k a y rg .staged) s = .next (s.commit
        (let d1 := Dev.raiseUe (Dev.log (d.count ctrUeDram 1) s.env ⟨2, k, 0, a.toNat, y.toNat, 0xFF, d.tracked s.env k 0 a.toNat, rg.toNat⟩) s.env k rg.toNat a.toNat
         { d1 with boot := { d1.boot with stagedBad := true } }))) ∧
      (d.scrubOverdue s.env k = false → exec (.scrubPassEnd k) s = .next (s.commit
        (d.updMsys fun m => { m with scrubStart := m.scrubStart.set k s.now, scrubLate := m.scrubLate.erase k, lastScrubEnd := s.now }))) ∧
      (d.scrubOverdue s.env k = true → exec (.scrubPassEnd k) s = .next (s.commit
        (Dev.raise (d.updMsys fun m => { m with scrubStart := m.scrubStart.set k s.now, scrubLate := m.scrubLate.erase k, lastScrubEnd := s.now }) .memScrubLate 0 [(1, k)])))) ∧
    (∀ (unit : BitVec 16) (word : Nat) (bytes : BitVec 16), d.anyStack = true → exec (.cfgParityError 0x11 unit word bytes 1 false) s = .next (s.commit
      (Dev.raiseParity (Dev.correction (d.count ctrParityCfg 1) s.env ⟨3, 0x11, unit.toNat, word, bytes.toNat, 0xFF, 0, 7⟩) s.env 0x11 unit.toNat))) ∧
    (∀ (unit : BitVec 16) (word : Nat) (bytes : BitVec 16) (ch : Fin 512), exec (.dataParityError 0x20 unit word bytes (.insole ch)) s = .next (s.commit
      (Dev.insoleDrop (Dev.raiseParity (Dev.correction (d.count ctrParityData 1) s.env ⟨4, 0x20, unit.toNat, word, bytes.toNat, 0xFF, 0, 7⟩) s.env 0x20 unit.toNat) ch))) ∧
    (d.pw.restriping = true → exec .restripeEnd s = .next (s.commit (Dev.raise { d with pw := { d.pw with restriping := false } } .memRestriped 0 []))) ∧
    (∀ (b : Fin 128) (bytes : Nat), (d.bundleAt b).buffered = true →
      ((d.bundleAt b).lostAt = none → exec (.bufRingOverflow b bytes) s = .next (s.commit (Dev.raise
        (Dev.updBundle (d.count (ctrBufOverflow b) bytes) b fun x => { x with lost := 0, lostAt := some s.now }) .bufOverflow b [(8, (d.bundleAt b).lost + bytes)]))) ∧
      (∀ t, (d.bundleAt b).lostAt = some t → s.now < t + sec → exec (.bufRingOverflow b bytes) s = .next (s.commit
        (Dev.updBundle (d.count (ctrBufOverflow b) bytes) b fun x => { x with lost := x.lost + bytes }))))

/-! ### What every command meets first -/

/-- R47, R48, R51, R510: what becomes of a command before its own rule is asked, by MBX_STATE, by the commands consumed before it, and by its entry. -/
def Obligations.Admission : Prop :=
  ∀ (i : Instr) (f : CmdForm) (e : CmdEntry) (s s1 : State), commandOf i = some (f, e) →
    let c := canonEntry e; let before := earlier f.op c s1.io.inflight
    (s.dev.deaf = true → exec i s = .next s) ∧
    (s.dev.deaf = false → s.io.inflight.any (isWaiting f.op c) = false → 64 ≤ s.io.outstanding → exec i s = .next s) ∧
    (s.dev.deaf = false → s.consumed f.op c = some s1 →
      (s.io.mbxState = .activating → exec i s = .next (s1.refuses f e .busy 1)) ∧
      (s.io.mbxState = .booting ∨ s.io.mbxState = .fault → exec i s = .next (s1.refuses f e .state 0)) ∧
      (s.io.mbxState = .ready →
        ((∃ r ∈ before, r.op / 256 = f.op / 256 ∨ fenced r.e = true ∨ fenced c = true ∨ f.alone = true) → exec i s = .next s1) ∧
        ((∀ r ∈ before, r.op / 256 ≠ f.op / 256 ∧ fenced r.e = false) → fenced c = false → f.alone = false →
          ((∃ r ∈ before, r.e.tag = e.tag) → exec i s = .next (s1.refuses f e .badParam 2)) ∧
          ((∀ r ∈ before, r.e.tag ≠ e.tag) → (∀ k, f.fault c = some k → exec i s = .next (s1.refuses f e .badParam k)) ∧ (f.fault c = none → Runs f e s s1)))))

/-- R47: a command that runs while an earlier one with its TAG has not completed completes with E_BAD_PARAM and DETAIL 0x0002; the earlier command stays in
progress, and nothing of the device changes. -/
def Obligations.DuplicateTag : Prop :=
  ∀ (i : Instr) (f : CmdForm) (e : CmdEntry) (s s1 : State), commandOf i = some (f, e) → s.dev.deaf = false → s.io.mbxState = .ready →
    s.consumed f.op (canonEntry e) = some s1 → heldBack f.op (canonEntry e) f.alone (earlier f.op (canonEntry e) s1.io.inflight) = false →
    ∀ r ∈ earlier f.op (canonEntry e) s1.io.inflight, r.e.tag = e.tag → ∃ t, exec i s = .next t ∧ t = s1.refuses f e .badParam 2 ∧
      r ∈ t.io.inflight ∧ t.io.inflight.length + 1 = s1.io.inflight.length ∧ t.dev = s.dev ∧ t.par = s.par ∧ t.mem = s.mem ∧
      (s.io.cplRing.wf = true → fieldAt (t.io.cplRing.readAll (0x5000 + 64 * (s.io.cplTail.toNat % 64)) 64) 0 2 = e.tag.toNat ∧
        fieldAt (t.io.cplRing.readAll (0x5000 + 64 * (s.io.cplTail.toNat % 64)) 64) 4 1 = Status.badParam.code ∧
        fieldAt (t.io.cplRing.readAll (0x5000 + 64 * (s.io.cplTail.toNat % 64)) 64) 6 2 = 2)

/-- R60: MGP_ALERT#, open-drain, is driven low while any bit of INT_STATUS AND INT_ENABLE is 1, and is let go otherwise; messages, vectors and masks have no part
in it. -/
def Obligations.MgpAlert : Prop :=
  ∀ s : State, s.dev.deaf = false →
    ((∃ k, k < 16 ∧ s.io.intStatus.getLsbD k = true ∧ s.io.intEnable.getLsbD k = true) → s.pinMgpAlert = .low) ∧
    ((∀ k, k < 16 → s.io.intStatus.getLsbD k = false ∨ s.io.intEnable.getLsbD k = false) → s.pinMgpAlert = .highZ) ∧
    (∀ t : State, t.dev.deaf = false → t.io.intStatus = s.io.intStatus → t.io.intEnable = s.io.intEnable → t.pinMgpAlert = s.pinMgpAlert)
end

