-- ==== Sys2Proof/Laws/Table.lean ====
section
/-! SUPPORT. Laws/Table.lean: read after write and canonical form of tables and byte memories. -/

namespace Sys2Proof.Machine

/-! ### Tables -/

theorem Tbl.get_set_same {α : Type} (d : α) (t : Tbl α) (i : Nat) (v : α) : Tbl.get d (Tbl.set t i v) i = v := by
  induction t with
  | nil => simp [Tbl.set, Tbl.get]
  | cons kv t ih =>
    obtain ⟨k, w⟩ := kv
    simp only [Tbl.set]
    split
    · simp [Tbl.get]
    · split
      · simp [Tbl.get]
      · rename_i h1 h2
        simp [Tbl.get, Ne.symm h2, ih]

theorem Tbl.get_set_other {α : Type} (d : α) (t : Tbl α) (i j : Nat) (v : α) (h : j ≠ i) :
    Tbl.get d (Tbl.set t i v) j = Tbl.get d t j := by

  induction t with
  | nil => simp [Tbl.set, Tbl.get, Ne.symm h]
  | cons kv t ih =>
    obtain ⟨k, w⟩ := kv
    simp only [Tbl.set]
    split
    · simp [Tbl.get, Ne.symm h]
    · split
      · rename_i h1 h2; subst h2; simp [Tbl.get, Ne.symm h]
      · simp only [Tbl.get]
        split
        · rfl
        · exact ih

theorem Tbl.get_upd_same {α : Type} (d : α) (t : Tbl α) (i : Nat) (f : α → α) : Tbl.get d (t.upd d i f) i = f (Tbl.get d t i) :=
  Tbl.get_set_same d t i _

theorem Tbl.get_upd_other {α : Type} (d : α) (t : Tbl α) (i j : Nat) (f : α → α) (h : j ≠ i) : Tbl.get d (t.upd d i f) j = Tbl.get d t j :=
  Tbl.get_set_other d t i j _ h

/-- A lower bound of a rising table. -/
def Tbl.above (b : Option Nat) (i : Nat) : Prop := ∀ k, b = some k → k < i

theorem Tbl.risingFrom_cons {α : Type} (b : Option Nat) (k : Nat) (v : α) (t : Tbl α) :
    Tbl.risingFrom b ((k, v) :: t) = true ↔ Tbl.above b k ∧ Tbl.risingFrom (some k) t = true := by
  cases b with
  | none => simp [Tbl.risingFrom, Tbl.above]
  | some b => simp [Tbl.risingFrom, Tbl.above]

theorem Tbl.risingFrom_set {α : Type} (t : Tbl α) (i : Nat) (v : α) : ∀ b, Tbl.risingFrom b t = true → Tbl.above b i →
    Tbl.risingFrom b (Tbl.set t i v) = true := by
  induction t with
  | nil => intro b _ hi; simp only [Tbl.set, Tbl.risingFrom_cons]; exact ⟨hi, by simp [Tbl.risingFrom]⟩
  | cons kv t ih =>
    obtain ⟨k, w⟩ := kv
    intro b h hi
    rw [Tbl.risingFrom_cons] at h
    simp only [Tbl.set]
    split
    · rename_i hlt
      simp only [Tbl.risingFrom_cons]
      exact ⟨hi, fun x hx => by cases hx; exact hlt, h.2⟩
    · split
      · rename_i h1 h2; subst h2
        simp only [Tbl.risingFrom_cons]; exact ⟨hi, h.2⟩
      · rename_i h1 h2
        simp only [Tbl.risingFrom_cons]
        exact ⟨h.1, ih (some k) h.2 (fun x hx => by cases hx; omega)⟩

/-- A write keeps a table's canonical form. -/
theorem Tbl.wf_set {α : Type} (t : Tbl α) (i : Nat) (v : α) (h : t.wf = true) : (Tbl.set t i v).wf = true :=
  Tbl.risingFrom_set t i v none h (fun _ hx => by cases hx)

/-! ### Byte memories -/

theorem Mem.wfFrom_cons (b : Option Nat) (k : Nat) (v : Byte) (t : Mem) :
    Mem.wfFrom b ((k, v) :: t) = true ↔ (∀ x, b = some x → x < k) ∧ v ≠ Mem.unlisted ∧ Mem.wfFrom (some k) t = true := by
  cases b with
  | none => simp [Mem.wfFrom]
  | some b => simp [Mem.wfFrom, and_assoc]

theorem Mem.wfFrom_weaken (t : Mem) (b c : Option Nat) (h : Mem.wfFrom b t = true) (hc : ∀ x, c = some x → ∃ y, b = some y ∧ x ≤ y) :
    Mem.wfFrom c t = true := by
  cases t with
  | nil => cases c <;> rfl
  | cons kv t =>
    obtain ⟨k, v⟩ := kv
    rw [Mem.wfFrom_cons] at h ⊢
    refine ⟨fun x hx => ?_, h.2⟩
    obtain ⟨y, hy, hle⟩ := hc x hx
    exact Nat.lt_of_le_of_lt hle (h.1 y hy)

theorem Mem.wfFrom_write (t : Mem) (a : Nat) (v : Byte) : ∀ b, Mem.wfFrom b t = true → (∀ x, b = some x → x < a) → Mem.wfFrom b (t.write a v) = true := by
  induction t with
  | nil =>
    intro b _ ha
    simp only [Mem.write]
    split
    · cases b <;> rfl
    · rename_i hv; rw [Mem.wfFrom_cons]; exact ⟨ha, hv, rfl⟩
  | cons kv t ih =>
    obtain ⟨k, w⟩ := kv
    intro b h ha
    have h' := h
    rw [Mem.wfFrom_cons] at h
    simp only [Mem.write]
    split
    · rename_i hlt
      split
      · exact h'
      · rename_i hv; rw [Mem.wfFrom_cons, Mem.wfFrom_cons]
        exact ⟨ha, hv, fun x hx => by cases hx; exact hlt, h.2⟩
    · split
      · rename_i h1 h2; subst h2
        split
        · exact Mem.wfFrom_weaken t _ _ h.2.2 (fun x hx => ⟨a, rfl, Nat.le_of_lt (ha x hx)⟩)
        · rename_i hv; rw [Mem.wfFrom_cons]; exact ⟨ha, hv, h.2.2⟩
      · rename_i h1 h2
        rw [Mem.wfFrom_cons]
        exact ⟨h.1, h.2.1, ih (some k) h.2.2 (fun x hx => by cases hx; omega)⟩

/-- A write keeps a memory's canonical form. -/
theorem Mem.wf_write (m : Mem) (a : Nat) (v : Byte) (h : m.wf = true) : (m.write a v).wf = true :=
  Mem.wfFrom_write m a v none h (fun _ hx => by cases hx)

theorem Mem.wf_writeAll (bs : List Byte) : ∀ (m : Mem) (a : Nat), m.wf = true → (m.writeAll a bs).wf = true := by
  induction bs with
  | nil => intro m a h; exact h
  | cons b bs ih => intro m a h; exact ih _ _ (Mem.wf_write m a b h)

theorem Mem.wfFrom_filter (p : Host.Cell → Bool) (t : Mem) : ∀ b, Mem.wfFrom b t = true → Mem.wfFrom b (t.filter p) = true := by
  induction t with
  | nil => intro b h; exact h
  | cons kv t ih =>
    obtain ⟨k, v⟩ := kv
    intro b h
    rw [Mem.wfFrom_cons] at h
    rw [List.filter_cons]
    split
    · rw [Mem.wfFrom_cons]; exact ⟨h.1, h.2.1, ih _ h.2.2⟩
    · exact ih b (Mem.wfFrom_weaken t _ _ h.2.2 (fun x hx => ⟨k, rfl, Nat.le_of_lt (h.1 x hx)⟩))

/-- Dropping cells keeps a memory's canonical form. -/
theorem Mem.wf_filter (p : Host.Cell → Bool) (m : Mem) (h : m.wf = true) : Mem.wf (m.filter p) = true := Mem.wfFrom_filter p m none h

theorem Mem.read_below (t : Mem) (a : Nat) : ∀ b, Mem.wfFrom (some b) t = true → a ≤ b → t.read a = Mem.unlisted := by
  induction t with
  | nil => intros; rfl
  | cons kv t ih =>
    obtain ⟨k, v⟩ := kv
    intro b h ha
    rw [Mem.wfFrom_cons] at h
    have hk := h.1 b rfl
    simp only [Mem.read]
    rw [if_neg (by omega)]
    exact ih k h.2.2 (by omega)

/-- A byte reads what was last written to it. -/
theorem Mem.read_write_same (m : Mem) (a : Nat) (v : Byte) : ∀ b, Mem.wfFrom b m = true → (m.write a v).read a = v := by
  induction m with
  | nil => intro b _; simp only [Mem.write]; split <;> simp_all [Mem.read]
  | cons kv t ih =>
    obtain ⟨k, w⟩ := kv
    intro b h
    rw [Mem.wfFrom_cons] at h
    simp only [Mem.write]
    split
    · split
      · rename_i h1 h2; subst h2
        simp only [Mem.read]; rw [if_neg (by omega)]
        exact Mem.read_below t a k h.2.2 (by omega)
      · simp [Mem.read]
    · split
      · rename_i h1 h2; subst h2
        split
        · rename_i hv; subst hv; exact Mem.read_below t a a h.2.2 (Nat.le_refl a)
        · simp [Mem.read]
      · rename_i h1 h2
        simp only [Mem.read]; rw [if_neg (Ne.symm h2)]; exact ih _ h.2.2

/-- A write leaves every other byte alone. -/
theorem Mem.read_write_other (m : Mem) (a c : Nat) (v : Byte) (hc : c ≠ a) : ∀ b, Mem.wfFrom b m = true → (m.write a v).read c = m.read c := by
  induction m with
  | nil => intro b _; simp only [Mem.write]; split <;> simp [Mem.read, Ne.symm hc]
  | cons kv t ih =>
    obtain ⟨k, w⟩ := kv
    intro b h
    rw [Mem.wfFrom_cons] at h
    simp only [Mem.write]
    split
    · split
      · rfl
      · simp [Mem.read, Ne.symm hc]
    · split
      · rename_i h1 h2; subst h2
        split
        · simp [Mem.read, Ne.symm hc]
        · simp [Mem.read, Ne.symm hc]
      · simp only [Mem.read]
        split
        · rfl
        · exact ih _ h.2.2

/-- Bytes outside the written range stay. -/
theorem Mem.read_writeAll_other (bs : List Byte) : ∀ (m : Mem) (a c : Nat), m.wf = true → (c < a ∨ a + bs.length ≤ c) →
    (m.writeAll a bs).read c = m.read c := by
  induction bs with
  | nil => intros; rfl
  | cons b bs ih =>
    intro m a c h hc
    simp only [Mem.writeAll]
    rw [ih _ _ _ (Mem.wf_write m a b h) (by simp only [List.length_cons] at hc; omega)]
    exact Mem.read_write_other m a c b (by simp only [List.length_cons] at hc; omega) none h

/-- Byte `k` of what was written reads back. -/
theorem Mem.read_writeAll_in (bs : List Byte) : ∀ (m : Mem) (a k : Nat), m.wf = true → k < bs.length →
    (m.writeAll a bs).read (a + k) = (bs[k]?).getD 0 := by
  induction bs with
  | nil => intro m a k _ hk; simp at hk
  | cons b bs ih =>
    intro m a k h hk
    simp only [Mem.writeAll]
    cases k with
    | zero =>
      rw [Nat.add_zero, Mem.read_writeAll_other bs _ _ _ (Mem.wf_write m a b h) (Or.inl (by omega))]
      simpa using Mem.read_write_same m a b none h
    | succ k =>
      have := ih (m.write a b) (a + 1) k (Mem.wf_write m a b h) (by simpa using hk)
      rw [show a + (k + 1) = a + 1 + k by omega, this]
      simp

end Sys2Proof.Machine
end

