-- ==== Sys2Proof/Laws/Io.lean ====
section
/-! SUPPORT. Laws/Io.lean: what the operations of the interface block leave alone, and that each keeps its invariants. -/

namespace Sys2Proof.Machine

/-- An invariant of the interface block that interrupt sources, read-outs and error flags do not touch: the part the other lemmas speak of. -/
structure Io.Keeps (a b : Io) : Prop where
  cmdRing : b.cmdRing = a.cmdRing
  cplRing : b.cplRing = a.cplRing
  cplHead : b.cplHead = a.cplHead
  cplTail : b.cplTail = a.cplTail
  inflight : b.inflight = a.inflight

theorem Io.Keeps.refl (a : Io) : Io.Keeps a a := ⟨rfl, rfl, rfl, rfl, rfl⟩
theorem Io.Keeps.trans {a b c : Io} (h : Io.Keeps a b) (g : Io.Keeps b c) : Io.Keeps a c :=
  ⟨g.1.trans h.1, g.2.trans h.2, g.3.trans h.3, g.4.trans h.4, g.5.trans h.5⟩

theorem Io.Keeps.after {a b c : Io} (g : Io.Keeps b c) (h : Io.Keeps a b) : Io.Keeps a c := h.trans g

theorem Io.Keeps.room {a b : Io} (h : Io.Keeps a b) (r : a.roomOk) : b.roomOk := by
  unfold Io.roomOk Io.outstanding Io.unread at *; rw [h.3, h.4, h.5]; exact r

/-- The event side: FIFO bounded, MARK_HIT latched where its condition holds. -/
def Io.evtOk (io : Io) : Prop := io.fifoOk ∧ io.markOk

/-! ### Interrupts -/

theorem Io.raiseInt_keeps (io : Io) (n : Nat) : Io.Keeps io (io.raiseInt n) := by
  unfold Io.raiseInt; split <;> exact ⟨rfl, rfl, rfl, rfl, rfl⟩

theorem Io.raiseInt_evts (io : Io) (n : Nat) : (io.raiseInt n).evts = io.evts ∧ (io.raiseInt n).held = io.held ∧
    (io.raiseInt n).evtMark = io.evtMark ∧ (io.raiseInt n).markHit = io.markHit ∧ (io.raiseInt n).runMode = io.runMode := by
  unfold Io.raiseInt; split <;> exact ⟨rfl, rfl, rfl, rfl, rfl⟩

/-- Two blocks with the same event fields keep the same event invariants. -/
theorem Io.evtOk_of_eq {a b : Io} (h : b.evts = a.evts ∧ b.held = a.held ∧ b.evtMark = a.evtMark ∧ b.markHit = a.markHit ∧ b.runMode = a.runMode)
    (k : a.evtOk) : b.evtOk := by
  obtain ⟨h1, h2, h3, h4, h5⟩ := h
  unfold Io.evtOk Io.fifoOk Io.markOk Io.markCond at *
  rw [h1, h2, h3, h4, h5]; exact k

theorem Io.raiseInt_evtOk (io : Io) (n : Nat) (k : io.evtOk) : (io.raiseInt n).evtOk := Io.evtOk_of_eq (Io.raiseInt_evts io n) k

theorem Io.latchMark_keeps (io : Io) : Io.Keeps io io.latchMark := by
  unfold Io.latchMark; split
  · exact Io.Keeps.refl _
  · exact Io.Keeps.after (Io.raiseInt_keeps _ _) ⟨rfl, rfl, rfl, rfl, rfl⟩

theorem Io.latchMark_markHit (io : Io) : io.latchMark.markHit = true := by
  unfold Io.latchMark; split
  · assumption
  · exact (Io.raiseInt_evts _ _).2.2.2.1

theorem Io.latchMark_fifo (io : Io) : io.latchMark.evts = io.evts ∧ io.latchMark.held = io.held := by
  unfold Io.latchMark; split
  · exact ⟨rfl, rfl⟩
  · exact ⟨(Io.raiseInt_evts _ _).1, (Io.raiseInt_evts _ _).2.1⟩

theorem Io.latchMark_evtOk (io : Io) (h : io.fifoOk) : io.latchMark.evtOk := by
  refine ⟨?_, fun _ => Io.latchMark_markHit io⟩
  unfold Io.fifoOk; rw [(Io.latchMark_fifo io).1, (Io.latchMark_fifo io).2]; exact h

theorem Io.reMark_keeps (a b : Io) (h : Io.Keeps a b) : Io.Keeps a (Io.reMark a b) := by
  unfold Io.reMark; split
  · exact h.trans (Io.latchMark_keeps b)
  · exact h

/-- A change of level, mark or mode that leaves the latch alone keeps the event invariants once the condition is looked at again. -/
theorem Io.reMark_evtOk (a b : Io) (k : a.markOk) (hf : b.fifoOk) (hm : b.markHit = a.markHit) : (Io.reMark a b).evtOk := by
  unfold Io.reMark; split
  · exact Io.latchMark_evtOk b hf
  · rename_i hn
    refine ⟨hf, fun hb => ?_⟩
    rw [hm]; apply k
    cases hc : a.markCond
    · exact absurd ⟨hc, hb⟩ hn
    · rfl

/-! ### Events -/

theorem Io.enter_keeps (io : Io) (ev : HeldEvent) : Io.Keeps io (io.enter ev) := by
  simp only [Io.enter]; split
  · exact Io.reMark_keeps _ _ ⟨rfl, rfl, rfl, rfl, rfl⟩
  · split <;> exact ⟨rfl, rfl, rfl, rfl, rfl⟩

theorem Io.enter_held (io : Io) (ev : HeldEvent) : (io.enter ev).held = io.held := by
  simp only [Io.enter]; split
  · unfold Io.reMark; split
    · exact (Io.latchMark_fifo _).2
    · rfl
  · split <;> rfl

theorem Io.enter_evtOk (io : Io) (ev : HeldEvent) (k : io.evtOk) : (io.enter ev).evtOk := by
  obtain ⟨⟨h1, h2⟩, h3⟩ := k
  simp only [Io.enter]; split
  · rename_i hl
    refine Io.reMark_evtOk _ _ h3 ⟨?_, h2⟩ rfl
    simp only [List.length_append, List.length_singleton]; omega
  · rename_i hl
    split
    · exact ⟨⟨h1, h2⟩, h3⟩
    · rename_i hr
      refine ⟨⟨?_, h2⟩, fun hc => ?_⟩
      · simp only [List.length_append, List.length_drop, List.length_singleton, evtCapacity] at *; omega
      · simp [Io.markCond, Io.countDrop, hr] at hc

theorem Io.overflowEntry_keeps (io : Io) (now : Nat) : Io.Keeps io (io.overflowEntry now) := by
  unfold Io.overflowEntry; split
  · exact Io.Keeps.after (Io.enter_keeps _ _) ⟨rfl, rfl, rfl, rfl, rfl⟩
  · exact Io.Keeps.refl _

theorem Io.overflowEntry_evtOk (io : Io) (now : Nat) (k : io.evtOk) : (io.overflowEntry now).evtOk := by
  unfold Io.overflowEntry; split
  · exact Io.enter_evtOk _ _ (Io.evtOk_of_eq ⟨rfl, rfl, rfl, rfl, rfl⟩ k)
  · exact k

theorem Io.event_keeps (io : Io) (par : Params) (now : Nat) (ev : Evt) (i s : Nat) (fs : List (Nat × Int)) :
    Io.Keeps io (io.event par now ev i s fs) := by
  simp only [Io.event]; split
  · exact Io.Keeps.refl _
  · split
    · exact Io.Keeps.refl _
    · split <;> exact ⟨rfl, rfl, rfl, rfl, rfl⟩
    · exact Io.enter_keeps _ _

theorem Io.event_evtOk (io : Io) (par : Params) (now : Nat) (ev : Evt) (i s : Nat) (fs : List (Nat × Int)) (k : io.evtOk) :
    (io.event par now ev i s fs).evtOk := by
  simp only [Io.event]; split
  · exact k
  · split
    · exact k
    · split
      · rename_i hl
        refine ⟨⟨k.1.1, ?_⟩, k.2⟩
        simp only [List.length_append, List.length_singleton]; omega
      · exact ⟨k.1, k.2⟩
    · exact Io.enter_evtOk _ _ k

theorem Io.foldEnter_keeps (l : List HeldEvent) : ∀ io : Io, Io.Keeps io (l.foldl Io.enter io) := by
  induction l with
  | nil => exact fun io => Io.Keeps.refl io
  | cons e l ih => exact fun io => (Io.enter_keeps io e).trans (ih _)

theorem Io.foldEnter_evtOk (l : List HeldEvent) : ∀ io : Io, io.evtOk → (l.foldl Io.enter io).evtOk := by
  induction l with
  | nil => exact fun io k => k
  | cons e l ih => exact fun io k => ih _ (Io.enter_evtOk io e k)

theorem Io.enterHeld_keeps (io : Io) (now : Nat) : Io.Keeps io (io.enterHeld now) := by
  simp only [Io.enterHeld]
  refine Io.Keeps.trans ?_ (Io.overflowEntry_keeps _ _)
  have h := Io.foldEnter_keeps io.held { io with held := [] }
  have h' : Io.Keeps io (io.held.foldl Io.enter { io with held := [] }) := Io.Keeps.after h ⟨rfl, rfl, rfl, rfl, rfl⟩
  split
  · exact h'
  · exact h'.trans ⟨rfl, rfl, rfl, rfl, rfl⟩

theorem Io.enterHeld_evtOk (io : Io) (now : Nat) (k : io.evtOk) : (io.enterHeld now).evtOk := by
  simp only [Io.enterHeld]
  apply Io.overflowEntry_evtOk
  have h := Io.foldEnter_evtOk io.held { io with held := [] } ⟨⟨k.1.1, Nat.zero_le _⟩, k.2⟩
  split
  · exact h
  · exact Io.evtOk_of_eq ⟨rfl, rfl, rfl, rfl, rfl⟩ h

theorem Io.setMbx_keeps (io : Io) (now : Nat) (st : MbxState) : Io.Keeps io (io.setMbx now st) := by
  unfold Io.setMbx; split
  · exact Io.Keeps.refl _
  · split
    · exact Io.Keeps.after (Io.raiseInt_keeps _ _) (Io.Keeps.after (Io.enterHeld_keeps _ _) ⟨rfl, rfl, rfl, rfl, rfl⟩)
    · exact Io.Keeps.after (Io.raiseInt_keeps _ _) ⟨rfl, rfl, rfl, rfl, rfl⟩
    · exact ⟨rfl, rfl, rfl, rfl, rfl⟩

theorem Io.setMbx_evtOk (io : Io) (now : Nat) (st : MbxState) (k : io.evtOk) : (io.setMbx now st).evtOk := by
  unfold Io.setMbx; split
  · exact k
  · split
    · exact Io.raiseInt_evtOk _ _ (Io.enterHeld_evtOk _ _ (Io.evtOk_of_eq ⟨rfl, rfl, rfl, rfl, rfl⟩ k))
    · exact Io.raiseInt_evtOk _ _ ⟨⟨k.1.1, Nat.zero_le _⟩, k.2⟩
    · exact Io.evtOk_of_eq ⟨rfl, rfl, rfl, rfl, rfl⟩ k

/-! ### Completions -/

theorem Io.complete_evtOk (io : Io) (par : Params) (now op : Nat) (e : CmdEntry) (at_ : Nat) (st : Status) (detail : Nat) (r : List Byte) (k : io.evtOk) :
    (io.complete par now op e at_ st detail r).evtOk := by
  simp only [Io.complete]; split
  · exact Io.raiseInt_evtOk _ _ (Io.evtOk_of_eq ⟨rfl, rfl, rfl, rfl, rfl⟩ k)
  · exact Io.evtOk_of_eq ⟨rfl, rfl, rfl, rfl, rfl⟩ k

/-- A completion moves CPL_TAIL on and touches neither CPL_HEAD nor the commands in progress. -/
theorem Io.complete_pointers (io : Io) (par : Params) (now op : Nat) (e : CmdEntry) (at_ : Nat) (st : Status) (detail : Nat) (r : List Byte) :
    (io.complete par now op e at_ st detail r).cplTail = io.cplTail + 1 ∧ (io.complete par now op e at_ st detail r).cplHead = io.cplHead ∧
    (io.complete par now op e at_ st detail r).inflight = io.inflight ∧ (io.complete par now op e at_ st detail r).cmdRing = io.cmdRing ∧
    (io.complete par now op e at_ st detail r).cplRing =
      io.cplRing.writeAll (cplSlot (bitsAt io.cplTail.toNat 0 6)) (cplBytes e.tag op st io.phase detail ((now - at_) / 1000) r) := by
  simp only [Io.complete]; split
  · have h := Io.raiseInt_keeps { io with
      cplRing := io.cplRing.writeAll (cplSlot (bitsAt io.cplTail.toNat 0 6)) (cplBytes e.tag op st io.phase detail ((now - at_) / 1000) r),
      cplTail := io.cplTail + 1, cmds8 := io.cmds8 + b2n (decide (op / 256 = 8)) } intCpl
    exact ⟨h.4, h.3, h.5, h.1, h.2⟩
  · exact ⟨rfl, rfl, rfl, rfl, rfl⟩

/-- One more completion is unread. -/
theorem unread_step (t h : RingPtr) (k : (t - h).toNat < 64) : (t + 1 - h).toNat = (t - h).toNat + 1 := by
  have : t + 1 - h = (t - h) + 1 := by bv_omega
  rw [this, BitVec.toNat_add]; simp only [BitVec.ofNat_eq_ofNat]
  have : (1#7).toNat = 1 := rfl
  omega

theorem eraseP_length_of_any {α : Type} (p : α → Bool) (l : List α) (h : l.any p = true) : (l.eraseP p).length + 1 = l.length := by
  obtain ⟨a, ha, hp⟩ := List.any_eq_true.mp h
  have := List.length_eraseP_of_mem ha hp
  have : 0 < l.length := List.length_pos_of_mem ha
  omega

/-- A command in progress completes: one fewer in progress, one more to read. -/
theorem Io.complete_room (io : Io) (p : Inflight → Bool) (h : io.inflight.any p = true) (k : io.roomOk) (par : Params) (now op : Nat) (e : CmdEntry)
    (at_ : Nat) (st : Status) (detail : Nat) (r : List Byte) :
    (Io.complete { io with inflight := io.inflight.eraseP p } par now op e at_ st detail r).roomOk := by
  have hp := Io.complete_pointers { io with inflight := io.inflight.eraseP p } par now op e at_ st detail r
  have hl := eraseP_length_of_any p io.inflight h
  unfold Io.roomOk Io.outstanding Io.unread at *
  rw [hp.1, hp.2.1, hp.2.2.1, unread_step _ _ (by show (io.cplTail - io.cplHead).toNat < 64; omega)]
  show (io.inflight.eraseP p).length + ((io.cplTail - io.cplHead).toNat + 1) ≤ 64
  omega

theorem Io.finish_evtOk (io : Io) (par : Params) (now op key : Nat) (st : Status) (detail : Nat) (r : List Byte) (k : io.evtOk) :
    (io.finish par now op key st detail r).evtOk := by
  unfold Io.finish; split
  · exact k
  · exact Io.complete_evtOk _ _ _ _ _ _ _ _ _ (Io.evtOk_of_eq ⟨rfl, rfl, rfl, rfl, rfl⟩ k)

theorem Io.finish_room (io : Io) (par : Params) (now op key : Nat) (st : Status) (detail : Nat) (r : List Byte) (k : io.roomOk) :
    (io.finish par now op key st detail r).roomOk := by
  unfold Io.finish; split
  · exact k
  · rename_i x hx
    exact Io.complete_room io _ (List.any_eq_true.mpr ⟨x, List.mem_of_find?_eq_some hx, List.find?_some hx⟩) k _ _ _ _ _ _ _ _

/-- A command that has not started is not ended by an event. -/
theorem isRunning_not_waiting (op key op' : Nat) (e : CmdEntry) (r : Inflight) (h : isWaiting op' e r = true) : isRunning op key r = false := by
  unfold isWaiting at h; unfold isRunning
  cases hs : r.started
  · simp
  · simp [hs] at h

theorem any_eraseP {α : Type} (p q : α → Bool) (l : List α) (h : l.any q = true) (hpq : ∀ a, q a = true → p a = false) :
    (l.eraseP p).any q = true := by
  obtain ⟨a, ha, hq⟩ := List.any_eq_true.mp h
  exact List.any_eq_true.mpr ⟨a, (List.mem_eraseP_of_neg (by simp [hpq a hq])).mpr ha, hq⟩

/-- A waiting command still waits after an event has ended another. -/
theorem Io.finish_waiting (io : Io) (par : Params) (now op key : Nat) (st : Status) (detail : Nat) (r : List Byte) (op' : Nat) (e : CmdEntry)
    (h : io.inflight.any (isWaiting op' e) = true) : (io.finish par now op key st detail r).inflight.any (isWaiting op' e) = true := by
  unfold Io.finish; split
  · exact h
  · rw [(Io.complete_pointers _ _ _ _ _ _ _ _ _).2.2.1]
    exact any_eraseP _ _ _ h fun a ha => isRunning_not_waiting op key op' e a ha

end Sys2Proof.Machine
end

