-- ==== Sys2Proof/Laws/Params.lean ====
section
/-! SUPPORT. Laws/Params.lean: every way a parameter is stored keeps the stored parameters within their ranges (R486). -/

namespace Sys2Proof.Machine

theorem Tbl.mem_set {α : Type} (t : Tbl α) (i : Nat) (v : α) (kv : Nat × α) (h : kv ∈ Tbl.set t i v) : kv = (i, v) ∨ kv ∈ t := by
  induction t with
  | nil => exact Or.inl (List.mem_singleton.mp h)
  | cons p t ih =>
    obtain ⟨k, w⟩ := p
    simp only [Tbl.set] at h
    split at h
    · rcases List.mem_cons.mp h with h | h
      · exact Or.inl h
      · exact Or.inr h
    · split at h
      · rcases List.mem_cons.mp h with h | h
        · exact Or.inl h
        · exact Or.inr (List.mem_cons_of_mem _ h)
      · rcases List.mem_cons.mp h with h | h
        · exact Or.inr (h ▸ List.mem_cons_self)
        · rcases ih h with h | h
          · exact Or.inl h
          · exact Or.inr (List.mem_cons_of_mem _ h)

theorem Tbl.rising_above {α : Type} (t : Tbl α) : ∀ b, Tbl.risingFrom (some b) t = true → ∀ kv ∈ t, b < kv.1 := by
  induction t with
  | nil => intro b _ kv h; cases h
  | cons p t ih =>
    obtain ⟨k, w⟩ := p
    intro b h kv hm
    rw [Tbl.risingFrom_cons] at h
    have hb := h.1 b rfl
    rcases List.mem_cons.mp hm with rfl | hm
    · exact hb
    · exact Nat.lt_trans hb (ih k h.2 kv hm)

/-- In a canonical table a listed pair is what its key reads. -/
theorem Tbl.get_of_mem {α : Type} (d : α) (t : Tbl α) : ∀ b, Tbl.risingFrom b t = true → ∀ kv ∈ t, Tbl.get d t kv.1 = kv.2 := by
  induction t with
  | nil => intro b _ kv h; cases h
  | cons p t ih =>
    obtain ⟨k, w⟩ := p
    intro b h kv hm
    rw [Tbl.risingFrom_cons] at h
    rcases List.mem_cons.mp hm with rfl | hm
    · simp [Tbl.get]
    · have := Tbl.rising_above t k h.2 kv hm
      simp only [Tbl.get]; rw [if_neg (by omega)]
      exact ih (some k) h.2 kv hm

/-- The check that `Params.legal` makes of one stored value. -/
def Params.fine (kv : Nat × Int) : Bool :=
  match paramSpec kv.1 with
  | none => false
  | some sp => sp.ok kv.2

theorem Params.legal_iff (p : Params) : p.legal = true ↔ p.wf = true ∧ ∀ kv ∈ p, Params.fine kv = true := by
  unfold Params.legal; rw [Bool.and_eq_true, List.all_eq_true]; rfl

theorem paramAccepts_fine (p : Params) (id : Nat) (v : Int) (h : paramAccepts p id v = true) : Params.fine (id, v) = true := by
  unfold paramAccepts at h; unfold Params.fine
  cases hs : paramSpec id with
  | none => rw [hs] at h; exact h
  | some sp => rw [hs] at h; exact (Bool.and_eq_true _ _ ▸ h).1

/-- Setting one accepted value keeps the stored parameters legal. -/
theorem Params.legal_set (p : Params) (id : Nat) (v : Int) (hp : p.legal = true) (h : paramAccepts p id v = true) : Params.legal (Tbl.set p id v) = true := by
  rw [Params.legal_iff] at *
  refine ⟨Tbl.wf_set p id v hp.1, fun kv hk => ?_⟩
  rcases Tbl.mem_set p id v kv hk with rfl | hk
  · exact paramAccepts_fine p id v h
  · exact hp.2 kv hk

theorem Params.fold_set (l : List (Nat × Int)) : ∀ p : Params, p.wf = true →
    Tbl.wf (l.foldl (fun q kv => Tbl.set q kv.1 kv.2) p) = true ∧
    ∀ kv ∈ l.foldl (fun q kv => Tbl.set q kv.1 kv.2) p, kv ∈ p ∨ ∃ x ∈ l, x.1 = kv.1 := by
  induction l with
  | nil => exact fun p hp => ⟨hp, fun kv h => Or.inl h⟩
  | cons x l ih =>
    intro p hp
    have := ih (Tbl.set p x.1 x.2) (Tbl.wf_set p x.1 x.2 hp)
    refine ⟨this.1, fun kv hk => ?_⟩
    rcases this.2 kv hk with h | ⟨y, hy, he⟩
    · rcases Tbl.mem_set p x.1 x.2 kv h with rfl | h
      · exact Or.inr ⟨x, List.mem_cons_self, rfl⟩
      · exact Or.inl h
    · exact Or.inr ⟨y, List.mem_cons_of_mem _ hy, he⟩

/-- `Params.store` keeps the stored parameters legal, whatever it is given. -/
theorem Params.legal_store (p : Params) (l : List (Nat × Int)) (hp : p.legal = true) : (p.store l).legal = true := by
  simp only [Params.store]
  split
  · rename_i ha
    rw [List.all_eq_true] at ha
    rw [Params.legal_iff] at hp
    have hf := Params.fold_set l p hp.1
    rw [Params.legal_iff]
    refine ⟨hf.1, fun kv hk => ?_⟩
    rcases hf.2 kv hk with h | ⟨x, hx, he⟩
    · exact hp.2 kv h
    · have := paramAccepts_fine _ _ _ (ha x hx)
      rw [he] at this
      have hg := Tbl.get_of_mem (paramDefault kv.1) _ none hf.1 kv hk
      unfold Params.val at this
      rw [hg] at this
      exact this
  · exact hp

/-- The entries of CMD_PARAM_SET, as far as they are applied, keep the stored parameters legal. -/
theorem Dev.setAll_legal (d : Dev) (xs : List (Nat × Nat × Int)) : ∀ (k : Nat) (p : Params), p.legal = true → (d.setAll k xs p).1.legal = true := by
  induction xs with
  | nil => exact fun k p h => h
  | cons x xs ih =>
    intro k p h
    simp only [Dev.setAll]
    cases hf : d.setFault p x with
    | some st => exact h
    | none =>
      apply ih
      apply Params.legal_set p _ _ h
      unfold Dev.setFault at hf
      split at hf
      · cases hf
      · split at hf
        · assumption
        · cases hf

/-- CMD_PARAM_SET leaves legal parameters, applied or not (R486). -/
theorem paramSet_legal (e : CmdEntry) (s : State) (h : s.par.legal = true) : (paramSet e s).1.legal = true := by
  have hl := Dev.setAll_legal s.dev ((List.range (u8 e 0)).map (setEntry e)) 0 s.par h
  simp only [paramSet]
  split
  · exact h
  · rename_i p hp
    rw [hp] at hl
    exact hl

end Sys2Proof.Machine
end

