-- ==== Sys2Proof/Laws/Run.lean ====
section
/-! SUPPORT. Laws/Run.lean: what carrying out an effect, completing a command and running one can do to the invariants, whatever the effect is. -/

namespace Sys2Proof.Machine

/-- The four invariants together. -/
structure State.Ok (s : State) : Prop where
  mem : s.memOk
  evt : s.io.evtOk
  room : s.io.roomOk
  par : s.paramsOk

/-- A change of the interface block that keeps rings, pointers, commands and event fields. -/
theorem State.Ok.ofIo {s : State} (k : s.Ok) (io : Io) (hk : Io.Keeps s.io io) (he : io.evtOk) : State.Ok { s with io := io } :=
  ⟨⟨k.mem.1, hk.1 ▸ k.mem.2.1, hk.2 ▸ k.mem.2.2⟩, he, hk.room k.room, k.par⟩

theorem State.Ok.ofDev {s : State} (k : s.Ok) (d : Dev) : State.Ok { s with dev := d } := ⟨k.mem, k.evt, k.room, k.par⟩

theorem State.Ok.raiseInt {s : State} (k : s.Ok) (n : Nat) : State.Ok { s with io := s.io.raiseInt n } :=
  k.ofIo _ (Io.raiseInt_keeps _ _) (Io.raiseInt_evtOk _ _ k.evt)

/-- A change of the programmable counters. -/
theorem State.Ok.pcs {s : State} (k : s.Ok) (t : Tbl ProgCounter) : State.Ok { s with io := { s.io with pcs := t } } :=
  k.ofIo _ ⟨rfl, rfl, rfl, rfl, rfl⟩ (Io.evtOk_of_eq ⟨rfl, rfl, rfl, rfl, rfl⟩ k.evt)

theorem State.Ok.dump {s : State} (k : s.Ok) (op : Nat) : (s.dump op).Ok := by
  unfold State.dump
  split
  · have k1 := (k.raiseInt intFatal)
    exact ⟨⟨Mem.wf_writeAll _ _ _ k.mem.1, k1.mem.2⟩, k1.evt, k1.room, k.par⟩
  · exact k

theorem Io.complete_mem (io : Io) (par : Params) (now op : Nat) (e : CmdEntry) (at_ : Nat) (st : Status) (detail : Nat) (r : List Byte)
    (h : io.cmdRing.wf = true ∧ io.cplRing.wf = true) :
    (io.complete par now op e at_ st detail r).cmdRing.wf = true ∧ (io.complete par now op e at_ st detail r).cplRing.wf = true := by
  have hp := Io.complete_pointers io par now op e at_ st detail r
  rw [hp.2.2.2.1, hp.2.2.2.2]
  exact ⟨h.1, Mem.wf_writeAll _ _ _ h.2⟩

theorem Io.finish_mem (io : Io) (par : Params) (now op key : Nat) (st : Status) (detail : Nat) (r : List Byte)
    (h : io.cmdRing.wf = true ∧ io.cplRing.wf = true) :
    (io.finish par now op key st detail r).cmdRing.wf = true ∧ (io.finish par now op key st detail r).cplRing.wf = true := by
  unfold Io.finish; split
  · exact h
  · exact Io.complete_mem _ _ _ _ _ _ _ _ _ h

theorem State.Ok.finishRaw {s : State} (k : s.Ok) (op key : Nat) (st : Status) (detail : Nat) (r : List Byte) :
    State.Ok { s with io := s.io.finish s.par s.now op key st detail r } :=
  ⟨⟨k.mem.1, (Io.finish_mem _ _ _ _ _ _ _ _ k.mem.2)⟩, Io.finish_evtOk _ _ _ _ _ _ _ _ k.evt, Io.finish_room _ _ _ _ _ _ _ _ k.room, k.par⟩

theorem State.Ok.finish {s : State} (k : s.Ok) (op key : Nat) (st : Status) (detail : Nat) (r : List Byte) : (s.finish op key st detail r).Ok := by
  simp only [State.finish]
  split
  · exact (k.dump op).finishRaw _ _ _ _ _
  · exact k.finishRaw _ _ _ _ _

/-- Any request to the interface block keeps the invariants. -/
theorem State.Ok.apply {s : State} (k : s.Ok) (x : Emit) : (s.apply x).Ok := by
  cases x with
  | event ev inst sev fs => exact k.ofIo _ (Io.event_keeps _ _ _ _ _ _ _) (Io.event_evtOk _ _ _ _ _ _ _ k.evt)
  | int src => exact k.raiseInt src
  | finish op key st detail r => exact k.finish op key st detail r
  | mbx st => exact k.ofIo _ (Io.setMbx_keeps _ _ _) (Io.setMbx_evtOk _ _ _ k.evt)
  | dram a bs => exact ⟨⟨Mem.wf_writeAll _ _ _ k.mem.1, k.mem.2⟩, k.evt, k.room, k.par⟩
  | params l => exact ⟨k.mem, k.evt, k.room, Params.legal_store _ _ k.par⟩
  | pulse c i => exact k.pcs _
  | select pc m c i => exact k.pcs _
  | clearPcs => exact k.pcs _
  | wipe all => exact ⟨⟨Mem.wf_filter _ _ k.mem.1, k.mem.2⟩, k.evt, k.room, k.par⟩

theorem State.Ok.foldApply (l : List Emit) : ∀ s : State, s.Ok → (l.foldl State.apply s).Ok := by
  induction l with
  | nil => exact fun s k => k
  | cons x l ih => exact fun s k => ih _ (k.apply x)

/-- Whatever the device has become, carrying out its requests keeps the invariants. -/
theorem State.Ok.carryOut {s : State} (k : s.Ok) (d : Dev) : (s.carryOut d).Ok := State.Ok.foldApply _ _ (k.ofDev _)

theorem State.Ok.refreshF {s : State} (k : s.Ok) : s.refreshF.Ok := by
  unfold State.refreshF; split
  · exact k.ofIo _ ⟨rfl, rfl, rfl, rfl, rfl⟩ (Io.evtOk_of_eq ⟨rfl, rfl, rfl, rfl, rfl⟩ k.evt)
  · exact k

theorem Io.raiseOn_keeps (io : Io) (n : Nat) (c : Bool) : Io.Keeps io (io.raiseOn n c) := by
  unfold Io.raiseOn; split
  · exact Io.raiseInt_keeps _ _
  · exact Io.Keeps.refl _

theorem Io.raiseOn_evtOk (io : Io) (n : Nat) (c : Bool) (k : io.evtOk) : (io.raiseOn n c).evtOk := by
  unfold Io.raiseOn; split
  · exact Io.raiseInt_evtOk _ _ k
  · exact k

theorem raiseSummaries_keeps (old new : State) : Io.Keeps new.io (raiseSummaries old new) := by
  unfold raiseSummaries
  exact ((((Io.raiseOn_keeps _ _ _).trans (Io.raiseOn_keeps _ _ _)).trans (Io.raiseOn_keeps _ _ _)).trans (Io.raiseOn_keeps _ _ _)).trans
    (Io.raiseOn_keeps _ _ _)

theorem raiseSummaries_evtOk (old new : State) (k : new.io.evtOk) : (raiseSummaries old new).evtOk := by
  unfold raiseSummaries
  exact Io.raiseOn_evtOk _ _ _ (Io.raiseOn_evtOk _ _ _ (Io.raiseOn_evtOk _ _ _ (Io.raiseOn_evtOk _ _ _ (Io.raiseOn_evtOk _ _ _ k))))

theorem State.Ok.settle {s : State} (k : s.Ok) (old : State) : (settle old s).Ok := by
  have k2 := k.refreshF.pcs (countEdges old s.refreshF)
  exact k2.ofIo _ (raiseSummaries_keeps _ _) (raiseSummaries_evtOk _ _ k2.evt)

/-- An event's effect, whatever it is, keeps the invariants. -/
theorem State.Ok.commit {s : State} (k : s.Ok) (d : Dev) : (s.commit d).Ok := (k.carryOut d).settle s

theorem State.Ok.onDev {s : State} (k : s.Ok) (f : Env → Dev → Dev) : (onDev s f).Ok := k.commit _

/-! ### Waiting commands stay waiting -/

theorem State.dump_io (s : State) (op : Nat) : Io.Keeps s.io (s.dump op).io := by
  unfold State.dump; split
  · exact Io.raiseInt_keeps _ _
  · exact Io.Keeps.refl _

theorem waiting_of_keeps {a b : Io} {p : Inflight → Bool} (h : Io.Keeps a b) (w : a.inflight.any p = true) : b.inflight.any p = true := by
  rw [h.inflight]; exact w

/-- An entry that waits goes on waiting while requests are carried out. -/
theorem State.apply_waiting (s : State) (x : Emit) (op : Nat) (e : CmdEntry) (h : s.io.inflight.any (isWaiting op e) = true) :
    (s.apply x).io.inflight.any (isWaiting op e) = true := by
  cases x with
  | event ev inst sev fs => exact waiting_of_keeps (Io.event_keeps s.io s.par s.now ev inst sev fs) h
  | int src => exact waiting_of_keeps (Io.raiseInt_keeps s.io src) h
  | finish op' key st detail r =>
    show (s.finish op' key st detail r).io.inflight.any _ = true
    simp only [State.finish]
    apply Io.finish_waiting
    split
    · exact waiting_of_keeps (State.dump_io s op') h
    · exact h
  | mbx st => exact waiting_of_keeps (Io.setMbx_keeps s.io s.now st) h
  | dram a bs => exact h
  | params l => exact h
  | pulse c i => exact h
  | select pc m c i => exact h
  | clearPcs => exact h
  | wipe all => exact h

theorem State.foldApply_waiting (l : List Emit) (op : Nat) (e : CmdEntry) : ∀ s : State, s.io.inflight.any (isWaiting op e) = true →
    (l.foldl State.apply s).io.inflight.any (isWaiting op e) = true := by
  induction l with
  | nil => exact fun s h => h
  | cons x l ih => exact fun s h => ih _ (State.apply_waiting s x op e h)

theorem State.carryOut_waiting (s : State) (d : Dev) (op : Nat) (e : CmdEntry) (h : s.io.inflight.any (isWaiting op e) = true) :
    (s.carryOut d).io.inflight.any (isWaiting op e) = true := by
  simp only [State.carryOut]
  apply State.foldApply_waiting
  exact h

/-! ### Completing and running -/

theorem State.Ok.completeWaiting {s : State} (k : s.Ok) (op : Nat) (e : CmdEntry) (st : Status) (detail : Nat) (r : List Byte)
    (h : s.io.inflight.any (isWaiting op e) = true) : (s.completeWaiting op e st detail r).Ok := by
  unfold State.completeWaiting
  refine ⟨⟨k.mem.1, Io.complete_mem _ _ _ _ _ _ _ _ _ k.mem.2⟩, ?_, ?_, k.par⟩
  · exact Io.complete_evtOk _ _ _ _ _ _ _ _ _ (Io.evtOk_of_eq ⟨rfl, rfl, rfl, rfl, rfl⟩ k.evt)
  · exact Io.complete_room _ _ h k.room _ _ _ _ _ _ _ _

theorem markStarted_length (op : Nat) (e : CmdEntry) (dl : Nat) (l : List Inflight) : (markStarted op e dl l).length = l.length := by
  induction l with
  | nil => rfl
  | cons r l ih => simp only [markStarted]; split <;> simp [ih]

theorem State.Ok.answer {s : State} (k : s.Ok) (op : Nat) (e : CmdEntry) (a : CmdRes) (h : s.io.inflight.any (isWaiting op e) = true) :
    (s.answer op e a).Ok := by
  cases a with
  | refuse st detail =>
    simp only [State.answer]; split
    · exact (k.dump op).completeWaiting _ _ _ _ _ (waiting_of_keeps (State.dump_io s op) h)
    · exact k.completeWaiting _ _ _ _ _ h
  | done r d => exact ((k.carryOut d).completeWaiting _ _ _ _ _ (State.carryOut_waiting s d op e h)).settle s
  | fail st detail d =>
    have hw := State.carryOut_waiting s d op e h
    have kc := k.carryOut d
    simp only [State.answer]
    apply State.Ok.settle
    generalize s.carryOut d = s1 at hw kc
    split
    · exact (kc.dump op).completeWaiting _ _ _ _ _ (waiting_of_keeps (State.dump_io s1 op) hw)
    · exact kc.completeWaiting _ _ _ _ _ hw
  | start bound d =>
    simp only [State.answer]
    apply State.Ok.settle
    apply State.Ok.carryOut
    refine ⟨k.mem, ?_, ?_, k.par⟩
    · exact Io.evtOk_of_eq ⟨rfl, rfl, rfl, rfl, rfl⟩ k.evt
    · have := k.room
      unfold Io.roomOk Io.outstanding Io.unread at *
      simpa [markStarted_length] using this

/-- An entry that has not started is no running command. -/
theorem Io.running_append (io : Io) (r : Inflight) (h : r.started = false) : Io.running { io with inflight := io.inflight ++ [r] } = io.running := by
  simp [Io.running, h]

/-- Consuming an entry leaves everything but the list of commands in progress; the entry then waits. -/
theorem State.consumed_spec (s s1 : State) (op : Nat) (e : CmdEntry) (h : s.consumed op e = some s1) :
    s1.io.inflight.any (isWaiting op e) = true ∧ (s.Ok → s1.Ok) ∧ s1.dev = s.dev ∧ s1.par = s.par ∧ s1.mem = s.mem ∧ s1.now = s.now ∧
    s1.pending = s.pending ∧ s1.env = s.env := by
  unfold State.consumed at h
  split at h
  · cases h; rename_i hw; exact ⟨hw, id, rfl, rfl, rfl, rfl, rfl, rfl⟩
  · split at h
    · cases h; rename_i hlt
      refine ⟨?_, fun k => ⟨k.mem, Io.evtOk_of_eq ⟨rfl, rfl, rfl, rfl, rfl⟩ k.evt, ?_, k.par⟩, rfl, rfl, rfl, rfl, rfl, ?_⟩
      · simp [isWaiting]
      · unfold Io.roomOk Io.outstanding Io.unread at *
        simp only [List.length_append, List.length_singleton]; omega
      · simp only [State.env, Io.running_append]
    · cases h

/-- Running a command keeps the invariants, provided what its body does to the parameters keeps theirs. -/
theorem State.Ok.runCmdWith {s : State} (k : s.Ok) (f : CmdForm) (e : CmdEntry) (body : State → Params × CmdRes)
    (hb : ∀ s : State, s.par.legal = true → (body s).1.legal = true) : (runCmdWith f e body s).Ok := by
  simp only [Machine.runCmdWith]
  split
  · exact k
  · split
    · exact k
    · rename_i s1 hs
      have hc := State.consumed_spec s s1 f.op (canonEntry e) hs
      have k1 := hc.2.1 k
      split
      · exact k1
      · exact k1.completeWaiting _ _ _ _ _ hc.1
      · exact State.Ok.answer (s := { s1 with par := (body s1).1 }) ⟨k1.mem, k1.evt, k1.room, hb s1 k1.par⟩ _ _ _ hc.1

theorem State.Ok.runCmd {s : State} (k : s.Ok) (f : CmdForm) (e : CmdEntry) (body : Env → Dev → CmdRes) : (runCmd f e body s).Ok :=
  k.runCmdWith f e _ fun _ h => h

/-! ### What a command does, case by case -/

/-- A command that runs is answered by its body. -/
theorem runCmdWith_runs (f : CmdForm) (e : CmdEntry) (body : State → Params × CmdRes) (s s1 : State) (h : Runs f e s s1) :
    runCmdWith f e body s = State.answer { s1 with par := (body s1).1 } f.op (canonEntry e) (body s1).2 := by
  obtain ⟨h1, h2, h3⟩ := h
  simp only [runCmdWith, h1, h2, h3]; rfl

theorem runCmd_runs (f : CmdForm) (e : CmdEntry) (body : Env → Dev → CmdRes) (s s1 : State) (h : Runs f e s s1) :
    runCmd f e body s = s1.answer f.op (canonEntry e) (body s.env s.dev) := by
  have hc := State.consumed_spec s s1 _ _ h.2.1
  unfold runCmd; rw [runCmdWith_runs f e _ s s1 h, ← hc.2.2.2.2.2.2.2, ← hc.2.2.1]

/-- A command that is turned away completes, and changes nothing of the device. -/
theorem runCmdWith_turnedAway (f : CmdForm) (e : CmdEntry) (body : State → Params × CmdRes) (s s1 : State) (st : Status) (detail : Nat)
    (h : TurnedAway f e s s1 st detail) : runCmdWith f e body s = s1.completeWaiting f.op (canonEntry e) st detail [] := by
  obtain ⟨h1, h2, h3⟩ := h
  simp only [runCmdWith, h1, h2, h3]; rfl

/-- A command that is held back waits among the commands consumed. -/
theorem runCmdWith_heldBack (f : CmdForm) (e : CmdEntry) (body : State → Params × CmdRes) (s s1 : State) (h : HeldBack f e s s1) :
    runCmdWith f e body s = s1 := by
  obtain ⟨h1, h2, h3, h4⟩ := h
  simp only [runCmdWith, h1, h2, admission, h3, h4]; rfl

end Sys2Proof.Machine
end

