-- ==== Sys2Proof/Laws/Bus.lean ====
section
/-! SUPPORT. Laws/Bus.lean: bus accesses, consumption, resets and the other rows that are no event or mailbox command keep the invariants. -/

namespace Sys2Proof.Machine

/-- A change of the interface block that touches neither rings, pointers, commands in progress nor event fields. -/
theorem State.Ok.ioQuiet {s : State} (k : s.Ok) (io : Io) (h : Io.Keeps s.io io)
    (e : io.evts = s.io.evts ∧ io.held = s.io.held ∧ io.evtMark = s.io.evtMark ∧ io.markHit = s.io.markHit ∧ io.runMode = s.io.runMode) :
    State.Ok { s with io := io } := k.ofIo io h (Io.evtOk_of_eq e k.evt)

/-- What a change of the interface block alone must keep. -/
structure Io.Good (a b : Io) : Prop where
  cmd : a.cmdRing.wf = true → b.cmdRing.wf = true
  cpl : a.cplRing.wf = true → b.cplRing.wf = true
  evt : a.evtOk → b.evtOk
  room : a.roomOk → b.roomOk

theorem State.Ok.good {s : State} (k : s.Ok) (io : Io) (h : Io.Good s.io io) : State.Ok { s with io := io } :=
  ⟨⟨k.mem.1, h.cmd k.mem.2.1, h.cpl k.mem.2.2⟩, h.evt k.evt, h.room k.room, k.par⟩

theorem Io.Good.refl (a : Io) : Io.Good a a := ⟨id, id, id, id⟩

theorem Io.Good.ofKeeps {a b : Io} (h : Io.Keeps a b) (e : a.evtOk → b.evtOk) : Io.Good a b :=
  ⟨fun w => by rw [h.cmdRing]; exact w, fun w => by rw [h.cplRing]; exact w, e, h.room⟩

/-- Nothing of rings, pointers, commands or event fields changes. -/
theorem Io.Good.ofEq {a b : Io} (h : Io.Keeps a b)
    (e : b.evts = a.evts ∧ b.held = a.held ∧ b.evtMark = a.evtMark ∧ b.markHit = a.markHit ∧ b.runMode = a.runMode) : Io.Good a b :=
  Io.Good.ofKeeps h (Io.evtOk_of_eq e)

theorem Io.raiseInt_good (io : Io) (n : Nat) : Io.Good io (io.raiseInt n) := Io.Good.ofKeeps (Io.raiseInt_keeps _ _) (Io.raiseInt_evtOk _ _)

theorem Io.Good.trans {a b c : Io} (h : Io.Good a b) (g : Io.Good b c) : Io.Good a c :=
  ⟨g.1 ∘ h.1, g.2 ∘ h.2, g.3 ∘ h.3, g.4 ∘ h.4⟩

theorem Io.Good.ite {a b c : Io} {p : Prop} [Decidable p] (h : Io.Good a b) (g : Io.Good a c) : Io.Good a (if p then b else c) := by
  split <;> assumption

theorem Io.mbxError_good (io : Io) (b : Nat) : Io.Good io (io.mbxError b) := by
  unfold Io.mbxError
  exact Io.Good.trans (b := { io with mbxErr := io.mbxErr ||| BitVec.ofNat 3 (2 ^ b) })
    (Io.Good.ofEq ⟨rfl, rfl, rfl, rfl, rfl⟩ ⟨rfl, rfl, rfl, rfl, rfl⟩) (Io.raiseInt_good _ _)

theorem Io.accessFault_good (io : Io) (off : Nat) (wr : Bool) : Io.Good io (io.accessFault off wr) := by
  unfold Io.accessFault
  refine Io.Good.trans ?_ (Io.raiseInt_good _ _)
  split
  · exact Io.Good.ofEq ⟨rfl, rfl, rfl, rfl, rfl⟩ ⟨rfl, rfl, rfl, rfl, rfl⟩
  · exact Io.Good.refl _

theorem Io.faulted_good (io : Io) (off : Nat) (wr : Bool) : Io.Good io (io.faulted off wr) := by
  unfold Io.faulted
  refine Io.Good.trans (Io.accessFault_good io off wr) ?_
  split
  · exact Io.Good.refl _
  · exact Io.Good.ofEq ⟨rfl, rfl, rfl, rfl, rfl⟩ ⟨rfl, rfl, rfl, rfl, rfl⟩

theorem Io.writeCmdTail_good (io : Io) (v : Word) : Io.Good io (io.writeCmdTail v) := by
  simp only [Io.writeCmdTail]
  split
  · exact Io.mbxError_good _ _
  · exact Io.Good.ofEq ⟨rfl, rfl, rfl, rfl, rfl⟩ ⟨rfl, rfl, rfl, rfl, rfl⟩

/-- Freeing completion slots can only make room. -/
theorem Io.writeCplHead_good (io : Io) (v : Word) : Io.Good io (io.writeCplHead v) := by
  simp only [Io.writeCplHead]
  split
  · exact Io.mbxError_good _ _
  · rename_i h
    refine ⟨id, id, Io.evtOk_of_eq ⟨rfl, rfl, rfl, rfl, rfl⟩, fun r => ?_⟩
    unfold Io.roomOk Io.outstanding Io.unread at *
    simp only at *
    have : (io.cplTail - BitVec.setWidth 7 v).toNat ≤ (io.cplTail - io.cplHead).toNat := by
      generalize (BitVec.setWidth 7 v : RingPtr) = h2 at *
      revert h; generalize io.cplTail = t; generalize io.cplHead = h1
      intro h; bv_omega
    omega

theorem Io.writePort_good (io : Io) (via : Via) (v : Word) : Io.Good io (io.writePort via v) := by
  simp only [Io.writePort]
  exact Io.Good.ite (Io.mbxError_good _ _) (Io.Good.ofEq ⟨rfl, rfl, rfl, rfl, rfl⟩ ⟨rfl, rfl, rfl, rfl, rfl⟩)

theorem Io.writeMark_good (io : Io) (v : Word) : Io.Good io (io.writeMark v) := by
  simp only [Io.writeMark]
  exact Io.Good.ofKeeps (Io.reMark_keeps _ _ ⟨rfl, rfl, rfl, rfl, rfl⟩) fun k => Io.reMark_evtOk _ _ k.2 k.1 rfl

theorem Io.clearMark_good (io : Io) : Io.Good io io.clearMark := by
  simp only [Io.clearMark]
  split
  · exact Io.Good.ofKeeps (Io.Keeps.after (Io.latchMark_keeps _) ⟨rfl, rfl, rfl, rfl, rfl⟩) fun k => Io.latchMark_evtOk _ k.1
  · rename_i h
    refine Io.Good.ofKeeps ⟨rfl, rfl, rfl, rfl, rfl⟩ fun k => ⟨k.1, fun hc => ?_⟩
    have hc' : io.markCond = true := hc
    have := k.2 hc'
    rw [this] at h; simp only [Bool.true_and] at h
    exact absurd hc' (by simpa [Io.markCond] using h)

theorem Io.writeRun_good (io : Io) (b : Bool) : Io.Good io (io.writeRun b) := by
  unfold Io.writeRun
  split
  · exact Io.Good.ofKeeps (Io.reMark_keeps _ _ ⟨rfl, rfl, rfl, rfl, rfl⟩) fun k => Io.reMark_evtOk _ _ k.2 k.1 rfl
  · exact Io.Good.refl _

theorem Io.writeEvtStatus_good (io : Io) (v : Word) : Io.Good io (io.writeEvtStatus v) := by
  have h1 : Io.Good io (if v.getLsbD 0 = true then io.clearMark else io) := Io.Good.ite (Io.clearMark_good _) (Io.Good.refl _)
  unfold Io.writeEvtStatus
  revert h1
  generalize (if v.getLsbD 0 = true then io.clearMark else io) = io1
  intro h1
  have h2 : Io.Good io1 (if v.getLsbD 2 = true then { io1 with overflow := false } else io1) :=
    Io.Good.ite (Io.Good.ofEq ⟨rfl, rfl, rfl, rfl, rfl⟩ ⟨rfl, rfl, rfl, rfl, rfl⟩) (Io.Good.refl _)
  exact (h1.trans h2).trans (Io.writeRun_good _ _)

theorem Io.pop_good (io : Io) (now : Nat) (v : Word) : Io.Good io (io.pop now v) := by
  unfold Io.pop
  split
  · refine Io.Good.ofKeeps (Io.Keeps.after (Io.overflowEntry_keeps _ _) ⟨rfl, rfl, rfl, rfl, rfl⟩) fun k => ?_
    apply Io.overflowEntry_evtOk
    refine ⟨⟨?_, k.1.2⟩, fun hc => k.2 ?_⟩
    · have := k.1.1; simp only [List.length_drop]; omega
    · simp only [Io.markCond, List.length_drop, Bool.and_eq_true, decide_eq_true_eq] at hc ⊢
      exact ⟨hc.1, by omega⟩
  · exact Io.Good.refl _

theorem Io.writeEnable_good (io : Io) (v : Word) : Io.Good io (io.writeEnable v) :=
  Io.Good.ofEq ⟨rfl, rfl, rfl, rfl, rfl⟩ ⟨rfl, rfl, rfl, rfl, rfl⟩

theorem Io.writeReg_good (io : Io) (now off : Nat) (v : Word) : Io.Good io (io.writeReg now off v) := by
  unfold Io.writeReg
  have e : ∀ io1 : Io, Io.Keeps io io1 → (io1.evts = io.evts ∧ io1.held = io.held ∧ io1.evtMark = io.evtMark ∧ io1.markHit = io.markHit ∧
    io1.runMode = io.runMode) → Io.Good io io1 := fun _ => Io.Good.ofEq
  refine Io.Good.ite ⟨fun w => Mem.wf_writeAll _ _ _ w, id, id, id⟩ ?_
  refine Io.Good.ite (Io.writeCmdTail_good _ _) ?_
  refine Io.Good.ite (Io.writeCplHead_good _ _) ?_
  refine Io.Good.ite (e _ ⟨rfl, rfl, rfl, rfl, rfl⟩ ⟨rfl, rfl, rfl, rfl, rfl⟩) ?_
  refine Io.Good.ite (Io.writeMark_good _ _) ?_
  refine Io.Good.ite (Io.writeEvtStatus_good _ _) ?_
  refine Io.Good.ite (e _ ⟨rfl, rfl, rfl, rfl, rfl⟩ ⟨rfl, rfl, rfl, rfl, rfl⟩) ?_
  refine Io.Good.ite (Io.pop_good _ _ _) ?_
  refine Io.Good.ite (e _ ⟨rfl, rfl, rfl, rfl, rfl⟩ ⟨rfl, rfl, rfl, rfl, rfl⟩) ?_
  refine Io.Good.ite (Io.writeEnable_good _ _) ?_
  exact Io.Good.ite (e _ ⟨rfl, rfl, rfl, rfl, rfl⟩ ⟨rfl, rfl, rfl, rfl, rfl⟩) (Io.Good.refl _)

theorem Io.guarded_good (io : Io) (via : Via) (f : Io → Io) (h : Io.Good io (f io)) : Io.Good io (io.guarded via f) := by
  unfold Io.guarded; split
  · exact Io.mbxError_good _ _
  · exact h

theorem Io.sendMessage_good (io : Io) (src : Nat) (m : Bool) : Io.Good io (io.sendMessage src m) := by
  unfold Io.sendMessage
  repeat' first | apply Io.Good.ite | (intro v)
  all_goals first
    | exact Io.Good.refl _
    | exact Io.Good.ofEq ⟨rfl, rfl, rfl, rfl, rfl⟩ ⟨rfl, rfl, rfl, rfl, rfl⟩

/-- A change of the snapshot block. -/
theorem State.Ok.snap {s : State} (k : s.Ok) (x : Snap) : State.Ok { s with io := { s.io with snap := x } } :=
  k.ioQuiet _ ⟨rfl, rfl, rfl, rfl, rfl⟩ ⟨rfl, rfl, rfl, rfl, rfl⟩

theorem Io.event_good (io : Io) (par : Params) (now : Nat) (ev : Evt) (i s : Nat) (fs : List (Nat × Int)) :
    Io.Good io (io.event par now ev i s fs) := Io.Good.ofKeeps (Io.event_keeps _ _ _ _ _ _ _) (Io.event_evtOk _ _ _ _ _ _ _)

theorem Io.snap_good (io : Io) (x : Snap) : Io.Good io { io with snap := x } := Io.Good.ofEq ⟨rfl, rfl, rfl, rfl, rfl⟩ ⟨rfl, rfl, rfl, rfl, rfl⟩

theorem Io.snapEvent_good (io : Io) (x : Snap) (c : Bool) (par : Params) (now : Nat) (ev : Evt) (i s : Nat) (fs : List (Nat × Int)) :
    Io.Good io (if c then Io.event { io with snap := x } par now ev i s fs else { io with snap := x }) :=
  Io.Good.ite ((Io.snap_good io x).trans (Io.event_good _ _ _ _ _ _ _)) (Io.snap_good io x)

theorem State.Ok.snapSkip {s : State} (k : s.Ok) : (snapSkip s).Ok := by
  unfold Machine.snapSkip
  exact k.good _ (Io.snapEvent_good _ _ _ _ _ _ _ _ _)

theorem State.Ok.snapBegin {s : State} (k : s.Ok) (t : Bool) : (snapBegin t s).Ok := by
  simp only [Machine.snapBegin]
  generalize s.dev.countersRun = d
  exact (k.ofDev d).snap _

theorem State.Ok.snapStrobe {s : State} (k : s.Ok) : (snapStrobe s).Ok := by
  unfold Machine.snapStrobe; split
  · exact k
  · split
    · exact k.snapSkip
    · exact k.snapBegin _

theorem State.Ok.snapTrig {s : State} (k : s.Ok) : (snapTrig s).Ok := by
  unfold Machine.snapTrig; split
  · exact k.snap _
  · split
    · exact k.snapSkip
    · exact k.snapBegin _

theorem snapWrite_wf (x : SnapDump) (late : Bool) (m : Mem) (h : m.wf = true) : (snapWrite x late m).wf = true := by
  simp only [snapWrite]
  have step : ∀ (l : List SnapCell) (m : Mem), m.wf = true →
      (l.foldl (fun (m : Mem) c => Mem.writeAll m (snapOffset x.seq + 8 * c.slot) (cntEntry c.v c.ovf c.off)) m).wf = true := by
    intro l
    induction l with
    | nil => exact fun m h => h
    | cons c l ih => exact fun m h => ih _ (Mem.wf_writeAll _ _ _ h)
  exact step _ _ (Mem.wf_writeAll _ _ _ (Mem.wf_filter _ _ h))

theorem State.Ok.ofMem {s : State} (k : s.Ok) (m : Mem) (h : m.wf = true) : State.Ok { s with mem := m } :=
  ⟨⟨h, k.mem.2⟩, k.evt, k.room, k.par⟩

theorem State.Ok.snapEnd {s : State} (k : s.Ok) (ok : Bool) : (snapEnd ok s).Ok := by
  simp only [Machine.snapEnd]
  split
  · exact k
  · rename_i x hx
    split
    · exact k.snap _
    · exact (((k.ofMem _ (snapWrite_wf _ _ _ k.mem.1)).snap _).raiseInt intSnapshot)

theorem State.Ok.writeSnapCtrl {s : State} (k : s.Ok) (v : Word) : (s.writeSnapCtrl v).Ok := by
  simp only [State.writeSnapCtrl]
  have h := k.snap { s.io.snap with run := v.getLsbD 0, dmaEn := v.getLsbD 1 && decide (2 ≤ s.io.snap.dmaCount.toNat) }
  split
  · exact h.snapTrig
  · exact h

theorem State.Ok.busWrite {s : State} (k : s.Ok) (via : Via) (off : Nat) (v : Word) : (s.busWrite via off v).Ok := by
  unfold State.busWrite
  split
  · exact k
  · split
    · exact k.good _ (Io.writePort_good _ _ _)
    · split
      · exact k.good _ (Io.guarded_good _ _ _ (Io.writeReg_good _ _ _ _))
      · split
        · exact k.writeSnapCtrl _
        · split
          · exact k.snap _
          · split
            · exact k.good _ (Io.accessFault_good _ _ _)
            · exact k.good _ (Io.writeReg_good _ _ _ _)

theorem State.Ok.busWriteWords (n : Nat) : ∀ (off : Nat) (bs : List Byte) (s : State), s.Ok → (State.busWriteWords n off bs s).Ok := by
  induction n with
  | zero => exact fun _ _ _ k => k
  | succ n ih => exact fun off bs s k => ih _ _ _ (k.busWrite _ _ _)

theorem State.Ok.busRead {s : State} (k : s.Ok) (off : Nat) : (s.busRead off).2.Ok := by
  unfold State.busRead
  split
  · exact k
  · split
    · exact k
    · split
      · exact k.good _ (Io.accessFault_good _ _ _)
      · exact k.ofDev _

theorem State.Ok.busReadWords (n : Nat) : ∀ (off : Nat) (s : State), s.Ok → (State.busReadWords n off s).2.Ok := by
  induction n with
  | zero => exact fun _ _ k => k
  | succ n ih => exact fun off s k => ih _ _ (k.busRead _)

theorem State.Ok.bar2Fault {s : State} (k : s.Ok) (wr : Bool) : (s.bar2Fault wr).Ok := by
  simp only [State.bar2Fault]
  exact (k.ofDev s.dev.draw.2).good _ (Io.faulted_good _ _ _)

/-! ### Consumption -/

theorem State.Ok.commandConsume {s : State} (k : s.Ok) : (commandConsume s).Ok := by
  unfold Machine.commandConsume
  split
  · rename_i h
    refine ⟨k.mem, Io.evtOk_of_eq ⟨rfl, rfl, rfl, rfl, rfl⟩ k.evt, ?_, k.par⟩
    have hc := h.2
    simp only [Io.canConsume, decide_eq_true_eq] at hc
    have := hc.2
    unfold Io.roomOk Io.outstanding Io.unread at *
    simp only [List.length_append, List.length_singleton]; omega
  · exact k

/-- One more completion is written where there is room for it. -/
theorem Io.complete_roomLt (io : Io) (h : io.outstanding < 64) (par : Params) (now op : Nat) (e : CmdEntry)
    (at_ : Nat) (st : Status) (detail : Nat) (r : List Byte) : (Io.complete io par now op e at_ st detail r).roomOk := by
  have hp := Io.complete_pointers io par now op e at_ st detail r
  unfold Io.roomOk Io.outstanding Io.unread at *
  rw [hp.1, hp.2.1, hp.2.2.1, unread_step _ _ (by omega)]
  omega

theorem State.Ok.responderComplete {s : State} (k : s.Ok) : (responderComplete s).Ok := by
  unfold Machine.responderComplete
  split
  · exact k
  · split
    · rename_i h
      simp only [Io.canConsume, decide_eq_true_eq] at h
      refine ⟨⟨k.mem.1, Io.complete_mem _ _ _ _ _ _ _ _ _ k.mem.2⟩, Io.complete_evtOk _ _ _ _ _ _ _ _ _ ?_, ?_, k.par⟩
      · exact Io.evtOk_of_eq ⟨rfl, rfl, rfl, rfl, rfl⟩ k.evt
      · apply Io.complete_roomLt
        exact h.2
    · exact k

/-! ### Resets and restarts -/

theorem State.reset_ok : State.reset.Ok := by
  refine ⟨⟨by decide, by decide, by decide⟩, ⟨⟨by decide, by decide⟩, ?_⟩, ?_, ?_⟩
  · intro h; exact absurd h (by decide)
  · show State.reset.io.outstanding ≤ 64; decide
  · show State.reset.par.legal = true; decide

/-- A reset meets the invariants whatever went before. -/
theorem State.afterReset_ok (s : State) (c : Nat) (z : Bool) : (s.afterReset c z).Ok :=
  ⟨State.reset_ok.mem, State.reset_ok.evt, State.reset_ok.room, State.reset_ok.par⟩

theorem State.Ok.railsGone (s : State) (c : Bool) (f : Power → Power) : (s.railsGone c f).Ok := (s.afterReset_ok _ _).ofDev _

theorem State.Ok.powerOn {s : State} (k : s.Ok) (vin : Nat) : (powerOn vin s).Ok := by
  simp only [Machine.powerOn]; split
  · exact (s.afterReset_ok _ _).ofDev _
  · exact k

theorem State.Ok.overvoltage {s : State} (k : s.Ok) (vin : Nat) : (overvoltage vin s).Ok := by
  unfold Machine.overvoltage; split
  · exact k
  · exact State.Ok.railsGone _ _ _

theorem State.Ok.overvoltageRestart {s : State} (k : s.Ok) (vin : Nat) : (overvoltageRestart vin s).Ok := by
  simp only [Machine.overvoltageRestart]; split
  · exact (s.afterReset_ok _ _).ofDev _
  · exact k

theorem State.Ok.wake (s : State) (c : Nat) : (s.wake c).Ok := (s.afterReset_ok _ _).ofDev _

theorem State.Ok.cutAll {s : State} (k : s.Ok) : State.Ok { s with io := s.io.cutAll } := by
  refine ⟨k.mem, Io.evtOk_of_eq ⟨rfl, rfl, rfl, rfl, rfl⟩ k.evt, ?_, k.par⟩
  have := k.room
  unfold Io.roomOk Io.outstanding Io.unread Io.cutAll at *
  simpa using this

theorem filter_length_split {α : Type} (p : α → Bool) (l : List α) : (l.filter p).length + (l.filter fun r => !p r).length = l.length := by
  induction l with
  | nil => rfl
  | cons a l ih => simp only [List.filter_cons]; cases p a <;> simp <;> omega

/-- Completing `l` commands uses that much room. -/
theorem completeList_good (s : State) (st : Status) (detail : Nat) (l : List Inflight) : ∀ io : Io, io.cmdRing.wf = true → io.cplRing.wf = true → io.evtOk →
    io.outstanding + l.length ≤ 64 →
    let r := l.foldl (fun (io : Io) x => io.complete s.par s.now x.op x.e x.at_ st detail []) io
    r.cmdRing.wf = true ∧ r.cplRing.wf = true ∧ r.evtOk ∧ r.roomOk := by
  induction l with
  | nil => intro io h1 h2 h3 h4; exact ⟨h1, h2, h3, h4⟩
  | cons x l ih =>
    intro io h1 h2 h3 h4
    simp only [List.length_cons] at h4
    have hm := Io.complete_mem io s.par s.now x.op x.e x.at_ st detail [] ⟨h1, h2⟩
    refine ih _ hm.1 hm.2 (Io.complete_evtOk _ _ _ _ _ _ _ _ _ h3) ?_
    have hp := Io.complete_pointers io s.par s.now x.op x.e x.at_ st detail []
    unfold Io.outstanding Io.unread at *
    rw [hp.1, hp.2.1, hp.2.2.1, unread_step _ _ (by omega)]
    omega

theorem State.Ok.completeAll {s : State} (k : s.Ok) (p : Inflight → Bool) (st : Status) (detail : Nat) : (s.completeAll p st detail).Ok := by
  simp only [State.completeAll]
  have h := completeList_good s st detail (s.io.inflight.filter p) { s.io with inflight := s.io.inflight.filter fun r => !p r }
    k.mem.2.1 k.mem.2.2 (Io.evtOk_of_eq ⟨rfl, rfl, rfl, rfl, rfl⟩ k.evt) (by
      have := filter_length_split p s.io.inflight
      have := k.room
      unfold Io.roomOk Io.outstanding Io.unread at *
      simp only; omega)
  exact ⟨⟨k.mem.1, h.1, h.2.1⟩, h.2.2.1, h.2.2.2, k.par⟩

theorem State.Ok.frelvoDies {s : State} (k : s.Ok) (c : Nat) : (frelvoDies c s).Ok := by
  have k1 := k.cutAll
  unfold Machine.frelvoDies
  cases s.io.mbxState
  · exact k.onDev _
  all_goals
    first
    | exact k
    | (dsimp only
       split
       · apply k.onDev
       · split
         · apply State.Ok.completeAll; apply k.onDev
         · apply k1.onDev)

theorem State.Ok.frelvoMemory {s : State} (k : s.Ok) : (frelvoMemory s).Ok := by
  unfold Machine.frelvoMemory; split
  · exact (k.onDev _).frelvoDies _
  · exact k

theorem State.Ok.restartReady {s : State} (k : s.Ok) : (restartReady s).Ok := by
  unfold Machine.restartReady; split
  · exact (k.completeAll _ _ _).onDev _
  · exact k

theorem State.Ok.bootRomRun {s : State} (k : s.Ok) (b : BootEvidence) : (bootRomRun b s).Ok := by
  unfold Machine.bootRomRun; split
  · apply k.onDev
  · exact k

/-- An opcode that no command has. -/
theorem State.Ok.runUnknown {s : State} (k : s.Ok) (op : Nat) (e : CmdEntry) : (runUnknown op e s).Ok := by
  unfold Machine.runUnknown
  dsimp only
  split
  · exact k
  · split
    · exact k
    · rename_i s1 hs
      have hc := State.consumed_spec s s1 op (canonEntry e) hs
      have k1 := hc.2.1 k
      split
      · exact k1
      · split
        · exact k1.completeWaiting _ _ _ _ _ hc.1
        · exact k1.completeWaiting _ _ _ _ _ hc.1
      · exact k1.completeWaiting _ _ _ _ _ hc.1

/-! ### Time -/

theorem State.Ok.levels {s : State} (k : s.Ok) : s.levels.Ok := by
  unfold State.levels; split
  · exact k.pcs _
  · exact k

theorem State.Ok.foldTimeOuts (l : List Inflight) : ∀ s : State, s.Ok →
    (l.foldl (fun (s : State) r => s.commit (s.dev.timeOut s.env r.op r.e)) s).Ok := by
  induction l with
  | nil => exact fun s k => k
  | cons x l ih => intro s k; rw [List.foldl_cons]; apply ih; apply k.commit

theorem State.Ok.timeOuts {s : State} (k : s.Ok) : s.timeOuts.Ok := State.Ok.foldTimeOuts _ s k

theorem State.Ok.summaries {s : State} (k : s.Ok) (old : State) : State.Ok { s with io := raiseSummaries old s } :=
  k.ofIo _ (raiseSummaries_keeps _ _) (raiseSummaries_evtOk _ _ k.evt)

/-- The invariants look at memory, interface block and parameters only. -/
theorem State.Ok.of {s : State} (k : s.Ok) (t : State) (h1 : t.mem = s.mem) (h2 : t.io = s.io) (h3 : t.par = s.par) : t.Ok := by
  obtain ⟨⟨a, b⟩, c, d, e⟩ := k
  refine ⟨⟨?_, ?_⟩, ?_, ?_, ?_⟩
  · rw [h1]; exact a
  · rw [h2]; exact b
  · rw [h2]; exact c
  · rw [h2]; exact d
  · unfold State.paramsOk; rw [h3]; exact e

/-- A nanosecond without a command keeps the invariants. -/
theorem State.Ok.tick {s : State} (k : s.Ok) : (tick s).Ok := by
  have k1 : State.Ok { s with now := s.now + 1 } := k.of _ rfl rfl rfl
  unfold Machine.tick
  split
  · dsimp only
    split
    · exact State.Ok.wake _ _
    · exact State.reset_ok.of _ rfl rfl rfl
  · split
    · exact k1
    · apply State.Ok.summaries
      apply State.Ok.commit
      exact k1.levels.timeOuts

/-- The rest of the queue does not matter. -/
theorem State.Ok.ofPending {s : State} (k : s.Ok) (l : List Instr) : State.Ok { s with pending := l } := ⟨k.mem, k.evt, k.room, k.par⟩

end Sys2Proof.Machine
end

