-- ==== Sys2Proof/Laws/Frame.lean ====
section
/-! SUPPORT. Laws/Frame.lean: what events and commands leave alone: the time base, the queue and the registers that are the host's. -/

namespace Sys2Proof.Machine

theorem Io.HostSame.refl (a : Io) : Io.HostSame a a := ⟨rfl, rfl, rfl, rfl, rfl, rfl, rfl, rfl, rfl, rfl, rfl, rfl, rfl, rfl, rfl, rfl⟩

theorem Io.HostSame.trans {a b c : Io} (h : Io.HostSame a b) (g : Io.HostSame b c) : Io.HostSame a c :=
  ⟨g.1.trans h.1, g.2.trans h.2, g.3.trans h.3, g.4.trans h.4, g.5.trans h.5, g.6.trans h.6, g.7.trans h.7, g.8.trans h.8, g.9.trans h.9,
   g.10.trans h.10, g.11.trans h.11, g.12.trans h.12, g.13.trans h.13, g.14.trans h.14, g.15.trans h.15, g.16.trans h.16⟩

/-- Time, queue and the host's registers are as they were. -/
structure State.Still (s t : State) : Prop where
  now : t.now = s.now
  pending : t.pending = s.pending
  host : Io.HostSame s.io t.io

theorem State.Still.refl (s : State) : State.Still s s := ⟨rfl, rfl, Io.HostSame.refl _⟩
theorem State.Still.trans {a b c : State} (h : State.Still a b) (g : State.Still b c) : State.Still a c :=
  ⟨g.1.trans h.1, g.2.trans h.2, h.3.trans g.3⟩

theorem Io.raiseInt_host (io : Io) (n : Nat) : Io.HostSame io (io.raiseInt n) := by
  unfold Io.raiseInt; split <;> exact ⟨rfl, rfl, rfl, rfl, rfl, rfl, rfl, rfl, rfl, rfl, rfl, rfl, rfl, rfl, rfl, rfl⟩

theorem Io.latchMark_host (io : Io) : Io.HostSame io io.latchMark := by
  unfold Io.latchMark; split
  · exact Io.HostSame.refl _
  · exact Io.HostSame.trans (b := { io with markHit := true }) ⟨rfl, rfl, rfl, rfl, rfl, rfl, rfl, rfl, rfl, rfl, rfl, rfl, rfl, rfl, rfl, rfl⟩
      (Io.raiseInt_host _ _)

theorem Io.reMark_host (a b : Io) (h : Io.HostSame a b) : Io.HostSame a (Io.reMark a b) := by
  unfold Io.reMark; split
  · exact h.trans (Io.latchMark_host b)
  · exact h

theorem Io.enter_host (io : Io) (ev : HeldEvent) : Io.HostSame io (io.enter ev) := by
  simp only [Io.enter]; split
  · exact Io.reMark_host _ _ ⟨rfl, rfl, rfl, rfl, rfl, rfl, rfl, rfl, rfl, rfl, rfl, rfl, rfl, rfl, rfl, rfl⟩
  · split <;> exact ⟨rfl, rfl, rfl, rfl, rfl, rfl, rfl, rfl, rfl, rfl, rfl, rfl, rfl, rfl, rfl, rfl⟩

theorem Io.overflowEntry_host (io : Io) (now : Nat) : Io.HostSame io (io.overflowEntry now) := by
  unfold Io.overflowEntry; split
  · exact Io.HostSame.trans (b := { io with droppedSince := 0 }) ⟨rfl, rfl, rfl, rfl, rfl, rfl, rfl, rfl, rfl, rfl, rfl, rfl, rfl, rfl, rfl, rfl⟩
      (Io.enter_host _ _)
  · exact Io.HostSame.refl _

theorem Io.event_host (io : Io) (par : Params) (now : Nat) (ev : Evt) (i s : Nat) (fs : List (Nat × Int)) :
    Io.HostSame io (io.event par now ev i s fs) := by
  simp only [Io.event]; split
  · exact Io.HostSame.refl _
  · split
    · exact Io.HostSame.refl _
    · split <;> exact ⟨rfl, rfl, rfl, rfl, rfl, rfl, rfl, rfl, rfl, rfl, rfl, rfl, rfl, rfl, rfl, rfl⟩
    · exact Io.enter_host _ _

theorem Io.foldEnter_host (l : List HeldEvent) : ∀ io : Io, Io.HostSame io (l.foldl Io.enter io) := by
  induction l with
  | nil => exact fun io => Io.HostSame.refl io
  | cons e l ih => exact fun io => (Io.enter_host io e).trans (ih _)

theorem Io.enterHeld_host (io : Io) (now : Nat) : Io.HostSame io (io.enterHeld now) := by
  simp only [Io.enterHeld]
  refine Io.HostSame.trans ?_ (Io.overflowEntry_host _ _)
  have h : Io.HostSame io (io.held.foldl Io.enter { io with held := [] }) :=
    Io.HostSame.trans (b := { io with held := [] }) ⟨rfl, rfl, rfl, rfl, rfl, rfl, rfl, rfl, rfl, rfl, rfl, rfl, rfl, rfl, rfl, rfl⟩ (Io.foldEnter_host _ _)
  split
  · exact h
  · exact h.trans ⟨rfl, rfl, rfl, rfl, rfl, rfl, rfl, rfl, rfl, rfl, rfl, rfl, rfl, rfl, rfl, rfl⟩

theorem Io.setMbx_host (io : Io) (now : Nat) (st : MbxState) : Io.HostSame io (io.setMbx now st) := by
  unfold Io.setMbx; split
  · exact Io.HostSame.refl _
  · split
    · refine Io.HostSame.trans ?_ (Io.raiseInt_host _ _)
      exact Io.HostSame.trans (b := { io with mbxState := .ready })
        ⟨rfl, rfl, rfl, rfl, rfl, rfl, rfl, rfl, rfl, rfl, rfl, rfl, rfl, rfl, rfl, rfl⟩ (Io.enterHeld_host _ _)
    · exact Io.HostSame.trans (b := { io with mbxState := .fault, held := [], heldDropped := 0 })
        ⟨rfl, rfl, rfl, rfl, rfl, rfl, rfl, rfl, rfl, rfl, rfl, rfl, rfl, rfl, rfl, rfl⟩ (Io.raiseInt_host _ _)
    · exact ⟨rfl, rfl, rfl, rfl, rfl, rfl, rfl, rfl, rfl, rfl, rfl, rfl, rfl, rfl, rfl, rfl⟩

theorem Io.complete_host (io : Io) (par : Params) (now op : Nat) (e : CmdEntry) (at_ : Nat) (st : Status) (detail : Nat) (r : List Byte) :
    Io.HostSame io (io.complete par now op e at_ st detail r) := by
  simp only [Io.complete]; split
  · refine Io.HostSame.trans ?_ (Io.raiseInt_host _ _)
    exact ⟨rfl, rfl, rfl, rfl, rfl, rfl, rfl, rfl, rfl, rfl, rfl, rfl, rfl, rfl, rfl, rfl⟩
  · exact ⟨rfl, rfl, rfl, rfl, rfl, rfl, rfl, rfl, rfl, rfl, rfl, rfl, rfl, rfl, rfl, rfl⟩

/-- A change of the commands in progress first. -/
theorem Io.inflight_host (io : Io) (l : List Inflight) : Io.HostSame io { io with inflight := l } :=
  ⟨rfl, rfl, rfl, rfl, rfl, rfl, rfl, rfl, rfl, rfl, rfl, rfl, rfl, rfl, rfl, rfl⟩

theorem Io.finish_host (io : Io) (par : Params) (now op key : Nat) (st : Status) (detail : Nat) (r : List Byte) :
    Io.HostSame io (io.finish par now op key st detail r) := by
  unfold Io.finish; split
  · exact Io.HostSame.refl _
  · exact (Io.inflight_host io _).trans (Io.complete_host _ _ _ _ _ _ _ _ _)

theorem State.dump_still (s : State) (op : Nat) : State.Still s (s.dump op) := by
  unfold State.dump; split
  · exact ⟨rfl, rfl, Io.raiseInt_host _ _⟩
  · exact State.Still.refl _

theorem State.finish_still (s : State) (op key : Nat) (st : Status) (detail : Nat) (r : List Byte) : State.Still s (s.finish op key st detail r) := by
  unfold State.finish
  have h : State.Still s (if st = .internal ∧ s.io.inflight.any (isRunning op key) then s.dump op else s) := by
    split
    · exact State.dump_still _ _
    · exact State.Still.refl _
  revert h
  generalize (if st = .internal ∧ s.io.inflight.any (isRunning op key) then s.dump op else s) = s1
  intro h
  exact h.trans ⟨rfl, rfl, Io.finish_host _ _ _ _ _ _ _ _⟩

theorem State.apply_still (s : State) (x : Emit) : State.Still s (s.apply x) := by
  cases x with
  | event ev inst sev fs => exact ⟨rfl, rfl, Io.event_host _ _ _ _ _ _ _⟩
  | int src => exact ⟨rfl, rfl, Io.raiseInt_host _ _⟩
  | finish op key st detail r => exact State.finish_still _ _ _ _ _ _
  | mbx st => exact ⟨rfl, rfl, Io.setMbx_host _ _ _⟩
  | dram a bs => exact ⟨rfl, rfl, Io.HostSame.refl _⟩
  | params l => exact ⟨rfl, rfl, Io.HostSame.refl _⟩
  | pulse c i => exact ⟨rfl, rfl, ⟨rfl, rfl, rfl, rfl, rfl, rfl, rfl, rfl, rfl, rfl, rfl, rfl, rfl, rfl, rfl, rfl⟩⟩
  | select pc m c i => exact ⟨rfl, rfl, ⟨rfl, rfl, rfl, rfl, rfl, rfl, rfl, rfl, rfl, rfl, rfl, rfl, rfl, rfl, rfl, rfl⟩⟩
  | clearPcs => exact ⟨rfl, rfl, ⟨rfl, rfl, rfl, rfl, rfl, rfl, rfl, rfl, rfl, rfl, rfl, rfl, rfl, rfl, rfl, rfl⟩⟩
  | wipe all => exact ⟨rfl, rfl, Io.HostSame.refl _⟩

theorem State.foldApply_still (l : List Emit) : ∀ s : State, State.Still s (l.foldl State.apply s) := by
  induction l with
  | nil => exact fun s => State.Still.refl s
  | cons x l ih => intro s; rw [List.foldl_cons]; exact (State.apply_still s x).trans (ih _)

theorem State.carryOut_still (s : State) (d : Dev) : State.Still s (s.carryOut d) := by
  unfold State.carryOut
  exact State.Still.trans (b := { s with dev := { d.follow s.env with out := [] } }) ⟨rfl, rfl, Io.HostSame.refl _⟩ (State.foldApply_still _ _)

theorem Io.raiseOn_host (io : Io) (n : Nat) (c : Bool) : Io.HostSame io (io.raiseOn n c) := by
  unfold Io.raiseOn; split
  · exact Io.raiseInt_host _ _
  · exact Io.HostSame.refl _

theorem raiseSummaries_host (old new : State) : Io.HostSame new.io (raiseSummaries old new) := by
  unfold raiseSummaries
  exact ((((Io.raiseOn_host _ _ _).trans (Io.raiseOn_host _ _ _)).trans (Io.raiseOn_host _ _ _)).trans (Io.raiseOn_host _ _ _)).trans
    (Io.raiseOn_host _ _ _)

theorem State.refreshF_still (s : State) : State.Still s s.refreshF := by
  unfold State.refreshF; split
  · exact ⟨rfl, rfl, ⟨rfl, rfl, rfl, rfl, rfl, rfl, rfl, rfl, rfl, rfl, rfl, rfl, rfl, rfl, rfl, rfl⟩⟩
  · exact State.Still.refl _

theorem Io.pcs_host (io : Io) (t : Tbl ProgCounter) : Io.HostSame io { io with pcs := t } :=
  ⟨rfl, rfl, rfl, rfl, rfl, rfl, rfl, rfl, rfl, rfl, rfl, rfl, rfl, rfl, rfl, rfl⟩

theorem summaries_still (old s : State) : State.Still s { s with io := raiseSummaries old s } := ⟨rfl, rfl, raiseSummaries_host old s⟩
theorem pcs_still (s : State) (t : Tbl ProgCounter) : State.Still s { s with io := { s.io with pcs := t } } := ⟨rfl, rfl, Io.pcs_host _ _⟩

theorem settle_still (old s : State) : State.Still s (settle old s) := by
  unfold settle
  exact ((State.refreshF_still s).trans (pcs_still _ _)).trans (summaries_still _ _)

/-- An event leaves time, queue and the host's registers. -/
theorem State.commit_still (s : State) (d : Dev) : State.Still s (s.commit d) := by
  unfold State.commit
  exact (State.carryOut_still s d).trans (settle_still _ _)

theorem onDev_still (s : State) (f : Env → Dev → Dev) : State.Still s (onDev s f) := State.commit_still s _

theorem State.completeWaiting_still (s : State) (op : Nat) (e : CmdEntry) (st : Status) (detail : Nat) (r : List Byte) :
    State.Still s (s.completeWaiting op e st detail r) := by
  unfold State.completeWaiting
  exact ⟨rfl, rfl, (Io.inflight_host _ _).trans (Io.complete_host _ _ _ _ _ _ _ _ _)⟩

theorem State.dumpIf_still (c : Prop) [Decidable c] (s : State) (op : Nat) : State.Still s (if c then s.dump op else s) := by
  split
  · exact State.dump_still _ _
  · exact State.Still.refl _

theorem State.answer_still (s : State) (op : Nat) (e : CmdEntry) (a : CmdRes) : State.Still s (s.answer op e a) := by
  cases a with
  | refuse st detail => exact (State.dumpIf_still _ _ _).trans (State.completeWaiting_still _ _ _ _ _ _)
  | done r d => exact ((State.carryOut_still s d).trans (State.completeWaiting_still _ _ _ _ _ _)).trans (settle_still _ _)
  | fail st detail d =>
    exact (((State.carryOut_still s d).trans (State.dumpIf_still _ _ _)).trans (State.completeWaiting_still _ _ _ _ _ _)).trans (settle_still _ _)
  | start bound d =>
    refine State.Still.trans ?_ (settle_still _ _)
    exact State.Still.trans (b := { s with io := { s.io with inflight := markStarted op e (s.now + bound) s.io.inflight } })
      ⟨rfl, rfl, Io.inflight_host _ _⟩ (State.carryOut_still _ d)

theorem State.consumed_still (s s1 : State) (op : Nat) (e : CmdEntry) (h : s.consumed op e = some s1) : State.Still s s1 := by
  unfold State.consumed at h
  split at h
  · cases h; exact State.Still.refl _
  · split at h
    · cases h; exact ⟨rfl, rfl, Io.inflight_host _ _⟩
    · cases h

/-- A mailbox command leaves time, queue and the host's registers. -/
theorem runCmdWith_still (f : CmdForm) (e : CmdEntry) (body : State → Params × CmdRes) (s : State) : State.Still s (runCmdWith f e body s) := by
  simp only [runCmdWith]
  split
  · exact State.Still.refl _
  · split
    · exact State.Still.refl _
    · rename_i s1 hs
      have h1 := State.consumed_still s s1 _ _ hs
      split
      · exact h1
      · exact h1.trans (State.completeWaiting_still _ _ _ _ _ _)
      · refine h1.trans (State.Still.trans (b := { s1 with par := (body s1).1 }) ⟨rfl, rfl, Io.HostSame.refl _⟩ (State.answer_still _ _ _ _))

theorem runCmd_still (f : CmdForm) (e : CmdEntry) (body : Env → Dev → CmdRes) (s : State) : State.Still s (runCmd f e body s) := runCmdWith_still f e _ s

theorem State.completeAll_still (s : State) (p : Inflight → Bool) (st : Status) (detail : Nat) : State.Still s (s.completeAll p st detail) := by
  unfold State.completeAll
  refine ⟨rfl, rfl, ?_⟩
  have step : ∀ (l : List Inflight) (io : Io), Io.HostSame io (l.foldl (fun io r => io.complete s.par s.now r.op r.e r.at_ st detail []) io) := by
    intro l
    induction l with
    | nil => exact fun io => Io.HostSame.refl io
    | cons x l ih => intro io; rw [List.foldl_cons]; exact (Io.complete_host _ _ _ _ _ _ _ _ _).trans (ih _)
  exact (Io.inflight_host _ _).trans (step _ _)

theorem frelvoDies_still (c : Nat) (s : State) : State.Still s (frelvoDies c s) := by
  have k1 : State.Still s { s with io := s.io.cutAll } := ⟨rfl, rfl, Io.inflight_host _ _⟩
  unfold frelvoDies
  cases s.io.mbxState
  · exact onDev_still _ _
  all_goals
    first
    | exact State.Still.refl _
    | (dsimp only
       split
       · exact onDev_still _ _
       · split
         · exact (onDev_still _ _).trans (State.completeAll_still _ _ _ _)
         · exact k1.trans (onDev_still _ _))

theorem restartReady_still (s : State) : State.Still s (restartReady s) := by
  unfold restartReady; split
  · exact (State.completeAll_still _ _ _ _).trans (onDev_still _ _)
  · exact State.Still.refl _

theorem runUnknown_still (op : Nat) (e : CmdEntry) (s : State) : State.Still s (runUnknown op e s) := by
  unfold runUnknown
  dsimp only
  split
  · exact State.Still.refl _
  · split
    · exact State.Still.refl _
    · rename_i s1 hs
      have h1 := State.consumed_still s s1 _ _ hs
      split
      · exact h1
      · split <;> exact h1.trans (State.completeWaiting_still _ _ _ _ _ _)
      · exact h1.trans (State.completeWaiting_still _ _ _ _ _ _)

theorem State.levels_still (s : State) : State.Still s s.levels := by
  unfold State.levels; split
  · exact pcs_still _ _
  · exact State.Still.refl _

theorem State.foldTimeOuts_still (l : List Inflight) :
    ∀ s : State, State.Still s (l.foldl (fun (s : State) r => s.commit (s.dev.timeOut s.env r.op r.e)) s) := by
  induction l with
  | nil => exact fun s => State.Still.refl s
  | cons x l ih => intro s; rw [List.foldl_cons]; exact (State.commit_still _ _).trans (ih _)

theorem State.timeOuts_still (s : State) : State.Still s s.timeOuts := State.foldTimeOuts_still _ s

end Sys2Proof.Machine
end

