-- ==== Sys2Proof/Laws/State.lean ====
section
/-! SUPPORT. Laws/State.lean: what each update of a part of the device does to that part, and that it leaves the others. -/

namespace Sys2Proof.Machine

/-- A second change of an entry replaces the first. -/
theorem Tbl.set_set {α : Type} (t : Tbl α) (i : Nat) (v w : α) : Tbl.set (Tbl.set t i v) i w = Tbl.set t i w := by
  induction t with
  | nil => simp [Tbl.set]
  | cons kv t ih =>
    obtain ⟨k, x⟩ := kv
    simp only [Tbl.set]
    split
    · simp [Tbl.set]
    · split
      · simp [Tbl.set]
      · rename_i h1 h2
        simp [Tbl.set, h1, h2, ih]

theorem Tbl.upd_upd {α : Type} (d : α) (t : Tbl α) (i : Nat) (f g : α → α) : (t.upd d i f).upd d i g = t.upd d i fun x => g (f x) := by
  unfold Tbl.upd; rw [Tbl.get_set_same, Tbl.set_set]

/-! ### Carriers -/

@[simp] theorem Dev.updCarrier_same (d : Dev) (n : Nat) (f : Carrier → Carrier) : (d.updCarrier n f).carrier n = f (d.carrier n) :=
  Tbl.get_upd_same _ _ _ _
theorem Dev.updCarrier_other (d : Dev) (n m : Nat) (f : Carrier → Carrier) (h : m ≠ n) : (d.updCarrier n f).carrier m = d.carrier m :=
  Tbl.get_upd_other _ _ _ _ _ h
theorem Dev.updCarrier_fuse (d : Dev) (n : Nat) (f g : Carrier → Carrier) : (d.updCarrier n f).updCarrier n g = d.updCarrier n fun c => g (f c) := by
  unfold Dev.updCarrier; rw [Tbl.upd_upd]

@[simp] theorem Dev.updTx_same (d : Dev) (n : Nat) (f : Tx → Tx) : (d.updTx n f).tx n = f (d.tx n) := by
  unfold Dev.updTx Dev.tx; rw [Dev.updCarrier_same]
theorem Dev.updTx_other (d : Dev) (n m : Nat) (f : Tx → Tx) (h : m ≠ n) : (d.updTx n f).tx m = d.tx m := by
  unfold Dev.updTx Dev.tx; rw [Dev.updCarrier_other _ _ _ _ h]
theorem Dev.updTx_fuse (d : Dev) (n : Nat) (f g : Tx → Tx) : (d.updTx n f).updTx n g = d.updTx n fun t => g (f t) := by
  unfold Dev.updTx; rw [Dev.updCarrier_fuse]
theorem Dev.updTx_congr (d : Dev) (n : Nat) (f g : Tx → Tx) (h : f (d.tx n) = g (d.tx n)) : d.updTx n f = d.updTx n g := by
  unfold Dev.updTx Dev.updCarrier Tbl.upd; exact congrArg (fun x => ({ d with car := Tbl.set d.car n x } : Dev)) (congrArg (fun y => ({ (d.carrier n) with tx := y } : Carrier)) h)
@[simp] theorem Dev.updTx_rx (d : Dev) (n m : Nat) (f : Tx → Tx) : (d.updTx n f).rx m = d.rx m := by
  unfold Dev.updTx Dev.rx
  by_cases h : m = n
  · subst h; rw [Dev.updCarrier_same]
  · rw [Dev.updCarrier_other _ _ _ _ h]
@[simp] theorem Dev.updTx_cal (d : Dev) (n m : Nat) (f : Tx → Tx) : (d.updTx n f).cal m = d.cal m := by
  unfold Dev.updTx Dev.cal
  by_cases h : m = n
  · subst h; rw [Dev.updCarrier_same]
  · rw [Dev.updCarrier_other _ _ _ _ h]
@[simp] theorem Dev.updTx_fec (d : Dev) (n m : Nat) (f : Tx → Tx) : (d.updTx n f).fec m = d.fec m := by
  unfold Dev.updTx Dev.fec
  by_cases h : m = n
  · subst h; rw [Dev.updCarrier_same]
  · rw [Dev.updCarrier_other _ _ _ _ h]
@[simp] theorem Dev.updTx_frm (d : Dev) (n m : Nat) (f : Tx → Tx) : (d.updTx n f).frm m = d.frm m := by
  unfold Dev.updTx Dev.frm
  by_cases h : m = n
  · subst h; rw [Dev.updCarrier_same]
  · rw [Dev.updCarrier_other _ _ _ _ h]
@[simp] theorem Dev.updTx_rate (d : Dev) (n m : Nat) (f : Tx → Tx) : (d.updTx n f).rate m = d.rate m := by
  unfold Dev.updTx Dev.rate
  by_cases h : m = n
  · subst h; rw [Dev.updCarrier_same]
  · rw [Dev.updCarrier_other _ _ _ _ h]
@[simp] theorem Dev.updRx_same (d : Dev) (n : Nat) (f : Rx → Rx) : (d.updRx n f).rx n = f (d.rx n) := by
  unfold Dev.updRx Dev.rx; rw [Dev.updCarrier_same]
theorem Dev.updRx_other (d : Dev) (n m : Nat) (f : Rx → Rx) (h : m ≠ n) : (d.updRx n f).rx m = d.rx m := by
  unfold Dev.updRx Dev.rx; rw [Dev.updCarrier_other _ _ _ _ h]
theorem Dev.updRx_fuse (d : Dev) (n : Nat) (f g : Rx → Rx) : (d.updRx n f).updRx n g = d.updRx n fun t => g (f t) := by
  unfold Dev.updRx; rw [Dev.updCarrier_fuse]
theorem Dev.updRx_congr (d : Dev) (n : Nat) (f g : Rx → Rx) (h : f (d.rx n) = g (d.rx n)) : d.updRx n f = d.updRx n g := by
  unfold Dev.updRx Dev.updCarrier Tbl.upd; exact congrArg (fun x => ({ d with car := Tbl.set d.car n x } : Dev)) (congrArg (fun y => ({ (d.carrier n) with rx := y } : Carrier)) h)
@[simp] theorem Dev.updRx_tx (d : Dev) (n m : Nat) (f : Rx → Rx) : (d.updRx n f).tx m = d.tx m := by
  unfold Dev.updRx Dev.tx
  by_cases h : m = n
  · subst h; rw [Dev.updCarrier_same]
  · rw [Dev.updCarrier_other _ _ _ _ h]
@[simp] theorem Dev.updRx_cal (d : Dev) (n m : Nat) (f : Rx → Rx) : (d.updRx n f).cal m = d.cal m := by
  unfold Dev.updRx Dev.cal
  by_cases h : m = n
  · subst h; rw [Dev.updCarrier_same]
  · rw [Dev.updCarrier_other _ _ _ _ h]
@[simp] theorem Dev.updRx_fec (d : Dev) (n m : Nat) (f : Rx → Rx) : (d.updRx n f).fec m = d.fec m := by
  unfold Dev.updRx Dev.fec
  by_cases h : m = n
  · subst h; rw [Dev.updCarrier_same]
  · rw [Dev.updCarrier_other _ _ _ _ h]
@[simp] theorem Dev.updRx_frm (d : Dev) (n m : Nat) (f : Rx → Rx) : (d.updRx n f).frm m = d.frm m := by
  unfold Dev.updRx Dev.frm
  by_cases h : m = n
  · subst h; rw [Dev.updCarrier_same]
  · rw [Dev.updCarrier_other _ _ _ _ h]
@[simp] theorem Dev.updRx_rate (d : Dev) (n m : Nat) (f : Rx → Rx) : (d.updRx n f).rate m = d.rate m := by
  unfold Dev.updRx Dev.rate
  by_cases h : m = n
  · subst h; rw [Dev.updCarrier_same]
  · rw [Dev.updCarrier_other _ _ _ _ h]
@[simp] theorem Dev.updCal_same (d : Dev) (n : Nat) (f : Cal → Cal) : (d.updCal n f).cal n = f (d.cal n) := by
  unfold Dev.updCal Dev.cal; rw [Dev.updCarrier_same]
theorem Dev.updCal_other (d : Dev) (n m : Nat) (f : Cal → Cal) (h : m ≠ n) : (d.updCal n f).cal m = d.cal m := by
  unfold Dev.updCal Dev.cal; rw [Dev.updCarrier_other _ _ _ _ h]
theorem Dev.updCal_fuse (d : Dev) (n : Nat) (f g : Cal → Cal) : (d.updCal n f).updCal n g = d.updCal n fun t => g (f t) := by
  unfold Dev.updCal; rw [Dev.updCarrier_fuse]
theorem Dev.updCal_congr (d : Dev) (n : Nat) (f g : Cal → Cal) (h : f (d.cal n) = g (d.cal n)) : d.updCal n f = d.updCal n g := by
  unfold Dev.updCal Dev.updCarrier Tbl.upd; exact congrArg (fun x => ({ d with car := Tbl.set d.car n x } : Dev)) (congrArg (fun y => ({ (d.carrier n) with cal := y } : Carrier)) h)
@[simp] theorem Dev.updCal_tx (d : Dev) (n m : Nat) (f : Cal → Cal) : (d.updCal n f).tx m = d.tx m := by
  unfold Dev.updCal Dev.tx
  by_cases h : m = n
  · subst h; rw [Dev.updCarrier_same]
  · rw [Dev.updCarrier_other _ _ _ _ h]
@[simp] theorem Dev.updCal_rx (d : Dev) (n m : Nat) (f : Cal → Cal) : (d.updCal n f).rx m = d.rx m := by
  unfold Dev.updCal Dev.rx
  by_cases h : m = n
  · subst h; rw [Dev.updCarrier_same]
  · rw [Dev.updCarrier_other _ _ _ _ h]
@[simp] theorem Dev.updCal_fec (d : Dev) (n m : Nat) (f : Cal → Cal) : (d.updCal n f).fec m = d.fec m := by
  unfold Dev.updCal Dev.fec
  by_cases h : m = n
  · subst h; rw [Dev.updCarrier_same]
  · rw [Dev.updCarrier_other _ _ _ _ h]
@[simp] theorem Dev.updCal_frm (d : Dev) (n m : Nat) (f : Cal → Cal) : (d.updCal n f).frm m = d.frm m := by
  unfold Dev.updCal Dev.frm
  by_cases h : m = n
  · subst h; rw [Dev.updCarrier_same]
  · rw [Dev.updCarrier_other _ _ _ _ h]
@[simp] theorem Dev.updCal_rate (d : Dev) (n m : Nat) (f : Cal → Cal) : (d.updCal n f).rate m = d.rate m := by
  unfold Dev.updCal Dev.rate
  by_cases h : m = n
  · subst h; rw [Dev.updCarrier_same]
  · rw [Dev.updCarrier_other _ _ _ _ h]
@[simp] theorem Dev.updFec_same (d : Dev) (n : Nat) (f : Fec → Fec) : (d.updFec n f).fec n = f (d.fec n) := by
  unfold Dev.updFec Dev.fec; rw [Dev.updCarrier_same]
theorem Dev.updFec_other (d : Dev) (n m : Nat) (f : Fec → Fec) (h : m ≠ n) : (d.updFec n f).fec m = d.fec m := by
  unfold Dev.updFec Dev.fec; rw [Dev.updCarrier_other _ _ _ _ h]
theorem Dev.updFec_fuse (d : Dev) (n : Nat) (f g : Fec → Fec) : (d.updFec n f).updFec n g = d.updFec n fun t => g (f t) := by
  unfold Dev.updFec; rw [Dev.updCarrier_fuse]
theorem Dev.updFec_congr (d : Dev) (n : Nat) (f g : Fec → Fec) (h : f (d.fec n) = g (d.fec n)) : d.updFec n f = d.updFec n g := by
  unfold Dev.updFec Dev.updCarrier Tbl.upd; exact congrArg (fun x => ({ d with car := Tbl.set d.car n x } : Dev)) (congrArg (fun y => ({ (d.carrier n) with fec := y } : Carrier)) h)
@[simp] theorem Dev.updFec_tx (d : Dev) (n m : Nat) (f : Fec → Fec) : (d.updFec n f).tx m = d.tx m := by
  unfold Dev.updFec Dev.tx
  by_cases h : m = n
  · subst h; rw [Dev.updCarrier_same]
  · rw [Dev.updCarrier_other _ _ _ _ h]
@[simp] theorem Dev.updFec_rx (d : Dev) (n m : Nat) (f : Fec → Fec) : (d.updFec n f).rx m = d.rx m := by
  unfold Dev.updFec Dev.rx
  by_cases h : m = n
  · subst h; rw [Dev.updCarrier_same]
  · rw [Dev.updCarrier_other _ _ _ _ h]
@[simp] theorem Dev.updFec_cal (d : Dev) (n m : Nat) (f : Fec → Fec) : (d.updFec n f).cal m = d.cal m := by
  unfold Dev.updFec Dev.cal
  by_cases h : m = n
  · subst h; rw [Dev.updCarrier_same]
  · rw [Dev.updCarrier_other _ _ _ _ h]
@[simp] theorem Dev.updFec_frm (d : Dev) (n m : Nat) (f : Fec → Fec) : (d.updFec n f).frm m = d.frm m := by
  unfold Dev.updFec Dev.frm
  by_cases h : m = n
  · subst h; rw [Dev.updCarrier_same]
  · rw [Dev.updCarrier_other _ _ _ _ h]
@[simp] theorem Dev.updFec_rate (d : Dev) (n m : Nat) (f : Fec → Fec) : (d.updFec n f).rate m = d.rate m := by
  unfold Dev.updFec Dev.rate
  by_cases h : m = n
  · subst h; rw [Dev.updCarrier_same]
  · rw [Dev.updCarrier_other _ _ _ _ h]
@[simp] theorem Dev.updFrm_same (d : Dev) (n : Nat) (f : Frm → Frm) : (d.updFrm n f).frm n = f (d.frm n) := by
  unfold Dev.updFrm Dev.frm; rw [Dev.updCarrier_same]
theorem Dev.updFrm_other (d : Dev) (n m : Nat) (f : Frm → Frm) (h : m ≠ n) : (d.updFrm n f).frm m = d.frm m := by
  unfold Dev.updFrm Dev.frm; rw [Dev.updCarrier_other _ _ _ _ h]
theorem Dev.updFrm_fuse (d : Dev) (n : Nat) (f g : Frm → Frm) : (d.updFrm n f).updFrm n g = d.updFrm n fun t => g (f t) := by
  unfold Dev.updFrm; rw [Dev.updCarrier_fuse]
theorem Dev.updFrm_congr (d : Dev) (n : Nat) (f g : Frm → Frm) (h : f (d.frm n) = g (d.frm n)) : d.updFrm n f = d.updFrm n g := by
  unfold Dev.updFrm Dev.updCarrier Tbl.upd; exact congrArg (fun x => ({ d with car := Tbl.set d.car n x } : Dev)) (congrArg (fun y => ({ (d.carrier n) with frm := y } : Carrier)) h)
@[simp] theorem Dev.updFrm_tx (d : Dev) (n m : Nat) (f : Frm → Frm) : (d.updFrm n f).tx m = d.tx m := by
  unfold Dev.updFrm Dev.tx
  by_cases h : m = n
  · subst h; rw [Dev.updCarrier_same]
  · rw [Dev.updCarrier_other _ _ _ _ h]
@[simp] theorem Dev.updFrm_rx (d : Dev) (n m : Nat) (f : Frm → Frm) : (d.updFrm n f).rx m = d.rx m := by
  unfold Dev.updFrm Dev.rx
  by_cases h : m = n
  · subst h; rw [Dev.updCarrier_same]
  · rw [Dev.updCarrier_other _ _ _ _ h]
@[simp] theorem Dev.updFrm_cal (d : Dev) (n m : Nat) (f : Frm → Frm) : (d.updFrm n f).cal m = d.cal m := by
  unfold Dev.updFrm Dev.cal
  by_cases h : m = n
  · subst h; rw [Dev.updCarrier_same]
  · rw [Dev.updCarrier_other _ _ _ _ h]
@[simp] theorem Dev.updFrm_fec (d : Dev) (n m : Nat) (f : Frm → Frm) : (d.updFrm n f).fec m = d.fec m := by
  unfold Dev.updFrm Dev.fec
  by_cases h : m = n
  · subst h; rw [Dev.updCarrier_same]
  · rw [Dev.updCarrier_other _ _ _ _ h]
@[simp] theorem Dev.updFrm_rate (d : Dev) (n m : Nat) (f : Frm → Frm) : (d.updFrm n f).rate m = d.rate m := by
  unfold Dev.updFrm Dev.rate
  by_cases h : m = n
  · subst h; rw [Dev.updCarrier_same]
  · rw [Dev.updCarrier_other _ _ _ _ h]
@[simp] theorem Dev.updRate_same (d : Dev) (n : Nat) (f : Rate → Rate) : (d.updRate n f).rate n = f (d.rate n) := by
  unfold Dev.updRate Dev.rate; rw [Dev.updCarrier_same]
theorem Dev.updRate_other (d : Dev) (n m : Nat) (f : Rate → Rate) (h : m ≠ n) : (d.updRate n f).rate m = d.rate m := by
  unfold Dev.updRate Dev.rate; rw [Dev.updCarrier_other _ _ _ _ h]
theorem Dev.updRate_fuse (d : Dev) (n : Nat) (f g : Rate → Rate) : (d.updRate n f).updRate n g = d.updRate n fun t => g (f t) := by
  unfold Dev.updRate; rw [Dev.updCarrier_fuse]
theorem Dev.updRate_congr (d : Dev) (n : Nat) (f g : Rate → Rate) (h : f (d.rate n) = g (d.rate n)) : d.updRate n f = d.updRate n g := by
  unfold Dev.updRate Dev.updCarrier Tbl.upd; exact congrArg (fun x => ({ d with car := Tbl.set d.car n x } : Dev)) (congrArg (fun y => ({ (d.carrier n) with rate := y } : Carrier)) h)
@[simp] theorem Dev.updRate_tx (d : Dev) (n m : Nat) (f : Rate → Rate) : (d.updRate n f).tx m = d.tx m := by
  unfold Dev.updRate Dev.tx
  by_cases h : m = n
  · subst h; rw [Dev.updCarrier_same]
  · rw [Dev.updCarrier_other _ _ _ _ h]
@[simp] theorem Dev.updRate_rx (d : Dev) (n m : Nat) (f : Rate → Rate) : (d.updRate n f).rx m = d.rx m := by
  unfold Dev.updRate Dev.rx
  by_cases h : m = n
  · subst h; rw [Dev.updCarrier_same]
  · rw [Dev.updCarrier_other _ _ _ _ h]
@[simp] theorem Dev.updRate_cal (d : Dev) (n m : Nat) (f : Rate → Rate) : (d.updRate n f).cal m = d.cal m := by
  unfold Dev.updRate Dev.cal
  by_cases h : m = n
  · subst h; rw [Dev.updCarrier_same]
  · rw [Dev.updCarrier_other _ _ _ _ h]
@[simp] theorem Dev.updRate_fec (d : Dev) (n m : Nat) (f : Rate → Rate) : (d.updRate n f).fec m = d.fec m := by
  unfold Dev.updRate Dev.fec
  by_cases h : m = n
  · subst h; rw [Dev.updCarrier_same]
  · rw [Dev.updCarrier_other _ _ _ _ h]
@[simp] theorem Dev.updRate_frm (d : Dev) (n m : Nat) (f : Rate → Rate) : (d.updRate n f).frm m = d.frm m := by
  unfold Dev.updRate Dev.frm
  by_cases h : m = n
  · subst h; rw [Dev.updCarrier_same]
  · rw [Dev.updCarrier_other _ _ _ _ h]

/-! ### Requests, counters, draws -/

@[simp] theorem Dev.emit_tx (d : Dev) (x : Emit) (n : Nat) : (d.emit x).tx n = d.tx n := rfl
@[simp] theorem Dev.raise_tx (d : Dev) (ev : Evt) (i : Nat) (fs : List (Nat × Int)) (n : Nat) : (d.raise ev i fs).tx n = d.tx n := rfl
@[simp] theorem Dev.finish_tx (d : Dev) (op key : Nat) (st : Status) (k : Nat) (r : List Byte) (n : Nat) : (d.finish op key st k r).tx n = d.tx n := rfl
@[simp] theorem Dev.count_tx (d : Dev) (key k n : Nat) : (d.count key k).tx n = d.tx n := rfl
@[simp] theorem Dev.emit_rx (d : Dev) (x : Emit) (n : Nat) : (d.emit x).rx n = d.rx n := rfl
@[simp] theorem Dev.raise_rx (d : Dev) (ev : Evt) (i : Nat) (fs : List (Nat × Int)) (n : Nat) : (d.raise ev i fs).rx n = d.rx n := rfl
@[simp] theorem Dev.finish_rx (d : Dev) (op key : Nat) (st : Status) (k : Nat) (r : List Byte) (n : Nat) : (d.finish op key st k r).rx n = d.rx n := rfl
@[simp] theorem Dev.count_rx (d : Dev) (key k n : Nat) : (d.count key k).rx n = d.rx n := rfl
@[simp] theorem Dev.emit_cal (d : Dev) (x : Emit) (n : Nat) : (d.emit x).cal n = d.cal n := rfl
@[simp] theorem Dev.raise_cal (d : Dev) (ev : Evt) (i : Nat) (fs : List (Nat × Int)) (n : Nat) : (d.raise ev i fs).cal n = d.cal n := rfl
@[simp] theorem Dev.finish_cal (d : Dev) (op key : Nat) (st : Status) (k : Nat) (r : List Byte) (n : Nat) : (d.finish op key st k r).cal n = d.cal n := rfl
@[simp] theorem Dev.count_cal (d : Dev) (key k n : Nat) : (d.count key k).cal n = d.cal n := rfl
@[simp] theorem Dev.emit_fec (d : Dev) (x : Emit) (n : Nat) : (d.emit x).fec n = d.fec n := rfl
@[simp] theorem Dev.raise_fec (d : Dev) (ev : Evt) (i : Nat) (fs : List (Nat × Int)) (n : Nat) : (d.raise ev i fs).fec n = d.fec n := rfl
@[simp] theorem Dev.finish_fec (d : Dev) (op key : Nat) (st : Status) (k : Nat) (r : List Byte) (n : Nat) : (d.finish op key st k r).fec n = d.fec n := rfl
@[simp] theorem Dev.count_fec (d : Dev) (key k n : Nat) : (d.count key k).fec n = d.fec n := rfl
@[simp] theorem Dev.emit_frm (d : Dev) (x : Emit) (n : Nat) : (d.emit x).frm n = d.frm n := rfl
@[simp] theorem Dev.raise_frm (d : Dev) (ev : Evt) (i : Nat) (fs : List (Nat × Int)) (n : Nat) : (d.raise ev i fs).frm n = d.frm n := rfl
@[simp] theorem Dev.finish_frm (d : Dev) (op key : Nat) (st : Status) (k : Nat) (r : List Byte) (n : Nat) : (d.finish op key st k r).frm n = d.frm n := rfl
@[simp] theorem Dev.count_frm (d : Dev) (key k n : Nat) : (d.count key k).frm n = d.frm n := rfl
@[simp] theorem Dev.emit_rate (d : Dev) (x : Emit) (n : Nat) : (d.emit x).rate n = d.rate n := rfl
@[simp] theorem Dev.raise_rate (d : Dev) (ev : Evt) (i : Nat) (fs : List (Nat × Int)) (n : Nat) : (d.raise ev i fs).rate n = d.rate n := rfl
@[simp] theorem Dev.finish_rate (d : Dev) (op key : Nat) (st : Status) (k : Nat) (r : List Byte) (n : Nat) : (d.finish op key st k r).rate n = d.rate n := rfl
@[simp] theorem Dev.count_rate (d : Dev) (key k n : Nat) : (d.count key k).rate n = d.rate n := rfl
@[simp] theorem Dev.emit_carrier (d : Dev) (x : Emit) (n : Nat) : (d.emit x).carrier n = d.carrier n := rfl
@[simp] theorem Dev.raise_carrier (d : Dev) (ev : Evt) (i : Nat) (fs : List (Nat × Int)) (n : Nat) : (d.raise ev i fs).carrier n = d.carrier n := rfl
@[simp] theorem Dev.finish_carrier (d : Dev) (op key : Nat) (st : Status) (k : Nat) (r : List Byte) (n : Nat) : (d.finish op key st k r).carrier n = d.carrier n := rfl
@[simp] theorem Dev.count_carrier (d : Dev) (key k n : Nat) : (d.count key k).carrier n = d.carrier n := rfl
@[simp] theorem Dev.count_same (d : Dev) (key n : Nat) : (d.count key n).counter key = (d.counter key + n) % 2 ^ 48 := by
  unfold Dev.count Dev.counter; rw [Tbl.get_upd_same]; rfl
theorem Dev.count_other (d : Dev) (key k n : Nat) (h : k ≠ key) : (d.count key n).counter k = d.counter k := by
  unfold Dev.count Dev.counter; rw [Tbl.get_upd_other _ _ _ _ _ h]
@[simp] theorem Dev.emit_counter (d : Dev) (x : Emit) (k : Nat) : (d.emit x).counter k = d.counter k := rfl
@[simp] theorem Dev.updCarrier_counter (d : Dev) (n : Nat) (f : Carrier → Carrier) (k : Nat) : (d.updCarrier n f).counter k = d.counter k := rfl

/-! ### The other tables -/

@[simp] theorem Dev.updBrz_same (d : Dev) (n : Nat) (f : Breeze → Breeze) : (d.updBrz n f).brz n = f (d.brz n) := Tbl.get_upd_same _ _ _ _
theorem Dev.updBrz_other (d : Dev) (n m : Nat) (f : Breeze → Breeze) (h : m ≠ n) : (d.updBrz n f).brz m = d.brz m := Tbl.get_upd_other _ _ _ _ _ h
theorem Dev.updBrz_fuse (d : Dev) (n : Nat) (f g : Breeze → Breeze) : (d.updBrz n f).updBrz n g = d.updBrz n fun x => g (f x) := by
  simp only [Dev.updBrz, Tbl.upd_upd]
@[simp] theorem Dev.updChan_same (d : Dev) (n : Nat) (f : Chan → Chan) : (d.updChan n f).chanAt n = f (d.chanAt n) := Tbl.get_upd_same _ _ _ _
theorem Dev.updChan_other (d : Dev) (n m : Nat) (f : Chan → Chan) (h : m ≠ n) : (d.updChan n f).chanAt m = d.chanAt m := Tbl.get_upd_other _ _ _ _ _ h
theorem Dev.updChan_fuse (d : Dev) (n : Nat) (f g : Chan → Chan) : (d.updChan n f).updChan n g = d.updChan n fun x => g (f x) := by
  simp only [Dev.updChan, Tbl.upd_upd]
@[simp] theorem Dev.updHk_same (d : Dev) (n : Nat) (f : HkConv → HkConv) : (d.updHk n f).hkConv n = f (d.hkConv n) := Tbl.get_upd_same _ _ _ _
theorem Dev.updHk_other (d : Dev) (n m : Nat) (f : HkConv → HkConv) (h : m ≠ n) : (d.updHk n f).hkConv m = d.hkConv m := Tbl.get_upd_other _ _ _ _ _ h
theorem Dev.updHk_fuse (d : Dev) (n : Nat) (f g : HkConv → HkConv) : (d.updHk n f).updHk n g = d.updHk n fun x => g (f x) := by
  simp only [Dev.updHk, Tbl.upd_upd]
@[simp] theorem Dev.updKey_same (d : Dev) (n : Nat) (f : KeyChan → KeyChan) : (d.updKey n f).keyChan n = f (d.keyChan n) := Tbl.get_upd_same _ _ _ _
theorem Dev.updKey_other (d : Dev) (n m : Nat) (f : KeyChan → KeyChan) (h : m ≠ n) : (d.updKey n f).keyChan m = d.keyChan m := Tbl.get_upd_other _ _ _ _ _ h
@[simp] theorem Dev.updLane_same (d : Dev) (n : Nat) (f : Lane → Lane) : (d.updLane n f).lane n = f (d.lane n) := Tbl.get_upd_same _ _ _ _
theorem Dev.updLane_other (d : Dev) (n m : Nat) (f : Lane → Lane) (h : m ≠ n) : (d.updLane n f).lane m = d.lane m := Tbl.get_upd_other _ _ _ _ _ h
theorem Dev.updLane_fuse (d : Dev) (n : Nat) (f g : Lane → Lane) : (d.updLane n f).updLane n g = d.updLane n fun x => g (f x) := by
  simp only [Dev.updLane, Tbl.upd_upd]
@[simp] theorem Dev.updSeam_same (d : Dev) (n : Nat) (f : Seam → Seam) : (d.updSeam n f).seamAt n = f (d.seamAt n) := Tbl.get_upd_same _ _ _ _
theorem Dev.updSeam_other (d : Dev) (n m : Nat) (f : Seam → Seam) (h : m ≠ n) : (d.updSeam n f).seamAt m = d.seamAt m := Tbl.get_upd_other _ _ _ _ _ h
theorem Dev.updSeam_fuse (d : Dev) (n : Nat) (f g : Seam → Seam) : (d.updSeam n f).updSeam n g = d.updSeam n fun x => g (f x) := by
  simp only [Dev.updSeam, Tbl.upd_upd]
@[simp] theorem Dev.updSense_same (d : Dev) (n : Nat) (f : Sense → Sense) : (d.updSense n f).sense n = f (d.sense n) := Tbl.get_upd_same _ _ _ _
theorem Dev.updSense_other (d : Dev) (n m : Nat) (f : Sense → Sense) (h : m ≠ n) : (d.updSense n f).sense m = d.sense m := Tbl.get_upd_other _ _ _ _ _ h
theorem Dev.updSense_fuse (d : Dev) (n : Nat) (f g : Sense → Sense) : (d.updSense n f).updSense n g = d.updSense n fun x => g (f x) := by
  simp only [Dev.updSense, Tbl.upd_upd]
@[simp] theorem Dev.updBundle_same (d : Dev) (n : Nat) (f : Bundle → Bundle) : (d.updBundle n f).bundleAt n = f (d.bundleAt n) := Tbl.get_set_same _ _ _ _
theorem Dev.updBundle_other (d : Dev) (n m : Nat) (f : Bundle → Bundle) (h : m ≠ n) : (d.updBundle n f).bundleAt m = d.bundleAt m := Tbl.get_set_other _ _ _ _ _ h
@[simp] theorem Dev.updGroup_same (d : Dev) (n : Nat) (f : Group → Group) : (d.updGroup n f).groupAt n = f (d.groupAt n) := Tbl.get_set_same _ _ _ _
theorem Dev.updGroup_other (d : Dev) (n m : Nat) (f : Group → Group) (h : m ≠ n) : (d.updGroup n f).groupAt m = d.groupAt m := Tbl.get_set_other _ _ _ _ _ h

/-! ### The interface block and the state -/

@[simp] theorem onIo_pending (s : State) (f : Io → Io) : (onIo s f).pending = s.pending := rfl
@[simp] theorem onIo_now (s : State) (f : Io → Io) : (onIo s f).now = s.now := rfl
@[simp] theorem onIo_par (s : State) (f : Io → Io) : (onIo s f).par = s.par := rfl
@[simp] theorem onIo_mem (s : State) (f : Io → Io) : (onIo s f).mem = s.mem := rfl
@[simp] theorem onIo_dev (s : State) (f : Io → Io) : (onIo s f).dev = s.dev := rfl
@[simp] theorem onIo_io (s : State) (f : Io → Io) : (onIo s f).io = f s.io := rfl
@[simp] theorem State.env_now (s : State) : s.env.now = s.now := rfl
@[simp] theorem State.env_par (s : State) : s.env.par = s.par := rfl
@[simp] theorem State.env_mem (s : State) : s.env.mem = s.mem := rfl
@[simp] theorem State.env_mbx (s : State) : s.env.mbx = s.io.mbxState := rfl

end Sys2Proof.Machine
end

