-- ==== Sys2Proof/Machine/TxSignal.lean ====
section
/-! DEFINITION. Machine/TxSignal.lean: what each stage of the transmit path does to the signal (R93, R99 to R111, R430), as relations between what enters a
stage and what leaves it. Data symbols and samples are not state: the relations say which samples leave a carrier whose state is given. -/

namespace Sys2Proof

/-- The symbols of an interop profile's line from the client bytes of each channel: framing, FEC, modulation, pilots and training are the agreement's, which the spec
does not repeat (R99, R200). And the frequency response of its pulse (R99). -/
opaque Config.InteropLine : Nat → (Nat → List Byte) → (Fin 2 → ℤ → ℂ) → Prop
opaque Config.InteropPulse : Nat → (ℝ → ℝ) → Prop

end Sys2Proof

namespace Sys2Proof.Machine

/-- A stream of one carrier: for polarisation X (0) and Y (1) a complex value at every symbol or sample, its real part on the I lane and its imaginary part on
the Q lane. -/
abbrev Dual := Fin 2 → ℤ → ℂ

/-- λ of R128 in m, and c₀ in m/s. -/
def waveLength : ℚ := 1550 / 10 ^ 9
def lightSpeed : ℚ := 299792458

/-- Two fixed numbers: exact symbol rate in Bd, sample rate in S/s (R94, R95). -/
def OpPoint.rs (p : OpPoint) : ℚ := 1000 * p.rsNum / p.rsDen
def OpPoint.fs (p : OpPoint) : ℚ := p.rs * rhoNum p.osr / rhoDen p.osr

/-! ### Mapping and pilots (R100 to R102) -/

/-- The scale of the symbols: mean power 1 per polarisation over the composition (R100). -/
def SymbolScale (counts : List Nat) (σ : ℝ) : Prop :=
  0 ≤ σ ∧ σ ^ 2 * (2 * ((counts.zip amplitudes).map fun p => ((p.1 * p.2 ^ 2 : Nat) : ℝ)).sum) = 1024

/-- Stage 1: amplitudes and sign bits of the lanes XI, XQ, YI, YQ give the data symbols. -/
def StageMapping (σ : ℝ) (amp : Fin 4 → ℤ → Nat) (sign : Fin 4 → ℤ → Bool) (out : Dual) : Prop :=
  ∀ k, (∀ p : Fin 2, out p k = σ * (laneSymbol (amp (if p = 0 then 0 else 2) k) (sign (if p = 0 then 0 else 2) k) : ℂ)
    + σ * (laneSymbol (amp (if p = 0 then 1 else 3) k) (sign (if p = 0 then 1 else 3) k) : ℂ) * Complex.I)

/-- The lane amplitude A of a pilot: its power, 2·A² per polarisation, stands `gain` tenths of a dB above the mean data power of 1 (R102). -/
def PilotAmplitude (gain : Nat) (a : ℝ) : Prop := 0 ≤ a ∧ 2 * a ^ 2 = (10 : ℝ) ^ ((gain : ℝ) / 100)

/-- +A for bit 0 and −A for bit 1. -/
def pilotLevel (a : ℝ) (b : Bool) : ℝ := if b then -a else a

/-- The pilot of the generator's state `g` on one polarisation. -/
def pilotValue (a : ℝ) (g : BitVec 15) (p : Fin 2) : ℂ :=
  let bits := (pilotBits g).2
  (pilotLevel a (bits.getD (if p = 0 then 0 else 2) false) : ℂ) + (pilotLevel a (bits.getD (if p = 0 then 1 else 3) false) : ℂ) * Complex.I

/-- Stage 2: the first of every 32 symbols is a pilot, the others are 31 data symbols; `gen j` is the generator at pilot `j` (R102). -/
def StagePilots (a : ℝ) (gen : ℕ → BitVec 15) (data out : Dual) : Prop :=
  ∀ (p : Fin 2) (b : ℕ), out p (32 * b) = pilotValue a (gen b) p ∧ ∀ i : ℕ, i < 31 → out p (32 * b + 1 + i) = data p (31 * b + i)

/-- Stages 1 and 2 of carrier `n` at point `p`: shaped amplitudes and signs mapped and pilots put in, or the agreement's line from the client's bytes (R99). -/
def Dev.LineSymbols (d : Dev) (env : Env) (n : Nat) (p : OpPoint) (amp : Fin 4 → ℤ → Nat) (sign : Fin 4 → ℤ → Bool) (client : Nat → List Byte) (out : Dual) : Prop :=
  if p.profile = 0 then
    ∃ (σ a : ℝ) (x : Dual), SymbolScale (shaping p.h).1 σ ∧ PilotAmplitude (d.tx n).pilotGain a ∧ StageMapping σ amp sign x ∧
      StagePilots a (fun j => pilotAfter j ((d.tx n).pilotNow env.now)) x out
  else Config.InteropLine p.profile client out

/-! ### Nonlinear pre-compensation (R103, R104) -/

/-- The triplets in use: the first `count` of a table. -/
def tripletsInUse (t : Tbl Nat) (count : Nat) : List Nat := (List.range count).map fun i => t.get 0 i

/-- ΔX_k of R103 on the stream `x`, with Y in `y`; C is in units of 2⁻²⁰ (Table 4-5). -/
def nlSum (x y : ℤ → ℂ) (k : ℤ) : List Nat → ℂ
  | [] => 0
  | v :: vs =>
    let m := tripletM v
    let n := tripletN v
    let c : ℂ := ((tripletRe v : ℂ) + (tripletIm v : ℂ) * Complex.I) * ((((2 : ℚ) ^ 20)⁻¹ : ℚ) : ℂ)
    c * (x (k + m) * star (x (k + m + n)) + y (k + m) * star (y (k + m + n))) * x (k + n) + nlSum x y k vs

/-- The correction of polarisation `p` at symbol `k`. -/
def nlDelta (s : Dual) (p : Fin 2) (k : ℤ) (ts : List Nat) : ℂ := nlSum (s p) (s (1 - p)) k ts

/-- A blend of an old and a new value: its weight is j/F in frame `j` of a cross-fade of F frames, 1 from its end on (R104). -/
def fadeWeight (j frames : Nat) : ℚ := min 1 (j / frames)
def blend (w : ℚ) (old new : ℂ) : ℂ := (1 - (w : ℂ)) * old + (w : ℂ) * new

/-- Where the four cross-fades of a transmitter stand: line frames since each began (R104, R105). -/
structure FadeFrames where
  nlc : Nat
  taps : Nat
  cdPre : Nat
  count : Nat
  deriving DecidableEq, Repr

/-- The table a cross-fade leads to; the active one where none is in progress. -/
def CoefTable.next (t : CoefTable) : Tbl Nat := (t.fading.map (·.1)).getD t.active
def FadeVal.next (f : FadeVal) : Int := f.fading.getD f.active

/-- Stage 3: pilots contribute to the sums and receive no correction; with no triplets in use the stage is bypassed, and on an interop profile it is not used
(R99, R103). Table and count blend linearly while they cross-fade. -/
def StageNlPre (t : Tx) (xfade : Nat) (f : FadeFrames) (inp out : Dual) : Prop :=
  ∀ (p : Fin 2) (k : ℤ), out p k =
    if k % 32 = 0 ∨ t.native = false then inp p k
    else
      let d (tab : Tbl Nat) (c : Int) := nlDelta inp p k (tripletsInUse tab c.toNat)
      let wT := fadeWeight f.nlc xfade
      let wC := fadeWeight f.count xfade
      inp p k + blend wC (blend wT (d t.nlc.active t.nlcCount.active) (d t.nlc.next t.nlcCount.active))
        (blend wT (d t.nlc.active t.nlcCount.next) (d t.nlc.next t.nlcCount.next))

/-! ### CD pre-compensation and pulse shaping (R105, R106, R128) -/

/-- G(f) = exp(+jπ·λ²·D·f²/c₀), with D in ps/nm, that is 10⁻³ s/m: a positive D compensates fibre of positive dispersion (R128). -/
def CdResponse (d f : ℝ) (g : ℂ) : Prop :=
  g = Complex.exp (Complex.I * (Real.pi * (waveLength : ℝ) ^ 2 * (d / 1000) * f ^ 2 / (lightSpeed : ℝ) : ℝ))

/-- The root-raised-cosine response with roll-off `β` at symbol rate `rs`: 1 in the band, the root of a raised cosine over the roll-off, 0 beyond. -/
def RrcResponse (β rs f g : ℝ) : Prop :=
  (|f| ≤ (1 - β) * rs / 2 → g = 1) ∧ ((1 + β) * rs / 2 ≤ |f| → g = 0) ∧
  ((1 - β) * rs / 2 < |f| → |f| < (1 + β) * rs / 2 → 0 ≤ g ∧ g ^ 2 = (1 + Real.cos (Real.pi / (β * rs) * (|f| - (1 - β) * rs / 2))) / 2)

/-- The impulse response of the joint filter: the transform of root-raised-cosine times the bank, which applies a dispersion of −`pre` (R105, R106). -/
def ShapingPulse (β rs pre : ℝ) (h : ℝ → ℂ) : Prop :=
  ∃ (r : ℝ → ℝ) (g : ℝ → ℂ), (∀ f, RrcResponse β rs f (r f)) ∧ (∀ f, CdResponse pre f (g f)) ∧
    ∀ t : ℝ, h t = ∫ f in (-((1 + β) * rs / 2))..((1 + β) * rs / 2), (r f : ℂ) * g f * Complex.exp (Complex.I * (2 * Real.pi * f * t : ℝ))

/-- The pulse of a carrier: root-raised-cosine, or the agreement's, applied jointly with the bank (R99, R105, R106). -/
def CarrierPulse (t : Tx) (p : OpPoint) (pre : ℝ) (h : ℝ → ℂ) : Prop :=
  if p.profile = 0 then ShapingPulse (t.rolloff / 1000) p.rs pre h
  else ∃ (r : ℝ → ℝ) (g : ℝ → ℂ), Config.InteropPulse p.profile r ∧ (∀ f, CdResponse pre f (g f)) ∧
    ∀ t : ℝ, h t = ∫ f, (r f : ℂ) * g f * Complex.exp (Complex.I * (2 * Real.pi * f * t : ℝ))

/-- Stage 4: symbols at Rs become samples at Fs. A change of P_TX_CD_PRE cross-fades (R105). -/
def StageShaping (t : Tx) (p : OpPoint) (xfade : Nat) (f : FadeFrames) (inp out : Dual) : Prop :=
  ∃ h0 h1 : ℝ → ℂ, CarrierPulse t p t.cdPre.active h0 ∧ CarrierPulse t p t.cdPre.next h1 ∧
    ∀ (q : Fin 2) (m : ℤ), out q m = ∑' k : ℤ, inp q k *
      blend (fadeWeight f.cdPre xfade) (h0 (m / (p.fs : ℝ) - k / (p.rs : ℝ))) (h1 (m / (p.fs : ℝ) - k / (p.rs : ℝ)))

/-! ### Breeze envelope (R107, R430) -/

/-- Symbols per second (Table 18-1). -/
def brzBaud (rate : Nat) : ℚ := if rate = 0 then 4800 else 9600

/-- The Gaussian filter of R430: BT = 0.5, area 1; its −3 dB bandwidth is half the symbol rate. -/
def GaussFilter (baud t g : ℝ) : Prop :=
  ∃ a : ℝ, 0 ≤ a ∧ a ^ 2 = 2 * Real.pi / Real.log 2 ∧ g = a * (baud / 2) * Real.exp (-(Real.pi * a * (baud / 2) * t) ^ 2 / Real.pi)

/-- The tone s(t): a unit-amplitude sinusoid whose frequency is moved by the Gaussian-filtered deviation `dev` of the symbol at each time (`brzDeviation`, here in
Hz), with continuous phase (R430); between packets `dev` is 0. -/
def ToneWave (freqHz baud : ℝ) (dev : ℝ → ℝ) (s : ℝ → ℝ) : Prop :=
  ∃ (φ : ℝ) (g : ℝ → ℝ), (∀ t, GaussFilter baud t (g t)) ∧
    ∀ t, s t = Real.cos (φ + 2 * Real.pi * freqHz * t + 2 * Real.pi * ∫ u in (0 : ℝ)..t, ∫ v, dev v * g (u - v))

/-- g = 1 + (m/2)·s, with m in units of 0.1 % (R107). -/
def envelope (depth : Nat) (s : ℝ) : ℝ := 1 + ((depth / 2000 : ℚ) : ℝ) * s

/-- Stage 5: all four lanes are multiplied by the envelope; `s` is the tone at each sample, 0 while none leaves (R107). -/
def StageBreeze (depth : Nat) (s : ℤ → ℝ) (inp out : Dual) : Prop := ∀ p m, out p m = (envelope depth (s m) : ℂ) * inp p m

/-! ### Lane corrections (R108 to R110) -/

/-- I and Q after the IQ pre-correction, with G in 0.01 dB and θ in 0.05° (R108). -/
def IqCorrected (gain phase : Int) (z w : ℂ) : Prop :=
  let k : ℝ := (10 : ℝ) ^ (((gain : ℝ) / 100) / 40)
  let θ : ℝ := (phase : ℝ) * (Real.pi / 3600)
  w.re = k * z.re ∧ w.im = -k * Real.tan θ * z.re + z.im / (k * Real.cos θ)

/-- The scale of a polarisation for an X/Y power ratio in 0.01 dB: half the ratio up on X, half down on Y (that it is split so is the model's choice, log
entry 153). -/
def BalanceScale (ratio : Int) (p : Fin 2) (s : ℝ) : Prop := s = (10 : ℝ) ^ ((if p = 0 then (ratio : ℝ) else -ratio) / 4000)

/-- Stage 6 at the values that the walks of R110 have reached: gains 3 and 4, phases 5 and 6, balance 7. -/
def StageIq (v : Nat → Int) (inp out : Dual) : Prop :=
  ∀ p m, ∃ (w : ℂ) (s : ℝ), IqCorrected (v (if p = 0 then 3 else 4)) (v (if p = 0 then 5 else 6)) (inp p m) w ∧ BalanceScale (v 7) p s ∧ out p m = s * w

/-- The lanes XI, XQ, YI, YQ of a stream. -/
def lanesOf (s : Dual) (l : Fin 4) (m : ℤ) : ℝ := if l.val % 2 = 0 then (s (if l.val < 2 then 0 else 1) m).re else (s (if l.val < 2 then 0 else 1) m).im

/-- Stage 7: a 17-tap FIR per lane with tap 8 the centre, in units of 1/1,024; tables cross-fade (R104, R109). -/
def StagePreEmphasis (t : Tx) (xfade : Nat) (f : FadeFrames) (inp out : Fin 4 → ℤ → ℝ) : Prop :=
  ∀ l m, out l m = ((List.range 17).map fun i =>
    let w : ℝ := (fadeWeight f.taps xfade : ℚ)
    let tap := (1 - w) * (tapAt t.taps.active (17 * l.val + i) : ℝ) + w * (tapAt t.taps.next (17 * l.val + i) : ℝ)
    tap * (((1024 : ℚ)⁻¹ : ℚ) : ℝ) * inp l (m + 8 - i)).sum

/-- Stage 8: XQ, YI and YQ are delayed relative to XI by the skews the walks have reached, in 0.1 ps (R110): the band-limited stream at the delayed time. -/
def StageSkew (v : Nat → Int) (fs : ℝ) (inp out : Fin 4 → ℤ → ℝ) : Prop :=
  ∀ l m, out l m = ∑' k : ℤ, inp l k * Real.sinc (Real.pi * ((m - k : ℝ) - (if l = 0 then 0 else (v (l.val - 1) : ℝ)) / 10 ^ 13 * fs))

/-! ### Clipping, quantisation and the output (R111, R112) -/

/-- The clip level at a sample: P_TX_CLIP in 0.01 × the lane's RMS of the unmodulated envelope, scaled by g (R111). -/
def clipLevel (clip : Nat) (rms g : ℝ) : ℝ := ((clip / 100 : ℚ) : ℝ) * rms * g

/-- A clipped sample counts in TX_CLIP_SAMPLES_Cn. -/
def Clips (clip : Nat) (rms g v : ℝ) : Prop := clipLevel clip rms g < |v|

/-- The depth of the envelope that carrier `n` has now: P_BRZ_DEPTH while a tone is there, 0 without one: disabled, between bursts, on an interop carrier (R99,
R107, R433). -/
def Dev.toneDepth (d : Dev) (env : Env) (n : Nat) : Nat :=
  if (d.tx n).native && decide ((d.brz n).tone ≠ .off) then env.par.nat (pBrzDepth + n) else 0

/-- DAC full scale: the clip level at the top of the envelope, so that the tone is never clipped and costs m/2 of headroom; with no tone, the clip level itself
(R107, R111). -/
def fullScale (clip depth : Nat) (rms : ℝ) : ℝ := clipLevel clip rms (envelope depth 1)

/-- The 8-bit code of a sample within ±127 steps of full scale; that it is the nearest step is the model's choice (log entry 153). -/
def Quantised (full v : ℝ) (c : ℤ) : Prop := -127 ≤ c ∧ c ≤ 127 ∧ |v * 127 - c * full| * 2 ≤ full

/-- Stage 9. -/
def StageQuantise (clip depth : Nat) (rms : Fin 4 → ℝ) (g : ℤ → ℝ) (inp : Fin 4 → ℤ → ℝ) (out : Fin 4 → ℤ → ℤ) : Prop :=
  ∀ l m, Quantised (fullScale clip depth (rms l)) (max (-(clipLevel clip (rms l) (g m))) (min (clipLevel clip (rms l) (g m)) (inp l m))) (out l m)

/-- Stage 10: the DAC's differential output in mV at a fraction `gain` of the ramp (R112, R116); the muted level otherwise (R115), here 0 of the at most 5 mV
that Table 4-6 allows. -/
def dacOut (t : Tx) (swing : Nat) (gain : ℚ) (c : ℤ) : ℚ := if t.carries then gain * swing / 2 * c / 127 else 0

/-! ### The whole path (R93) -/

/-- Where the walk of lane correction `i` stands now. -/
def Tx.laneValue (t : Tx) (now i : Nat) : Int := (t.walks.get ⟨0, 0, 0⟩ i).value now

/-- The codes that carrier `n`'s DACs get, stage after stage in the order of Table 4-1, from the data symbols' amplitudes and signs (an
interop carrier: the client's bytes) and the tone. `rms` is each
lane's RMS level of the unmodulated envelope, `f` where its cross-fades stand. -/
def Dev.Transmits (d : Dev) (env : Env) (n : Nat) (p : OpPoint) (f : FadeFrames) (amp : Fin 4 → ℤ → Nat) (sign : Fin 4 → ℤ → Bool)
    (client : Nat → List Byte) (s : ℤ → ℝ) (rms : Fin 4 → ℝ) (codes : Fin 4 → ℤ → ℤ) : Prop :=
  let t := d.tx n
  let xfade := env.par.nat (pTxXfade + n)
  let depth := d.toneDepth env n
  let v := t.laneValue env.now
  ∃ (x2 x3 x4 x5 x6 : Dual) (y7 y8 : Fin 4 → ℤ → ℝ),
    d.LineSymbols env n p amp sign client x2 ∧
    StageNlPre t xfade f x2 x3 ∧
    StageShaping t p xfade f x3 x4 ∧
    StageBreeze depth s x4 x5 ∧
    StageIq v x5 x6 ∧
    StagePreEmphasis t xfade f (lanesOf x6) y7 ∧
    StageSkew v (p.fs : ℝ) y7 y8 ∧
    StageQuantise (env.par.nat (pTxClip + n)) depth rms (fun m => envelope depth (s m)) y8 codes

end Sys2Proof.Machine
end

