-- ==== Sys2Proof/Machine/BreezeSignal.lean ====
section
/-! DEFINITION. Machine/BreezeSignal.lean: the symbols of a Breeze packet, the tone's depth over time, and what a receiver context judges (R430 to R436), as
functions of bits and levels. -/

namespace Sys2Proof.Machine

/-! ### Symbols and tone (R430, R432, R433) -/

/-- The symbols of a bit stream: single bits, or dibits with the earlier bit first; each with its deviation in Hz (Table 18-1). -/
def brzSymbols (rate : Nat) : List Bool → List Int
  | [] => []
  | [a] => [100 * brzDeviation rate a false]
  | a :: b :: bs =>
    if rate = 2 then 100 * brzDeviation rate a b :: brzSymbols rate bs
    else 100 * brzDeviation rate a false :: 100 * brzDeviation rate b false :: brzSymbols rate bs

/-- The bits on the line, each byte most significant bit first, and the symbols of the packet being sent (R432). -/
def lineBits (bs : List Byte) : List Bool := bs.flatMap fun b => natBits 8 b.toNat
def Breeze.symbols (b : Breeze) : List Int := brzSymbols b.txCfg.rate (lineBits b.line)

/-- The deviation `ns` after a packet's first symbol began: that of the symbol then in progress, and none outside the packet. -/
def Breeze.deviation (b : Breeze) (ns : Nat) : Int := b.symbols.getD (ns * brzSymbolRate b.txCfg.rate / 10000000) 0

/-- The depth of the tone in 0.1 %, `ns` into its present state: linear over P_BRZ_RAMP, and full in between (R433). -/
def Breeze.depth (b : Breeze) (env : Env) (n ns : Nat) : ℚ :=
  let full : ℚ := env.par.nat (pBrzDepth + n)
  let part : ℚ := min 1 (ns / (env.par.nat (pBrzRamp + n) * ms : ℕ))
  match b.tone with
  | .off => 0
  | .rampUp => full * part
  | .on => full
  | .sending => full
  | .rampDown => full * (1 - part)

/-- In burst mode the tone holds its centre frequency for 1 ms after its ramp before the packet's first symbol (R433). -/
def burstHold : Nat := 1000000

/-! ### A context's judgements (R435, R436) -/

/-- What a context does with LEN (step 3): 0 and above 64 are counted as errors; else so many bytes of payload and CRC follow. -/
def bytesToCome (len : Nat) : Option Nat := if len = 0 ∨ 64 < len then none else some (len + 2)

/-- The LEVEL of a packet: the depth, in 0.01 %, over the 16 symbols of its declaration, from the largest and smallest level of the tone's envelope (R107, R435). -/
def LevelOf (high low : ℚ) (level : Nat) : Prop := 0 < high + low ∧ |2 * (high - low) / (high + low) * 10000 - level * 2| ≤ 1

end Sys2Proof.Machine
end

