-- ==== Sys2Proof/Machine/CalSteps.lean ====
section
/-! DEFINITION. Machine/CalSteps.lean: how a round takes one position out and hands it back (R171, Table 7-3). The rows see a round by what it hands back. -/

namespace Sys2Proof.Machine

/-- The five steps a position goes through (Table 7-3). -/
inductive CalStep where
  | fitSpare | toSpare | measure | refit | toSlice
  deriving DecidableEq, Repr

def CalStep.all : List CalStep := [.fitSpare, .toSpare, .measure, .refit, .toSlice]

/-- The longest a step takes, in ns (Table 7-3). -/
def CalStep.most : CalStep → Nat
  | .fitSpare => 150 * us
  | .toSpare => 6600
  | .measure => 1100 * us
  | .refit => 150 * us
  | .toSlice => 6600

/-- The longest a position takes: the five steps fit into 1.5 ms (R171). -/
def CalStep.total : Nat := (CalStep.all.map CalStep.most).sum

/-- Line frames of a handover (R171). -/
abbrev handoverFrames : Nat := 64

/-- The spare's part of the position's output, in 64ths, `f` line frames into a step: it moves linearly over 64 frames (R171). -/
def CalStep.spare (f : Nat) : CalStep → Nat
  | .fitSpare => 0
  | .toSpare => min f handoverFrames
  | .measure => handoverFrames
  | .refit => handoverFrames
  | .toSlice => handoverFrames - min f handoverFrames

/-- Does a DAC's slice drive the dummy load (R171, R182)? -/
def CalStep.dummy : CalStep → Bool
  | .measure => true
  | _ => false

/-- Do slice and spare work in parallel on the same instants? -/
def CalStep.parallel : CalStep → Bool
  | .measure => false
  | _ => true

/-- What the position puts out: the slice's corrected output and the spare's, by their parts. -/
noncomputable def CalStep.output (st : CalStep) (f : Nat) (slice spare : ℝ) : ℝ :=
  slice + (spare - slice) * (st.spare f) / handoverFrames

/-- Samples over which a pair is compared (R171). -/
abbrev fitSamples : Nat := 65536

/-- The squared difference of two outputs over the samples of a fit. -/
noncomputable def fitError (a b : Fin fitSamples → ℝ) : ℝ := ∑ i, (a i - b i) ^ 2

/-- `(o, g, t)` are the offset, gain and skew fitted by least squares to the output `goal` of the other of the pair: `raw t i` is sample `i` taken with skew
`t` (R171, steps 1 and 4). -/
def LeastSquares (goal : Fin fitSamples → ℝ) (raw : ℝ → Fin fitSamples → ℝ) (o g t : ℝ) : Prop :=
  ∀ o' g' t', fitError goal (fun i => o + g * raw t i) ≤ fitError goal fun i => o' + g' * raw t' i

/-- At a handover the two outputs differ by at most 0.3 LSB rms (R171). -/
def HandoverClose (slice spare : Fin fitSamples → ℝ) : Prop := fitError slice spare ≤ (3 / 10) ^ 2 * fitSamples

end Sys2Proof.Machine
end

