-- ==== Sys2Proof/Machine/StitchLane.lean ====
section
/-! DEFINITION. Machine/StitchLane.lean: the Stitch lane layer: codewords, the mapping of blocks and cells to lanes, codeword lock and deskew
(R310 to R313, R316), and the bytes a framer takes of a channel (R324, R325). -/

namespace Sys2Proof.Machine

/-! ### Blocks, cells and lanes (R313) -/

/-- Blocks a port of `k` lanes carries per codeword counter value. -/
def blocksPerCw (k : Nat) : Nat := 20 * k

/-- The lane that block `j` of a counter value travels on, and its position in that lane's codeword. -/
def blockLane (k j : Nat) : Nat := j % k
def blockPos (k j : Nat) : Nat := j / k

/-- The stream index of block `j` of counter value `c`. -/
def streamIndex (k c j : Nat) : Nat := c * blocksPerCw k + j

/-- The stream index carried by position `p` of lane `l` in counter value `c`. -/
def carriedIndex (k c l p : Nat) : Nat := streamIndex k c (p * k + l)

/-- A stream of cells as blocks: a cell is the 16 blocks that start at a stream index that is a multiple of 16. -/
def streamBlock (cells : Nat → List Byte) (i : Nat) : List Byte := ((cells (i / 16)).drop (32 * (i % 16))).take 32

/-- The cell that a stream of blocks carries at place `n`. -/
def streamCell (blocks : Nat → List Byte) (n : Nat) : List Byte := (List.range 16).flatMap fun i => blocks (16 * n + i)

/-! ### Codewords (R311, R312) -/

/-- The low `w` bits of a number, least significant first. -/
def bitsLsb (w v : Nat) : List Bool := (List.range w).map fun i => bitAt v i

/-- The 20-bit header of Table 13-1. -/
def codewordHeader (c : Codeword) : Nat := c.type % 16 + 16 * (c.lane % 16) + 256 * (c.cwc % 4096)

/-- The 5,140 information bits: the header, then the bytes in ascending order, each least significant bit first (R311). -/
def codewordInfo (c : Codeword) : List Bool :=
  bitsLsb 20 (codewordHeader c) ++ ((List.range 20).flatMap fun p => padTo 32 (c.blocks.getD p [])).flatMap fun b => bitsLsb 8 b.toNat

/-- The data codeword of counter value `n`, counted without wrap, on lane `l` of a `k`-lane port that carries `cells` from CWC 0 on. -/
def dataCodeword (k l : Nat) (cells : Nat → List Byte) (n : Nat) : Codeword :=
  ⟨0, l, n % 4096, (List.range 20).map fun p => streamBlock cells (carriedIndex k n l p)⟩

/-- The control block (R316). -/
def controlBlock (linkId : Nat) (x : Lane) (rxReady tuneDone : Bool) : List Byte :=
  padTo 32 (leBytes 2 linkId ++ leBytes 1 x.reqFir.1 ++ leBytes 1 x.reqFir.2 ++ leBytes 1 x.reqSeq ++ leBytes 1 x.appliedSeq
    ++ leBytes 1 (b2n rxReady + 2 * b2n tuneDone))

/-- One step of the generator x³¹ + x²⁸ + 1, and the bit it gives. -/
def prbs31Step (r : Nat) : Nat × Bool :=
  let b := xor (bitAt r 30) (bitAt r 27)
  (r * 2 % 2 ^ 31 + b2n b, b)

/-- `n` bits of the generator's running output, and its register after them. -/
def prbs31 : Nat → Nat → List Bool × Nat
  | 0, r => ([], r)
  | n + 1, r =>
    let (r1, b) := prbs31Step r
    let (bs, r2) := prbs31 n r1
    (b :: bs, r2)

/-- The information bits of a training codeword: its header, the control block, then blocks 1 to 19 from the generator at register `gen` (R316). -/
def trainingInfo (l cwc : Nat) (ctrl : List Byte) (gen : Nat) : List Bool :=
  (codewordInfo ⟨1, l, cwc, [ctrl]⟩).take (20 + 256) ++ (prbs31 (19 * 256) gen).1

/-! ### The code: RS(544,514) over GF(2¹⁰), as IEEE 802.3 has it for 200GBASE-R (R311; log entry 169, PRESUMED) -/

/-- Times α in the field of x¹⁰ + x³ + 1. -/
def gfAlpha (a : Nat) : Nat := if bitAt a 9 then (a * 2 % 1024) ^^^ 9 else a * 2

/-- The product of two field elements, by the bits of the first from the most significant. -/
def gfMul (a b : Nat) : Nat := [9, 8, 7, 6, 5, 4, 3, 2, 1, 0].foldl (fun r i => if bitAt a i then gfAlpha r ^^^ b else gfAlpha r) 0

def gfPow : Nat → Nat
  | 0 => 1
  | n + 1 => gfAlpha (gfPow n)

/-- A polynomial, highest power first, times (x + a). -/
def polyTimesRoot (p : List Nat) (a : Nat) : List Nat := List.zipWith (· ^^^ ·) (p ++ [0]) (0 :: p.map (gfMul a))

/-- The generator polynomial: the product of (x + αⁱ) for i from 0 to 29, highest power first. -/
def rsGenerator : List Nat := (List.range 30).foldl (fun p i => polyTimesRoot p (gfPow i)) [1]

/-- The 30 parity symbols of the message symbols, highest power first: the remainder of m(x) x³⁰ by the generator. -/
def rsParity (msg : List Nat) : List Nat :=
  msg.foldl (fun r m =>
    let f := m ^^^ r.headD 0
    List.zipWith (· ^^^ ·) (r.drop 1 ++ [0]) ((rsGenerator.drop 1).map (gfMul f))) (List.replicate 30 0)

/-- The ten bits of symbol `i`, the first the least significant. -/
def rsSymbol (bits : List Bool) (i : Nat) : Nat := ((List.range 10).map fun k => b2n (bits.getD (10 * i + k) false) * 2 ^ k).sum

/-- The 5,440 bits of a codeword. -/
def codewordBits (info : List Bool) : List Bool :=
  info ++ (rsParity ((List.range 514).map (rsSymbol info))).flatMap (bitsLsb 10)

/-- The PAM4 level of two bits, the first most significant, Gray-coded (R311). -/
def pam4 (hi lo : Bool) : Int :=
  match hi, lo with
  | false, false => -3
  | false, true => -1
  | true, true => 1
  | true, false => 3

/-- The 2,720 symbols of a codeword. -/
def codewordSymbols (bits : List Bool) : List Int := (List.range 2720).map fun i => pam4 (bits.getD (2 * i) false) (bits.getD (2 * i + 1) false)

/-! ### Lock and deskew (R312, R313) -/

/-- The 544 symbols that a word of received levels holds, each ten bits, and those in which it differs from a codeword. -/
def receivedSymbols (bits : List Bool) : List Nat := (List.range 544).map (rsSymbol bits)
def rsDistance (bits : List Bool) (c : Codeword) : Nat := countTrue (List.zipWith (fun a b => decide (a ≠ b)) (receivedSymbols bits) (receivedSymbols (codewordBits (codewordInfo c))))

/-- What decoding makes of 5,440 received bits: the codeword within 15 symbols of them, or an uncorrectable result where there is none. -/
def CwDecodes (bits : List Bool) (got : Option Codeword) : Prop :=
  match got with
  | some c => rsDistance bits c ≤ 15
  | none => ∀ c, 15 < rsDistance bits c

/-- A codeword period in ps: 2,720 symbols at B in 0.01 GBd. -/
def cwPeriod (baud : Nat) : Nat := 2720 * 100000 / baud

/-- The lanes' codewords of one counter value arrive within the 40 ns that the receiver tolerates at the balls. -/
def skewOk (ats : List Nat) : Bool := ats.all fun a => ats.all fun b => decide (a ≤ b + 40000)

/-- Deskew by CWC: each lane's codewords are lined up on counter value `n`, so that every lane gives the one that carries it. `lanes` holds what each lane
has received, in order of arrival. -/
def deskew (lanes : List (List CwArrival)) (n : Nat) : Option (List Codeword) :=
  let row := lanes.map fun as => as.find? fun a => (cwUsable a).any fun c => decide (c.type = 0 ∧ c.cwc = n)
  if row.all Option.isSome && skewOk (row.map fun a => a.elim 0 CwArrival.at_) then some (row.filterMap fun a => a.bind cwUsable) else none

/-- The block at stream index `i` of deskewed rows, one row of codewords in lane order for each counter value. -/
def deskewedBlock (k : Nat) (rows : Nat → List Codeword) (i : Nat) : List Byte :=
  let j := i % blocksPerCw k
  ((rows (i / blocksPerCw k)).getD (blockLane k j) ⟨0, 0, 0, []⟩).blocks.getD (blockPos k j) []

/-- The cells a port receives: whole once every row is deskewed (R313, R314). -/
def deskewedCell (k : Nat) (rows : Nat → List Codeword) (n : Nat) : List Byte := streamCell (deskewedBlock k rows) n

/-! ### Toward the line (R324, R325) -/

/-- The bytes queued for the framer: those of accepted cells as they came in `data`, and P_STITCH_FILL for a gap. -/
def queueBytes (fill : Byte) : List Seg → List Byte → List Byte
  | [], _ => []
  | s :: ss, data => if s.cell then data.take s.bytes ++ queueBytes fill ss (data.drop s.bytes) else List.replicate s.bytes fill ++ queueBytes fill ss data

/-- The `n` bytes that the framer takes of channel `ch` of port `p`: with its queue empty, or the flow idle, P_STITCH_FILL in their place. -/
def Dev.framerBytes (d : Dev) (env : Env) (p ch : Nat) (data : List Byte) (n : Nat) : List Byte :=
  let fill := BitVec.ofNat 8 (env.par.nat (pStitchFill + p))
  (queueBytes fill ((d.stitch p).chans.get .reset ch).queue data ++ List.replicate n fill).take n

/-- The transmit lanes of an UP port: lane `l` sends, as codeword `n` since data began, the codeword that carries the port's cells. -/
def Dev.stitchLine (d : Dev) (p l : Nat) (cells : Nat → List Byte) (n : Nat) : List Int :=
  codewordSymbols (codewordBits (codewordInfo (dataCodeword (d.stitch p).lanes l cells n)))

end Sys2Proof.Machine
end

