-- ==== Sys2Proof/Machine/TimSignal.lean ====
section
/-! DEFINITION. Machine/TimSignal.lean: what the DPLL core and the output stages do between commands, as relations on signals (R386, R390,
R394, R395, R397 to R401). Times are real seconds, offsets ppm from the XOIN nominal, phases ps. -/

namespace Sys2Proof

/-- How the DPLL's loop of a bandwidth in Hz makes the core follow a reference: Table 16-2 names it, and gives no response: not constrained (log entry 185). -/
opaque Config.DpllFollows (bw : ℝ) (ref core : ℝ → ℝ) : Prop

end Sys2Proof

namespace Sys2Proof.Machine

/-- A function that moves by no more than `k` per second. -/
def SlopeLimited (k : ℝ) (f : ℝ → ℝ) (t0 t1 : ℝ) : Prop :=
  ∀ t u : ℝ, t0 ≤ t → t ≤ u → u ≤ t1 → |f u - f t| ≤ k * (u - t)

/-- P_TIM_SLOPE in ppm/s. -/
noncomputable def timSlope (env : Env) : ℝ := (env.par.nat pTimSlope : ℝ) / 1000

/-- P_TIM_REJECT of reference `r` in ppm. -/
noncomputable def timReject (env : Env) (r : Nat) : ℝ := (env.par.val (pTimReject + r) : ℝ) / 100

/-- An offset held within a clamp (R390). -/
noncomputable def clampReal (limit x : ℝ) : ℝ := max (-limit) (min limit x)

/-- The holdover value: the core offset averaged over the last 60 s, leaving out the final 1 s before the reference was lost at `lost` (R397). -/
noncomputable def holdoverValue (core : ℝ → ℝ) (lost : ℝ) : ℝ := (∫ t in (lost - 60)..(lost - 1), core t) / 59

/-- Something moves toward `goal` at no more than `k` per second: its distance grows by no more than the goal moves. -/
def PullsTo (k : ℝ) (f goal : ℝ → ℝ) (t0 t1 : ℝ) : Prop :=
  SlopeLimited k f t0 t1 ∧ ∀ t u : ℝ, t0 ≤ t → t ≤ u → u ≤ t1 → |f u - goal u| ≤ |f t - goal t| + |goal u - goal t|

/-- How long ACQUIRING and SWITCHING last at most, in s: 10 / P_TIM_BW + 1 s and what the slope limit needs for the difference (R396). -/
noncomputable def pullTime (env : Env) (diff : ℝ) : ℝ := 10 / ((env.par.nat pTimBw : ℝ) / 10) + 1 + diff / timSlope env

/-- What the core frequency does from `t0` to `t1` while the block stays in one DPLL state (Table 16-2, R390, R394, R396 to R398): `ref` is each
reference's offset in ppm. FREERUN ramps to nominal at the slope limit; ACQUIRING pulls onto the reference, SWITCHING holds first; both end in time; LOCKED follows it
with the loop of P_TIM_BW, whose response the spec does not give; none leaves the reject limit of the reference followed; HOLDOVER has the holdover value. -/
def Dev.Core (d : Dev) (env : Env) (ref : Nat → ℝ → ℝ) (core : ℝ → ℝ) (t0 t1 : ℝ) : Prop :=
  let goal (r : Nat) (t : ℝ) : ℝ := clampReal (timReject env r) (ref r t)
  let clamped (r : Nat) : Prop := ∀ t, t0 ≤ t → t ≤ t1 → |core t| ≤ timReject env r
  let inTime (r : Nat) : Prop := (∀ t, t0 ≤ t → t ≤ t1 → goal r t = goal r t0) → t1 - t0 ≤ pullTime env |goal r t0 - core t0|
  if d.domOn domDpll then
    match d.tim.st, d.tim.sel with
    | .locked, some r => clamped r ∧ Config.DpllFollows ((env.par.nat pTimBw : ℝ) / 10) (goal r) core
    | .acquiring, some r => clamped r ∧ PullsTo (timSlope env) core (goal r) t0 t1 ∧ inTime r
    | .switching, some r => clamped r ∧ inTime r ∧ ∃ h, t0 ≤ h ∧ h ≤ t1 ∧ (∀ t, t0 ≤ t → t ≤ h → core t = core t0) ∧ PullsTo (timSlope env) core (goal r) h t1
    | .holdover, _ => ∀ t, t0 ≤ t → t ≤ t1 → core t = (d.tim.ho : ℝ) / 1000000
    | _, _ => ∀ t, t0 ≤ t → t ≤ t1 → |core t| = max 0 (|core t0| - timSlope env * (t - t0)) ∧ 0 ≤ core t * core t0
  else ∀ t, t0 ≤ t → t ≤ t1 → core t = 0

/-- The state holds the core frequency as the signal has it, at the time it was last brought up to (R407): in units of 0.001 ppb. -/
def Dev.CoreReported (d : Dev) (core : ℝ → ℝ) : Prop := |core ((d.tim.coreAt : ℝ) / 1000000000) * 1000000 - d.tim.core| ≤ 1

/-- The holdover value that the state holds is the average's (R397). -/
def Dev.HoldoverReported (d : Dev) (core : ℝ → ℝ) (lost : ℝ) : Prop := |holdoverValue core lost * 1000000 - d.tim.ho| ≤ 1

/-- A clock synthesised from the core in exact ratio: a line transmit clock, an ETH quad reference, or CLKOUTn (R386, R399). -/
noncomputable def synthesised (nominal : ℝ) (core : ℝ → ℝ) (t : ℝ) : ℝ := nominal * (1 + core t / 1000000)

/-- The frequency of CLKOUT`o` at `t` within a stretch in which its configuration stands (R81, R399, R405). -/
noncomputable def Dev.clkOut (d : Dev) (o : Nat) (core : ℝ → ℝ) (t : ℝ) : ℝ :=
  let x := d.timOut o
  if x.enable && d.domOn domDpll && decide ((x.lowUntil : ℝ) / 1000000000 ≤ t) then (if x.atNominal then x.freqWidth else synthesised x.freqWidth core t) else 0

/-- The symbol clock of a carrier that is transmitted, in Bd: its point's rate from the core, within the ±0.1 ppm of R94 (R386). -/
def Dev.LineClock (d : Dev) (n : Nat) (core clock : ℝ → ℝ) : Prop :=
  ∀ p, (d.tx n).op = some p → ∀ t, |clock t - synthesised ((p.rs : ℚ) : ℝ) core t| ≤ synthesised ((p.rs : ℚ) : ℝ) core t / 10000000

/-- The phase of the reference followed minus the outputs', at time `t` in s, from the start of the last switch on (R395). Held as an offset, it
stays within the ±1 ns of Table 16-1 for a switch; with P_TIM_ABSORB = 0 the outputs move onto the reference's phase, their frequency changing by no more than
the slope limit (1 ppm of frequency is 10⁶ ps of phase a second), and stay there. -/
def Tim.OutputPhase (t : Tim) (env : Env) (diff : ℝ → ℝ) : Prop :=
  let start : ℝ := (t.phaseAt : ℝ) / 1000000000
  diff start = t.phaseDiff ∧
  if t.phaseHeld then ∀ u, start ≤ u → |diff u - t.phaseDiff| ≤ 1000
  else (∀ u v, start ≤ u → 0 ≤ v → |diff (u + 2 * v) - 2 * diff (u + v) + diff u| ≤ timSlope env * 1000000 * v ^ 2) ∧
    ∃ fin : ℝ, start ≤ fin ∧ ∀ u, fin ≤ u → diff u = 0

end Sys2Proof.Machine
end

