-- ==== Sys2Proof/Machine/ClientSignal.lean ====
section
/-! DEFINITION. Machine/ClientSignal.lean: the GFP byte stream of an Ethernet port's bundle (R287, R290, R291), and what a client lane sends and takes (R295, R298 to
R300), as functions of frames, bits and symbols; what G.7041 and IEEE 802.3 fix is marked (log entry 171). -/

namespace Sys2Proof.Machine

/-! ### GFP frames (R287) -/

/-- A GFP frame on its way to the bundle: a client data frame, a client management frame with its UPI (R290), or an idle frame. -/
inductive GfpFrame where
  | data (mac : List Byte)
  | management (upi : Byte)
  | idle
  deriving DecidableEq, Repr

/-- The 16-bit header check: x¹⁶ + x¹² + x⁵ + 1 from 0 (PRESUMED from G.7041, log entry 171). -/
def gfpHec (bs : List Byte) : Nat := bs.foldl crc16Byte 0

/-- What scrambles a core header (PRESUMED from G.7041, log entry 171). -/
def gfpCoreMask : List Byte := [0xB6, 0xAB, 0x31, 0xE0]

/-- A core header: the payload length and its check, scrambled. -/
def gfpCore (pli : Nat) : List Byte :=
  List.zipWith (· ^^^ ·) (beBytes 2 pli ++ beBytes 2 (gfpHec (beBytes 2 pli))) gfpCoreMask

/-- A payload header: PTI in the top three bits, PFI 0 and EXI 0000 below them, the UPI, and their check. -/
def gfpType (pti : Nat) (upi : Byte) : List Byte :=
  let t := [BitVec.ofNat 8 (32 * pti), upi]
  t ++ beBytes 2 (gfpHec t)

/-- The payload area before scrambling: PTI 000 and UPI 0x01 for data, PTI 100 for management (R287, R290). With the core header a data frame costs 8
bytes. -/
def GfpFrame.area : GfpFrame → List Byte
  | .data mac => gfpType 0 0x01 ++ mac
  | .management upi => gfpType 4 upi
  | .idle => []

/-- The payload scrambler x⁴³ + 1: each bit is added to the one sent 43 bits before it; `sent` holds the last 43, newest first. -/
def scramble43 : List Bool → List Bool → List Bool × List Bool
  | sent, [] => ([], sent)
  | sent, b :: bs =>
    let y := xor b (sent.getD 42 false)
    let r := scramble43 ((y :: sent).take 43) bs
    (y :: r.1, r.2)

/-- The descrambler of the far end, from the bits received. -/
def descramble43 : List Bool → List Bool → List Bool × List Bool
  | seen, [] => ([], seen)
  | seen, y :: ys =>
    let r := descramble43 ((y :: seen).take 43) ys
    (xor y (seen.getD 42 false) :: r.1, r.2)

/-- Bytes as bits and back, the most significant bit first. -/
def bitsMsb (bs : List Byte) : List Bool := bs.flatMap fun b => natBits 8 b.toNat
def bytesMsb (bits : List Bool) : List Byte := (List.range (bits.length / 8)).map fun i => BitVec.ofNat 8 (bitsNat ((bits.drop (8 * i)).take 8))

/-- The byte stream of successive frames, and the scrambler's bits after them: idle frames have a core header alone. -/
def gfpStream : List Bool → List GfpFrame → List Byte × List Bool
  | sent, [] => ([], sent)
  | sent, f :: fs =>
    let s := scramble43 sent (bitsMsb f.area)
    let r := gfpStream s.2 fs
    (gfpCore f.area.length ++ bytesMsb s.1 ++ r.1, r.2)

/-- Where byte `i` of the stream lies in a bundle of `count` channels: line frame, channel and payload byte; in each line frame 320 bytes of the first channel,
then of the next, without break across frames (R287). -/
def gfpPlace (count i : Nat) : Nat × Nat × Nat := (i / (320 * count), i % (320 * count) / 320, i % 320)
def gfpIndex (count frame chan byte : Nat) : Nat := 320 * (count * frame + chan) + byte

/-- What the port hands to the mapper next: a management frame where one is due, else the client's frame while data is taken, else an idle frame (R287, R290). -/
def Dev.gfpNext (d : Dev) (env : Env) (p : Nat) (due : Bool) (ready : Option (List Byte)) : GfpFrame :=
  let u := d.csfUpi p
  if due && env.par.on pEthCsfEn && decide (u ≠ 0) then .management (BitVec.ofNat 8 u)
  else if u = 1 ∨ u = 2 then .idle
  else match ready with
    | some mac => .data mac
    | none => .idle

/-! ### Delineation (R287) -/

/-- The payload length that a core header tells, where its check holds. -/
def gfpHeader (bs : List Byte) : Option Nat :=
  let h := List.zipWith (· ^^^ ·) (bs.take 4) gfpCoreMask
  if h.length = 4 ∧ gfpHec (h.take 2) = beNat (h.drop 2) then some (beNat (h.take 2)) else none

/-- A header that one bit error keeps from checking is put right once delineated (PRESUMED from G.7041, log entry 171). -/
def gfpHeaderFixed (bs : List Byte) : Option Nat :=
  match gfpHeader bs with
  | some n => some n
  | none => (List.range 32).findSome? fun k => gfpHeader ((bs.take 4).zipIdx.map fun x => if x.2 = k / 8 then x.1 ^^^ BitVec.ofNat 8 (2 ^ (k % 8)) else x.1)

/-- The stream is delineated at a byte where a header checks and the one it points to checks too; it is lost where a header cannot be put right. -/
def gfpFound (bs : List Byte) : Bool :=
  match gfpHeader bs with
  | some n => (gfpHeader (bs.drop (4 + n))).isSome
  | none => false
def gfpLost (bs : List Byte) : Bool := (gfpHeaderFixed bs).isNone

/-- The frame that a descrambled payload area holds: PTI 000 with UPI 0x01 is client data, PTI 100 a management frame; others are discarded. -/
def gfpRead (area : List Byte) : Option GfpFrame :=
  if area.length < 4 ∨ gfpHec (area.take 2) ≠ beNat ((area.drop 2).take 2) then none
  else
    let pti := (area.getD 0 0).toNat / 32
    let upi := area.getD 1 0
    if pti = 0 ∧ upi = 0x01 then some (.data (area.drop 4)) else if pti = 4 then some (.management upi) else none

/-- The frames of a delineated stream, `fuel` headers at most. -/
def gfpFrames : Nat → List Bool → List Byte → List GfpFrame
  | 0, _, _ => []
  | fuel + 1, seen, bs =>
    match gfpHeaderFixed bs with
    | none => []
    | some n =>
      let area := descramble43 seen (bitsMsb ((bs.drop 4).take n))
      (gfpRead (bytesMsb area.1)).toList ++ gfpFrames fuel area.2 (bs.drop (4 + n))

/-- A frame cut off toward the client by the start of Local Fault ends with its last four bytes inverted (R291). -/
def frameCutOff (sofar : List Byte) : List Byte := spoilFcs sofar

/-! ### The lane's transmitter (R295) -/

/-- c(−1), c(0) and c(+1). -/
def firTaps (pre post : Nat) : ℚ × ℚ × ℚ := (-(pre / 128), 1 - (pre + post) / 128, -(post / 128))

/-- The FIR on PAM4 levels: the pre-cursor weighs the next symbol, the post-cursor the one before. -/
def firOut (pre post : Nat) (level : ℤ → Int) (k : ℤ) : ℚ :=
  let c := firTaps pre post
  c.1 * level (k + 1) + c.2.1 * level k + c.2.2 * level (k - 1)

/-- Half of P_LANE_TX's SWING, in mV, is what the outer level reaches; TX_INV turns the polarity (R295, Table 12-2). -/
def Dev.laneOut (d : Dev) (env : Env) (l : Nat) (level : ℤ → Int) (k : ℤ) : ℚ :=
  let fir := d.firInUse env l
  let swing := bitsAt (env.par.nat (pLaneTx + l)) 16 10
  (if bitAt (env.par.nat (pLaneCfg + l)) 0 then -1 else 1) * (swing / 2) * firOut fir.1 fir.2 level k / 3

/-! ### Loopbacks (R298) -/

/-- What a lane's receive path takes: the signal at its balls, its own serial output through the whole analogue receiver, or its own parallel data. -/
inductive LaneTakes where
  | balls | ownSerial | ownData
  deriving DecidableEq, Repr

/-- What its transmit balls carry: its own signal, nothing, or the received data retimed. -/
inductive LaneCarries where
  | own | idle | retimed
  deriving DecidableEq, Repr

def Lane.takes (x : Lane) : LaneTakes := if x.loopback = 1 then .ownSerial else if x.loopback = 2 then .ownData else .balls

/-- Table 12-3; TX_SQ_LB of P_LANE_CFG squelches the balls under NES and NEP. An unpowered lane is electrically idle (R301, R304). -/
def Dev.laneCarries (d : Dev) (env : Env) (l : Nat) : LaneCarries :=
  let x := d.lane l
  if !d.lanePowered l then .idle
  else if x.loopback = 3 then .retimed
  else if (x.loopback = 1 ∨ x.loopback = 2) ∧ bitAt (env.par.nat (pLaneCfg + l)) 12 then .idle
  else .own

/-- The levels that lane `l`'s receive path works on: what comes at the balls, its own serial output, or its own parallel data. RX_INV turns what comes
through the analogue receiver (Table 12-3, R309; that it does not turn the parallel data is the model's, log entry 171). -/
def Dev.laneIn (d : Dev) (env : Env) (l : Nat) (balls serial data : ℤ → Int) (k : ℤ) : Int :=
  let s : Int := if bitAt (env.par.nat (pLaneCfg + l)) 1 then -1 else 1
  match (d.lane l).takes with
  | .balls => s * balls k
  | .ownSerial => s * serial k
  | .ownData => data k

/-! ### Patterns (R299) -/

/-- A sequence in which each bit is the exclusive-or of earlier ones, `taps` bits back, inverted where `inv`, and not the constant one. -/
def Prbs (order : Nat) (taps : List Nat) (inv : Bool) (bits : ℕ → Bool) : Prop :=
  (∀ n, bits (n + order) = taps.foldl (fun v t => xor v (bits (n + order - t))) inv) ∧ ∃ n, n < order ∧ bits n ≠ inv

/-- Two bits a symbol, the first most significant, Gray-coded. -/
def graySymbols (bits : ℕ → Bool) (n : ℕ) : Int := pam4 (bits (2 * n)) (bits (2 * n + 1))

/-- The symbols of a pattern of Table 12-4, from wherever its generator stands. The polynomials of PRBS13Q and PRBS31Q and the latter's inversion are PRESUMED
(log entry 171). -/
def Pattern (code : Nat) (sym : ℕ → Int) : Prop :=
  match code with
  | 1 => ∃ bits, Prbs 13 [1, 2, 12, 13] false bits ∧ sym = graySymbols bits
  | 2 => ∃ bits, Prbs 31 [28, 31] true bits ∧ sym = graySymbols bits
  | 3 => ∃ k, ∀ n, sym n = Config.ssprbs (n + k)
  | 4 => ∃ bits, Prbs 9 [5, 9] false bits ∧ sym = graySymbols bits
  | 5 => ∃ bits, Prbs 15 [14, 15] false bits ∧ sym = graySymbols bits
  | 6 => ∃ k, ∀ n, sym n = if (n + k) % 32 < 16 then 3 else -3
  | _ => False

/-- INJECT: one bit of one symbol flipped (R301). -/
def OneFlip (was now : ℕ → Bool) : Prop := ∃ n, now n ≠ was n ∧ ∀ m, m ≠ n → now m = was m

/-- What a lane transmits: its generator's pattern in place of its data while one is set (R299). -/
def Lane.Transmits (x : Lane) (data sym : ℕ → Int) : Prop := if x.gen = 0 then sym = data else Pattern x.gen sym

/-! ### The checker (R300) -/

/-- The bits that a level stands for. -/
def pam4Bits (v : Int) : Bool × Bool := if v = -3 then (false, false) else if v = -1 then (false, true) else if v = 1 then (true, true) else (true, false)

/-- The codewords that lane index `l` of port `p` receives, as the rows report them: from the levels of its receive path, RX_INV and loopbacks included
(R298, R309, R312), cut at codeword boundaries, `start` the first of them. -/
def Dev.LaneReceives (d : Dev) (env : Env) (p l : Nat) (balls serial data : ℤ → Int) (start : ℤ) (as : List CwArrival) : Prop :=
  ∀ (i : Nat) (a : CwArrival), as[i]? = some a → CwDecodes ((List.range 2720).flatMap fun j =>
    let b := pam4Bits (d.laneIn env (16 * p + l) balls serial data (start + 2720 * i + j))
    [b.1, b.2]) a.got

/-- The next bit that a checker seeded with the last received bits, newest first, expects. -/
def prbsExpected (taps : List Nat) (inv : Bool) (seen : List Bool) : Bool := taps.foldl (fun v t => xor v (seen.getD (t - 1) false)) inv

/-- The outcome of comparing 1,024 consecutive symbols with what was expected: out of lock, all matching locks; in lock, 256 in error lose it. -/
def checkerLocks (same : List Bool) : Bool := decide (same.length = 1024) && same.all id
def checkerLoses (same : List Bool) : Bool := decide (same.length = 1024) && decide (256 ≤ countTrue (same.map not))

/-- The bits that a locked checker counts, and those of them in error: two a symbol, after Gray decoding, against the pattern or, with
PRBS_INV, against it with every level's sign turned, as a lane of the wrong polarity gives it (log entry 171). -/
def Lane.checked (x : Lane) (expected got : List (Bool × Bool)) : Nat × Nat :=
  if !x.chkLock then (0, 0)
  else
    let want := if x.chkInv then expected.map fun e => (!e.1, e.2) else expected
    (2 * got.length, sumBy (fun p => b2n (xor p.1.1 p.2.1) + b2n (xor p.1.2 p.2.2)) (want.zip got))

/-! ### The PCS of an Ethernet port (R286) -/

/-- What a PCS carries: a MAC frame with its preamble and whether it holds an error control character, an ordered set, or idle. -/
inductive PcsItem where
  | frame (bytes : List Byte) (err : Bool)
  | localFault
  | remoteFault
  | idle
  deriving DecidableEq, Repr

/-- What a PCS finds in the levels of its lanes over 1 ms: every lane aligned, codewords corrected and uncorrectable, and what they carry. -/
structure PcsFound where
  locked : Bool
  corr : Nat
  uncorr : Nat
  items : List PcsItem
  deriving DecidableEq, Repr, Inhabited

/-- The receive side of the PCS of a port type: lane distribution, alignment markers, RS(544,514) and transcoding as IEEE 802.3 has them for it, over the levels of
its lanes; the spec names them and gives no form (R286): not constrained (log entry 171). -/
opaque Config.pcsReceive (type : Nat) (lanes : List (List Int)) : PcsFound

/-- Its transmit side: the levels of every lane for what is sent. -/
opaque Config.pcsSend (type : Nat) (items : List PcsItem) : List (List Int)

/-- What port `p` finds in a 1 ms window of the levels of its lanes, each from its own receive path. -/
def Dev.portFinds (d : Dev) (env : Env) (p : Nat) (balls serial data : Nat → ℤ → Int) (start : ℤ) (len : Nat) : PcsFound :=
  Config.pcsReceive (d.ethAt p).type ((d.ethAt p).lanes.map fun l => (List.range len).map fun j => d.laneIn env l (balls l) (serial l) (data l) (start + j))

/-- The rows report what the PCS finds: ETH_PORT_STATE_CHANGE its outcome, ETH_FRAME_RX each frame less its preamble (R286, R288). -/
def PcsReported (f : PcsFound) (locked : Bool) (corr uncorr : Nat) (frames : List (List Byte × Bool)) : Prop :=
  f.locked = locked ∧ f.corr = corr ∧ f.uncorr = uncorr ∧ frames = f.items.filterMap fun i => match i with
    | .frame bytes err => some (bytes.drop 8, err)
    | _ => none

/-- What port `p` sends its client: ordered sets while a fault holds, else the frames sent, each with a preamble (R291). -/
def Dev.portItems (d : Dev) (p : Nat) (frames : List (List Byte)) : List PcsItem :=
  match d.txFault p with
  | 0 => frames.map fun f => .frame f false
  | 1 => [.localFault]
  | _ => [.remoteFault]

/-- The levels of the port's lane `l`, by its PCS, or its generator's pattern in their place (R286, R299). -/
def Dev.PortSends (d : Dev) (p : Nat) (frames : List (List Byte)) (sym : Nat → ℕ → Int) : Prop :=
  ∀ i l, (d.ethAt p).lanes[i]? = some l →
    (d.lane l).Transmits (fun k => ((Config.pcsSend (d.ethAt p).type (d.portItems p frames)).getD i []).getD k 0) (sym l)

/-! ### References (R292, R293) -/

/-- The nominal frequency of a STITCH quad's reference, in MHz, by the P_SREF_FREQ in force. -/
noncomputable def srefNominal (sel : Nat) : ℝ := if sel = 0 then 100 else 156.25

/-- The loss of SREFn that SREF_LOSS reports: at time `t` in µs no edge has come for 1 µs, or the frequency lies more than 0.5 % from its nominal (R293). -/
def Dev.SrefFails (d : Dev) (p : Nat) (edge : ℝ → Prop) (freq : ℝ → ℝ) (t : ℝ) : Prop :=
  (∀ u, t - 1 < u → u ≤ t → ¬ edge u) ∨ |freq t - srefNominal (d.stitch p).srefFreq| > srefNominal (d.stitch p).srefFreq / 200

/-- The signalling rate of a lane of quad `q`, in GBd: an ETH quad follows the timing DPLL, or XOIN while its domain is OFF; a STITCH quad follows SREFn in
the ratio of the port's rate to the nominal. `core` and `xoin` are offsets in ppm from the XOIN nominal, `sref` a frequency in MHz. -/
noncomputable def Dev.laneRate (d : Dev) (q : Nat) (core xoin sref : ℝ → ℝ) (t : ℝ) : ℝ :=
  match d.quadMode q with
  | 1 => synthesised 106.25 (if d.domOn domDpll then core else xoin) t
  | 2 => (d.stitch (q / 4)).baud / 100 * (sref t / srefNominal (d.stitch (q / 4)).srefFreq)
  | _ => 0

end Sys2Proof.Machine
end

