-- ==== Sys2Proof/Machine/Latency.lean ====
section
/-! DEFINITION. Machine/Latency.lean: the order of the stages that traffic passes and the latency figures of chapter 1, as data and as functions of the state
(R23, R34 to R38, R93, R121, R145). -/

namespace Sys2Proof.Machine

/-- A latency in units of 0.1 ns: typical and maximum. -/
structure Latency where
  typ : Nat
  max : Nat
  deriving DecidableEq, Repr

def Latency.add (a b : Latency) : Latency := ⟨a.typ + b.typ, a.max + b.max⟩
def Latency.sum (l : List Latency) : Latency := l.foldl Latency.add ⟨0, 0⟩

/-- The stages from a client lane to CPn in their order (Table 1-3, Table 1-8): none is ever skipped or moved. -/
inductive TxStage where
  | ethRx | stitchRx | assembly | dram | seamIo | encryption | slots | fec | mapping | seamCv
  deriving DecidableEq, Repr

/-- The stages from CPn to a client lane in their order (Table 1-4, Table 1-9). -/
inductive RxStage where
  | adc | cd | mimo | fec | deframing | authHold | seamIo | alignment | ethTx | stitchTx
  deriving DecidableEq, Repr

/-- The transmit path of an Ethernet or a Stitch channel (R23): a buffered bundle is written to its DRAM buffer and read from it after the assembly. -/
def txPath (eth buffered : Bool) : List TxStage :=
  (if eth then .ethRx else .stitchRx) :: .assembly :: (if buffered then [.dram] else []) ++ [.seamIo, .encryption, .slots, .fec, .mapping, .seamCv]

/-- The receive path; only encrypted channels are held for authentication (R17, R35), only protected ones aligned and selected. -/
def rxPath (eth encrypted prot : Bool) : List RxStage :=
  [.adc, .cd, .mimo, .fec, .deframing] ++ (if encrypted then [.authHold] else []) ++ [.seamIo] ++ (if prot then [.alignment] else [])
    ++ [if eth then .ethTx else .stitchTx]

/-- Table 1-8; the DRAM residence of a buffered bundle is at least 0.8 µs and typically 1.2 µs, and no maximum is given (R36): the entry holds the typical
figure twice. -/
def TxStage.latency : TxStage → Latency
  | .ethRx => ⟨4200, 5500⟩
  | .stitchRx => ⟨1600, 2200⟩
  | .assembly => ⟨800, 1200⟩
  | .dram => ⟨12000, 12000⟩
  | .seamIo => ⟨300, 400⟩
  | .encryption => ⟨400, 500⟩
  | .slots => ⟨1200, 2300⟩
  | .fec => ⟨3600, 3800⟩
  | .mapping => ⟨2200, 2600⟩
  | .seamCv => ⟨400, 500⟩

/-- The decoding of a carrier's profile: with N iterations on a native one, 0.12 µs less in the short latency mode (Table 1-9, R191); the agreement's decoder on
an interop one (Table 8-6, R200). -/
def fecLatency (profile n latmode : Nat) : Latency :=
  if profile = 1 then ⟨31000, 33000⟩
  else if profile = 2 then ⟨24000, 26000⟩
  else if latmode = 1 then ⟨5000 + 600 * n - 1200, 6000 + 600 * n - 1200⟩
  else ⟨5000 + 600 * n, 6000 + 600 * n⟩

/-- Table 1-9, with H lasts held and the carrier's decoding; alignment and selection add 2.0 µs (R36). -/
def RxStage.latency (h : Nat) (dec : Latency) : RxStage → Latency
  | .adc => ⟨400, 500⟩
  | .cd => ⟨1000 + 175 * h, 1100 + 175 * h⟩
  | .mimo => ⟨2800, 3200⟩
  | .fec => dec
  | .deframing => ⟨1400, 2500⟩
  | .authHold => ⟨135168, 135600⟩
  | .seamIo => ⟨300, 400⟩
  | .alignment => ⟨20000, 20000⟩
  | .ethTx => ⟨3000, 4000⟩
  | .stitchTx => ⟨1200, 1600⟩

/-- The transmit latency of a cut-through channel (R34). -/
def txLatency (eth : Bool) : Latency := Latency.sum ((txPath eth false).map TxStage.latency)

/-- The receive latency of a cut-through, unprotected channel (R35). -/
def rxLatency (eth encrypted : Bool) (h : Nat) (dec : Latency) : Latency := Latency.sum ((rxPath eth encrypted false).map (RxStage.latency h dec))

/-- The profile of carrier `n`'s receive direction. -/
def Dev.rxProfile (d : Dev) (n : Nat) : Nat := ((d.rx n).op.map (·.profile)).getD 0

/-- The receive latency of carrier `n` now: the lasts it holds, its decoder, the iterations and the latency mode in force. -/
def Dev.rxLatency (d : Dev) (n : Nat) (eth encrypted : Bool) : Latency := 
  Machine.rxLatency eth encrypted (d.heldLasts n) (fecLatency (d.rxProfile n) (d.fec n).iter (d.fec n).latmode)

/-- What a buffered bundle adds: its DRAM residence, at least 0.8 µs and 1.2 µs typically (R36). -/
def bufferedTyp : Nat := 12000
def bufferedMin : Nat := 8000

/-- A protected channel: the later leg and 2.0 µs for alignment and selection (R36). -/
def protectedLatency (work prot : Nat) : Nat := Nat.max work prot + 20000

/-! ### The stages inside the line datapath -/

/-- Table 4-1: every stage is always present (R93). -/
inductive LineTxStage where
  | mapping | pilots | nlPre | cdAndShaping | breeze | iqAndBalance | preEmphasis | skew | quantise | dac
  deriving DecidableEq, Repr

/-- How a change of a stage reaches the output (Tables 4-1, 5-1, 6-1). -/
inductive Change where
  | carrierSet | crossFade | breezeRamp | frameSteps | atOnce | setSwitch | continuous | every64Symbols | everySymbol | none
  deriving DecidableEq, Repr

def LineTxStage.change : LineTxStage → Change
  | .mapping => .carrierSet
  | .pilots => .carrierSet
  | .nlPre => .crossFade
  | .cdAndShaping => .crossFade
  | .breeze => .breezeRamp
  | .iqAndBalance => .frameSteps
  | .preEmphasis => .crossFade
  | .skew => .frameSteps
  | .quantise => .atOnce
  | .dac => .atOnce

def lineTxPath : List LineTxStage := [.mapping, .pilots, .nlPre, .cdAndShaping, .breeze, .iqAndBalance, .preEmphasis, .skew, .quantise, .dac]

/-- Tables 5-1 and 6-1 (R121, R145). -/
inductive LineRxStage where
  | adc | seamCv | level | deskew | cd | cdTrim | interpolator | equaliser | derotation | phase | nlComp | quality
  deriving DecidableEq, Repr

def LineRxStage.change : LineRxStage → Change
  | .adc => .atOnce
  | .seamCv => .none
  | .level => .atOnce
  | .deskew => .frameSteps
  | .cd => .setSwitch
  | .cdTrim => .crossFade
  | .interpolator => .continuous
  | .equaliser => .every64Symbols
  | .derotation => .continuous
  | .phase => .everySymbol
  | .nlComp => .crossFade
  | .quality => .none

def lineRxPath : List LineRxStage :=
  [.adc, .seamCv, .level, .deskew, .cd, .cdTrim, .interpolator, .equaliser, .derotation, .phase, .nlComp, .quality]

/-- The equaliser (R147): each of four output lanes is the sum of the four input lanes through real taps, `tap out inp i`; lane samples are at
half-symbol spacing, newest first. -/
def mimoOut (taps : Nat) (tap : Nat → Nat → Nat → Int) (lane : Nat → Nat → Int) (out : Nat) : Int :=
  ([0, 1, 2, 3] : List Nat).foldl (fun acc inp => (List.range taps).foldl (fun a i => a + tap out inp i * lane inp i) acc) 0

/-- The step of a tap update in units of 2⁻¹⁶: 16 × μ in pre-convergence, μ afterwards (R147). -/
def Dev.mimoStep (d : Dev) (env : Env) (n : Nat) : Nat :=
  (if (d.rx n).acq = .preconverge then 16 else 1) * env.par.nat (pRxMimoMu + n)

/-! ### Power budget (R37, R38) -/

/-- Table 1-7 in watts: typical and maximum. -/
def powerBudget : List (Nat × Nat) := [(76, 90), (34, 44), (36, 42), (10, 12), (18, 38), (2, 3), (22, 27), (12, 16), (4, 5), (21, 33)]

/-- Input power of the full configuration, and what leaves through the lid at most. -/
def inputPowerTyp : Nat := sumBy (·.1) powerBudget
def inputPowerMax : Nat := sumBy (·.2) powerBudget
def lidTdp : Nat := 300

end Sys2Proof.Machine
end

