-- ==== Sys2Proof/Machine/LineFrame.lean ====
section
/-! DEFINITION. Machine/LineFrame.lean: the line frame as bytes: what a transmitter sends in every frame, and what a receiver reads in it (R205 to R218, R225,
R230, R247, R339). The bytes are not state: they follow from the state and from the client's. -/

namespace Sys2Proof.Machine

/-- Frame number of the frame that a transmitter sends now, counted since its framer started; within its multiframe it is `f % 128` (R205). -/
def Frm.txFrame (f : Frm) (now : Nat) : Nat := framesIn (now - f.txStart)

/-- Is frame `t` of the count a tag frame (R205)? -/
def tagFrame (t : Nat) : Bool := decide (t % 128 < 4)

/-! ### What a channel sends (R216, R218, R225, R326, R339) -/

/-- The client bytes of a multiframe on channel `ch`: what `data` brings, in frame order; all ones once a disable's drain has ended (R225, R247). -/
def Dev.chanText (d : Dev) (ch : Nat) (data : Nat → List Byte) : List Byte :=
  if (d.bundleOf ch).any fun kv => decide (kv.2.st = .closing) then List.replicate mfBytes 0xFF else padTo mfBytes (data (d.bridgedFrom ch))

/-- What a slot sends in one multiframe: its payload, the tag of it (sent in the next), STAT, ENC, KP, MFC. -/
structure SlotSend where
  payload : List Byte
  tag : List Byte
  stat : Nat
  enc : Bool
  kp : Nat
  mfc : Nat
  deriving DecidableEq, Repr

/-- The rows of R218 for slot `s`. -/
def slotSend (s : Nat) (text : List Byte) : ChanCond → SlotSend
  | .off => ⟨List.replicate mfBytes 0xFF, List.replicate 12 0, 2, false, 0, 0⟩
  | .stopped => ⟨List.replicate mfBytes 0, List.replicate 12 0, 1, false, 0, 0⟩
  | .plain => ⟨text, List.replicate 12 0, 0, false, 0, 0⟩
  | .keyed kp k => ⟨(lineSeal k k.mfc s text).1, (lineSeal k k.mfc s text).2, 0, true, kp, k.mfc⟩

/-- What channel `ch` sends in the multiframe of this state. -/
def Dev.chanSends (d : Dev) (ch : Nat) (data : Nat → List Byte) : SlotSend := slotSend (ch % 128) (d.chanText ch data) (d.chanCond ch)

/-- KEYB: KP in bit 1, ENC in bit 2 (Table 9-5). -/
def keyByte (enc : Bool) (kp : Nat) : Byte := BitVec.ofNat 8 (128 * (kp % 2) + 64 * b2n enc)

/-- The 62 bytes of a channel's multiframe channel (Table 9-5); `bnd`: enabled, its bundle and its index there. -/
def mfChannel (x : SlotSend) (bnd : Bool × Nat × Nat) : List Byte :=
  beBytes 8 (if x.enc then x.mfc else 0) ++ List.replicate 3 (keyByte x.enc x.kp)
    ++ [BitVec.ofNat 8 (128 * b2n bnd.1 + bnd.2.1 % 128), BitVec.ofNat 8 bnd.2.2] ++ List.replicate 49 0

/-- BND and BIDX of channel `ch` as the local bundle map has them. -/
def Dev.bndOf (d : Dev) (ch : Nat) : Bool × Nat × Nat :=
  match d.bundleOf ch with
  | some kv => (decide (kv.2.st ≠ .disabled ∧ kv.2.st ≠ .enabling), kv.1, ch - chanNo kv.2.carrier kv.2.first)
  | none => (false, 0, 0)

/-- A leg's signature of a multiframe: CRC-32 of IEEE 802.3 over the bundle's plaintext payload, frame 0 first and, within a frame, channel 0 first; `texts` are its
channels' multiframes after decryption. One under a consequent action has none (R249). -/
def legSignature (texts : List (List Byte)) (ca : Bool) : Option (BitVec 32) :=
  if ca then none else some (BitVec.ofNat 32 (CvConfig.crc32.value ((List.range 128).flatMap fun f => texts.flatMap fun t => (t.drop (320 * f)).take 320)))

/-! ### Frames (R205 to R208, R211 to R216) -/

/-- What a framer has to place, by frame number since its start (slots, section fields, path fields, payload of slot `s`) and by multiframe (trail trace, the tag
sent in it, the multiframe channel). -/
structure LineSource where
  slots : Nat → Nat
  payload : Nat → Nat → List Byte
  sbei : Nat → Nat
  sbdi : Nat → Bool
  rs : Nat → RsFields
  bei : Nat → Nat → Nat
  bdi : Nat → Nat → Bool
  stat : Nat → Nat → Nat
  tti : Nat → List Byte
  tag : Nat → Nat → List Byte
  mfChan : Nat → Nat → List Byte

def fawSent : List Byte := fawBytes.map (BitVec.ofNat 8)

/-- Bits of a byte, most significant first (R8), and back. -/
def byteBits (b : Byte) : List Bool := natBits 8 b.toNat
def bitsByte (bs : List Bool) : Byte := BitVec.ofNat 8 (bitsNat bs)

/-- Bytes from byte 16 on, XORed with the generator that is loaded with all ones there; the same step takes the scrambling off (R208). -/
def scrambled (bs : List Byte) : List Byte :=
  let out := scrambleBits (8 * bs.length) 0x1FFFF
  bs.zipIdx.map fun b => bitsByte ((byteBits b.1).zipWith xor ((out.drop (8 * b.2)).take 8))

/-- A frame with everything after the FAW scrambled, or descrambled (R207, R208). -/
def overFaw (bs : List Byte) : List Byte := bs.take 16 ++ scrambled (bs.drop 16)

/-- BIP-8 over bytes (R212). -/
def bipOf (bs : List Byte) : Nat := bip8 (bs.map BitVec.toNat)

/-- The coverage of a BIP in frame `t`, of what stands for the frames sent before it, newest first: the one before, and for frame 4 the tag frames and frame 127 of
the multiframe before, if there was one (R212). -/
def bipCovers {α : Type} (t : Nat) (before : List α) : List α := if t % 128 = 4 then before.take (if t < 128 then 4 else 5) else before.take 1

/-- The 16 bytes of the section overhead (Table 9-3). -/
def sohBytes (src : LineSource) (t sbip : Nat) : List Byte :=
  let f := t % 128
  [BitVec.ofNat 8 f, BitVec.ofNat 8 sbip, BitVec.ofNat 8 (min 255 (src.sbei t)), BitVec.ofNat 8 (128 * b2n (src.sbdi t))] ++ rsBytes (src.rs t) ++ [0]
    ++ padTo 2 (((src.tti (t / 128)).drop (2 * (f - 4))).take (if f < 36 then 2 else 0)) ++ List.replicate 4 0

/-- POH1 and POH2 of slot `s` (R215). -/
def pohBytes (src : LineSource) (t s : Nat) : List Byte :=
  let poh1 := bipOf ((bipCovers t ((List.range (min t 5)).map fun k => t - 1 - k)).flatMap fun k => src.payload k s)
  let f := t % 128
  [BitVec.ofNat 8 poh1, if f % 2 = 0 then BitVec.ofNat 8 (pathStatus (src.bei t s) (src.bdi t s) (src.stat t s))
    else (src.mfChan (t / 128) s).getD ((f - 5) / 2) 0]

/-- Frame `t` by the byte map, before scrambling; `before` are the frames sent before it as sent, newest first (Table 9-1). Reserved bytes are zero. -/
def framePlain (src : LineSource) (t : Nat) (before : List (List Byte)) : List Byte :=
  let n := src.slots t
  let pay := (List.range n).flatMap fun s => padTo 320 (src.payload t s)
  if tagFrame t then
    fawSent ++ ((List.range n).flatMap fun s => padTo 3 ((src.tag (t / 128) s).drop (3 * (t % 128)))) ++ List.replicate (4 * n - (16 + 3 * n)) 0 ++ pay
  else
    fawSent ++ sohBytes src t (bipOf ((bipCovers t before).flatMap fun b => b.drop 16)) ++ ((List.range n).flatMap fun s => pohBytes src t s)
      ++ List.replicate (4 * n - (32 + 2 * n)) 0 ++ pay

/-- The first `t` frames as sent, newest first. -/
def framesSent (src : LineSource) : Nat → List (List Byte)
  | 0 => []
  | t + 1 => overFaw (framePlain src t (framesSent src t)) :: framesSent src t

/-- The framed stream: frames back to back, each byte most significant bit first (R8, R184). A frame has at least 41,472 bits. -/
def framedBit (src : LineSource) (x : Nat) : Bool :=
  ((framesSent src (x / 41472 + 1)).reverse.flatMap fun b => b.flatMap byteBits).getD x false

/-! ### Parity as received (R206, R212, R215) -/

/-- Parts of a received frame of `n` slots, descrambled. Reserved bytes are looked at by none of them (R206). -/
def rxSoh (b : List Byte) (i : Nat) : Nat := (b.getD (16 + i) 0).toNat
def rxTagPart (b : List Byte) (s : Nat) : List Byte := (b.drop (tagOffset s)).take 3
def rxPoh (b : List Byte) (s i : Nat) : Nat := (b.getD (pohOffset s + i) 0).toNat
def rxPayload (b : List Byte) (n s : Nat) : List Byte := (b.drop (payloadOffset n s)).take 320

/-- Bit positions in violation: received parity against that of what it covers (R212, R215). -/
def bipViolations (covered : List Byte) (got : Nat) : Nat := countTrue ((List.range 8).map fun k => bitAt (bipOf covered ^^^ got) k)

/-- Violations that the SBIP of frame `t` shows; `before` are the frames before it as received, newest first (R212). -/
def sbipViolations (t : Nat) (before : List (List Byte)) (b : List Byte) : Nat :=
  bipViolations ((bipCovers t before).flatMap fun x => x.drop 16) (rxSoh (overFaw b) 1)

/-- Violations that POH1 of slot `s` shows; `before` are the payloads of the slot in the frames before, newest first (R215). -/
def pbipViolations (t : Nat) (before : List (List Byte)) (b : List Byte) (s : Nat) : Nat := bipViolations ((bipCovers t before).flatMap id) (rxPoh (overFaw b) s 0)

/-- The SBEI that is sent for the violations counted since the last one, and the BEI of a status byte: saturated, and what is lost to that is not carried forward
(R212, R215). -/
def sbeiFor (violations : Nat) : Nat := min 255 violations
def beiFor (violations : Nat) : Nat := min 31 violations

/-- Violations that POH1 of slot `s` shows in a frame of `n` slots, frames as received (R215). -/
def slotViolations (s n t : Nat) (before : List (List Byte)) (b : List Byte) : Nat := pbipViolations t (before.map fun x => rxPayload (overFaw x) n s) b s

/-- The SBEI of a received overhead frame, and the BEI of a received status byte (R212, R215). -/
def rxSbei (_ : Nat) (_ : List (List Byte)) (b : List Byte) : Nat := rxSoh (overFaw b) 2
def rxBei (s t : Nat) (_ : List (List Byte)) (b : List Byte) : Nat := if t % 2 = 0 then rxPoh (overFaw b) s 1 / 8 else 0

/-- What the newest `k` frames of a run add up to: overhead frames alone carry parity. A frame has its number, the frames before it, newest first, and its
bytes. -/
def runSum (f : Nat → List (List Byte) → List Byte → Nat) : Nat → List (Nat × List Byte) → Nat
  | 0, _ => 0
  | _, [] => 0
  | k + 1, x :: l => (if tagFrame x.1 then 0 else f x.1 (l.map (·.2)) x.2) + runSum f k l

/-! ### What a transmitter has to place -/

/-- The receiver's frames by the transmit frame at which they have come, newest first, each with its number: those of this carrier, IN_FRAME. -/
abbrev Received := Nat → List (Nat × List Byte)

/-- The overhead frame before overhead frame `t`, and the status byte's before that of `t`: what stands in the frame before that is sent already (R212, R215). -/
def prevSbei (t : Nat) : Nat := if t % 128 = 4 then t - 5 else t - 1
def prevStatus (t : Nat) : Nat := if t % 128 = 4 then t - 6 else t - 2

/-- How many frames have come between two transmit frames. -/
def Received.since (rx : Received) (t0 t : Nat) : Nat := (rx t).length - (rx t0).length

/-- Does `src` send in multiframe `m` what this state says carrier `n` sends? `data` brings the client's bytes of each channel (R211 to R220, R225, R247). The BEI and
SBEI counts are of what the receiver has found in `rx` since they were last sent (R212, R215). -/
def Dev.Sources (d : Dev) (env : Env) (n m : Nat) (data : Nat → List Byte) (rx : Received) (src : LineSource) : Prop :=
  (∀ f : Nat, f < 128 → src.slots (128 * m + f) = d.txSlots n ∧ src.sbdi (128 * m + f) = d.sbdiTx env n ∧ src.rs (128 * m + f) = d.rsSent n env.now) ∧
  (∀ f : Nat, 4 ≤ f → f < 128 → let t := 128 * m + f
    src.sbei t = sbeiFor (runSum sbipViolations (rx.since (prevSbei t) t) (rx t))) ∧
  (∀ f : Nat, 4 ≤ f → f < 128 → f % 2 = 0 → let t := 128 * m + f
    ∀ s : Nat, s < d.txSlots n → src.bei t s = beiFor (runSum (slotViolations s (d.rxSlots n)) (rx.since (prevStatus t) t) (rx t))) ∧
  src.tti m = (d.frm n).ttiTx ∧
  ∀ s : Nat, s < d.txSlots n → let x := d.chanSends (chanNo n s) data
    src.tag (m + 1) s = x.tag ∧ src.mfChan m s = mfChannel x (d.bndOf (chanNo n s)) ∧
    ∀ f : Nat, f < 128 → src.payload (128 * m + f) s = (x.payload.drop (320 * f)).take 320 ∧ src.stat (128 * m + f) s = x.stat ∧
      src.bdi (128 * m + f) s = d.bdiTx env (chanNo n s)

/-! ### The receiver (R206, R207, R210 to R216) -/

/-- The trail trace of a received multiframe: bytes 2k and 2k + 1 in overhead frame 4 + k (R213); `fs` are its 128 frames, descrambled. -/
def rxTti (fs : List (List Byte)) : List Byte := (List.range 32).flatMap fun k => ((fs.getD (4 + k) []).drop 26).take 2

/-- STAT of a received status byte: the reserved value counts as AIS (Table 9-4). -/
def rxStat (b : Nat) : Nat := if b % 4 = 3 then 1 else b % 4

/-- Byte `i` of a slot's multiframe channel, in overhead frame 5 + 2i (R215). -/
def rxMfChan (fs : List (List Byte)) (s i : Nat) : Nat := rxPoh (fs.getD (5 + 2 * i) []) s 1

/-- KP and ENC by a 2-of-3 vote (R215). -/
def rxKp (fs : List (List Byte)) (s : Nat) : Bool := vote3 (bitAt (rxMfChan fs s 8) 7) (bitAt (rxMfChan fs s 9) 7) (bitAt (rxMfChan fs s 10) 7)
def rxEnc (fs : List (List Byte)) (s : Nat) : Bool := vote3 (bitAt (rxMfChan fs s 8) 6) (bitAt (rxMfChan fs s 9) 6) (bitAt (rxMfChan fs s 10) 6)
def rxMfc (fs : List (List Byte)) (s : Nat) : Nat := (List.range 8).foldl (fun v i => 256 * v + rxMfChan fs s i) 0

/-- What the parity counters of carrier `n` have counted where the newest `k` frames of `fs` came since the last look (R212, R215): the free values that
Dev.parityRuns draws stand for these sums. -/
def Dev.ParityFrom (d : Dev) (n k : Nat) (fs : List (Nat × List Byte)) : Prop :=
  let section_ := d.parityRuns n (sectionParity n)
  section_.counter (ckey 4 n) = (d.counter (ckey 4 n) + runSum sbipViolations k fs) % 2 ^ 48 ∧
  section_.counter (ckey 4 (4 + n)) = (d.counter (ckey 4 (4 + n)) + runSum rxSbei k fs) % 2 ^ 48 ∧
  ∀ s : Nat, s < d.rxSlots n → let ch := chanNo n s
    let path := d.parityRuns n (pathParity ch)
    path.counter (ckey 4 (512 + ch)) = (d.counter (ckey 4 (512 + ch)) + runSum (slotViolations s (d.rxSlots n)) k fs) % 2 ^ 48 ∧
    path.counter (ckey 4 (1024 + ch)) = (d.counter (ckey 4 (1024 + ch)) + runSum (rxBei s) k fs) % 2 ^ 48

/-- The report of slot `s` for a multiframe: its 128 frames of `n` slots, and the four tag frames of the next one (R215, R216, R339). -/
def mfReportOf (n s : Nat) (fs next : List (List Byte)) : MfReport where
  enc := rxEnc fs s
  kp := if rxKp fs s then 1 else 0
  mfc := BitVec.ofNat 64 (rxMfc fs s)
  text := fs.flatMap fun b => rxPayload b n s
  tag := (next.take 4).flatMap fun b => rxTagPart b s

end Sys2Proof.Machine
end

