-- ==== Sys2Proof/Machine/RxSignal.lean ====
section
/-! DEFINITION. Machine/RxSignal.lean: what each stage of the receive path does to the signal (R121, R127, R128, R145, R147, R150 to R155), as relations between
what enters a stage and what leaves it. Samples are not state: the relations say what a receiver whose state is given makes of them. -/

namespace Sys2Proof

/-- Weights of the Gardner and of the pilot error in the timing detector, gains of the frequency loop (proportional, integral), and the regularisation of the
nonlinear fit: the spec gives none of them (R150, R151, R156). -/
opaque Config.timingWeights : ℚ × ℚ
opaque Config.freqGains : ℚ × ℚ
opaque Config.fitRegular : ℚ

/-- What pilot synchronisation and phase recovery make of an interop profile's symbols: they use the agreement's own pilots and training (R167). -/
opaque Config.InteropRecovers : Nat → (Fin 2 → ℤ → ℂ) → (Fin 2 → ℤ → ℂ) → Prop

end Sys2Proof

namespace Sys2Proof.Machine

/-! ### Deskew and dispersion (R127, R128) -/

/-- The lanes RXI, RXQ, RYI, RYQ deskewed: RXQ, RYI and RYQ delayed relative to RXI by what their walks have reached, in 0.1 ps (R127). -/
def StageDeskew (v : Nat → Int) (fs : ℝ) (inp out : Fin 4 → ℤ → ℝ) : Prop := StageSkew v fs inp out

/-- Four lanes as a stream of two polarisations. -/
def lanesJoined (l : Fin 4 → ℤ → ℝ) (out : Dual) : Prop := ∀ (p : Fin 2) (m : ℤ), out p m = (l (if p = 0 then 0 else 2) m : ℂ) + (l (if p = 0 then 1 else 3) m : ℂ) * Complex.I

/-- The all-pass filter for a dispersion of `d` ps/nm at sample rate `fs`: its response is G(f) over the sampled band (R128). -/
def CdFilter (d fs : ℝ) (h : ℤ → ℂ) : Prop :=
  ∃ g : ℝ → ℂ, (∀ f, CdResponse d f (g f)) ∧
    ∀ m : ℤ, h m * fs = ∫ f in (-(fs / 2))..(fs / 2), g f * Complex.exp (Complex.I * (2 * Real.pi * f * m / fs : ℝ))

def StageFilter (h : ℤ → ℂ) (inp out : Dual) : Prop := ∀ p m, out p m = ∑' k : ℤ, inp p k * h (m - k)

/-- Stages 5 and 6: D_L held in the active lasts, then the trim D_T, a filter of its own; a move of the trim cross-fades from the old one over 128 line frames
(R121, R128, R140). -/
def StageCd (r : Rx) (now : Nat) (fs : ℝ) (inp out : Dual) : Prop :=
  ∃ (hl h0 h1 : ℤ → ℂ) (mid : Dual), CdFilter r.dL fs hl ∧ CdFilter r.dTWas fs h0 ∧ CdFilter r.dT fs h1 ∧ StageFilter hl inp mid ∧
    StageFilter (fun k => blend (fadeWeight (framesIn (now - r.dTSince)) 128) (h0 k) (h1 k)) mid out

/-! ### The CD search (R138) -/

/-- The strength of the symbol-clock tone in a captured block of 65,536 samples per polarisation: the power at Rs in the samples' squared magnitudes (log entry
178). -/
def ToneStrength (rs fs : ℝ) (x : Dual) (s : ℝ) : Prop :=
  s = ‖∑ m ∈ Finset.range 65536, (∑ p : Fin 2, (‖x p m‖ ^ 2 : ℂ)) * Complex.exp (-(Complex.I * (2 * Real.pi * rs * m / fs : ℝ)))‖ ^ 2

/-- The strength that a trial compensation of `d` ps/nm gives the block. -/
def TrialStrength (p : OpPoint) (block : Dual) (d s : ℝ) : Prop :=
  ∃ (h : ℤ → ℂ) (x : Dual), CdFilter d (p.fs : ℝ) h ∧ StageFilter h block x ∧ ToneStrength (p.rs : ℝ) (p.fs : ℝ) x s

/-- What a search measures on the block it has captured, in whole units of `unit`: the strength at every trial value of the window, and at 21 points a tenth of the
step apart around each chosen maximum (R138 steps 2 and 3). -/
def Rx.SearchMeasures (r : Rx) (p : OpPoint) (block : Dual) (unit : ℝ) (f : SearchReport) : Prop :=
  0 < unit ∧ f.coarse.length = r.points ∧
  (∀ i : ℕ, i < r.points → ∃ s : ℝ, TrialStrength p block (r.lo + i * r.step) s ∧ f.coarse.getD i 0 = ⌊s / unit⌋₊) ∧
  ∀ (j i k : ℕ), (searchPeaks f r.points)[j]? = some i → k < 21 →
    ∃ s : ℝ, TrialStrength p block (r.lo + i * r.step + ((k : ℝ) - 10) * r.step / 10) s ∧ (f.fine.getD j []).getD k 0 = ⌊s / unit⌋₊

/-! ### Timing (R150) -/

/-- The timing interpolator: two samples per symbol at the far end's clock, whose instants the loop gives in samples (R145 stage 1); its kernel, which the spec does
not give, is the ideal one of a band-limited stream (log entry 178). -/
def StageTiming (instant : ℤ → ℝ) (inp out : Dual) : Prop :=
  ∀ p j, out p j = ∑' k : ℤ, inp p k * (Real.sinc (Real.pi * (instant j - k)) : ℂ)

/-- The Gardner error on the data at a symbol of the half-symbol stream `y`: Re[(y(2k) − y(2k−2))·y*(2k−1)], over both polarisations. -/
def gardner (y : Dual) (k : ℤ) : ℝ :=
  ((y 0 (2 * k) - y 0 (2 * k - 2)) * star (y 0 (2 * k - 1))).re + ((y 1 (2 * k) - y 1 (2 * k - 2)) * star (y 1 (2 * k - 1))).re

/-- The known-sequence error at a pilot: early against late correlation with the pilot's value. -/
def pilotTiming (y : Dual) (k : ℤ) (ref : Fin 2 → ℂ) : ℝ :=
  ((y 0 (2 * k + 1) - y 0 (2 * k - 1)) * star (ref 0)).re + ((y 1 (2 * k + 1) - y 1 (2 * k - 1)) * star (ref 1)).re

/-- The detector's error at a symbol of the equaliser's half-symbol stream: the Gardner error on data, the known-sequence error on pilots (R150). -/
def TimingError (y : Dual) (pos : Nat) (ref : ℤ → Fin 2 → ℂ) (k : ℤ) (e : ℝ) : Prop :=
  e = if (k - pos) % 32 = 0 then ((Config.timingWeights.2 : ℚ) : ℝ) * pilotTiming y k (ref ((k - pos) / 32))
    else ((Config.timingWeights.1 : ℚ) : ℝ) * gardner y k

/-- The second-order loop with damping 0.7 and a −3 dB bandwidth of `bw` Hz, updated every `T` seconds: proportional gain 2ζ·ωT, integral gain (ωT)² (R149,
R150). -/
def TimingLoop (bw T : ℝ) (e integ phase : ℕ → ℝ) : Prop :=
  ∃ w : ℝ, 0 < w ∧ (2 * Real.pi * bw) ^ 2 = w ^ 2 * (1 + 2 * (7 / 10) ^ 2 + Real.sqrt ((1 + 2 * (7 / 10) ^ 2) ^ 2 + 1)) ∧
    (∀ k, integ (k + 1) = integ k + (w * T) ^ 2 * e k) ∧ ∀ k, phase (k + 1) = phase k + integ k + 2 * (7 / 10) * (w * T) * e k

/-- The loop of a carrier, updated once a symbol from the equaliser's half-symbol stream `y`, and the instants it gives the interpolator, two a symbol, in samples;
`integ` and `phase` are in symbols (R145, R150). -/
def Dev.Timing (d : Dev) (env : Env) (n : Nat) (p : OpPoint) (ref : ℤ → Fin 2 → ℂ) (y : Dual) (integ : ℕ → ℝ) (instant : ℤ → ℝ) : Prop :=
  ∃ e phase : ℕ → ℝ, TimingLoop (1000 * env.par.nat (pRxTrBw + n)) (1 / (p.rs : ℝ)) e integ phase ∧
    (∀ k : ℕ, TimingError y (d.rx n).pilotPos ref k (e k)) ∧
    ∀ (k : ℕ) (half : Fin 2), instant (2 * k + half.val) = (k + half.val / 2 + phase k) * ((p.fs : ℝ) / (p.rs : ℝ))

/-- CLOCK_OFFSET and the timing of a pilot window: the loop's integrator in 0.001 ppm, to the nearest (R150, R163, R166). -/
def ClockReported (integ : ℝ) (clock : Int) : Prop := |integ * 10 ^ 9 - clock| * 2 ≤ 1

/-! ### Equaliser (R147) -/

/-- Tap `i` of the filter from input lane `inp` to output lane `out`, in units of 1. -/
def tapValue (taps : List (List Int)) (out inp i : Nat) : ℚ := ((taps.getD (4 * out + inp) []).getD i 0 : ℚ) / 2 ^ 16

/-- The 16 filters at each update: output lane, input lane, tap, in units of 1. -/
abbrev TapSet := Fin 4 → Fin 4 → Nat → ℝ

/-- Each output lane is the sum of the four input lanes through N taps at half-symbol spacing, at every half symbol; the taps of symbol `k` are those of update k/64
(R147). One output per symbol is passed on: every second one. -/
def StageMimo (taps : ℕ → TapSet) (n : Nat) (inp half : Fin 4 → ℤ → ℝ) : Prop :=
  ∀ (o : Fin 4) (j : ℤ), half o j = ∑ q : Fin 4, ∑ i ∈ Finset.range n, taps (j / 128).toNat o q i * inp q (j - i)
def Decimated (half out : Fin 4 → ℤ → ℝ) : Prop := ∀ o k, out o k = half o (2 * k)

/-- The error of an output lane: in pre-convergence the constant-modulus error against the modulus `r2` of its polarisation, from pilot synchronisation onwards the
difference from the known pilot or the hard decision `ref` (R147). -/
def mimoError {K : Type} [Field K] (preconverge : Bool) (r2 : K) (y ref : Fin 4 → K) (o : Fin 4) : K :=
  if preconverge then (r2 - (y (if o.val < 2 then 0 else 2) ^ 2 + y (if o.val < 2 then 1 else 3) ^ 2)) * y o else ref o - y o

/-- A tap after an update, every 64 symbols: moved by step · error · input, summed over them (R147; that the 64 products are averaged is the model's choice, log
entry 159). -/
def tapUpdated {K : Type} [Field K] (step : Nat) (tap : K) (err inp : Nat → K) : K := tap + step / 2 ^ 16 * ((List.range 64).map fun j => err j * inp j).sum / 64

/-- The equaliser adapts: from the taps that the state holds, update after update, in the mode and with the step of the state (R147). `ref` are known pilots and hard
decisions, `r2` the modulus. -/
def Dev.MimoAdapts (d : Dev) (env : Env) (n : Nat) (r2 : ℝ) (inp out ref : Fin 4 → ℤ → ℝ) (taps : ℕ → TapSet) : Prop :=
  (∀ o q i, i < (d.rx n).taps → taps 0 o q i = (tapValue (d.rx n).mimo o.val q.val i : ℚ)) ∧
  ∀ (u : ℕ) (o q : Fin 4) (i : ℕ), taps (u + 1) o q i = tapUpdated (d.mimoStep env n) (taps u o q i)
    (fun j => mimoError (decide ((d.rx n).acq = .preconverge)) r2 (fun l => out l (64 * u + j)) (fun l => ref l (64 * u + j)) o)
    fun j => inp q (2 * (64 * u + j) - i)

/-- The taps that a quality window reports: those after some update, in units of 2⁻¹⁶, to the nearest (R147, R148). -/
def TapsReported (n : Nat) (taps : TapSet) (q : List (List Int)) : Prop :=
  ∀ (o l : Fin 4) (i : ℕ), i < n → |taps o l i * 2 ^ 16 - (((q.getD (4 * o.val + l.val) []).getD i 0 : Int) : ℝ)| * 2 ≤ 1

/-- The taps a receiver works with: N of them per filter, as P_RX_MIMO_TAPS in force says; fast re-acquisition starts from the last good ones (R147, R164). -/
def Rx.workingTaps (r : Rx) : List (List Int) := r.mimo.map fun f => f.take r.taps

/-! ### Frequency and phase (R151, R153, R154) -/

/-- Derotation by `f` Hz at symbol rate `rs`. -/
def StageDerotate (f : ℤ → ℝ) (rs : ℝ) (inp out : Dual) : Prop :=
  ∃ φ : ℤ → ℝ, (∀ k, φ (k + 1) = φ k + 2 * Real.pi * f k / rs) ∧ ∀ p k, out p k = inp p k * Complex.exp (-(Complex.I * (φ k : ℂ)))

/-- The phase advance between successive pilots in (−π, π] is a residual offset of advance/(2π)·Rs/32, unambiguous within ±Rs/64 (R151). -/
def residualOffset (advance rs : ℝ) (f : ℝ) : Prop := -Real.pi < advance ∧ advance ≤ Real.pi ∧ f * (2 * Real.pi) = advance * rs / 32

/-- The frequency of the derotator: from what coarse acquisition loaded, in kHz, a second-order loop follows the residual that the phase advance from pilot to pilot
measures (R151). `x` are the derotated symbols. -/
def FrequencyLoop (r : Rx) (rs : ℝ) (ref : ℤ → Fin 2 → ℂ) (x : Dual) (freq : ℤ → ℝ) : Prop :=
  ∃ (adv res integ f : ℕ → ℝ), integ 0 = 1000 * r.derot ∧
    (∀ b : ℕ, ∃ turns : ℤ, adv b = Complex.arg (∑ p : Fin 2, x p (32 * (b + 1) + r.pilotPos) * star (ref (b + 1) p))
      - Complex.arg (∑ p : Fin 2, x p (32 * b + r.pilotPos) * star (ref b p)) + 2 * Real.pi * turns) ∧
    (∀ b, residualOffset (adv b) rs (res b)) ∧
    (∀ b, integ (b + 1) = integ b + ((Config.freqGains.2 : ℚ) : ℝ) * res b) ∧ f 0 = integ 0 ∧
    (∀ b, f (b + 1) = integ (b + 1) + ((Config.freqGains.1 : ℚ) : ℝ) * res b) ∧ ∀ k : ℤ, freq k = f (k / 32).toNat

/-- The phase estimate at pilot `b`, over both polarisations, from the known pilots `ref` (R153). -/
def PilotPhase (x : Dual) (pos : Nat) (ref : ℤ → Fin 2 → ℂ) (b : ℤ) (φ : ℝ) : Prop :=
  φ = Complex.arg (x 0 (32 * b + pos) * star (ref b 0) + x 1 (32 * b + pos) * star (ref b 1))

/-- The estimate filtered over `win` pilots on each side: the phase of the sum of the pilots' products, one estimate for both polarisations. The rule gives neither
(log entry 178). -/
def FilteredPhase (x : Dual) (pos win : Nat) (ref : ℤ → Fin 2 → ℂ) (b : ℤ) (φ : ℝ) : Prop :=
  φ = Complex.arg (∑ i ∈ Finset.range (2 * win + 1),
    (x 0 (32 * (b + i - win) + pos) * star (ref (b + i - win) 0) + x 1 (32 * (b + i - win) + pos) * star (ref (b + i - win) 1)))

/-- Linear interpolation between two pilots: `j` symbols after the first of them, along the shorter way round. -/
def Interpolated (φ0 φ1 : ℝ) (j : Nat) (φ : ℝ) : Prop :=
  ∃ turns : ℤ, |φ1 + 2 * Real.pi * turns - φ0| ≤ Real.pi ∧ φ = φ0 + (φ1 + 2 * Real.pi * turns - φ0) * j / 32

/-- Is symbol `k` a data symbol of the block grid? -/
def dataAt (pos : Nat) (k : ℤ) : Prop := (k - pos) % 32 ≠ 0

/-- Does symbol `i` enter the decision-directed average at `k`? A data symbol, with no reset of the estimate between the two (R153, R154). -/
def Averaged (pos : Nat) (reset : ℤ → Prop) (k i : ℤ) : Prop := dataAt pos i ∧ ∀ q, min i k ≤ q → q ≤ max i k → ¬ (reset q ∧ ¬ dataAt pos q)

open Classical in
/-- The decision-directed refinement of the interpolated estimate `φ`: the phase left over between data symbols and their hard decisions, averaged over 2·dd + 1
symbols; none with dd = 0, and none at a pilot (R153). `reset` are the pilots where a slip has reset it (R154; how pilots and slips cut the average is the model's
choice, log entry 178). -/
def Refined (pos : Nat) (x dec : Dual) (φ : ℤ → ℝ) (reset : ℤ → Prop) (dd : Nat) (k : ℤ) (ψ : ℝ) : Prop :=
  if dd = 0 ∨ ¬ dataAt pos k then ψ = φ k
  else ψ = φ k + Complex.arg (∑ i ∈ Finset.range (2 * dd + 1), ∑ p : Fin 2,
    if Averaged pos reset k (k + i - dd) then x p (k + i - dd) * Complex.exp (-(Complex.I * (φ (k + i - dd) : ℂ))) * star (dec p (k + i - dd)) else 0)

/-- The decision-directed phase as it arrives at a pilot: that of the data symbols before it (R154). -/
def DirectedAt (x dec : Dual) (φ : ℤ → ℝ) (dd : Nat) (k : ℤ) (ψ : ℝ) : Prop :=
  ψ = φ k + Complex.arg (∑ i ∈ Finset.range (min dd 31), ∑ p : Fin 2,
    x p (k - 1 - i) * Complex.exp (-(Complex.I * (φ (k - 1 - i) : ℂ))) * star (dec p (k - 1 - i)))

/-- Two phases differ by π/4 or more: a cycle slip (R154). -/
def Slipped (ψ φ : ℝ) : Prop := ∀ turns : ℤ, Real.pi / 4 ≤ |ψ - φ + 2 * Real.pi * turns|

/-- A phase as the state and a slip report hold it, in units of 2π/65,536. -/
def PhaseHeld (φ : ℝ) (b : BitVec 16) : Prop := ∃ turns : ℤ, |φ * 65536 / (2 * Real.pi) + 65536 * turns - b.toNat| * 2 ≤ 1

/-- Stage 4 with the parameters in force: P_RX_CPR_WIN pilots on each side and P_RX_CPR_DD symbols; at a pilot where the decision-directed phase has slipped it is
reset to the pilot's (R153, R154). `dec` are the hard decisions. -/
def StagePhase (env : Env) (n : Nat) (r : Rx) (ref : ℤ → Fin 2 → ℂ) (dec inp out : Dual) : Prop :=
  ∃ (pil : ℤ → ℝ) (φ ψ : ℤ → ℝ) (reset : ℤ → Prop), (∀ b, FilteredPhase inp r.pilotPos (env.par.nat (pRxCprWin + n)) ref b (pil b)) ∧
    (∀ (b : ℤ) (j : Nat), j < 32 → Interpolated (pil b) (pil (b + 1)) j (φ (32 * b + r.pilotPos + j))) ∧
    (∀ b : ℤ, ∃ dir : ℝ, DirectedAt inp dec φ (env.par.nat (pRxCprDd + n)) (32 * b + r.pilotPos) dir ∧
      (reset (32 * b + r.pilotPos) ↔ Slipped dir (pil b))) ∧
    (∀ k, Refined r.pilotPos inp dec φ reset (env.par.nat (pRxCprDd + n)) k (ψ k)) ∧ ∀ p k, out p k = inp p k * Complex.exp (-(Complex.I * (ψ k : ℂ)))

/-- The rotation and order that pilot synchronisation found, put right: polarisation `p` comes from the other one where they are exchanged, turned by its quarter
turns (R152). -/
def StagePilotOrder (r : Rx) (inp out : Dual) : Prop :=
  ∀ k, out 0 k = inp (if r.pilotSwap then 1 else 0) k * Complex.I ^ r.pilotTurn.1 ∧ out 1 k = inp (if r.pilotSwap then 0 else 1) k * Complex.I ^ r.pilotTurn.2

/-- The known pilots, counted from the last repeat met: the receiver's own generator at the gain P_RX_PILOT_GAIN in force, held for one pilot at each repeat, every
32,768 pilots (R152). -/
def Rx.PilotsKnown (r : Rx) (ref : ℤ → Fin 2 → ℂ) : Prop :=
  ∃ a : ℝ, PilotAmplitude r.pilotGain a ∧ ∀ (b : ℕ) (p : Fin 2), ref b p = pilotValue a (pilotAfter (b % 32768) r.pilotGen) p

/-! ### Nonlinear compensation (R155) -/

/-- Stage 5: X̂_k = X_k − ΔX_k over the triplets in use, pilots like data; table and count blend over 128 line frames while they cross-fade; bypassed on an interop
profile (R155, R167). `f` and `c` count the frames of the two cross-fades. -/
def StageNlComp (r : Rx) (f c : Nat) (inp out : Dual) : Prop :=
  ∀ (p : Fin 2) (k : ℤ), out p k =
    if r.op.any fun q => decide (q.profile ≠ 0) then inp p k
    else
      let d (tab : Tbl Nat) (cnt : Int) := nlDelta inp p k (tripletsInUse tab cnt.toNat)
      inp p k - blend (fadeWeight c 128) (blend (fadeWeight f 128) (d r.nlc.active r.nlcCount.active) (d r.nlc.next r.nlcCount.active))
        (blend (fadeWeight f 128) (d r.nlc.active r.nlcCount.next) (d r.nlc.next r.nlcCount.next))

/-! ### The trainer (R156) -/

/-- The perturbation terms of the pairs (m, n) with |m| and |n| at most 32 under the coefficients `c` (R103, R156). -/
noncomputable def fitDelta (c : Fin 65 → Fin 65 → ℂ) (x : Dual) (p : Fin 2) (k : ℤ) : ℂ :=
  ∑ i : Fin 65, ∑ j : Fin 65,
    let m : ℤ := i.val - 32
    let n : ℤ := j.val - 32
    c i j * (x p (k + m) * star (x p (k + m + n)) + x (1 - p) (k + m) * star (x (1 - p) (k + m + n))) * x p (k + n)

/-- What the fit makes least: the squared error of the corrected symbols against the known pilots and hard decisions `ref`, over 16 blocks of 65,536 symbols a
polarisation, and the regularisation (R156 steps 1 and 2; log entry 178). -/
noncomputable def fitCost (x ref : Fin 16 → Dual) (c : Fin 65 → Fin 65 → ℂ) : ℝ :=
  (∑ b : Fin 16, ∑ p : Fin 2, ∑ k ∈ Finset.range 65536, ‖x b p k - fitDelta c (x b) p k - ref b p k‖ ^ 2)
    + ((Config.fitRegular : ℚ) : ℝ) * ∑ i : Fin 65, ∑ j : Fin 65, ‖c i j‖ ^ 2

/-- The SNR of a block under a table, in 0.01 dB: signal power 1 against the mean squared error (R156 step 4, R158). -/
def BlockSnr (x ref : Dual) (ts : List Nat) (snr : Int) : Prop :=
  ∃ e : ℝ, e * (2 * 65536) = (∑ p : Fin 2, ∑ k ∈ Finset.range 65536, ‖x p k - nlDelta x p k ts - ref p k‖ ^ 2) ∧
    |1000 * Real.logb 10 (1 / e) - snr| * 2 ≤ 1

/-- What a training run brings: the fit of the 16 captured blocks as triplets, every pair once, in units of 2⁻²⁰, and the two SNRs of the last block (R156). -/
def Dev.TrainReport (d : Dev) (env : Env) (n : Nat) (x ref : Fin 16 → Dual) (fit : List (BitVec 48)) (snrNew snrOld : Int) : Prop :=
  (∃ c : Fin 65 → Fin 65 → ℂ, (∀ c', fitCost x ref c ≤ fitCost x ref c') ∧ fit.length = 65 * 65 ∧
    ∀ i j : Fin 65, ∃ v ∈ fit, tripletM v.toNat = i.val - 32 ∧ tripletN v.toNat = j.val - 32 ∧
      |(c i j).re * 2 ^ 20 - tripletRe v.toNat| * 2 ≤ 1 ∧ |(c i j).im * 2 ^ 20 - tripletIm v.toNat| * 2 ≤ 1) ∧
  BlockSnr (x 15) (ref 15) (tripletsInUse (fitTable fit (env.par.nat (pRxNlcTriplets + n))) (env.par.nat (pRxNlcTriplets + n))) snrNew ∧
  BlockSnr (x 15) (ref 15) (tripletsInUse (d.rx n).nlc.active (d.rx n).nlcCount.active.toNat) snrOld

/-! ### The whole path (R121, R145) -/

/-- The symbols that carrier `n`'s receiver hands to the de-mapper, stage after stage in the order of Tables 5-1 and 6-1, from the samples of its four lanes: the
loops steer what comes before them. An interop carrier recovers phase by its agreement (R167). `r2` is the modulus, `dec` the hard decisions, `err` pilots and
decisions as the equaliser's error uses them, `integ` the timing integrator, `taps` the equaliser's. -/
def Dev.Receives (d : Dev) (env : Env) (n : Nat) (p : OpPoint) (f c : Nat) (integ : ℕ → ℝ) (taps : ℕ → TapSet) (r2 : ℝ) (ref : ℤ → Fin 2 → ℂ) (dec : Dual)
    (err : Fin 4 → ℤ → ℝ) (samples : Fin 4 → ℤ → ℝ) (symbols : Dual) : Prop :=
  let r := d.rx n
  ∃ (l4 h8 l8 : Fin 4 → ℤ → ℝ) (x4 x6 x7 y8 x8 x9 x10 x11 : Dual) (instant freq : ℤ → ℝ),
    StageDeskew (fun i => (r.walks.get ⟨0, 0, 0⟩ i).value env.now) (p.fs : ℝ) samples l4 ∧ lanesJoined l4 x4 ∧
    StageCd r env.now (p.fs : ℝ) x4 x6 ∧
    StageTiming instant x6 x7 ∧
    StageMimo taps r.taps (lanesOf x7) h8 ∧ d.MimoAdapts env n r2 (lanesOf x7) l8 err taps ∧ Decimated h8 l8 ∧
    lanesJoined h8 y8 ∧ lanesJoined l8 x8 ∧
    d.Timing env n p ref y8 integ instant ∧
    (if p.profile = 0 then
      r.PilotsKnown ref ∧ StagePilotOrder r x8 x9 ∧
      StageDerotate freq (p.rs : ℝ) x9 x10 ∧ FrequencyLoop r (p.rs : ℝ) ref x10 freq ∧
      StagePhase env n r ref dec x10 x11
    else StageDerotate freq (p.rs : ℝ) x8 x10 ∧ Config.InteropRecovers p.profile x10 x11) ∧
    StageNlComp r f c x11 symbols

end Sys2Proof.Machine
end

