-- ==== Sys2Proof/Machine/LinePath.lean ====
section
/-! DEFINITION. Machine/LinePath.lean: from frames to symbols and back: the whole native transmit path, and the de-mapper at the receiver (R184, R190, R201). -/

namespace Sys2Proof

/-- What the inner decoder has decided after some iterations on a block's LLRs, at entropy parameter h: the lanes' amplitudes and the sign bits. The spec gives the
parity checks and the layered schedule, not the update (R189, R190). -/
opaque Config.InnerDecodes : Nat → Nat → (Fin 4 → ℕ → Fin 4 → ℝ) → List (List Nat) → List Bool → Prop

/-- The client's bytes that an interop profile's decoder makes of its symbols (R200). -/
opaque Config.InteropDecodes : Nat → (Fin 2 → ℤ → ℂ) → (Nat → List Byte) → Prop

end Sys2Proof

namespace Sys2Proof.Machine

/-! ### Injection (R201) -/

/-- Which of a stream of bits an injection inverts: with mode 1 a share of them that tends to the BER, with mode 2 bursts of BURST_LEN bits every `gap` bits, the
bits of 1 ms, until COUNT is reached; none otherwise. -/
def Inverts (inj : Option Injection) (gap : Nat) (chosen : ℕ → Bool) : Prop :=
  match inj with
  | none => ∀ x, chosen x = false
  | some i =>
    if i.mode = 1 then
      Filter.Tendsto (fun m : ℕ => (((List.range m).filter chosen).length : ℝ) / m) Filter.atTop (nhds ((i.mant : ℝ) / 10 ^ (i.exp + 1)))
    else if i.mode = 2 then ∃ x0 : ℕ, ∀ x, chosen x = true ↔ ∃ k < i.left, x0 + gap * k ≤ x ∧ x < x0 + gap * k + i.burst
    else ∀ x, chosen x = false

/-- Which staircase blocks mode 3 hits, every `gap` blocks until COUNT is reached, and at which rows and columns. -/
def HitsBlocks (inj : Option Injection) (gap : Nat) (hit : ℕ → Option ((Nat × Nat) × (Nat × Nat))) : Prop :=
  match inj with
  | none => ∀ b, hit b = none
  | some i =>
    if i.mode = 3 then
      (∃ b0 : ℕ, ∀ b, (hit b).isSome = true ↔ ∃ k < i.left, b = b0 + gap * k) ∧
      ∀ (b : ℕ) x, hit b = some x → x.1.1 < x.1.2 ∧ x.1.2 < 160 ∧ x.2.1 < x.2.2 ∧ x.2.2 < 160
    else ∀ b, hit b = none

/-- The carrier's injection where it acts at the transmit point, and at the receive point. -/
def Fec.injAt (f : Fec) (transmit : Bool) : Option Injection := f.inj.filter fun i => i.transmit == transmit

/-- Sign bits, label bits and staircase blocks of 1 ms at point `p`: four lanes, 31 data symbols in 32, four label bits each, 25,600 outer-coded bits a block. -/
def OpPoint.dataIn1ms (p : OpPoint) : Nat := 31 * p.pilotsIn ms
def OpPoint.stairsIn1ms (p : OpPoint) : Nat := blockStart p.h (p.dataIn1ms / 1024) / 25600

/-! ### From frames to symbols (R184) -/

/-- The lane amplitudes and sign bits that `src`'s frames become: scrambled frames back to back, staircase code, coding blocks (R184). Data symbols are counted from
the first of the operating point, which began at outer-coded position `y0`: 0 at transmit enable (R185, R188, R240). An injection at the transmit point flips
outer-coded bits before the inner encoder (mode 3), or sign bits after it, so that the amplitudes stay (R201). -/
def Encodes (h y0 : Nat) (hit : ℕ → Option ((Nat × Nat) × (Nat × Nat))) (chosen : ℕ → Bool) (src : LineSource) (amp : Fin 4 → ℤ → Nat) (sign : Fin 4 → ℤ → Bool) : Prop :=
  ∀ (l : Fin 4) (k : ℕ), amp l k = lineAmp h y0 (outerHit hit (framedBit src)) l k ∧
    sign l k = (lineSign h y0 (outerHit hit (framedBit src)) l k != chosen (signPosition k l))

/-- The DAC codes of carrier `n` for client bytes `data` in multiframe `m`, from the frames on (R93, R184, R201); an interop carrier encodes its agreement's format
(R99, R200). -/
def Dev.SendsLine (d : Dev) (env : Env) (n m y0 : Nat) (p : OpPoint) (data : Nat → List Byte) (rx : Received) (f : FadeFrames) (s : ℤ → ℝ) (rms : Fin 4 → ℝ)
    (codes : Fin 4 → ℤ → ℤ) : Prop :=
  ∃ (src : LineSource) (amp : Fin 4 → ℤ → Nat) (sign : Fin 4 → ℤ → Bool) (hit : ℕ → Option ((Nat × Nat) × (Nat × Nat))) (chosen : ℕ → Bool),
    (p.profile = 0 → d.Sources env n m data rx src ∧ HitsBlocks ((d.fec n).injAt true) p.stairsIn1ms hit ∧
      Inverts ((d.fec n).injAt true) (4 * p.dataIn1ms) chosen ∧ Encodes p.h y0 hit chosen src amp sign) ∧
    d.Transmits env n p f amp sign data s rms codes

/-! ### De-mapper (R190) -/

/-- Label bit `b` of a lane symbol: the Gray label's three bits, most significant first, then the sign bit. -/
def labelBit (a : Nat) (sign : Bool) (b : Fin 4) : Bool := if b = 3 then sign else bitAt (grayLabel a) (2 - b.val)

/-- Noise power per lane at a carrier SNR of `snr` hundredths of a dB, with unit signal power per polarisation (R158). -/
def LaneNoise (snr : Int) (v : ℝ) : Prop := v * (2 * (10 : ℝ) ^ ((snr : ℝ) / 1000)) = 1

/-- How well a received lane value `y` agrees with bit `b` being `x`: over the lane symbols at scale `σ`, with the composition counts as prior. -/
def Likelihood (counts : List Nat) (σ v y : ℝ) (b : Fin 4) (x : Bool) (w : ℝ) : Prop :=
  w = ((counts.zip amplitudes).flatMap fun p => ([false, true].filter fun s => labelBit p.2 s b = x).map fun s =>
    (p.1 : ℝ) / 2048 * Real.exp (-(y - σ * (laneSymbol p.2 s : ℝ)) ^ 2 / (2 * v))).sum

/-- The log-likelihood ratio of a label bit: positive where it is more likely 0. -/
def Llr (counts : List Nat) (σ v y : ℝ) (b : Fin 4) (llr : ℝ) : Prop :=
  ∃ w0 w1 : ℝ, Likelihood counts σ v y b false w0 ∧ Likelihood counts σ v y b true w1 ∧ llr = Real.log (w0 / w1)

/-- The data symbols behind stage 5 of Table 6-1: the pilots are left out (R152, R190). -/
def StageData (pos : Nat) (inp out : Dual) : Prop := ∀ (p : Fin 2) (b : ℕ) (i : ℕ), i < 31 → out p (31 * b + i : ℕ) = inp p (32 * b + pos + 1 + i : ℕ)

/-- Label bits in the order of a coding block's columns: by symbol, by lane, amplitude bits before the sign (R189). -/
def labelPosition (k : ℕ) (l b : Fin 4) : ℕ := 16 * k + 4 * l.val + b.val

/-- The inner decoder's input on carrier `n`: an LLR for every label bit of every data symbol, at the measured SNR; an injection at the receive point inverts the signs
of those it chooses (R190, R201). -/
def Dev.Demaps (d : Dev) (n : Nat) (p : OpPoint) (data : Dual) (llr : Fin 4 → ℕ → Fin 4 → ℝ) : Prop :=
  ∃ (σ v : ℝ) (chosen : ℕ → Bool), SymbolScale (shaping p.h).1 σ ∧ LaneNoise (d.rx n).meas.snr v ∧
    Inverts ((d.fec n).injAt false) (16 * p.dataIn1ms) chosen ∧
    ∀ (l : Fin 4) (k : ℕ) (b : Fin 4), ∃ x : ℝ, Llr (shaping p.h).1 σ v (lanesOf data l k) b x ∧
      llr l k b = if chosen (labelPosition k l b) then -x else x

/-! ### From symbols back to frames (R184, R190, R191, R194, R198) -/

/-- The coding blocks that the inner decoder decides: N layered iterations, or fewer with early termination, over the LLRs of each block from the offset of block lock
on (R190, R192). -/
def Dev.Decides (d : Dev) (env : Env) (n : Nat) (p : OpPoint) (llr : Fin 4 → ℕ → Fin 4 → ℝ) (blocks : ℕ → CodingBlock) : Prop :=
  ∀ j : ℕ, ∃ after : ℕ → CodingBlock,
    (∀ t, Config.InnerDecodes p.h t (fun l k b => llr l ((d.fec n).offset + 1024 * j + k) b) (after t).amps (after t).signs) ∧
    blocks j = after (iterationsRun (env.par.on (pFecEarly + n)) (d.fec n).iter fun t => (after t).checksOk p.h)

/-- The staircase blocks at the decoder's input, of the first `m` coding blocks from the alignment on, with what mode 3 flips at the receive point (R194, R201). -/
def Fec.stairsIn (f : Fec) (h m : Nat) (hit : ℕ → Option ((Nat × Nat) × (Nat × Nat))) (blocks : ℕ → CodingBlock) : List Stair :=
  ((stairsOf ((rebuilt h ((List.range m).map blocks)).drop f.align)).zipIdx).map fun b => match hit b.2 with
    | none => b.1
    | some x => crossFlipped b.1 x.1 x.2

/-- The staircase decoder over them: the first block stands as the one before, which the decoder has not received whole (log entry 163); each later block leaves the
window decoded, and uncorrectable or not (R190, R191, R198). -/
def stairDecoded (latmode : Nat) : List Stair → List (Stair × Bool)
  | [] => []
  | b :: rest => StairWindow.run ⟨b, []⟩ latmode rest

/-- The framed stream that goes to the deframer, block by block (R190 step 5). -/
def framedOut (bs : List (Stair × Bool)) : List Bool := bs.flatMap fun b => stairInfo b.1

/-- Frames of `len` bytes cut out of the framed stream from bit `x0` on, each descrambled after its FAW (R207, R208). -/
def framesOut (len x0 : Nat) (bits : List Bool) : List (List Byte) :=
  (List.range ((bits.length - x0) / (8 * len))).map fun t =>
    overFaw ((List.range len).map fun i => bitsByte ((bits.drop (x0 + 8 * (len * t + i))).take 8))

/-- What carrier `n`'s receiver makes of the symbols behind stage 5, while block lock stands: the frames that its deframer reads from framed bit `x0` on, of the first
`m` coding blocks, and which staircase blocks were uncorrectable (R184, R190). -/
def Dev.ReceivesFrames (d : Dev) (env : Env) (n : Nat) (p : OpPoint) (symbols : Dual) (m x0 : Nat) (frames : List (List Byte)) (bad : List Bool) : Prop :=
  p.profile = 0 ∧ (d.fec n).lock = .locked ∧
  ∃ (data : Dual) (llr : Fin 4 → ℕ → Fin 4 → ℝ) (blocks : ℕ → CodingBlock) (hit : ℕ → Option ((Nat × Nat) × (Nat × Nat))),
    StageData (d.rx n).pilotPos symbols data ∧ d.Demaps n p data llr ∧ d.Decides env n p llr blocks ∧ HitsBlocks ((d.fec n).injAt false) p.stairsIn1ms hit ∧
    let out := stairDecoded (d.fec n).latmode ((d.fec n).stairsIn p.h m hit blocks)
    frames = framesOut (324 * d.rxSlots n) x0 (framedOut out) ∧ bad = out.map (·.2)

/-- An interop carrier decodes its agreement's format: symbols to the client's bytes (R200). -/
def Dev.ReceivesClient (d : Dev) (n : Nat) (p : OpPoint) (symbols : Dual) (client : Nat → List Byte) : Prop :=
  p.profile ≠ 0 ∧ (d.fec n).lock = .locked ∧ Config.InteropDecodes p.profile symbols client

end Sys2Proof.Machine
end

