-- ==== Sys2Proof/Machine/MemPath.lean ====
section
/-! DEFINITION. Machine/MemPath.lean: the transaction tracker, narrow writes, and what a read returns of a word in error (R262 to R266, R269, R270), as functions of
addresses and bytes. -/

namespace Sys2Proof.Machine

/-! ### The tracker (R262) -/

/-- Who issues a transaction: traffic (bundle buffers and protection delay); the scrubber, golden-copy reloads and read-modify-write; anything else. -/
inductive Requester where
  | traffic | reserved | housekeeping
  deriving DecidableEq, Repr

/-- Transactions in flight. -/
structure Tracker where
  traffic : Nat
  reserved : Nat
  other : Nat
  deriving DecidableEq, Repr

/-- May one more enter? Traffic has 7,168 of the 8,192 entries and never waits for housekeeping, which has 1,024; 256 of those are kept for the scrubber,
reloads and read-modify-write. -/
def Tracker.admits (t : Tracker) : Requester → Bool
  | .traffic => decide (t.traffic < 7168)
  | .reserved => decide (t.reserved + t.other < 1024)
  | .housekeeping => decide (t.reserved + t.other < 1024 ∧ t.other < 1024 - 256)

/-- A transaction enters. -/
def Tracker.enter (t : Tracker) : Requester → Tracker
  | .traffic => { t with traffic := t.traffic + 1 }
  | .reserved => { t with reserved := t.reserved + 1 }
  | .housekeeping => { t with other := t.other + 1 }

/-- The shares hold, and so at most 8,192 are in flight. -/
def Tracker.within (t : Tracker) : Bool := decide (t.traffic ≤ 7168 ∧ t.reserved + t.other ≤ 1024 ∧ t.other ≤ 768)

/-- The 128-byte unit of striping that an address lies in (R261; which stack takes a unit the address hash says, which is not given), and its code word. -/
def unitOf (addr : Nat) : Nat := addr / 128
def codeWordOf (addr : Nat) : Nat := addr / 32

/-! ### Narrow writes (R265) -/

/-- A write that covers less than a whole code word, or is not aligned to one. -/
def narrowWrite (addr len : Nat) : Bool := decide (addr % 32 ≠ 0 ∨ len % 32 ≠ 0)

/-- The new bytes merged into the corrected word, from byte `off` on. -/
def mergeWord (old : List Byte) (off : Nat) (new : List Byte) : List Byte :=
  (List.range 32).map fun i => if off ≤ i ∧ i < off + new.length then new.getD (i - off) 0 else old.getD i 0

/-- What a write of `new` at `addr` leaves in the code word `w` that held `old`. -/
def wordAfter (w addr : Nat) (new : List Byte) (old : List Byte) : List Byte :=
  (List.range 32).map fun i => if addr ≤ 32 * w + i ∧ 32 * w + i < addr + new.length then new.getD (32 * w + i - addr) 0 else old.getD i 0

/-- The code words a write of `len` bytes at `addr` touches; those it does not cover are read, merged and written back. -/
def wordsTouched (addr len : Nat) : List Nat := if len = 0 then [] else (List.range ((addr + len - 1) / 32 - addr / 32 + 1)).map fun i => addr / 32 + i
def wordCovered (w addr len : Nat) : Bool := decide (addr ≤ 32 * w ∧ 32 * w + 32 ≤ addr + len)

/-- Accesses to one code word take effect in the order of issue: a read returns what the writes before it have left (R264). -/
def readAfter (w : Nat) (old : List Byte) (writes : List (Nat × List Byte)) : List Byte := writes.foldl (fun v x => wordAfter w x.1 x.2 v) old

/-! ### Words in error (R269, R270) -/

/-- What a read of a code word gives: the word, corrected where one bit fails; nothing where two do. -/
inductive WordRead where
  | good (bytes : List Byte)
  | corrected (bytes : List Byte) (bitpos : Nat)
  | bad
  deriving DecidableEq, Repr

/-- A 128-byte unit of a bundle buffer as delivered: with an uncorrectable word in it all-ones (Table 11-4). -/
def unitDelivered (ws : List WordRead) : List Byte :=
  if ws.contains .bad then List.replicate 128 0xFF
  else ws.flatMap fun w => match w with
    | .good bs => bs
    | .corrected bs _ => bs
    | .bad => []

/-- A configuration word as read until its write-back: the bytes that fail parity are zero; a converter calibration macro keeps the last value that passed
(R270, R180). -/
def wordWhileFailing (mem mask : Nat) (bytes last : List Byte) : List Byte :=
  if mem = 0x12 then last else bytes.zipIdx.map fun x => if bitAt mask x.2 then 0 else x.1

/-- Within how many ns of detection the write-back comes: 2 µs, and 20 µs on the converter dies. -/
def writeBackWithin (mem : Nat) : Nat := if mem = 0x12 then 20000 else 2000

/-- The requesters slowed when housekeeping demand exceeds its share, in that order; others never are (R266). -/
inductive Slowed where
  | bar2 | spill | snapshot
  deriving DecidableEq, Repr
def slowOrder : List Slowed := [.bar2, .spill, .snapshot]

end Sys2Proof.Machine
end

