-- ==== Sys2Proof/Machine/Rails.lean ====
section
/-! DEFINITION. Machine/Rails.lean: the rails of Table 3-2, which are up in a state of the device, and the order in which a change starts and removes them (R70,
R71, R74). -/

namespace Sys2Proof.Machine

/-- The rails of Table 3-2. -/
inductive Rail where
  | vaon | vint | v1p8 | vcore | vio | veng | vmc | vser | vcvd | vcva | vhbm | vhbmq
  deriving DecidableEq, Repr

/-- The place of a rail in the order of Table 3-2. -/
def Rail.order : Rail → Nat
  | .vaon => 1
  | .vint => 2
  | .v1p8 => 3
  | .vcore => 4
  | .vio => 4
  | .veng => 5
  | .vmc => 5
  | .vser => 6
  | .vcvd => 7
  | .vcva => 7
  | .vhbm => 8
  | .vhbmq => 8

/-- Nominal voltage in mV. -/
def Rail.millivolts : Rail → Nat
  | .vaon => 800
  | .vint => 6000
  | .v1p8 => 1800
  | .vcore => 720
  | .vio => 750
  | .veng => 750
  | .vmc => 800
  | .vser => 900
  | .vcvd => 800
  | .vcva => 1200
  | .vhbm => 1100
  | .vhbmq => 750

/-- The rails that every state of the device shares: VAON alone in Doldrums, those of Calm beside it in Calm and Service. -/
def commonRails : List Rail := [.vaon, .vint, .v1p8, .vcore, .vio]

/-- The rails of a domain, in the order of Table 3-2: those a switch of the domain brings up or removes. The crypto domain and the timing DPLL lie on VCORE
and VIO and have none of their own. -/
def domRails (id : Nat) : List Rail :=
  if id < 0x10 then [.vcvd, .vcva]
  else if id < 0x20 then [.vser]
  else if id < 0x30 then [.veng]
  else if id < 0x40 then [.vmc, .vhbm, .vhbmq]
  else []

/-- A rail as one supply: of the whole device, or of one domain. -/
abbrev Supply := Rail × Option Nat

/-- Every supply, in the order in which they start. -/
def supplies : List Supply :=
  (List.range 9).flatMap fun k =>
    (commonRails.filter fun r => decide (r.order = k)).map (fun r => (r, none))
      ++ domIds.flatMap fun id => ((domRails id).filter fun r => decide (r.order = k)).map fun r => (r, some id)

/-- Is a supply up? VAON in every state with a supply, after a hardware thermal shutdown too (R89); a domain's own rails while it is IDLE or ON (R78). -/
def Dev.supplyUp (d : Dev) : Supply → Bool
  | (.vaon, _) => decide (d.pw.state ≠ .off) || d.pw.hotShut
  | (_, none) => decide (d.pw.state = .calm ∨ d.pw.state = .service)
  | (_, some id) => d.inService && decide (d.domState id ≠ .off)

/-- What the power stage does on a change from `old` to `new`, in order: the supplies that go, in reverse order, and those that start, each after the one
above it is within 3 % of nominal; `true` for a start. -/
def railSteps (old new : Dev) : List (Bool × Supply) :=
  ((supplies.filter fun x => old.supplyUp x && !new.supplyUp x).reverse.map fun x => (false, x))
    ++ (supplies.filter fun x => !old.supplyUp x && new.supplyUp x).map fun x => (true, x)

end Sys2Proof.Machine
end

