-- ==== Sys2Proof/Machine/SenseSignal.lean ====
section
/-! DEFINITION. Machine/SenseSignal.lean: what the samples of the disturbance streams are made of, when each stream is decimated, what Front measures in a window, and what
a housekeeping code means (R410, R411, R413, R416, R418, R421), as functions of taps and records or as relations on phases and voltages. -/

namespace Sys2Proof.Machine

/-! ### The streams (R410, R411) -/

/-- Stream P: how far the pilot phase of stage 4, before its decision-directed refinement, has moved over a line frame after derotation, from `φ0` to `φ1`, to the
nearest 2π/65,536. -/
def PhaseSample (φ0 φ1 : ℝ) (v : Int) : Prop :=
  -32768 ≤ v ∧ v ≤ 32767 ∧ ∃ turns : ℤ, |(φ1 - φ0 + 2 * Real.pi * turns) * 65536 - v * (2 * Real.pi)| * 2 ≤ 2 * Real.pi

/-- A lane-to-lane filter's gain at the centre of the band: the sum of its taps, in units of 2⁻¹⁶. -/
def laneGain (taps : List (List Int)) (out inp : Nat) : Int := (taps.getD (4 * out + inp) []).sum

/-- Twice the equaliser's Jones matrix entry from input polarisation `inp` to output polarisation `out`, real and imaginary part: the part of the four real filters
that is linear in the complex signal, at the centre of the band (log entry 172). -/
def jones (taps : List (List Int)) (out inp : Nat) : Int × Int :=
  (laneGain taps (2 * out) (2 * inp) + laneGain taps (2 * out + 1) (2 * inp + 1), laneGain taps (2 * out + 1) (2 * inp) - laneGain taps (2 * out) (2 * inp + 1))

/-- The state that the equaliser maps onto its X output: the first column of the inverse Jones matrix, but for a common factor: x and y component. -/
def xState (taps : List (List Int)) : (Int × Int) × (Int × Int) :=
  let a := jones taps 1 1
  let b := jones taps 1 0
  (a, (-b.1, -b.2))

/-- Its Stokes components S0 to S3; S3 counts positive where the y component leads (log entry 172). -/
def stokes (e : (Int × Int) × (Int × Int)) : Int × Int × Int × Int :=
  let x := e.1.1 ^ 2 + e.1.2 ^ 2
  let y := e.2.1 ^ 2 + e.2.2 ^ 2
  (x + y, x - y, 2 * (e.1.1 * e.2.1 + e.1.2 * e.2.2), 2 * (e.1.1 * e.2.2 - e.1.2 * e.2.1))

/-- A normalised component in units of 2⁻¹⁵, to the nearest, within 16 bits. -/
def stokesSample (s s0 : Int) : Int := min 32767 (roundHalfAway (32768 * s) s0.toNat)

/-- The samples S1 to S3 that taps give. -/
def stokesSamples (taps : List (List Int)) : List Int :=
  let s := stokes (xState taps)
  [stokesSample s.2.1 s.1, stokesSample s.2.2.1 s.1, stokesSample s.2.2.2 s.1]

/-- One line frame's sample of carrier `n`: valid only while LOCKED, and then P and the Stokes components of the equaliser's taps (R410, R411). -/
def Dev.Samples (d : Dev) (n : Nat) (φ0 φ1 : ℝ) (x : SenseSample) : Prop :=
  x.valid = d.locked n ∧ (x.valid = true →
    PhaseSample φ0 φ1 (x.values.getD 0 0).toInt ∧
    (0 < (stokes (xState (d.rx n).workingTaps)).1 → (x.values.drop 1).map BitVec.toInt = stokesSamples (d.rx n).workingTaps))

/-! ### Rotation and latency (R413, R416) -/

/-- The line frame at which stream `q` gives its output `m`, and the frame that the record refers to. -/
def combFrame (k q m : Nat) : Nat := m * 2 ^ k + q * 2 ^ k / 16
def referenceFrame (k m : Nat) : Nat := m * 2 ^ k + 15 * 2 ^ k / 16

/-- Without deskew stream `q` of carrier `q / 4` lags the instant named by so many frames. -/
def skewFrames (k q : Nat) : Nat := q % 4 * 2 ^ k / 16

/-- The deskew's four taps, and what they leave (R413): each stream's interpolator is a sum over four samples, and between any two streams, sampled their turns
apart, the skew stays below To/256 for content below 0.25 × Fo. `w` is the content's phase in rad per output period. -/
def DeskewMeets : Prop := ∃ c : Nat → Fin 4 → ℝ,
  (∀ m (x : Fin 4 → Int), |(Config.senseInterp m (List.ofFn x) : ℝ) - ∑ i, c m i * x i| ≤ 1) ∧
  ∀ q q' : Nat, q < 16 → q' < 16 → ∀ w : ℝ, 0 < w → w < Real.pi / 2 →
    let h (q : Nat) : ℂ := (∑ i : Fin 4, (c (deskewDelay q) i : ℂ) * Complex.exp (-(Complex.I * (w * i.val : ℝ)))) * Complex.exp (Complex.I * (w * deskewDelay q / 16 : ℝ))
    |Complex.arg (h q * (starRingEnd ℂ) (h q'))| < w / 256

/-- D in halves of an output period, and the bound of R416 in ns: 102.4 ns × 2R + To × (D + 3) with To = R × 102.4 ns. -/
def chainDelay : CompSet → Nat
  | .dflt false => 31
  | .dflt true => 6
  | .host _ => 62
def chainBound (k : Nat) (c : CompSet) : ℚ := 1024 / 10 * 2 ^ k * (2 + (chainDelay c + 6) / 2)

/-! ### Front's measures (R418) -/

/-- Fo in Hz, and a band edge clamped to 0.4 × Fo. -/
def outputRate (k : Nat) : ℚ := 9765625 / 2 ^ k
def bandEdge (k hz : Nat) : ℚ := min hz (2 / 5 * outputRate k)

/-- Record `m` of a window of `len` in Hz: P's unit is Fo-independent, 1/(65,536 × 102.4 ns); one left out counts as no deviation (log entry 172). -/
noncomputable def FrontRecord.hz (r : FrontRecord) : ℝ := if r.kept then (r.p : ℝ) * (9765625 / 65536) else 0

/-- The window's component at `i` cycles a window. -/
noncomputable def windowTone (rs : List FrontRecord) (i : Nat) : ℂ :=
  ∑ m ∈ Finset.range rs.length, (((rs.map FrontRecord.hz).getD m 0 : ℝ) : ℂ) * Complex.exp (-(Complex.I * (2 * Real.pi * i * m / rs.length : ℝ)))

/-- PH: the rms of P from the components whose frequency lies in the band; each stands for itself and its mirror image (log entry 172). -/
def Ph (k lo hi : Nat) (rs : List FrontRecord) (ph : ℝ) : Prop :=
  0 ≤ ph ∧ ph ^ 2 * (rs.length : ℝ) ^ 2 = 2 * ∑ i ∈ (Finset.range (rs.length / 2 + 1)).filter
    (fun i : ℕ => bandEdge k lo ≤ (i : ℚ) * outputRate k / (rs.length : ℚ) ∧ (i : ℚ) * outputRate k / (rs.length : ℚ) ≤ bandEdge k hi), Complex.normSq (windowTone rs i)

/-- The angle between two Stokes vectors in rad. -/
noncomputable def stokesAngle (a b : FrontRecord) : ℝ :=
  Real.arccos (((a.s1 * b.s1 + a.s2 * b.s2 + a.s3 * b.s3 : Int) : ℝ)
    / (Real.sqrt ((a.s1 ^ 2 + a.s2 ^ 2 + a.s3 ^ 2 : Int) : ℝ) * Real.sqrt ((b.s1 ^ 2 + b.s2 ^ 2 + b.s3 ^ 2 : Int) : ℝ)))

/-- SOP: the greatest angle between successive valid records divided by To, in krad/s. -/
noncomputable def sopSpeeds (k : Nat) : List FrontRecord → List ℝ
  | a :: b :: rs => (if a.kept && b.kept then [stokesAngle a b * ((outputRate k : ℚ) : ℝ) / 1000] else []) ++ sopSpeeds k (b :: rs)
  | _ => []
def Sop (k : Nat) (rs : List FrontRecord) (sop : ℝ) : Prop := (sop ∈ sopSpeeds k rs ∨ sop = 0 ∧ sopSpeeds k rs = []) ∧ ∀ v ∈ sopSpeeds k rs, v ≤ sop

/-- What a Front program reports of the window of carrier `n`, in thousandths of Hz and krad/s: PH within P_FRONT_BAND_LO to P_FRONT_BAND_HI, and SOP, of the records that
the state holds of it. -/
def Dev.FrontReport (d : Dev) (env : Env) (n ph sop : Nat) : Prop :=
  let rs := (d.sense n).window.reverse
  (∃ v, Ph (d.sense n).k (env.par.nat (pFrontBandLo + n)) (env.par.nat (pFrontBandHi + n)) rs v ∧ |1000 * v - ph| ≤ 1) ∧
  ∃ w, Sop (d.sense n).k rs w ∧ |1000 * w - sop| ≤ 1

/-! ### Housekeeping codes (R421, R424) -/

/-- A least significant bit in µV: 1.5 V, or differential 3 V, over 65,536 codes (Table 17-6). -/
def hkLsb (diff : Bool) : ℚ := (if diff then 3000000 else 1500000) / 65536

/-- An input voltage in µV within the converter's range. -/
def hkInput (diff : Bool) (u : ℚ) : Prop := (if diff then -1500000 else 0) ≤ u ∧ u ≤ 1500000

/-- What a conversion of `u` µV may read in factory format: within ±0.5 mV of offset, ±0.2 % of gain, and ±2 LSB of nonlinearity, to a code and a whole µV
(Table 17-6). -/
def HkReads (v : Nat) (diff : Bool) (u : ℚ) (raw : BitVec 16) : Prop :=
  hkInput diff u ∧ |(Config.hkFactory v diff (hkCode diff raw) : ℚ) - u| ≤ 500 + |u| / 500 + 3 * hkLsb diff + 1

end Sys2Proof.Machine
end

