-- ==== Sys2Proof/Tests/Slice0.lean ====
section
/-! SUPPORT. Tests/Slice0.lean: checks against values the spec writes out, ill-formed terms that WellFormed refuses, and for every statement with
hypotheses a state and operands that meet them. -/

namespace Sys2Proof.Tests

open Sys2Proof Sys2Proof.Machine

-- One theorem at a time: checked side by side, they would take more threads than the memory limit leaves room for.
set_option Elab.async false

/-! ### Small states -/

/-- An entry with TAG 0x0041, no flags, and this payload. -/
def ent (p : List Byte) : CmdEntry := ⟨0x41, 0, 0, BitVec.ofNat 8 p.length, 0, p⟩
/-- The same with FORCE. -/
def entForce (p : List Byte) : CmdEntry := { ent p with flags := 0x02 }
/-- A payload of `n` zeros after these bytes. -/
def pl (n : Nat) (p : List Byte) : List Byte := p ++ List.replicate (n - p.length) 0

/-- READY, in Service, every domain ON. -/
def base : State := { State.reset with
  io := { State.reset.io with mbxState := .ready }
  dev := { Dev.reset with pw := { Power.reset with state := .service, dom := domIds.map fun i => (i, .on), recorded := domIds.map fun i => (i, .on) } } }
/-- The same with a changed device. -/
def dv (f : Dev → Dev) : State := { base with dev := f base.dev }
def ioOf (f : Io → Io) : State := { base with io := f base.io }
def pwOf (f : Power → Power) : State := dv fun d => { d with pw := f d.pw }
def at_ (t : Nat) (s : State) : State := { s with now := t }
def withPar (l : List (Nat × Int)) (s : State) : State := { s with par := l }
def offDom (id : Nat) (s : State) : State := { s with dev := { s.dev with pw := { s.dev.pw with dom := s.dev.pw.dom.drop id } } }
def txIs (f : Tx → Tx) (s : State) : State := { s with dev := s.dev.updTx 0 f }
def rxIs (f : Rx → Rx) (s : State) : State := { s with dev := s.dev.updRx 0 f }
def calIs (f : Cal → Cal) (s : State) : State := { s with dev := s.dev.updCal 0 f }
def fecIs (f : Fec → Fec) (s : State) : State := { s with dev := s.dev.updFec 0 f }
def frmIs (f : Machine.Frm → Machine.Frm) (s : State) : State := { s with dev := s.dev.updFrm 0 f }
def rateIs (f : Rate → Rate) (s : State) : State := { s with dev := s.dev.updRate 0 f }
/-- A native operating point: 64 slots, H = 256, 240,266,963 kBd; it needs 5 lasts for ±80,000 ps/nm. -/
def pt : OpPoint := ⟨0, 64, 256⟩

/-- Carrier 0 configured at `pt`, its five lasts held; and the same receiver locked. -/
def ready0 : State := txIs (fun t => { t with op := some pt }) (rxIs (fun r => { r with op := some pt }) (dv fun d => d.setLasts [0, 1, 2, 3, 4] (.active 0)))
def locked0 : State := rxIs (fun r => { r with acq := .locked }) ready0
/-- A system run of carrier 0, placed on cluster 0 or waiting. -/
def withRun (p : SysProg) (k : Option Nat) (s : State) : State := { s with dev := { s.dev with runs := s.dev.runs ++ [⟨p, 0, k, [], [], 0, false, false⟩] } }
/-- Bundle 0 on channels 0 and 1 of carrier 0. -/
def bundle0 : Bundle := { Bundle.absent with carrier := 0, first := 0, count := 2 }
def withBundle (f : Bundle → Bundle) (s : State) : State := { s with dev := { s.dev with bundle := s.dev.bundle.set 0 (f bundle0) } }
/-- Carrier 0 ready for a rate step; with the far end's fields received. -/
def ready1 : State := txIs (fun t => { t with state := .on }) (frmIs (fun f => { f with st := .inFrame, mf := .aligned }) locked0)
def heard (f : RsFields) (s : State) : State := frmIs (fun x => { x with rsRx := rsBytes f }) s
/-- Protection group 0: bundle 0 on carrier 0, bundle 1 on carrier 1. -/
def withGroup (f : Group → Group) (s : State) : State := { s with dev := { s.dev with
  bundle := [(0, bundle0), (1, { bundle0 with carrier := 1 })], group := [(0, f { Group.absent with work := 0, prot := 1 })] } }
def laneIs (f : Lane → Lane) (s : State) : State := { s with dev := s.dev.updLane 0 f }
/-- Ethernet port 0, of one lane, on bundle 2 (eight channels of carrier 0). -/
def bundle2 : Bundle := { bundle0 with count := 8, attach := .eth 0 }
def withEth (f : EthPort → EthPort) (s : State) : State := { s with dev := { s.dev with
  bundle := [(2, bundle2)], cli := { s.dev.cli with eth := [(0, f { EthPort.absent with type := 0, first := 0, bundle := 2 })] } } }
/-- Stitch port 1 with two lanes, on bundle 0. -/
def withStitch (f : Stitch → Stitch) (s : State) : State := { s with dev := { (s.dev.updStitch 1 fun _ => f { Stitch.absent with lanes := 2, baud := 10625 }) with
  bundle := [(0, { bundle0 with attach := .stitch 1, st := .enabled })] } }
/-- A loaded line key slot with MFC_START 0 and limit 2³²; channel 0 with these keys. -/
def slot0 : KeySlot := ⟨[1], 1, 2, 0, 32, 0, none, false⟩
def withKeys (f : KeyChan → KeyChan) (s : State) : State := { s with dev := s.dev.updKey 0 f }
def job0 : Job := ⟨7, 0, false, [], 0, 16, 0, 0, 16, 0, 0, 0, 0, [], [], [], []⟩
def keysIs (f : Keys → Keys) (s : State) : State := { s with dev := s.dev.updKeys f }
/-- A hosted program of one engine and one page, at handle 3. -/
def prog0 : Prog := ⟨.loaded, 1024, 0, 0, 1, 1, 1, 1000, 0, 0, 0, 0, [], [], false, 0, [], [], 0, 0, 0, none, [], 0, 0, 0, 0, 0, [], [], 0⟩
def withProg (f : Prog → Prog) (s : State) : State := { s with dev := { s.dev with eng := { s.dev.eng with prog := [(3, f prog0)] } } }
/-- DRAM with these bytes at an address. -/
def withMem (a : Nat) (bs : List Byte) (s : State) : State := { s with mem := Mem.writeAll s.mem a bs }

/-- A command runs on a state. -/
def runs (f : CmdForm) (e : CmdEntry) (s : State) : Bool :=
  !s.dev.deaf && match s.consumed f.op (canonEntry e) with
  | some s1 => decide (admission s1.io.mbxState f (canonEntry e) (earlier f.op (canonEntry e) s1.io.inflight) = .run)
  | none => false

theorem runs_meets {f : CmdForm} {e : CmdEntry} {s : State} (h : runs f e s = true) : ∃ s1, Runs f e s s1 := by
  unfold runs at h
  split at h
  · rename_i s1 h1; simp only [Bool.and_eq_true, Bool.not_eq_true', decide_eq_true_eq] at h; exact ⟨s1, h.1, h1, h.2⟩
  · simp at h

/-- A command runs on a state, and the rest of a clause's hypotheses hold there. -/
def meets (f : CmdForm) (e : CmdEntry) (s : State) (p : State → Bool) : Bool := runs f e s && p s
/-- An event's clause: its hypotheses hold on a state. -/
def holds (s : State) (p : State → Bool) : Bool := p s

theorem meets_hyps {f : CmdForm} {e : CmdEntry} {s : State} {p : State → Bool} (h : meets f e s p = true) : (∃ s1, Runs f e s s1) ∧ p s = true := by
  simp only [meets, Bool.and_eq_true] at h; exact ⟨runs_meets h.1, h.2⟩

/-- No hypothesis beside the command's running. -/
def any : State → Bool := fun _ => true

/-! ### Hypotheses of the statements: steps, invariants, mailbox -/

theorem witness_StepRunsFront : { base with pending := [.commandConsume] }.pending = .commandConsume :: [] := rfl

theorem witness_IdleStep : holds base (fun s => s.pending = [] ∧ s.dev.deaf = false) ∧
    holds (pwOf fun p => { p with state := .doldrums, armedAt := 2 }) (fun s => s.pending = [] ∧ s.dev.pw.state = .doldrums ∧ s.dev.pw.wakeNoted = false ∧
      s.now + 1 < s.dev.pw.armedAt) ∧
    holds (pwOf fun p => { p with state := .doldrums, armedAt := 1, wakeNoted := true }) (fun s => s.dev.pw.wakeNoted = true ∧ s.dev.pw.armedAt ≤ s.now + 1) ∧
    holds (pwOf fun p => { p with state := .off }) (fun s => s.pending = [] ∧ s.dev.pw.state ≠ .doldrums ∧ s.dev.deaf = true) := by decide +kernel

theorem witness_InvariantsKept : (∃ t, step base = .next t) ∧ base.memOk ∧ base.io.fifoOk ∧ base.io.markOk ∧ base.io.roomOk ∧ base.paramsOk := by
  refine ⟨⟨_, rfl⟩, ⟨rfl, rfl, rfl⟩, ?_, ?_, ?_, rfl⟩
  · unfold Io.fifoOk; decide +kernel
  · unfold Io.markOk; decide +kernel
  · unfold Io.roomOk; decide +kernel

theorem witness_CommandRingBounded : (∃ t, step base = .next t) ∧ base.io.ringOk := by
  refine ⟨⟨_, rfl⟩, ?_⟩; unfold Io.ringOk; decide +kernel

theorem witness_TimeAndQueueKept : (∃ t, exec (.refWtrExpiry 0) base = .next t) ∧ kindOf (.refWtrExpiry 0) ≠ .supply := ⟨⟨_, rfl⟩, by decide +kernel⟩

theorem witness_HostRegistersKept : (∃ t, exec (.cmdSysInfo (ent [])) base = .next t) ∧ kindOf (.cmdSysInfo (ent [])) = .command ∧
    (∃ t, exec (.refWtrExpiry 0) base = .next t) ∧ kindOf (.refWtrExpiry 0) = .event := ⟨⟨_, rfl⟩, rfl, ⟨_, rfl⟩, rfl⟩

/-- A device that asks for nothing, and one that stores in DRAM: each hypothesis of the frame on some device. -/
theorem witness_CommitFrame :
    (∀ x ∈ (base.dev.follow base.env).out, x.storing = false ∧ x.setting = false ∧ x.finishing = false ∧ x.entering = false) ∧ base.mem.wf = true ∧
    (∀ x ∈ ((base.dev.emit (.dram 0x1000 [1, 2])).follow base.env).out, x.storing = true) ∧
    ((base.dev.emit (.dram 0x1000 [1, 2])).follow base.env).out = [.dram 0x1000 [1, 2]] := by decide +kernel

theorem witness_RefusalFrame :
    holds (ioOf fun io => { io with inflight := [⟨0x0101, canonEntry (ent []), 0, false, 0, false⟩] })
      (fun s => s.io.inflight.any (isWaiting formSysInfo.op (canonEntry (ent []))) = true ∧ s.io.cplRing.wf = true) ∧ Status.state ≠ .internal := by decide +kernel

/-- The boundary of OVERRUN lies at 64 entries, that of BAD_HEAD at the completions unread. -/
theorem witness_RingPointers :
    holds base (fun s => s.dev.deaf = false ∧ s.io.excludes .pcie = false ∧ ((64#32).setWidth 7 - s.io.cmdHead : RingPtr).toNat ≤ 64) ∧
    holds base (fun s => 64 < ((65#32).setWidth 7 - s.io.cmdHead : RingPtr).toNat) ∧
    holds (ioOf fun io => { io with cplTail := 3 }) (fun s => ((3#32).setWidth 7 - s.io.cplHead : RingPtr).toNat ≤ s.io.unread) ∧
    holds (ioOf fun io => { io with cplTail := 3 }) (fun s => s.io.unread < ((4#32).setWidth 7 - s.io.cplHead : RingPtr).toNat) := by decide +kernel

theorem witness_PortExclusion :
    holds (ioOf fun io => { io with mbxPort := 1 }) (fun s => s.dev.deaf = false ∧ s.io.excludes .mgp = true ∧ restricted 0x8FFC = true ∧ 0x8FFC % 4 = 0) ∧
    holds base (fun s => s.io.mbxPort = 0 ∧ (2#32).setWidth 2 ≠ (3 : BitVec 2)) ∧
    holds (ioOf fun io => { io with mbxPort := 1 }) (fun s => s.io.mbxPort ≠ 0 ∧ s.io.excludes .pcie = false ∧ s.io.cmdHead = s.io.cmdTail ∧ s.io.cplHead = s.io.cplTail) ∧
    holds (ioOf fun io => { io with mbxPort := 1, cmdTail := 1 }) (fun s => s.io.mbxPort ≠ 0 ∧ s.io.cmdHead ≠ s.io.cmdTail) := by decide +kernel

theorem witness_Consumption :
    holds (ioOf fun io => { io with cmdTail := 1 }) (fun s => s.dev.deaf = false ∧ s.io.cmdHead ≠ s.io.cmdTail ∧ s.io.mbxState = .ready ∧ s.io.outstanding < 64) ∧
    holds (ioOf fun io => { io with cmdTail := 1, mbxState := .activating, cplTail := 63 }) (fun s => s.io.mbxState = .activating ∧ s.io.outstanding < 64) ∧
    holds (ioOf fun io => { io with cmdTail := 1, mbxState := .fault }) (fun s => s.io.mbxState = .fault ∧ s.io.outstanding < 64) ∧
    holds (ioOf fun io => { io with cmdTail := 1, cplTail := 64 }) (fun s => s.io.cmdHead ≠ s.io.cmdTail ∧ 64 ≤ s.io.outstanding) := by decide +kernel

theorem witness_CompletionEntry : base.io.cplRing.wf = true ∧ 0xFFFF < 2 ^ 16 := by decide +kernel

theorem witness_EventRegisters :
    holds base (fun s => s.dev.deaf = false ∧ s.io.excludes .mgp = false ∧ (2#32).toNat % 8 = 2 ∧ s.io.runMode = false) ∧
    holds (ioOf fun io => { io with markHit := true }) (fun s => s.io.markHit = true ∧ s.io.markCond = false) ∧
    holds (ioOf fun io => { io with markHit := true, runMode := true, evtMark := 1, evts := [⟨0, 0, 0, 0, 0, []⟩] })
      (fun s => s.io.markHit = true ∧ s.io.markCond = true) := by decide +kernel

theorem witness_AccessRows :
    holds (ioOf fun io => { io with msgDue := [11] }) (fun s => s.dev.deaf = false ∧ s.io.msgDue.contains 11 = true ∧ s.io.msixPending.contains (s.io.vec 11).toNat = false) ∧
    holds (ioOf fun io => { io with msixPending := [0] }) (fun s => s.io.msgDue.contains 0 = false ∧ s.io.msixPending.contains (s.io.vec 0).toNat = true) ∧
    holds base (fun _ => debugRegion 0xD0000 = some (some domCrypto)) ∧ holds (offDom 0x41 base) (fun _ => keySlotWord 0xD1FFC = false) ∧
    holds (offDom 0x41 base) (fun s => s.debugFaults 0xD1FFC = true ∧ s.io.intStatus &&& bit16 intAccessFault = 0) ∧
    holds (offDom 0x30 base) (fun s => s.dev.domOn (domStack 0) = false) ∧
    holds base (fun s => s.dev.inService = true ∧ s.dev.anyStack = true ∧ 0x3FFFFFFF + [(0 : Byte)].length ≤ 2 ^ 30 ∧ s.mem.wf = true) := by decide +kernel

theorem witness_RegisterMap : holds base (fun s => s.dev.deaf = false ∧ s.io.excludes .pcie = false ∧ s.io.cmdRing.wf = true) := by decide +kernel

theorem witness_MgpTransactions : holds base (fun s => s.dev.deaf = false ∧ debugRegion (4 * (2 ^ 18 - 1)) = none) := by decide +kernel

/-! ### Hypotheses of the statements: supply, power, parameters, Seam -/

theorem witness_ResetRows :
    holds (pwOf fun p => { p with state := .off }) (fun s => s.dev.pw.state = .off ∧ s.dev.pw.ovShut = false ∧ s.dev.pw.hotShut = false) ∧
    holds base (fun s => s.dev.pw.state ≠ .off) ∧ holds (pwOf fun p => { p with state := .off, ovShut := true }) (fun s => s.dev.pw.ovShut = true) ∧
    holds (pwOf fun p => { p with resetDue := true }) (fun s => s.dev.pw.resetDue = true) ∧
    holds (pwOf fun p => { p with state := .off, hotShut := true }) (fun s => s.dev.pw.hotShut = true) ∧
    holds (pwOf fun p => { p with state := .calm }) (fun s => s.dev.pw.state = .calm ∨ s.dev.pw.state = .service) ∧
    holds (pwOf fun p => { p with state := .doldrums, wakeSources := 3, addrStrap := 7 }) (fun s => s.dev.pw.state = .doldrums ∧
      bitAt s.dev.pw.wakeSources 1 = true ∧ bitAt s.dev.pw.wakeSources 0 = true ∧ (0x5F : BitVec 7).toNat = 0x58 + s.dev.pw.addrStrap.toNat ∧ s.dev.pw.armedAt ≤ s.now) ∧
    holds (pwOf fun p => { p with state := .doldrums, wakeSources := 3, armedAt := 1 }) (fun s => bitAt s.dev.pw.wakeSources 1 = true ∧ s.now < s.dev.pw.armedAt) := by
  decide +kernel

theorem witness_SupplyEvents :
    holds (pwOf fun p => { p with ilimit := true }) (fun s => s.dev.pw.ilimit = true ∧ s.dev.rails = true ∧ s.env.frelvo = true) ∧
    holds (pwOf fun p => { p with state := .off }) (fun s => s.dev.rails = false) ∧
    holds (pwOf fun p => { p with ilimit := true, state := .calm }) (fun s => s.dev.pw.ilimit = true ∧ s.dev.pw.state = .calm ∧ s.env.frelvo = true) ∧
    holds (pwOf fun p => { p with ilimit := true }) (fun s => s.dev.pw.ilimit = true ∧ s.dev.inService = true) ∧
    holds (at_ (sec + 4) (pwOf fun p => { p with squallAt := some 5 })) (fun s => s.dev.inService = true ∧
      (∀ x ∈ s.dev.pw.squallAt, s.now < x + sec) ∧ s.dev.pw.squallAt ≠ none) ∧
    holds (at_ (60 * sec) (pwOf fun p => { p with boost := true, boostRuns := [(0, 20 * sec)] })) (fun s => s.dev.pw.boost = true ∧ s.dev.pw.boostSpent = false ∧
      20000 ≤ s.dev.pw.boostUsed s.now) ∧
    holds (at_ (60 * sec + ms) (pwOf fun p => { p with boostSpent := true, boostRuns := [(0, 20 * sec)] })) (fun s => s.dev.pw.boostUsed s.now < 20000) ∧ 200 < (-201 : Int).natAbs := by decide +kernel

theorem witness_ThermalGovernor :
    holds base (fun s => s.dev.rails = true ∧ s.env.frelvo = true ∧ s.par.val pThermThrottle * 10 = 1050 ∧ (1049 : Int) < 1050 ∧ (1050 - 50 : Int) ≤ 1000 ∧
      s.dev.pw.throttle = false ∧ s.dev.inService = true ∧ s.dev.pw.tripped = false) ∧
    holds (pwOf fun p => { p with throttle := true, state := .calm }) (fun s => s.dev.pw.throttle = true ∧ s.dev.inService = false ∧ s.dev.pw.tripped = false ∧
      (999 : Int) < s.par.val pThermThrottle * 10 - 50 ∧ s.par.val pThermThrottle * 10 - 50 ≤ (1150 : Int)) ∧
    holds (pwOf fun p => { p with throttle := true }) (fun s => s.dev.pw.throttle = true ∧ s.dev.inService = true ∧ s.dev.pw.tripped = false) := by decide +kernel

theorem witness_FrelvoRestarts :
    holds (ioOf fun io => { io with mbxState := .fault }) (fun s => s.dev.rails = true ∧ s.dev.pw.inReset = false ∧ s.io.mbxState = .fault) ∧
    holds (ioOf fun io => { io with mbxState := .booting }) (fun s => s.io.mbxState = .booting) ∧
    holds (ioOf fun io => { io with mbxState := .activating }) (fun s => s.io.mbxState = .activating ∧ s.dev.boot.activating = none) ∧
    holds (at_ (60 * sec) (dv fun d => { d with boot := { d.boot with expiryAt := some 0 } })) (fun s => s.io.mbxState = .ready ∧ s.dev.boot.activating = none ∧
      (∀ x ∈ s.dev.boot.expiryAt, x + 60 * sec ≤ s.now)) ∧
    holds (at_ (60 * sec - 1) (dv fun d => { d with boot := { d.boot with expiryAt := some 0 } })) (fun s =>
      (∀ x ∈ s.dev.boot.expiryAt, s.now < x + 60 * sec)) := by decide +kernel

theorem witness_PowerCommands :
    let calm := pwOf fun p => { p with state := .calm, dom := [] }
    let traffic := txIs (fun t => { t with state := .on }) base
    meets formSysInfo (ent []) base any ∧ meets formSysReset (ent []) base any ∧ meets formPowerStatus (ent []) base any ∧
    meets formPowerState (ent [2]) base (fun s => s.dev.pw.queued = false ∧ s.dev.pw.transEnd ≤ s.now ∧ s.dev.inService = true) ∧
    meets formPowerState (ent [2]) calm (fun s => s.dev.inService = false ∧ s.dev.tooHot = false ∧ s.dev.pw.recorded.get .off 0x30 = .on) ∧
    meets formPowerState (ent [2]) { calm with dev := { calm.dev with pw := { calm.dev.pw with ilimit := true } } } (fun s => s.dev.inService = false ∧
      s.dev.tooHot = false ∧ s.dev.pw.recorded.get .off 0x30 = .on ∧ s.dev.pw.ilimit = true ∧ s.dev.pw.state = .calm) ∧
    meets formPowerState (ent [2]) { calm with dev := { calm.dev with pw := { calm.dev.pw with tjCore := 1151, tripped := true } } } (fun s => s.dev.tooHot = true) ∧
    meets formPowerState (ent [1]) calm (fun s => s.dev.inService = false) ∧
    meets formPowerState (ent [1]) base (fun s => s.dev.inService = true ∧ ∀ n ∈ carriers, (s.dev.tx n).state = .dark) ∧
    meets formPowerState (ent [0]) traffic (fun s => s.dev.inService = true ∧ (∃ n ∈ carriers, (s.dev.tx n).state ≠ .dark) ∧ force (ent [0]) = false) ∧
    meets formPowerState (ent [0]) (withPar [(pWakeSources, 3)] calm) (fun s => s.par.val pWakeSources ≠ 0 ∧ s.dev.tooHot = false) ∧
    meets formPowerState (ent [0]) (withPar [(pWakeSources, 0)] calm) (fun s => s.par.val pWakeSources = 0) ∧
    meets formPowerState (ent [0]) (pwOf fun p => { p with transEnd := 1 }) (fun s => s.dev.pw.queued = false ∧ s.now < s.dev.pw.transEnd) ∧
    meets formDomainSet (ent [1, 0x41, 2]) base (fun s => domFault (ent [1, 0x41, 2]) = none ∧ s.dev.inService = true ∧
      (∀ m ∈ domEntries (ent [1, 0x41, 2]), m.2 = .on) ∧ stacksIn (recordAll s.dev.pw.dom (domEntries (ent [1, 0x41, 2]))) ≠ 0) ∧
    meets formDomainSet (ent [1, 0, 0]) traffic (fun s => domFault (ent [1, 0, 0]) = none ∧ stacksIn (recordAll s.dev.pw.dom (domEntries (ent [1, 0, 0]))) ≠ 0 ∧
      ∃ m ∈ domEntries (ent [1, 0, 0]), m.2 ≠ .on ∧ m.2 ≠ s.dev.domState m.1 ∧ s.dev.depends m.1 = true) ∧
    meets formPowerState (ent [1]) (pwOf fun p => { p with queued := true }) (fun s => s.dev.pw.queued = true) ∧
    meets formDomainSet (ent [1, 0xFF, 0]) base (fun _ => domFault (ent [1, 0xFF, 0]) = some 0) ∧
    holds (withPar [(pWakeSources, 0)] (pwOf fun p => { p with state := .calm, queued := true })) (fun s => s.dev.pw.queued = true ∧ s.par.val pWakeSources = 0) ∧
    holds (withPar [(pWakeSources, 3)] (pwOf fun p => { p with state := .calm, queued := true })) (fun s => s.dev.pw.queued = true ∧ s.dev.pw.state = .calm ∧
      s.par.val pWakeSources ≠ 0 ∧ s.dev.tooHot = false) := by decide +kernel

theorem witness_ParameterCommands :
    meets formParamSet (ent (pl 13 [1, 0x22, 0x02, 0, 0, 3])) base (fun s =>
      s.dev.setAll 0 ((List.range 1).map (setEntry (ent (pl 13 [1, 0x22, 0x02, 0, 0, 3])))) s.par = ([(0x0222, 3)], none)) ∧
    meets formParamSet (ent (pl 13 [1, 0xFF, 0xFF])) base (fun s =>
      (s.dev.setAll 0 ((List.range 1).map (setEntry (ent (pl 13 [1, 0xFF, 0xFF])))) s.par).2 = some (0, .badParam)) ∧
    meets formParamGet (ent [1, 0x22, 0x02]) base (fun _ => (paramSpec (u16 (ent [1, 0x22, 0x02]) 1)).any fun sp => decide (sp.cls ≠ .measured)) ∧
    meets formParamGet (ent [1, 0xFF, 0xFF]) base (fun _ => paramSpec (u16 (ent [1, 0xFF, 0xFF]) 1) = none) ∧
    knownOpcodes.contains 0x1000 = false ∧ meets (form 0x1000 .own []) (ent []) base any := by decide +kernel

theorem witness_SeamRows :
    let failedLink := dv fun d => { d.updCarrier 0 fun c => { c with heldDown := true } with seam := [(0, { Seam.reset with failed := true })] }
    let again := dv fun d => { d with seam := [(0, { Seam.reset with failed := true })] }
    holds base (fun s => s.dev.inService = true ∧ s.dev.seamSpent 0 = false ∧ (s.dev.seamAt 0).window ≤ 10000) ∧
    holds again (fun s => (s.dev.seamAt 0).failed = true ∧ s.dev.seamSpent 0 = false) ∧
    holds { failedLink with dev := failedLink.dev.updCarrier 1 fun c => { c with heldDown := true } } (fun s => s.dev.inService = true ∧ s.dev.seamSpent 0 = true) ∧
    holds (dv fun d => { d with seam := [(0, { Seam.reset with window := 10001, badWindows := 1 })] })
      (fun s => s.dev.seamSpent 0 = false ∧ 10000 < (s.dev.seamAt 0).window ∧ (s.dev.seamAt 0).badWindows < 2) ∧
    holds (dv fun d => { d with seam := [(0, { Seam.reset with window := 10001, badWindows := 2 })] })
      (fun s => s.dev.seamSpent 0 = false ∧ 10000 < (s.dev.seamAt 0).window ∧ 2 ≤ (s.dev.seamAt 0).badWindows) ∧
    meets formCarrierRecover (ent [0]) failedLink (fun s => s.dev.inService = true ∧ (s.dev.carrier 0).heldDown = true ∧ s.dev.domOn 0 = true) := by decide +kernel

/-! ### Hypotheses of the statements: line transmit and receive -/

theorem witness_TransmitEvents :
    let tx := fun f => txIs f base
    holds (tx fun t => { t with state := .starting, txok := true }) (fun s => (s.dev.tx 0).state = .starting ∧ (s.dev.tx 0).txok = true ∧ (s.dev.tx 0).causes = 0) ∧
    holds (tx fun t => { t with state := .rampUp }) (fun s => (s.dev.tx 0).state = .rampUp) ∧
    holds (tx fun t => { t with state := .rampDown, rampToDark := true }) (fun s => (s.dev.tx 0).state = .rampDown ∧ (s.dev.tx 0).rampToDark = true) ∧
    holds (tx fun t => { t with state := .rampDown }) (fun s => (s.dev.tx 0).state = .rampDown ∧ (s.dev.tx 0).rampToDark = false) ∧
    holds (tx fun t => { t with state := .on }) (fun s => (s.dev.tx 0).state = .on ∧ (s.dev.tx 0).muteInterlock = false ∧ (s.dev.tx 0).mutePresence = false) ∧
    holds base (fun s => (s.dev.tx 0).state = .dark) ∧
    holds (withPar [(pTxIlAuto, 1)] (tx fun t => { t with state := .muted, muteInterlock := true, txok := true })) (fun s => s.par.on (pTxIlAuto + 0) = true ∧ (s.dev.tx 0).txok = true ∧
      (s.dev.tx 0).state = .muted ∧ { s.dev.tx 0 with muteInterlock := false }.causes = 0) ∧
    holds (tx fun t => { t with state := .starting }) (fun s => (s.dev.tx 0).state = .starting ∧ (s.dev.tx 0).txok = false ∧ (s.dev.tx 0).muteInterlock = false) ∧
    holds (tx fun t => { t with state := .muted, muteClock := true }) (fun s => (s.dev.tx 0).state = .muted ∧ { s.dev.tx 0 with muteClock := false }.causes = 0) ∧
    holds ready0 (fun s => (s.dev.tx 0).op = some pt ∧ pt.profile = 0) ∧
    holds (tx fun t => { t with op := some ⟨1, 64, 256⟩ }) (fun s => (s.dev.tx 0).op = some ⟨1, 64, 256⟩) := by decide +kernel

theorem witness_TransmitCommands :
    let on := ent [0, 1]
    let off := ent [0, 0]
    let st := fun x => txIs (fun t => { t with state := x, txok := true }) base
    let dac := { ready0 with dev := ready0.dev.updCal 0 fun k => { k with dacDone := true } }
    meets formTxEnable on (offDom 0 base) (fun s => s.dev.inService = true ∧ (s.dev.tx 0).present = true ∧ (s.dev.carrier 0).heldDown = false ∧ s.dev.domOn 0 = false) ∧
    meets formTxEnable on base (fun s => s.dev.domOn 0 = true ∧ (s.dev.tx 0).op = none) ∧
    meets formTxEnable on dac (fun s => (s.dev.tx 0).op.isSome = true ∧ s.dev.dacCalDone 0 = true ∧ (s.dev.tx 0).state = .dark) ∧
    meets formTxEnable on (txIs (fun t => { t with state := .on }) dac) (fun s => s.dev.dacCalDone 0 = true ∧ (s.dev.tx 0).state ≠ .dark) ∧
    meets formTxEnable off (withBundle (fun b => { b with st := .enabled }) base) (fun s => s.dev.anyBundleEnabled 0 = true) ∧
    meets formTxEnable off (offDom 0 (st .dark)) (fun s => s.dev.anyBundleEnabled 0 = false ∧ s.dev.domState 0 = .off) ∧
    meets formTxEnable off (st .muted) (fun s => s.dev.anyBundleEnabled 0 = false ∧ s.dev.domState 0 ≠ .off ∧ (s.dev.tx 0).state = .muted) ∧
    meets formTxEnable off (st .on) (fun s => s.dev.anyBundleEnabled 0 = false ∧ s.dev.domState 0 ≠ .off ∧ (s.dev.tx 0).state = .on) ∧
    meets formTxMute on (st .on) (fun s => s.dev.domState 0 ≠ .off ∧ (s.dev.tx 0).state = .on) ∧ meets formTxMute on (st .muted) (fun s => (s.dev.tx 0).state = .muted) ∧
    meets formTxMute off (st .muted) (fun s => (s.dev.tx 0).txok = true ∧ (s.dev.tx 0).mutePresence = false ∧ (s.dev.tx 0).muteClock = false) ∧
    meets formTxCoefLoad (ent (pl 16 [0, 0, 47, 1])) base (fun s => txCoefFault (ent (pl 16 [0, 0, 47, 1])) = none ∧ s.dev.domState 0 ≠ .off ∧ s.dev.txTableGranted 0 0 = false) ∧
    meets formTxCoefLoad (ent (pl 10 [0, 1, 67, 1])) base (fun _ => txCoefFault (ent (pl 10 [0, 1, 67, 1])) = none) ∧
    meets formTxCoefLoad (ent (pl 16 [0, 0, 48, 1])) base (fun _ => txCoefFault (ent (pl 16 [0, 0, 48, 1])) = some 10) ∧
    meets formTxMute on (offDom 0 (st .on)) (fun s => s.dev.domState 0 = .off) ∧
    meets formTxStatus (ent [0]) (offDom 0 base) (fun s => s.dev.domState 0 = .off) ∧
    meets formTxStatus (ent [3]) base (fun s => s.dev.domState 3 ≠ .off) ∧ meets formCpSpi (ent [0, 1, 0x9F]) base (fun s => (s.dev.tx 0).present = true) ∧
    meets formCpSpi (ent [0, 1, 0x9F]) (txIs (fun t => { t with present := false }) base) (fun s => (s.dev.tx 0).present = false) := by decide +kernel

theorem witness_DispersionCommands :
    let e := ent (pl 12 [0, 0, 64, 0, 0, 1])
    let reach := fun lo hi => ent ([0, 0, 0, 0] ++ leBytes 4 lo ++ leBytes 4 hi)
    meets formCarrierSet e base (fun s => csProfile e = 0 ∧ targetPoint (csSlots e) (csMode1 e) (csEntropy e) (csRate e) = pt ∧ layoutFault (payload e) (csLayout e) = none ∧
      pointFault s.env 0 pt (csMode1 e) (csEntropy e) = none ∧ (s.dev.tx 0).state = .dark ∧ s.dev.bundleAbove 0 64 = false ∧ (s.dev.rx 0).build = none ∧
      (s.dev.rx 0).restoring = false ∧ s.dev.stepAdds 0 pt.slots = 0 ∧
      (lastsForPoint s.env 0 5 true s.dev).isSome = true) ∧
    meets formCarrierSet e (offDom 0x30 (offDom 0x31 (withBundle (fun b => { b with elastic := true, buffered := true }) base))) (fun s =>
      s.dev.inService = true ∧ 0 < s.dev.stepAdds 0 pt.slots ∧ fitsBandwidth s.dev.stacksFor (s.dev.bufferedChans + s.dev.stepAdds 0 pt.slots) s.dev.protectedChans = false) ∧
    meets formCarrierSet e (txIs (fun t => { t with state := .on }) base) (fun s => (s.dev.tx 0).state ≠ .dark) ∧
    meets formCarrierSet e (dv fun d => d.setLasts ((List.range 32).drop 4) (.active 1)) (fun s => lastsForPoint s.env 0 5 true s.dev = none) ∧
    meets formCdReach (reach 0 200000) (rxIs (fun r => { r with op := some ⟨0, 90, 256⟩ }) ready0) (fun s => s.dev.inService = true ∧ s.dev.domOn 0 = true ∧
      i32 (reach 0 200000) 4 ≤ i32 (reach 0 200000) 8 ∧ 20 < (⟨0, 90, 256⟩ : OpPoint).need 0 200000) ∧
    meets formCdReach (reach 1000 2000) locked0 (fun s => s.dev.locked 0 = true ∧ (s.dev.rx 0).cd < 1000 ∧ s.dev.rateBusy 0 = false) ∧
    meets formCdReach (reach 0 80000) locked0 (fun s => s.dev.locked 0 = true ∧ 0 ≤ (s.dev.rx 0).cd ∧ (s.dev.rx 0).cd ≤ 80000 ∧ pt.need 0 80000 = s.dev.setSize 0) ∧
    meets formCdReach (reach 0 40000) locked0 (fun s => pt.profile = 0 ∧ pt.need 0 40000 ≠ s.dev.setSize 0 ∧ (s.dev.allocShadow s.env 0 (pt.need 0 40000)).isSome = true) ∧
    meets formCdReach (reach 2 1) base (fun _ => i32 (reach 2 1) 8 < i32 (reach 2 1) 4) ∧ meets formLastStatus (ent []) base any := by decide +kernel

theorem witness_DispersionEvents :
    let b : Build := ⟨.recentre, false, 0, false⟩
    let report : SearchReport := ⟨[1, 5, 1], 1, [List.replicate 10 1 ++ [5] ++ List.replicate 10 1]⟩
    let thr := withPar [(pRxLosThr, 5)]
    holds (thr ready0) (fun s => (s.dev.rx 0).los = false ∧ s.dev.domOn 0 = true ∧ (s.dev.rx 0).op.isSome = true ∧ 499 < 100 * s.par.nat (pRxLosThr + 0)) ∧
    holds (thr (rxIs (fun r => { r with los := true }) ready0)) (fun s => (s.dev.rx 0).los = true ∧ (s.dev.rx 0).rebuild = false ∧
      (100 * s.par.nat (pRxLosThr + 0)) ^ 20 * 10 ^ 3 ≤ 1000 ^ 20) ∧
    holds (thr (rxIs (fun r => { r with los := true, rebuild := true }) ready0)) (fun s => (s.dev.rx 0).los = true ∧ (s.dev.rx 0).rebuild = true) ∧
    holds (rxIs (fun r => { r with lo := 0, hi := 100, step := 50 }) base) (fun s => (s.dev.rx 0).candidatesOf report = [50] ∧ (s.dev.rx 0).candidatesOf ⟨[], 1, []⟩ = []) ∧
    holds (withRun .builder (some 0) (rxIs (fun r => { r with build := some b }) locked0)) (fun s => (s.dev.rx 0).build = some b ∧ s.dev.runPlaced .builder 0 = true ∧
      s.dev.locked 0 = true ∧ (s.dev.rx 0).restoring = false ∧ (s.dev.endRun .builder 0).locked 0 = true) ∧
    holds (withRun .builder (some 0) (rxIs (fun r => { r with restoring := true }) locked0)) (fun s => (s.dev.rx 0).restoring = true ∧ s.dev.runPlaced .builder 0 = true) ∧
    holds (rxIs (fun r => { r with build := some { b with loaded := true } }) locked0) (fun s => (s.dev.rx 0).build = some { b with loaded := true } ∧ s.dev.locked 0 = true) ∧
    holds (rxIs (fun r => { r with short := true }) ready0) (fun s => (s.dev.rx 0).short = true ∧ (s.dev.rx 0).build = none ∧ s.dev.domOn 0 = true ∧
      (s.dev.allocActive s.env 0 (s.dev.needOf 0)).isSome = true) ∧
    holds (withRun .search (some 0) (rxIs (fun r => { r with acq := .search }) ready0)) (fun s => (s.dev.rx 0).acq = .search ∧ s.dev.runPlaced .search 0 = true) ∧
    holds locked0 (fun s => s.dev.locked 0 = true ∧ (s.dev.rx 0).recentreDeferred = false ∧
      pt.trimWithin (max (-pt.trimMax) (min pt.trimMax ((s.dev.rx 0).dT + max (-50) (min 50 60)))) 80 = true) := by decide +kernel

theorem witness_AcquisitionEvents :
    let at_ := fun a => rxIs (fun r => { r with acq := a }) ready0
    let at_' := fun t (s : State) => { s with now := t }
    let none0 := dv fun d => { ready0.dev with pw := { d.pw with dom := d.pw.dom.filter fun kv => decide (kv.1 < 0x20) } }
    holds ready0 (fun s => (s.dev.rx 0).acq = .down ∧ s.dev.canAcquire 0 = true ∧
      (Dev.startRun ((s.dev.fecCapture s.env 0).endRun .search 0) s.env .search 0).runPlaced .search 0 = true) ∧
    holds none0 (fun s => s.dev.canAcquire 0 = true ∧ (Dev.startRun ((s.dev.fecCapture s.env 0).endRun .search 0) s.env .search 0).runPlaced .search 0 = false) ∧
    holds (withRun .builder (some 0) (rxIs (fun r => { r with acq := .load, build := some ⟨.candidate, false, 0, false⟩ }) ready0))
      (fun s => (s.dev.rx 0).build = some ⟨.candidate, false, 0, false⟩ ∧ (s.dev.rx 0).acq = .load ∧ s.dev.runPlaced .builder 0 = true) ∧
    holds (rxIs (fun r => { r with foRange := 3000 }) (at_ .coarse)) (fun s => (s.dev.rx 0).acq = .coarse ∧ 0 < (centroid [(3000, 2)]).2 ∧
      (centroid [(3000, 2)]).1.natAbs ≤ (s.dev.rx 0).foRange * (centroid [(3000, 2)]).2 ∧
      (s.dev.rx 0).foRange * (centroid [(-3001, 2)]).2 < (centroid [(-3001, 2)]).1.natAbs) ∧
    holds (at_ .preconverge) (fun s => (s.dev.rx 0).acq = .preconverge) ∧ holds (at_ .pilotSync) (fun s => (s.dev.rx 0).acq = .pilotSync ∧
      (s.dev.rx 0).op = some pt ∧ pilotAccepted ⟨0, [1], []⟩ = none) ∧
    holds (rxIs (fun r => { r with op := some ⟨1, 64, 256⟩ }) (at_ .pilotSync)) (fun s => (s.dev.rx 0).op = some ⟨1, 64, 256⟩) ∧
    holds (at_ .track) (fun s => (s.dev.rx 0).acq = .track ∧ ∀ w ∈ List.replicate 16 (⟨204, 150000, 49, 0, 499⟩ : PilotWindow),
      w.errs * 100 < 5 * 4096 ∧ w.timing.natAbs ≤ 150000 ∧ w.resid.natAbs < 50 ∧ w.corr < 500) ∧
    holds locked0 (fun s => s.dev.locked 0 = true ∧ lolCause (List.replicate 4 ⟨615, 0, 0, 0, 0⟩) = some .pilotBer ∧ lolCause [⟨4096, 199999, 0, 4999, 1000⟩] = none) ∧
    holds locked0 (fun _ => 8192 ≤ ((8192 : BitVec 16) - (0 : BitVec 16)).toInt.natAbs ∧ ((8191 : BitVec 16) - (0 : BitVec 16)).toInt.natAbs < 8192) ∧ holds (at_ .search) (fun s => (s.dev.rx 0).acq = .search) ∧
    holds (at_ .wait) (fun s => (s.dev.rx 0).acq = .wait ∧ s.dev.runWaiting .search 0 = false) ∧
    holds locked0 (fun s => s.dev.locked 0 = true ∧ (s.dev.rx 0).repeatDue s.now = true ∧ (s.dev.rx 0).pilotSeed ≠ 0) ∧
    holds (at_' sec (rxIs (fun r => { r with repeatAt := some (sec - 100) }) locked0)) (fun s => (s.dev.rx 0).repeatDue s.now = false) ∧
    holds (at_' sec (withPar [(pRxNlcMode, 1)] locked0)) (fun s => s.par.val (pRxNlcMode + 0) = 1 ∧ (s.dev.rx 0).nlcTraining = false ∧ (s.dev.rx 0).op = some pt ∧
      (s.dev.rx 0).lockedSince + sec ≤ s.now ∧ (s.dev.rx 0).trainFrom ≤ s.now) ∧
    holds (withRun .trainer (some 0) (rxIs (fun r => { r with nlcTraining := true }) locked0)) (fun s => (s.dev.rx 0).nlcTraining = true ∧
      s.dev.runPlaced .trainer 0 = true) ∧
    holds (rxIs (fun r => { r with nlc := { r.nlc with fading := some ([], none) } }) locked0) (fun s => (s.dev.rx 0).nlc.fading.isSome = true) := by decide +kernel

theorem witness_ReceiveCommands :
    let full := ent [0, 1]
    let fast := ent [0, 0]
    meets formRxStatus (ent [0]) base (fun s => s.dev.domState 0 ≠ .off) ∧ meets formRxStatus (ent [0]) (offDom 0 base) (fun s => s.dev.domState 0 = .off) ∧
    meets formRxReacquire full base (fun s => s.dev.inService = true ∧ (s.dev.carrier 0).heldDown = false ∧ s.dev.domOn 0 = true ∧ (s.dev.rx 0).op = none) ∧
    meets formRxReacquire full { locked0 with dev := locked0.dev.updRate 0 fun r => { r with st := .prepare } } (fun s => (s.dev.rx 0).op.isSome = true ∧ s.dev.rateBusy 0 = true) ∧
    meets formRxReacquire full (withBundle (fun b => { b with st := .enabled }) locked0) (fun s => s.dev.rateBusy 0 = false ∧ (s.dev.rx 0).build = none ∧ (s.dev.rx 0).restoring = false ∧
      s.dev.locked 0 = true ∧ s.dev.anyBundleEnabled 0 = true) ∧
    meets formRxReacquire full ready0 (fun s => (s.dev.rx 0).los = false ∧ s.dev.locked 0 = false) ∧ meets formRxReacquire fast ready0 (fun s => s.dev.locked 0 = false) ∧
    meets formRxNlcLoad (ent (pl 16 [0, 0, 95, 1])) (withPar [(pRxNlcMode, 2)] base) (fun s => nlcLoadFault (ent (pl 16 [0, 0, 95, 1])) = none ∧
      s.par.val (pRxNlcMode + 0) = 2 ∧ s.dev.domOn 0 = true) ∧
    meets formRxNlcLoad (ent (pl 16 [0, 0, 95, 1])) base (fun s => s.par.val (pRxNlcMode + 0) ≠ 2) := by decide +kernel

/-- Where one combination is right, a report of enough pilots is accepted. -/
theorem pilotAccepted_of (b : List (List Bool)) (hl : ¬ (b.length < 1039)) (hp : decide ((comboResult b (false, 0, 0)).1 * 100 < 5 * 4096) = true) :
    ∃ c g, pilotAccepted ⟨0, [1], [b]⟩ = some (c, g) := by
  have hpos : pilotPosition ⟨0, [1], [b]⟩ = 0 := rfl
  have hc : pilotCombos = (false, 0, 0) :: pilotCombos.tail := rfl
  unfold pilotAccepted
  rw [hpos]
  simp only [List.getD_cons_zero]
  rw [if_neg hl, hc, List.map_cons, List.filter_cons, if_pos hp]
  exact ⟨_, _, rfl⟩

/-- A pilot report whose pilots are all one sign, which a generator of zeros predicts: some combination is accepted. -/
theorem witness_AcquisitionEvents_pilots : ∃ c g, pilotAccepted ⟨0, [1], [List.replicate 1039 (List.replicate 4 false)]⟩ = some (c, g) :=
  pilotAccepted_of _ (by decide +kernel) (by decide +kernel)

/-! ### Hypotheses of the statements: calibration, FEC, frame, bundles -/

/-- Reports of whole rounds on these converters. -/
def wholeRound (mask : Nat) : List ConvReport := (convs mask).map fun k => ⟨k, (List.range (positions k)).map fun i => (i, ⟨0, 0, 0, 0, 0, []⟩), 0, 0, 0⟩

theorem witness_Calibration :
    let idle := calIs (fun k => { k with phase := .idle }) base
    let hot := { idle with dev := { idle.dev with pw := { idle.dev.pw with tjCv0 := 301 } } }
    let run := fun kind => ent [0, kind, 0]
    holds (withPar [(pCalMode, 2)] idle) (fun s => (s.dev.cal 0).phase = .idle ∧ s.io.mbxState = .ready ∧ s.par.nat (pCalMode + 0) = 2 ∧ s.dev.canCalibrate 0 = true) ∧
    holds (withPar [(pCalMode, 1), (pCalTempTrig, 30)] hot) (fun s => s.par.nat (pCalMode + 0) = 1 ∧
      10 * s.par.nat (pCalTempTrig + 0) < (s.dev.convTemp 0 - (s.dev.cal 0).prevTemp).natAbs) ∧
    holds (at_ (3600 * sec) (withPar [(pCalMode, 1), (pCalTempTrig, 30), (pCalPeriod, 3600)] (calIs (fun k => { k with prevTemp := 250 }) idle))) (fun s =>
      (s.dev.convTemp 0 - (s.dev.cal 0).prevTemp).natAbs ≤ 10 * s.par.nat (pCalTempTrig + 0) ∧ (s.dev.cal 0).prevEnd + s.par.nat (pCalPeriod + 0) * sec ≤ s.now) ∧
    holds (withPar [(pCalMode, 0)] base) (fun s => s.par.nat (pCalMode + 0) = 0) ∧
    holds (calIs (fun k => { k with fsDue := [(0, 0xFF)] }) idle) (fun s => s.io.mbxState = .ready ∧ (s.dev.cal 0).fsDue = [(0, 0xFF)] ∧ 0 ≤ s.now ∧
      (s.dev.cal 0).phase = .idle ∧ s.dev.canCalibrate 0 = true) ∧
    holds (calIs (fun k => { k with phase := .round, mask := 0xFF, left := 0xFF, action := 0 }) base) (fun s => (s.dev.cal 0).phase = .round ∧ (s.dev.cal 0).action = 0 ∧
      roundWhole (s.dev.cal 0).left (wholeRound 0xFF) = true ∧ roundPart 1 (wholeRound 2) = false) ∧ holds idle (fun s => (s.dev.cal 0).phase = .idle) ∧
    holds (at_ (131072 * 1000) (withPar [(pCalApply, 16)] (calIs (fun k => k.updConv 4 fun v => { v with applySince := some 0 }) base))) (fun s =>
      ((s.dev.cal 0).convAt 4).applied s.now (s.par.nat (pCalApply + 0)) = true ∧ ((s.dev.cal 0).convAt 5).applied s.now (s.par.nat (pCalApply + 0)) = false) ∧
    holds (calIs (fun k => { k with dacBusy := true, dacMask := 0xF0, action := 2 }) base) (fun s => (s.dev.cal 0).dacBusy = true ∧ (s.dev.cal 0).action = 2 ∧
      s.dev.domOn 0 = true ∧ dacWhole (s.dev.cal 0).dacMask (wholeRound 0xF0) = true) ∧
    meets formCalRun (run 0) (pwOf fun p => { p with state := .calm }) (fun s => s.dev.inService = false ∨ (s.dev.carrier 0).heldDown = true) ∧
    meets formCalRun (run 0) (offDom 0 base) (fun s => s.dev.inService = true ∧ (s.dev.carrier 0).heldDown = false ∧ s.dev.domOn 0 = false) ∧
    meets formCalRun (run 0) base (fun s => s.dev.domOn 0 = true) ∧ meets formCalRun (run 1) locked0 (fun s => s.dev.locked 0 = true) ∧
    meets formCalRun (run 2) base (fun s => (s.dev.tx 0).state = .dark ∧ (s.dev.cal 0).dacBusy = false) ∧
    meets formCalRun (run 2) (txIs (fun t => { t with state := .muted }) base) (fun s => (s.dev.tx 0).state ≠ .dark) ∧
    meets formCalRun (run 3) (calIs (fun k => { k with phase := .round }) base) (fun s => (s.dev.cal 0).phase = .round) ∧
    meets formCalStatus (ent [0, 7]) (offDom 0 base) (fun s => s.dev.domState 0 = .off) ∧
    meets formCalStatus (ent [0, 7]) idle (fun s => s.dev.domState 0 ≠ .off ∧ (s.dev.cal 0).phase = .idle ∧ (s.dev.cal 0).dacBusy = false) := by decide +kernel

theorem witness_ForwardErrorCorrection :
    let f := fun l => fecIs (fun f => { f with lock := l }) locked0
    let inj := fun i => fecIs (fun f => { f with inj := some i }) (f .locked)
    let e := ent (pl 12 [0, 8, 0, 0, 1, 0, 1, 0])
    let stop := ent (pl 12 [0, 0])
    let bundle := withBundle (fun b => { b with st := .enabled })
    holds (f .search) (fun s => (s.dev.fec 0).lock = .search ∧ s.dev.locked 0 = true ∧ s.dev.blockFound 0 ⟨0, 1023, List.replicate 4 ⟨true, false, false, 0⟩⟩ = true) ∧
    holds (f .locked) (fun s => (s.dev.fec 0).lock = .locked ∧ s.dev.locked 0 = true ∧ fecLolHolds (s.dev.interop 0) (.innerFailures (List.replicate 32 true)) = true ∧
      fecLolHolds (s.dev.interop 0) (.staircaseOffset (List.replicate 4 (0, 1))) = true) ∧
    holds { f .locked with io := State.reset.io } (fun s => (s.dev.fec 0).lock ≠ .down ∧ s.io.mbxState ≠ .ready) ∧
    holds (f .locked) (fun s => (s.dev.fec 0).lock ≠ .down ∧ s.io.mbxState = .ready ∧ (s.dev.fec 0).deg = false) ∧
    holds (withPar [(pFecUncorrAct, 0)] (fecIs (fun f => { f with uncorrAt := some 0 }) (f .locked))) (fun s => s.par.on (pFecUncorrAct + 0) = false ∧
      (s.dev.fec 0).uncorrAt = some 0 ∧ s.now < 0 + sec) ∧
    holds (inj ⟨false, 2, 0, 0, 1, 2, none⟩) (fun s => (s.dev.fec 0).inj = some ⟨false, 2, 0, 0, 1, 2, none⟩ ∧ (s.dev.fec 0).lock ≠ .down) ∧
    holds (inj ⟨true, 3, 0, 0, 0, 1, none⟩) (fun s => (s.dev.fec 0).inj = some ⟨true, 3, 0, 0, 0, 1, none⟩) ∧
    holds (inj ⟨true, 1, 1, 1, 0, 0, some 0⟩) (fun s => (s.dev.fec 0).inj = some ⟨true, 1, 1, 1, 0, 0, some 0⟩ ∧ 0 ≤ s.now) ∧
    meets formFecStatus (ent [0]) base (fun s => s.dev.domOn 0 = true) ∧ meets formFecStatus (ent [0]) (offDom 0 base) (fun s => s.dev.domOn 0 = false) ∧
    meets formFecInject (ent (pl 12 [4])) base (fun _ => injFault (ent (pl 12 [4])) = some 8) ∧
    meets formFecInject stop (f .locked) (fun s => injFault stop = none ∧ s.dev.inService = true ∧ (s.dev.rx 0).op = some pt ∧ pt.profile = 0 ∧ s.dev.domOn 0 = true ∧
      s.dev.anyBundleEnabled 0 = false) ∧
    meets formFecInject (ent (pl 12 [0, 12, 0, 0, 0, 0, 1, 0])) (bundle (f .locked)) (fun s => injFault (ent (pl 12 [0, 12, 0, 0, 0, 0, 1, 0])) = none ∧
      s.dev.anyBundleEnabled 0 = true ∧ injHarmful (s.dev.fecThreshold4 0) (ent (pl 12 [0, 12, 0, 0, 0, 0, 1, 0])) = true) ∧
    meets formFecInject e (bundle (f .locked)) (fun s => injFault e = none ∧ injHarmful (s.dev.fecThreshold4 0) e = false) := by decide +kernel

theorem witness_FrameEvents :
    let f := fun f => frmIs f ready0
    holds (f fun f => { f with st := .hunt, lof := true }) (fun s => (s.dev.frm 0).st = .hunt ∧ (s.dev.frm 0).lof = true) ∧
    holds (f fun f => { f with st := .hunt }) (fun s => (s.dev.frm 0).st = .hunt ∧ (s.dev.frm 0).lof = false) ∧
    holds (f fun f => { f with st := .inFrame }) (fun s => (s.dev.frm 0).st = .inFrame ∧ (s.dev.frm 0).mf = .none ∧ (s.dev.frm 0).lom = false ∧
      (s.dev.rate 0).st = .idle ∧ (s.dev.rate 0).missed = none) ∧
    holds (f fun f => { f with st := .inFrame, mf := .oom, lom := true }) (fun s => (s.dev.frm 0).mf = .oom ∧ (s.dev.frm 0).lom = true ∧ (s.dev.frm 0).frameNo s.now ≠ 127) ∧
    holds (f fun f => { f with st := .inFrame, mf := .aligned }) (fun s => (s.dev.frm 0).st = .inFrame ∧ (s.dev.frm 0).mf = .aligned) ∧
    holds (f fun f => { f with mf := .oom }) (fun s => (s.dev.frm 0).mf = .oom ∧ (s.dev.frm 0).lom = false ∧ s.dev.interop 0 = false ∧ (s.dev.frm 0).sbdi ≠ true) ∧
    holds (withPar [(pFrmTimMode, 0)] base) (fun s => s.dev.interop 0 = false ∧ s.par.val (pFrmTimMode + 0) = 0) ∧
    holds ready0 (fun s => s.dev.domOn (63 / 128) = true ∧ 63 % 128 < s.dev.rxSlots (63 / 128) ∧ s.dev.interop (63 / 128) = false) ∧
    holds (f fun f => { f with st := .inFrame, mf := .aligned, ca := true }) (fun s => (s.dev.frm 0).ca = true ∧
      (s.dev.frm 0).clean (decide (s.par.val (pFrmTimMode + 0) = 2)) = true ∧ s.dev.chan = []) ∧
    holds (rateIs (fun r => { r with tx := ⟨opCommit, 1, 64, 256, 2⟩ }) base) (fun s => (s.dev.rate 0).tx.op = opCommit ∧ 1 < (s.dev.rate 0).tx.cd) := by decide +kernel

theorem witness_BundleAndFrameCommands :
    let create := fun first count => ent [0, 0, first, count, 0, 0, 0, 0]
    let on := ent [0, 1]
    let off := ent [0, 0]
    let tti := fun sel => ent (pl 67 [0, sel, 0])
    let eth := fun st => withBundle (fun b => { b with attach := .eth 0, st := st })
    meets formBundleCreate (create 0 2) (withBundle id ready0) (fun s => (s.dev.tx 0).op = some pt ∧ (s.dev.rx 0).op = some pt ∧ s.dev.hasBundle 0 = true) ∧
    meets formBundleCreate (create 63 2) ready0 (fun s => (s.dev.tx 0).op = some pt ∧ (s.dev.rx 0).op = some pt ∧ s.dev.hasBundle 0 = false ∧ pt.slots < 63 + 2) ∧
    meets formBundleCreate (create 62 2) ready0 (fun s => (s.dev.tx 0).op = some pt ∧ (s.dev.rx 0).op = some pt ∧ s.dev.hasBundle 0 = false ∧ 62 + 2 ≤ pt.slots ∧ (∀ ch ∈ ([62, 63] : List Nat), (s.dev.bundleOf ch).isNone = true) ∧
      s.dev.rateBusy 0 = false) ∧
    meets formBundleCreate (create 0 2) base (fun s => (s.dev.tx 0).op = none) ∧
    meets formBundleDelete (ent [0]) base (fun s => (s.dev.bundleAt 0).on = false ∧ (s.dev.bundleAt 0).attach = .none ∧ s.dev.groupsOf 0 = [] ∧ s.dev.hasBundle 0 = false) ∧
    meets formBundleDelete (ent [0]) (withBundle id base) (fun s => (s.dev.bundleAt 0).on = false ∧ s.dev.groupsOf 0 = [] ∧ s.dev.hasBundle 0 = true ∧
      s.dev.rateBusy (s.dev.bundleAt 0).carrier = false) ∧
    meets formBundleDelete (ent [0]) (withBundle (fun b => { b with st := .draining }) base) (fun s => (s.dev.bundleAt 0).on = true) ∧
    meets formBundleEnable on (withBundle id base) (fun s => s.dev.hasBundle 0 = true ∧ (s.dev.bundleAt 0).on = false ∧ s.dev.attached 0 = false) ∧
    meets formBundleEnable on (offDom 0 (eth .disabled base)) (fun s => s.dev.attached 0 = true ∧ s.dev.domOn (s.dev.bundleAt 0).carrier = false) ∧
    meets formBundleEnable on (eth .disabled base) (fun s => s.dev.attached 0 = true ∧ s.dev.domOn 0 = true ∧ s.dev.rateBusy 0 = false) ∧
    meets formBundleEnable off (eth .enabled base) (fun s => s.dev.hasBundle 0 = true ∧ (s.dev.bundleAt 0).on = true) ∧
    holds (eth .enabling base) (fun s => (s.dev.bundleAt 0).st = .enabling) ∧ holds (eth .closing base) (fun s => (s.dev.bundleAt 0).st = .closing) ∧
    holds (eth .draining base) (fun s => (s.dev.bundleAt 0).st = .draining) ∧
    meets formFrmStatus (ent [0]) (frmIs (fun f => { f with st := .inFrame, mf := .aligned }) base) (fun s => s.dev.domOn 0 = true ∧ (s.dev.frm 0).st = .inFrame ∧
      (s.dev.frm 0).mf = .aligned) ∧
    meets formFrmStatus (ent [0]) (offDom 0 base) (fun s => s.dev.domOn 0 = false) ∧
    meets formChanStatus (ent [63, 0]) ready0 (fun s => s.dev.domOn (63 / 128) = true ∧ 63 % 128 < s.dev.rxSlots (63 / 128)) ∧
    meets formChanStatus (ent [64, 0]) ready0 (fun s => s.dev.rxSlots (64 / 128) ≤ 64 % 128) ∧
    meets formFrmTti (tti 0) (offDom 0 base) (fun s => ttiFault (tti 0) = none ∧ s.dev.domState 0 = .off) ∧
    meets formFrmTti (tti 0) base (fun s => ttiFault (tti 0) = none ∧ s.dev.domState 0 ≠ .off) ∧
    meets formFrmTti (tti 1) (withPar [(pFrmTimMode, 0)] base) (fun s => ttiFault (tti 1) = none ∧ s.dev.domState 0 ≠ .off ∧ s.par.val (pFrmTimMode + 0) = 0) ∧
    meets formFrmTti (ent (pl 67 [4, 0])) base (fun _ => ttiFault (ent (pl 67 [4, 0])) = some 8) := by decide +kernel

/-! ### Hypotheses of the statements: rate steps and protection -/

theorem witness_RateCommands :
    let step := fun slots h => ent (pl 12 ([0, 0, slots, 0] ++ leBytes 2 h))
    let e := step 50 200
    let p : OpPoint := ⟨0, 50, 200⟩
    let interop := ent (pl 12 [0, 1, 0, 0, 128, 0])
    let good := fun e => layoutFault (payload e) (csLayout e) = none ∧ csProfile e = 0
    meets formRateStep e (offDom 0 base) (fun s => good e ∧ s.dev.inService = true ∧ (s.dev.carrier 0).heldDown = false ∧ s.dev.domOn 0 = false) ∧
    meets formRateStep e base (fun s => s.dev.domOn 0 = true ∧ s.dev.stepReady 0 = false) ∧
    meets formRateStep (step 64 256) ready1 (fun s => good (step 64 256) ∧ s.dev.stepReady 0 = true ∧ s.dev.stepFault s.env 0 pt false 256 = none ∧
      (s.dev.rx 0).op = some pt ∧ (s.dev.tx 0).op = some pt) ∧
    meets formRateStep e (withBundle (fun b => { b with first := 49 }) ready1) (fun s => targetPoint (csSlots e) (csMode1 e) (csEntropy e) (csRate e) = p ∧
      s.dev.stepFault s.env 0 p false 200 = none ∧ (s.dev.tx 0).op ≠ some p ∧ s.dev.stepTraffic 0 50 = true) ∧
    meets formRateStep e ready1 (fun s => (s.dev.rx 0).op = some pt ∧ pt ≠ p ∧ pt.symrate = p.symrate ∧ s.dev.stepTraffic 0 50 = false ∧
      (s.dev.elasticOf 0).isNone = true ∧ s.dev.anyRateBusy = false) ∧
    meets formRateStep interop base (fun _ => layoutFault (payload interop) (csLayout interop) = none ∧ csProfile interop ≠ 0) ∧
    meets formRateStatus (ent [0]) base (fun s => s.dev.domState 0 ≠ .off) ∧ meets formRateStatus (ent [0]) (offDom 0 base) (fun s => s.dev.domState 0 = .off) ∧
    meets formRateElastic (ent [0, 1]) (withBundle (fun b => { b with first := 62 }) ready0) (fun s => s.dev.hasBundle 0 = true ∧
      (s.dev.bundleAt 0).first + (s.dev.bundleAt 0).count = s.dev.txSlots 0 ∧ (s.dev.elasticOf 0).isNone = true ∧ (s.dev.bundleAt 0).attach = .none ∧ s.dev.groupsOf 0 = []) ∧
    meets formRateElastic (ent [0, 1]) (withBundle id ready0) (fun s => (s.dev.bundleAt 0).first + (s.dev.bundleAt 0).count ≠ s.dev.txSlots 0) ∧
    meets formRateElastic (ent [0, 1]) base (fun s => s.dev.hasBundle 0 = false) ∧
    meets formRateElastic (ent [0, 0]) (withBundle id base) (fun s => s.dev.hasBundle 0 = true) := by decide +kernel

theorem witness_HandshakeEvents :
    let req : RsFields := ⟨opReq, 1, 50, 200, 0⟩
    let r := fun f => rateIs f ready1
    holds (withPar [(pRsAccept, 0)] (heard req base)) (fun s => (s.dev.rsIn 0).op = opReq ∧ (s.dev.rate 0).st = .idle ∧ s.par.val (pRsAccept + 0) = 0) ∧
    holds (heard req (r fun r => { r with st := .reqSent })) (fun s => (s.dev.rsIn 0).op = opReq ∧ (s.dev.rate 0).st = .reqSent) ∧
    holds (withPar [(pRsAccept, 1)] (heard req ready1)) (fun s => (s.dev.rsIn 0).op = opReq ∧ (s.dev.rate 0).st = .idle ∧ s.par.val (pRsAccept + 0) ≠ 0 ∧
      s.dev.anyRateBusy = false ∧ s.dev.reqCheck s.env 0 ⟨0, 50, 200⟩ = none ∧ (s.dev.rx 0).op = some pt ∧ pt.symrate = (⟨0, 50, 200⟩ : OpPoint).symrate ∧
      s.dev.stepTraffic 0 50 = false ∧ (s.dev.elasticOf 0).isNone = true) ∧
    holds (withPar [(pRsAccept, 1)] (heard req (withBundle (fun b => { b with first := 49 }) ready1))) (fun s => s.dev.anyRateBusy = false ∧
      s.dev.reqCheck s.env 0 ⟨0, 50, 200⟩ = none ∧ s.dev.stepTraffic 0 50 = true) ∧
    holds (heard ⟨opAck, 5, 0, 0, 0⟩ (r fun r => { r with st := .reqSent, seq := 5 })) (fun s => (s.dev.rsIn 0).op = opAck ∧ (s.dev.rsIn 0).seq = (s.dev.rate 0).seq) ∧
    holds (heard ⟨opNak, 5, 0, 0, 3⟩ (r fun r => { r with st := .reqSent, seq := 5 })) (fun s => (s.dev.rsIn 0).op = opNak ∧ (s.dev.rsIn 0).seq = (s.dev.rate 0).seq) ∧
    holds (heard ⟨opCommit, 5, 0, 0, 9⟩ (r fun r => { r with st := .ackSent, seq := 5 })) (fun s => (s.dev.rate 0).st = .ackSent ∧ (s.dev.rsIn 0).op = opCommit ∧
      (s.dev.rsIn 0).seq = (s.dev.rate 0).seq) ∧
    holds (heard ⟨opAbort, 5, 0, 0, 0⟩ (r fun r => { r with st := .prepare, responder := true, seq := 5 })) (fun s => (s.dev.rate 0).responder = true ∧
      (s.dev.rate 0).uncommitted = true ∧ (s.dev.rsIn 0).op = opAbort ∧ (s.dev.rsIn 0).seq = (s.dev.rate 0).seq) ∧
    holds (r fun r => { r with st := .prepare, throttling := true }) (fun s => (s.dev.rate 0).st = .prepare ∧ (s.dev.rate 0).throttling = true ∧ (s.dev.rate 0).responder = false ∧
      s.dev.throttleMet 0 = true ∧ s.dev.stepNeedsRoom 0 = false) ∧
    holds (r fun r => { r with st := .prepare, throttling := true, responder := true }) (fun s => (s.dev.rate 0).throttling = true ∧ (s.dev.rate 0).responder = true) ∧
    holds (r fun r => { r with st := .txSwitched, txDone := true }) (fun s => (s.dev.rate 0).st = .txSwitched ∧ (s.dev.rate 0).rxDone = false) ∧
    holds (rateIs (fun r => { r with missed := some false }) ready0) (fun s => (s.dev.rate 0).missed = some false ∧ s.dev.locked 0 = false) := by decide +kernel

theorem witness_RateSwitches :
    let r := fun f => rateIs (fun r => f { r with slots := 50, h := 200 }) ready1
    holds (r fun r => { r with st := .committed, responder := true, tx := ⟨opCommit, 1, 50, 200, 1⟩ }) (fun s => (s.dev.tx 0).op = some pt ∧
      pt.sameFs ⟨0, (s.dev.rate 0).slots, (s.dev.rate 0).h⟩ = true ∧ (s.dev.rate 0).tx.cd ≤ 1 ∧ (s.dev.elasticOf 0).isNone = true ∧
      (s.dev.rate 0).missed = none ∧ (s.dev.rate 0).rxDone = false) ∧
    holds (r fun r => { r with st := .txSwitched, txDone := true }) (fun s => (s.dev.rate 0).st = .txSwitched ∧ (s.dev.rate 0).rxDone = false ∧
      (s.dev.rate 0).txDone = true ∧ (s.dev.rate 0).shadow = false ∧ s.dev.locked 0 = true) ∧
    holds (r fun r => { r with st := .committed }) (fun s => (s.dev.rate 0).st = .committed ∧ (s.dev.rate 0).txDone = false ∧ s.dev.locked 0 = true) := by decide +kernel

theorem witness_RatePolicy :
    let on := fun v s => withPar [(pRsPolicy, v)] s
    let run := fun s => withRun .ratePolicy (some 0) s
    let follows := fun (s : State) => decide (s.env.par.val (pRsPolicy + 0) ≠ 0 ∧ (s.dev.rate 0).policySec < s.env.now / sec ∧ s.dev.inService = true ∧ s.dev.domOn 0 = true ∧
      s.dev.runs.any (isRun .ratePolicy 0) = false ∧ s.env.mbx = .ready)
    let started := fun (s : State) => Dev.startRun (s.dev.updRate 0 fun r => { r with policySec := s.env.now / sec }) s.env .ratePolicy 0
    let busy := { ready1 with dev := { ready1.dev with pw := { ready1.dev.pw with dom := ready1.dev.pw.dom.filter fun kv => decide (kv.1 < 0x20) } } }
    let m := 4 * (60 : Int) - snrShift4 Fec.reset.iter Fec.reset.latmode
    holds (on 0 base) (fun s => s.dev.runPlaced .ratePolicy 0 = false) ∧
    holds (on 0 (run base)) (fun s => s.dev.runPlaced .ratePolicy 0 = true ∧ s.par.val (pRsPolicy + 0) = 0) ∧
    holds (at_ sec (on 1 ready1)) (fun s => follows s ∧ (started s).runPlaced .ratePolicy 0 = true) ∧
    holds (at_ sec (on 1 busy)) (fun s => follows s ∧ (started s).runPlaced .ratePolicy 0 = false ∧ ((started s).rate 0).blockedAt = none) ∧
    holds (at_ sec (on 1 (rateIs (fun r => { r with blockedAt := some 0 }) busy))) (fun s => follows s ∧ ((started s).rate 0).blockedAt = some 0 ∧ s.env.now < 0 + 60 * sec) ∧
    holds (on 1 ready1) (fun s => s.par.nat (pRsMinSlots + 0) ≤ pt.slots ∧ pt.slots ≤ s.par.nat (pRsMaxSlots + 0) ∧ s.dev.stepTraffic 0 pt.slots = false) ∧
    holds (at_ sec (on 1 (run (rxIs (fun r => { r with meas := { r.meas with margin := 60 } }) (rateIs (fun r => { r with margins := [(0, m)], setRate := 240266963 }) ready1)))))
      (fun s => let d1 := s.dev.endRun .ratePolicy 0
      s.dev.runPlaced .ratePolicy 0 = true ∧ d1.policyReady 0 = true ∧ m = 4 * (d1.rx 0).meas.margin - snrShift4 (d1.fec 0).iter (d1.fec 0).latmode ∧
      0 < s.now ∧ s.now < 0 + s.par.nat (pRsTrendWin + 0) * sec ∧ (d1.rate 0).margins = [(0, m)] ∧ ¬ m < 4 * s.par.val (pRsDownMargin + 0) ∧
      ¬ 64 * s.par.val (pRsUpMargin + 0) + (((policyTarget s.env 0 (d1.txSlots 0 + s.par.nat (pRsStepSlots + 0)) d1).requiredSnr64 : Int) -
        (((d1.tx 0).op.map OpPoint.requiredSnr64).getD 0 : Nat)) < 16 * m) := by decide +kernel

theorem witness_ProtectionCommands :
    let g := fun f => withGroup f base
    let none0 := { base with dev := { (g id).dev with group := [] } }
    let arm := ent [0, 1]
    meets formProtCreate (ent (pl 8 [0, 0, 1])) (g id) (fun s => s.dev.hasGroup 0 = true) ∧
    meets formProtCreate (ent (pl 8 [0, 0, 1])) none0 (fun s => s.dev.hasGroup 0 = false ∧ s.dev.interop 0 = false ∧ s.dev.interop 1 = false ∧ s.dev.hasBundle 0 = true ∧ (s.dev.bundleAt 0).buffered = false ∧
      (s.dev.bundleAt 0).elastic = false ∧ s.dev.hasBundle 1 = true ∧ (s.dev.bundleAt 1).buffered = false ∧ (s.dev.bundleAt 1).elastic = false ∧
      (s.dev.bundleAt 1).count = (s.dev.bundleAt 0).count ∧ (s.dev.bundleAt 1).carrier ≠ (s.dev.bundleAt 0).carrier ∧ (s.dev.bundleAt 1).st = .disabled ∧
      s.dev.attached 1 = false ∧ s.dev.protectedChans + (s.dev.bundleAt 0).count ≤ 256 ∧
      fitsRegion s.dev.stacksFor (s.dev.protectedChans + (s.dev.bundleAt 0).count) (s.par.nat pProtMaxDelay) = true ∧
      fitsBandwidth s.dev.stacksFor s.dev.bufferedChans (s.dev.protectedChans + (s.dev.bundleAt 0).count) = true ∧ s.dev.rateBusy 0 = false ∧ s.dev.rateBusy 1 = false) ∧
    meets formProtDelete (ent [0]) (g fun x => { x with st := .filling }) (fun s => s.dev.hasGroup 0 = true ∧ (s.dev.groupAt 0).armed = true) ∧
    meets formProtDelete (ent [0]) (g id) (fun s => s.dev.hasGroup 0 = true ∧ (s.dev.groupAt 0).armed = false) ∧
    meets formProtArm arm (offDom 0 (g id)) (fun s => (s.dev.groupAt 0).armed = false ∧ (s.dev.bundleAt (s.dev.groupAt 0).work).carrier < 4 ∧
      (s.dev.bundleAt (s.dev.groupAt 0).prot).carrier < 4 ∧ s.dev.domOn (s.dev.bundleAt (s.dev.groupAt 0).work).carrier = false) ∧
    meets formProtArm arm (g id) (fun s => (s.dev.groupAt 0).armed = false ∧ s.dev.domOn 0 = true ∧ s.dev.domOn 1 = true ∧ s.dev.anyStack = true ∧
      fitsRegion s.dev.stacksFor s.dev.protectedChans (s.par.nat pProtMaxDelay) = true) ∧
    meets formProtArm (ent [0, 0]) (g id) (fun s => (s.dev.groupAt 0).armed = false) ∧
    meets formProtArm (ent [0, 0]) (g fun x => { x with st := .filling }) (fun s => (s.dev.groupAt 0).st = .filling) ∧
    meets formProtSwitch (ent [0, 1]) (g id) (fun s => (s.dev.groupAt 0).armed = false) ∧
    meets formProtSwitch (ent [0, 0]) (g fun x => { x with st := .aligned }) (fun s => (s.dev.groupAt 0).armed = true) ∧
    meets formProtSwitch (ent [0, 4]) (g fun x => { x with st := .aligned, wSf := true }) (fun s => (s.dev.groupAt 0).armed = true ∧ 1 ≤ (s.dev.groupAt 0).winner.1 ∧
      (s.dev.groupAt 0).winner.1 ≤ 5) ∧
    meets formProtStatus (ent [0]) (g id) (fun s => s.dev.hasGroup 0 = true) ∧ meets formProtStatus (ent [1]) (g id) (fun s => s.dev.hasGroup 1 = false) := by decide +kernel

theorem witness_ProtectionEvents :
    let g := fun f s => withGroup f s
    let up := { ready1 with dev := (ready1.dev.updFec 0 fun f => { f with lock := .locked }) }
    let both := { up with dev := up.dev.updCarrier 1 fun _ => up.dev.carrier 0 }
    let x := fun (f : Group → Group) => f Group.absent
    let same := fun k => List.replicate k (some (5 : BitVec 32))
    holds (withPar [(pProtMaxDelay, 1)] (g (fun x => { x with st := .filling }) base)) (fun s => (s.dev.groupAt 0).st = .filling ∧ (s.dev.groupAt 0).ambig = false ∧
      1 < (matchOffsets ⟨same 16, same 17⟩).length ∧ matchOffsets ⟨same 16, same 16⟩ = [multiframesIn (s.par.nat pProtMaxDelay * us + 1)] ∧
      s.par.nat pProtMaxDelay * us < s.par.nat pProtMaxDelay * us + 1 ∧ matchOffsets ⟨same 16, same 16⟩ = [multiframesIn 0] ∧ 0 ≤ s.par.nat pProtMaxDelay * us) ∧
    holds (g (fun x => { x with st := .aligned, wtrEnd := some 0 }) base) (fun s => (s.dev.groupAt 0).armed = true ∧ s.io.mbxState = .ready ∧
      (s.dev.groupAt 0).wtrEnd.isSome = true) ∧
    holds (g (fun x => { x with st := .degraded, pAligned := true }) both) (fun s => (s.dev.groupAt 0).st = .degraded ∧ (s.dev.groupAt 0).stuck = false ∧
      s.dev.legFails s.env (s.dev.groupAt 0).work = false ∧ (s.dev.groupAt 0).wAligned = false ∧ (s.dev.groupAt 0).pAligned = true ∧ (2000 : Int) ≤ 2000 ∧
      (2000 : Int) - 2000 ≤ (s.par.nat pProtMaxDelay * us : Nat) ∧ (s.par.nat pProtMaxDelay * us : Nat) < (s.par.nat pProtMaxDelay * us + 2001 : Int) - 2000) ∧
    holds (g (fun x => { x with st := .degraded, wAligned := true }) both) (fun s => s.dev.legFails s.env (s.dev.groupAt 0).prot = false ∧ (s.dev.groupAt 0).pAligned = false) ∧
    (x fun x => { x with host := 1 }).host = 1 ∧ (x fun x => { x with pSf := true }).host ≠ 1 ∧ (x fun x => { x with host := 2 }).pSf = false ∧
    (x fun x => { x with wSf := true }).wSf = true ∧ (x fun x => { x with host := 3 }).sdEn = false ∧ (x fun x => { x with host := 3 }).wSd = false ∧
    (x fun x => { x with host := 3, wSd := true }).wSd = true ∧
    (x fun x => { x with revert := true, wtrEnd := some 0 }).wtrEnd.isSome = true ∧ (x fun x => { x with revert := true }).wtrEnd = none ∧
    (x fun x => x).revert = false := by decide +kernel

/-! ### Hypotheses of the statements: client lanes, Ethernet and Stitch ports -/

theorem witness_ClientLanes :
    let on := fun f => laneIs f (withEth (fun x => { x with enabled := true }) base)
    let t := fun a b => ent [0, 64, a, b]
    holds (on id) (fun s => s.dev.lanePowered 0 = true ∧ (s.dev.lane 0).los = false) ∧
    holds (on fun l => { l with los := true }) (fun s => s.dev.lanePowered 0 = true ∧ (s.dev.lane 0).los = true) ∧
    holds { withStitch (fun x => { x with enabled := true, st := .tune }) base with dev := ((withStitch (fun x => { x with enabled := true, st := .tune }) base).dev.updLane 16
      fun l => { l with cdr := true }) } (fun s => s.dev.lanePowered 16 = true ∧ s.dev.laneTunes 16 = true ∧ (s.dev.lane 16).cdr = true ∧ (s.dev.lane 16).chkLock = false) ∧
    holds (on fun l => { l with adapt := .frozen }) (fun s => (s.dev.lane 0).adapt = .frozen) ∧ holds (on fun l => { l with adapt := .tracking }) (fun s => (s.dev.lane 0).adapt = .tracking) ∧
    holds (on fun l => { l with cdr := true }) (fun s => s.dev.lanePowered 0 = true ∧ s.dev.laneTunes 0 = false ∧ (s.dev.lane 0).cdr = true ∧ (s.dev.lane 0).chkLock = false ∧
      ¬ s.par.val pLaneFomMin < s.par.val pLaneFomMin) ∧
    holds (on fun l => { l with adapt := .initial }) (fun s => (s.dev.lane 0).adapt = .initial) ∧
    holds (on fun l => { l with cdr := true, fomLow := 9 }) (fun s => s.par.val pLaneFomMin - 1 < s.par.val pLaneFomMin ∧ (s.dev.lane 0).fomLow = 9 ∧
      (s.dev.lane 0).fomLowAt = none) ∧
    holds (on fun l => { l with chk := 1 }) (fun s => s.dev.lanePowered 0 = true ∧ (s.dev.lane 0).chk ≠ 0 ∧ (s.dev.lane 0).chkLock = false) ∧
    holds (on fun l => { l with chk := 1, chkLock := true }) (fun s => (s.dev.lane 0).chkLock = true) ∧
    meets formLaneStatus (ent [63]) base (fun s => s.dev.laneOn 63 = true) ∧ meets formLaneStatus (ent [63]) (offDom 0x1F base) (fun s => s.dev.laneOn 63 = false) ∧
    meets formLaneTest (ent [1, 64, 0, 0]) base (fun _ => 64 < 1 + 64) ∧
    meets formLaneTest (t 0x1C 0) base (fun _ => 6 < ltGen (t 0x1C 0)) ∧
    meets formLaneTest (t 4 0) (offDom 0x1F base) (fun s => ltGen (t 4 0) ≤ 6 ∧ ltChk (t 4 0) ≤ 5 ∧ s.dev.inService = true ∧ ∃ k ∈ ltLanes (t 4 0), s.dev.laneOn k = false) ∧
    meets formLaneTest (ent [0, 1, 4, 0]) (withBundle (fun b => b) { (on id) with dev := { (on id).dev with bundle := [(2, { bundle2 with st := .enabled })] } })
      (fun s => s.dev.partLoopback [0] 0 = false ∧ ltGen (ent [0, 1, 4, 0]) ≠ 0 ∧ s.dev.laneTraffic 0 = true) ∧
    meets formLaneTest (ent [0, 1, 4, 0]) base (fun s => 0 < ltGen (ent [0, 1, 4, 0]) ∧ s.dev.partLoopback [0] 0 = false ∧ s.dev.laneTraffic 0 = false ∧
      s.dev.cli.lane.isEmpty = true ∧ (s.dev.stitchOfLane 0).isNone = true ∧ (s.dev.setTest [0] 0 1 0 false).lanePowered 0 = true) := by decide +kernel

/-- A frame of 64 bytes with a good FCS. -/
def goodFrame : List Byte := List.replicate 60 0 ++ leBytes 4 (CvConfig.crc32.value (List.replicate 60 0))

theorem witness_EthernetPorts :
    let create := ent [0, 0, 0, 2]
    let free := dv fun d => { d with bundle := [(2, { bundle2 with attach := .none })] }
    let on := fun f => withEth (fun x => f { x with enabled := true }) base
    let clear := fun s : State => { s with dev := { s.dev with bundle := [(2, { bundle2 with st := .enabled })] } }
    meets formEthCreate create (on id) (fun s => s.dev.hasEth 0 = true) ∧
    meets formEthCreate (ent [0, 3, 60, 2]) free (fun s => s.dev.hasEth 0 = false ∧ (60 % ethLanes 3 ≠ 0 ∨ 64 < 60 + ethLanes 3)) ∧
    meets formEthCreate create free (fun s => s.dev.hasEth 0 = false ∧ (s.dev.ethOfLane 0).isNone = true ∧ (s.dev.stitchOfLane 0).isNone = true ∧ s.dev.quadMode 0 ≠ 2 ∧
      s.dev.hasBundle 2 = true ∧ (s.dev.bundleAt 2).count = ethChans 0 ∧ (s.dev.bundleAt 2).attach = .none ∧ (s.dev.bundleAt 2).elastic = false ∧
      s.dev.interop 0 = false ∧ s.dev.group = [] ∧ s.dev.rateBusy 0 = false) ∧
    meets formEthCreate create (rxIs (fun r => { r with op := some ⟨1, 64, 256⟩ }) (txIs (fun t => { t with op := some ⟨1, 64, 256⟩ }) (dv fun d => { d with
        bundle := [(2, { bundle2 with attach := .none, first := 4 })] }))) (fun s => s.dev.hasEth 0 = false ∧ (s.dev.ethOfLane 0).isNone = true ∧
      (s.dev.stitchOfLane 0).isNone = true ∧ s.dev.quadMode 0 ≠ 2 ∧ s.dev.interop 0 = true ∧ s.dev.interopFits 2 (s.dev.rxSlots 0) = false) ∧
    meets formEthDelete (ent [0]) base (fun s => s.dev.hasEth 0 = false) ∧ meets formEthDelete (ent [0]) (on id) (fun s => (s.dev.ethAt 0).enabled = true) ∧
    meets formEthDelete (ent [0]) (withEth id base) (fun s => s.dev.hasEth 0 = true ∧ (s.dev.ethAt 0).enabled = false ∧ s.dev.ethBundleOn 0 = false) ∧
    meets formEthEnable (ent [0, 1]) (offDom 0x10 (withEth id base)) (fun s => (s.dev.ethAt 0).enabled = false ∧ ∃ l ∈ (s.dev.ethAt 0).lanes, s.dev.laneOn l = false) ∧
    meets formEthEnable (ent [0, 1]) (withEth id base) (fun s => s.dev.inService = true ∧ ∀ l ∈ (s.dev.ethAt 0).lanes, s.dev.laneOn l = true) ∧
    meets formEthEnable (ent [0, 0]) (clear (on id)) (fun s => (s.dev.ethAt 0).enabled = true ∧ s.dev.ethBundleOn 0 = true) ∧
    meets formEthEnable (ent [0, 1]) (on id) (fun s => (s.dev.ethAt 0).enabled = true) ∧
    meets formEthStatus (ent [0]) (on id) (fun s => s.dev.hasEth 0 = true) ∧ meets formEthStatus (ent [31]) (on id) (fun s => s.dev.hasEth 31 = false) ∧
    holds (on fun x => { x with st := .up }) (fun s => (s.dev.ethAt 0).st = .up ∧ (s.dev.ethAt 0).rxFault ≠ 1 ∧ s.dev.ethAdmits 0 = false ∧ 64 ≤ goodFrame.length ∧
      goodFrame.length ≤ s.par.nat (pEthMaxFrame + 0) ∧ fcsOk goodFrame = true) ∧
    holds (clear (on fun x => { x with st := .up })) (fun s => (s.dev.ethAt 0).st = .up ∧ (s.dev.ethAt 0).rxFault ≠ 1 ∧ s.dev.ethAdmits 0 = true) ∧
    holds (on fun x => { x with gfpSync := true }) (fun s => (s.dev.ethAt 0).gfpSync = true ∧ s.dev.lfCause 0 = true) ∧
    holds (clear (on fun x => { x with gfpSync := true })) (fun s => (s.dev.ethAt 0).gfpSync = true ∧ s.dev.lfCause 0 = false ∧
      (s.dev.ethAt 0).csfRf = false ∧ s.dev.ethSends 0 = true) ∧
    holds (on id) (fun s => (s.dev.ethAt 0).gfpSync = false) ∧
    holds (withPar [(pEthCsfEn, 1)] (laneIs (fun l => { l with los := true }) (on id))) (fun s => s.par.on pEthCsfEn = true ∧ s.dev.csfUpi 0 ≠ 0) := by decide +kernel

theorem witness_StitchPorts :
    let p := fun f => withStitch f base
    let on := fun f => withStitch (fun x => f { x with enabled := true }) base
    let lanes := fun s : State => { s with dev := s.dev.updLanes [16, 17] fun l => { l with cdr := true, adapt := .tracking } }
    let flow := fun a => ent [1, 0, a]
    let bundle := fun s : State => { s with dev := { s.dev with bundle := [(0, bundle0)] } }
    let good := fun l : Nat => ([4094, 4095, 0, 1] : List Nat).map fun n => (⟨some ⟨1, l, n, []⟩, 0⟩ : CwArrival)
    let ctrl := fun id => leBytes 2 id ++ [32, 32, 1, 0, 1] ++ List.replicate 25 (0 : Byte)
    meets formStitchCreate (ent ([1, 2] ++ leBytes 2 10625)) (p id) (fun s => s.dev.hasStitch 1 = true) ∧
    meets formStitchCreate (ent ([1, 16] ++ leBytes 2 12000)) base (fun s => s.dev.hasStitch 1 = false ∧
      ∀ i ∈ List.range 16, (s.dev.ethOfLane (16 * 1 + i)).isNone = true ∧ s.dev.quadMode ((16 * 1 + i) / 4) ≠ 1) ∧
    meets formStitchDelete (ent [1]) (on id) (fun s => s.dev.hasStitch 1 = true ∧ (s.dev.stitch 1).enabled = true) ∧
    meets formStitchDelete (ent [1]) (p id) (fun s => (s.dev.stitch 1).enabled = false ∧ (s.dev.stitch 1).flows = []) ∧
    meets formStitchEnable (ent [1, 1]) (on id) (fun s => (s.dev.stitch 1).enabled = true) ∧
    meets formStitchEnable (ent [1, 1]) (offDom 0x14 (p id)) (fun s => (s.dev.stitch 1).enabled = false ∧ ∃ l ∈ s.dev.stitchLanes 1, s.dev.laneOn l = false) ∧
    meets formStitchEnable (ent [1, 1]) (p id) (fun s => s.dev.inService = true ∧ (∀ l ∈ s.dev.stitchLanes 1, s.dev.laneOn l = true) ∧ s.dev.hasStitch 1 = true) ∧
    meets formStitchEnable (ent [1, 0]) (on fun x => { x with flows := [⟨0, []⟩] }) (fun s => s.dev.stitchTraffic 1 = true) ∧
    meets formStitchFlow (flow 1) (p id) (fun s => s.dev.hasBundle 0 = true ∧ (s.dev.bundleAt 0).attach ≠ .none) ∧
    meets formStitchFlow (flow 1) (bundle (p id)) (fun s => (s.dev.bundleAt 0).attach = .none ∧ s.dev.group = [] ∧ (s.dev.tx 0).op = none ∧
      fitsPort 2 10625 ((s.dev.bundleAt 0).flowSize + sumBy (fun f => (s.dev.bundleAt f.bundle).flowSize) (s.dev.stitch 1).flows) = true ∧
      s.par.on (pStitchRttStrict + 1) = false ∧ s.dev.rateBusy 0 = false ∧ (s.dev.stitch 1).st = .down) ∧
    meets formStitchFlow (flow 0) (p id) (fun s => (s.dev.bundleAt 0).attach = .stitch 1 ∧ (s.dev.bundleAt 0).on = true) ∧
    meets formStitchFlow (flow 0) { p id with dev := { (p id).dev with bundle := [(0, { bundle0 with attach := .stitch 1 })] } } (fun s =>
      (s.dev.bundleAt 0).attach = .stitch 1 ∧ (s.dev.bundleAt 0).on = false) ∧
    meets formStitchStatus (ent [1]) (p id) (fun s => s.dev.hasStitch 1 = true) ∧
    holds (p id) (fun s => (s.dev.stitch 1).srefLost = false ∧ (s.dev.stitch 1).st = .down) ∧
    holds (p fun x => { x with srefLost := true }) (fun s => (s.dev.stitch 1).srefLost = true ∧ (s.dev.stitch 1).enabled = false) ∧
    holds (on fun x => { x with srefLost := true }) (fun s => (s.dev.stitch 1).srefLost = true ∧ (s.dev.stitch 1).enabled = true) ∧
    holds (lanes (on fun x => { x with st := .training })) (fun s => (s.dev.stitch 1).st = .training ∧ (s.dev.stitch 1).enabled = true ∧ s.dev.laneCause 1 = none ∧
      (s.dev.stitch 1).txtune = true ∧ (∀ l ∈ s.dev.stitchLanes 1, (s.dev.lane l).adaptOk = true) ∧ allLock (s.dev.stitch 1).lanes [good 0, good 1] = true) ∧
    holds (lanes (on fun x => { x with st := .training, txtune := false })) (fun s => s.dev.laneCause 1 = none ∧ (s.dev.stitch 1).txtune = false) ∧
    cwUnlocks (List.replicate 16 ⟨some ⟨2, 0, 0, []⟩, 0⟩) = true ∧
    holds (on fun x => { x with st := .training }) (fun s => (s.dev.stitch 1).trains = true ∧ 1 < (s.dev.stitch 1).lanes ∧
      fieldAt (ctrl 1) 0 2 ≠ (s.dev.stitch 1).linkId ∧ fieldAt (ctrl 0) 0 2 = (s.dev.stitch 1).linkId ∧ fieldAt (ctrl 0) 4 1 ≠ 0 ∧ fieldAt (ctrl 0) 2 1 ≤ 32 ∧
      fieldAt (ctrl 0) 3 1 ≤ 32 ∧ (s.dev.stitch 1).st ≠ .up) ∧
    holds (on fun x => { x with st := .tune }) (fun s => (s.dev.stitch 1).st = .tune ∧
      ∀ k ∈ (s.dev.stitchLanes 1).zipIdx, ((s.dev.lane k.1).swept ((List.replicate 2 (List.replicate 35 (1 : Int))).getD k.2 [])).length = 35) ∧ holds (on fun x => { x with st := .ready }) (fun s => (s.dev.stitch 1).st = .ready) ∧
    holds (on fun x => { x with st := .align }) (fun s => (s.dev.stitch 1).st = .align) ∧
    holds (on fun x => { x with st := .up }) (fun s => 1 < (s.dev.stitch 1).lanes ∧ (s.dev.stitch 1).st = .up) ∧
    holds (on id) (fun s => (s.dev.stitch 1).enabled = true ∧ (s.dev.stitch 1).st ≠ .up ∧ (s.dev.stitch 1).srefLost = false ∧ s.dev.stitchTest 1 = false) := by decide +kernel

/-- A check configuration whose value is 0 for every text; a port that uses it; and a cell with CREDIT, CHECK and payload 0. -/
def cv0 : CvConfig := ⟨32, 0, 0, 0, false, false⟩
def upPort (f : Stitch → Stitch) : State := withStitch (fun x => f { x with enabled := true, st := .up, cv := cv0 }) base
def cell (ch seq flags : Nat) : List Byte := leBytes 2 ch ++ leBytes 4 seq ++ leBytes 2 flags ++ List.replicate 504 0

theorem cv0_value (bs : List Byte) : cv0.value bs = 0 := by
  have hb : ∀ l : List Bool, l.foldl (crcBit 32 0) 0 = 0 := fun l => by induction l with
    | nil => rfl
    | cons b l ih => cases b <;> exact ih
  have h : ∀ l : List Byte, l.foldl (fun r b => (crcBits false b).foldl (crcBit 32 0) r) 0 = 0 := fun l => by induction l with
    | nil => rfl
    | cons b l ih => rw [List.foldl_cons, hb]; exact ih
  have := h bs
  simp [CvConfig.value, cv0, this]

theorem zero_checks {s : Stitch} {c : List Byte} (h : s.cv = cv0) (hc : cellCheck c = 0) : s.checks c = true := by
  simp [Stitch.checks, cellValue, h, hc, cv0_value]

theorem witness_StitchCells :
    let x := (upPort id).dev.stitch 1
    x.checks (cell 0 0 0) = true ∧ x.checks (cell chanIdle 0 0) = true ∧ x.checks (cell chanProbe 7 0) = true ∧ x.checks (cell 511 0 496) = true ∧
    x.checks (cell 1 12 512) = true ∧ x.checks (cell 1 13 496) = true ∧ x.checks (cell 1 12 496) = true ∧ x.checks (cell 1 0xFFFFFFFF 496) = true := by
  exact ⟨zero_checks rfl (by decide +kernel), zero_checks rfl (by decide +kernel), zero_checks rfl (by decide +kernel), zero_checks rfl (by decide +kernel),
    zero_checks rfl (by decide +kernel), zero_checks rfl (by decide +kernel), zero_checks rfl (by decide +kernel), zero_checks rfl (by decide +kernel)⟩

theorem witness_StitchCells_outcomes :
    holds (upPort id) (fun s => s.dev.stitchUp 1 = true ∧ CellCw.clean ≠ .uncorrectable ∧ (s.dev.stitch 1).checkRun < 63 ∧ cellBadForm (cell 0 0 0) = true) ∧
    holds (upPort id) (fun _ => cellBadForm (cell chanIdle 0 0) = false ∧ cellChannel (cell chanIdle 0 0) = chanIdle ∧ cellBadForm (cell chanProbe 7 0) = false ∧
      cellChannel (cell chanProbe 7 0) = chanProbe ∧ cellBadForm (cell chanEcho 7 0) = false ∧ cellChannel (cell chanEcho 7 0) = chanEcho) ∧
    holds (upPort id) (fun s => cellBadForm (cell 511 0 496) = false ∧ s.dev.attachedTo 1 511 = false) ∧
    holds { upPort id with dev := { (upPort id).dev with bundle := [(0, { bundle0 with attach := .stitch 1 })] } } (fun s => s.dev.stitchUp 1 = true ∧
      s.dev.attachedTo 1 1 = true ∧ s.dev.chanAdmits 1 = false) ∧
    holds (upPort id) (fun s => s.dev.attachedTo 1 1 = true ∧ s.dev.chanAdmits 1 = true ∧
      2 ^ 31 ≤ seqAhead (cellSeq (cell 1 0xFFFFFFFF 496)) ((s.dev.stitch 1).chan 1).e ∧ seqAhead (cellSeq (cell 1 12 512)) ((s.dev.stitch 1).chan 1).e < 2 ^ 31 ∧
      cellIsSync (cell 1 12 512) = true ∧ cellIsSync (cell 1 13 496) = false ∧ inLimit ((s.dev.stitch 1).chan 1).limit (cellSeq (cell 1 13 496)) = false ∧
      inLimit ((s.dev.stitch 1).chan 1).limit (cellSeq (cell 1 12 496)) = true) ∧
    holds (upPort fun x => { x with chans := [(1, { SChan.reset with egCells := 1, txLimit := 1 })] }) (fun s => (s.dev.stitch 1).echoes = [] ∧ s.dev.canSend 1 1 = true) := by decide +kernel

/-- A cell whose CHECK does not hold. -/
theorem witness_StitchCells_check : ((upPort id).dev.stitch 1).checks (List.replicate 12 0 ++ [1] ++ List.replicate 499 0) = false := by
  have h : ((upPort id).dev.stitch 1).cv = cv0 := rfl
  simp only [Stitch.checks, cellValue, h, cv0_value]
  decide +kernel

/-! ### Hypotheses of the statements: keys, jobs, engines -/

theorem witness_KeyCommands :
    let load := fun tx rx => ent ([0, 0, 1, 0] ++ leBytes 4 tx ++ leBytes 4 rx ++ List.replicate 40 0)
    let e := load 1 2
    let act := fun b => ent [0, 0, 1, b]
    let erase := ent [0, 0, 1, 1]
    let fields : List Fld := [⟨0, 2, 0x3FF, 0, 511, false⟩, fldU 2 1 1 128, ⟨3, 1, 7, 0, 7, false⟩, fldAny 4 4, fldAny 8 4]
    let on := withKeys (fun c => { c with slot0 := some slot0, tx := .slot 0, expect := 1 }) (withBundle (fun b => { b with st := .enabled }) base)
    let kek := fun p => ent (pl 194 [p, 0])
    meets formKeyLoad e (offDom 0x40 base) (fun s => u8 e 3 < 2 ∧ e.plen = 52 ∧ layoutFault (payload e) fields = none ∧ s.dev.domOn domCrypto = false) ∧
    meets formKeyLoad e (withPar [(pKeyWrapOnly, 1)] base) (fun s => s.dev.domOn domCrypto = true ∧ (∀ ch ∈ kChans e, s.dev.interopChan ch = false) ∧
      s.par.on pKeyWrapOnly = true) ∧
    meets formKeyLoad (ent ([127, 0, 2, 0] ++ List.replicate 48 0)) base (fun s => s.par.on pKeyWrapOnly = false ∧ kOneCarrier (ent ([127, 0, 2, 0] ++ List.replicate 48 0)) = false) ∧
    meets formKeyLoad (load 1 1) base (fun _ => kOneCarrier (load 1 1) = true ∧ saltsOverlap (u32 (load 1 1) 4) (u32 (load 1 1) 8) (kCount (load 1 1)) = true) ∧
    meets formKeyLoad e on (fun s => saltsOverlap (u32 e 4) (u32 e 8) (kCount e) = false ∧ fieldAt (payload e) 12 8 + 2 ^ s.par.nat pKeyLimitLog2 ≤ 2 ^ 64 - 1 ∧
      ∃ ch ∈ kChans e, (s.dev.keyChan ch).active 0 = true) ∧
    meets formKeyLoad e base (fun s => s.par.on pKeyWrapOnly = false ∧ ∀ ch ∈ kChans e, (s.dev.keyChan ch).active 0 = false) ∧
    meets formKeyActivate (act 4) base (fun s => kOneCarrier (act 4) = true ∧ s.dev.domOn domCrypto = true ∧ kaTx (act 4) < 2 ∧
      ∃ ch ∈ kChans (act 4), (s.dev.keyChan ch).usable (kaTx (act 4)) = false) ∧
    meets formKeyActivate (act 4) on (fun s => kaRx (act 4) = 1 ∧ ∀ ch ∈ kChans (act 4), (s.dev.keyChan ch).usable (kaTx (act 4)) = true) ∧
    meets formKeyActivate (act 14) on (fun s => kaTx (act 14) = 2 ∧ kaRx (act 14) = 3 ∧ (s.dev.bundleOf 0).isSome = true ∧
      ((s.dev.bundleOf 0).any fun kv => kv.2.on) = true ∧ (s.dev.keyChan 0).txSlot.isSome = true) ∧
    meets formKeyActivate (act 4) (offDom 0x40 base) (fun s => s.dev.domOn domCrypto = false) ∧
    meets formKeyErase erase (offDom 0x40 base) (fun s => s.dev.domState domCrypto = .off) ∧
    meets formKeyErase erase on (fun s => u8 erase 3 = 1 ∧ s.dev.domState domCrypto ≠ .off ∧ kFirst erase + kCount erase ≤ 512 ∧ ∃ ch ∈ kChans erase, (s.dev.keyChan ch).active 0 = true) ∧
    meets formKeyErase erase base (fun s => s.dev.domState domCrypto ≠ .off ∧ ∀ ch ∈ kChans erase, (s.dev.keyChan ch).active 0 = false) ∧
    meets formKeyStatus (ent [255, 1]) base (fun s => s.dev.domOn domCrypto = true) ∧ meets formKeyStatus (ent [255, 1]) (offDom 0x40 base) (fun s => s.dev.domOn domCrypto = false) ∧
    meets formKekLoad (kek 0) base (fun s => s.dev.domOn domCrypto = true) ∧ meets formKekLoad (kek 1) base (fun s => s.dev.key.kekHalf.isNone = true) ∧
    meets formKekLoad (kek 1) (keysIs (fun k => { k with kekHalf := some ([], 0) }) base) (fun s => s.dev.key.kekHalf = some ([], s.env.cmds8)) := by decide +kernel

/-- OAEP either decodes or fails: one of the two last clauses of `Obligations.KeyCommands` speaks of every ciphertext. -/
theorem witness_KeyCommands_oaep (bs : List Byte) : Config.oaepDecode bs = none ∨ ∃ k, Config.oaepDecode bs = some k := by
  cases Config.oaepDecode bs with
  | none => exact .inl rfl
  | some k => exact .inr ⟨k, rfl⟩

theorem witness_CipherEvents :
    let m : MfReport := ⟨true, 0, 1, [], []⟩
    let plain : MfReport := ⟨false, 0, 1, [], []⟩
    let k := withKeys (fun c => { c with slot0 := some slot0, tx := .slot 0, expect := 1 }) ready0
    holds k (fun s => (s.dev.keyChan 0).tx = .slot 0 ∧ (s.dev.keyChan 0).at_ 0 = some slot0 ∧ slot0.near = false ∧ (s.dev.keyChan 0).rollAt = none) ∧
    holds k (fun s => s.dev.domOn (63 / 128) = true ∧ 63 % 128 < s.dev.rxSlots (63 / 128) ∧ (s.dev.keyChan 0).failSince = 0 ∧
      s.dev.interop (63 / 128) = false ∧ s.dev.mfOutcome s.env 63 plain ≠ .authFail) ∧
    holds k (fun s => s.dev.notChecked s.env 0 = false ∧ (s.dev.keyChan 0).expect = 1 ∧ (s.dev.keyChan 0).at_ 1 = none ∧ (s.dev.keyChan 1).expect ≠ 1 ∧
      (s.dev.keyChan 1).expect = 0) ∧
    holds (withKeys (fun c => { c with slot0 := some { slot0 with rxLast := some 1 }, expect := 2 }) ready0) (fun s =>
      (s.dev.keyChan 0).at_ m.kp = some { slot0 with rxLast := some 1 } ∧ (s.dev.keyChan 0).expect ≠ 0 ∧ m.mfc.toNat ≤ 1) := by decide +kernel

/-- A multiframe whose tag is that of its slot is accepted: what the cipher answers is uninterpreted. -/
theorem witness_CipherEvents_accepted :
    let k := withKeys (fun c => { c with slot0 := some slot0, tx := .slot 0, expect := 1 }) ready0
    k.dev.mfOutcome k.env 0 ⟨true, 0, 1, [], (lineOpen slot0 1 0 []).2⟩ = .accepted := by
  intro k
  have hn : k.dev.notChecked k.env 0 = false := by decide +kernel
  have hc : (k.dev.keyChan 0).expect = 1 := rfl
  have ha : (k.dev.keyChan 0).at_ 0 = some slot0 := rfl
  have hp : ∀ l : List Byte, padTo 12 (padTo 12 l) = padTo 12 l := fun l => by
    have h : 12 - min 12 (l.length + (12 - l.length)) = 0 := by omega
    simp [padTo, h, List.take_take]
  simp [Dev.mfOutcome, hn, hc, ha, slot0, lineOpen, hp]

theorem witness_CryptoJobs :
    let cj := fun flags => ent ([7, flags, 0, 1] ++ List.replicate 8 0 ++ leBytes 4 16 ++ List.replicate 8 0 ++ leBytes 4 64 ++ leBytes 4 96 ++ List.replicate 12 0)
    let e := cj 0
    let loaded := keysIs (fun k => { k with job := [(cjSlot e, ⟨[], 0, 0, 32, 0⟩)] }) base
    let full := keysIs (fun k => { k with normal := List.replicate 8 { job0 with id := 1 } }) loaded
    meets formCryptoJob (ent (pl 44 [7, 6])) base (fun _ => cjField (ent (pl 44 [7, 6])) = some 9) ∧
    meets formCryptoJob e (offDom 0x40 base) (fun s => cjField e = none ∧ s.dev.domOn domCrypto = false) ∧
    meets formCryptoJob e base (fun s => s.dev.domOn domCrypto = true ∧ (s.dev.key.job.map (·.1)).contains (cjSlot e) = false) ∧
    meets formCryptoJob e full (fun s => cjAuto e = false ∧ (∀ r ∈ cjRegions e, r.1 + r.2.1 ≤ jobArea) ∧ overlapOf (cjChecked e) = none ∧ (∀ j ∈ s.dev.key.jobs, j.id ≠ 7) ∧
      8 ≤ s.dev.key.normal.length) ∧
    meets formCryptoJob e loaded (fun s => cjUrgent e = false ∧ s.dev.key.normal.length < 8 ∧ (s.dev.key.job.map (·.1)).contains (cjSlot e) = true) ∧
    meets formCryptoJob (cj 16) loaded (fun s => cjField (cj 16) = none ∧ cjUrgent (cj 16) = true ∧ s.dev.key.urgent.length < 2) ∧
    meets formCryptoCancel (ent [7]) base (fun s => ∀ j ∈ s.dev.key.jobs, j.id ≠ 7) ∧
    meets formCryptoCancel (ent [7]) (keysIs (fun k => { k with normal := [job0] }) base) (fun s =>
      (s.dev.key.running.toList ++ s.dev.key.suspended.toList).find? (fun j => decide (j.id = 7)) = none ∧
      (s.dev.key.urgent ++ s.dev.key.normal).find? (fun j => decide (j.id = 7)) = some job0) ∧
    holds (keysIs (fun k => { k with running := some job0, urgent := [{ job0 with urgent := true }] }) base) (fun s => s.dev.domOn domCrypto = true ∧
      s.dev.key.running = some job0 ∧ job0.urgent = false ∧ s.dev.key.urgent = [{ job0 with urgent := true }]) ∧
    holds (keysIs (fun k => { k with suspended := some job0 }) base) (fun s => s.dev.key.running = none ∧ s.dev.key.urgent = [] ∧ s.dev.key.suspended = some job0) ∧
    holds (keysIs (fun k => { k with normal := [job0] }) base) (fun s => s.dev.key.running = none ∧ s.dev.key.suspended = none ∧ s.dev.key.normal = [job0]) := by decide +kernel

/-- The header of an engine image of 1,024 bytes with 512 bytes of code (Table 15-5). -/
def engHeader : List Byte := leBytes 4 0x48454E47 ++ [1, 0, 0, 0] ++ leBytes 4 0 ++ leBytes 4 1024 ++ leBytes 4 512 ++ leBytes 4 0 ++ leBytes 4 0 ++ [1, 1, 1, 0] ++
  leBytes 4 1000 ++ List.replicate 10 0

theorem witness_EngineCommands :
    let load := fun off len => ent ([3, 0, 0, 0] ++ leBytes 4 off ++ leBytes 4 len)
    let image := withMem 0x3C000000 engHeader base
    let img := fun s : State => s.mem.readAll (0x3C000000 + 0) (min 1024 0x2000000)
    let start := fun k n => ent (pl 20 [3, k, n])
    let open0 := withPar [(pEngHostedMask, 0xFFFF)]
    let run := fun p : Prog => { p with st := .running, engs := [0] }
    meets formEngLoad (load 0 1024) (withProg id base) (fun s => (s.dev.prog 3).isSome = true) ∧ meets formEngLoad (load 1 1024) base (fun s => (s.dev.prog 3).isNone = true ∧ 1 % 4096 ≠ 0) ∧
    meets formEngLoad (load 0 1024) base (fun s => 0 + 1024 ≤ 0x2000000 ∧ 1024 ≠ fieldAt (img s) 12 4) ∧
    meets formEngLoad (load 0 1024) (withMem 0x3C000000 (List.replicate 12 0 ++ leBytes 4 1024) base) (fun s => fieldAt (img s) 12 4 = 1024 ∧ hdrRange (img s) = some 0) ∧
    meets formEngLoad (load 0 1024) image (fun s => (s.dev.prog 3).isNone = true ∧ hdrRange (img s) = none ∧ hdrRelation (img s) = none ∧ fieldAt (img s) 12 4 = 1024 ∧ fieldAt (img s) 5 1 = 0 ∧
      (s.dev.signerKey 0).isSome = true ∧ s.dev.nv.engMin.get 0 0 ≤ fieldAt (img s) 8 4 ∧ sumBy (fun kv => kv.2.len) s.dev.eng.prog + 1024 ≤ storeBytes) ∧
    meets formEngLoad (load 0 1024) { image with dev := { image.dev with nv := { image.dev.nv with engMin := [(0, 1)] } } } (fun s =>
      fieldAt (img s) 8 4 < s.dev.nv.engMin.get 0 (fieldAt (img s) 5 1)) ∧
    meets formEngStart (start 0 1) (open0 (withProg run base)) (fun s => s.dev.prog 3 = some (run prog0) ∧ (run prog0).placed = true ∧ s.dev.inService = true) ∧
    meets formEngStart (start 15 1) (withPar [(pEngHostedMask, 0)] (withProg id base)) (fun s => prog0.placed = false ∧ bitAt s.env.mask 15 = false) ∧
    meets formEngStart (start 0 2) (open0 (withProg id base)) (fun s => bitAt s.env.mask 0 = true ∧ prog0.engMax < 2) ∧
    meets formEngStart (start 0 1) (open0 (withProg id base)) (fun s => s.dev.prog 3 = some prog0 ∧ prog0.engMin ≤ 1 ∧ 1 ≤ prog0.engMax ∧ prog0.outMib = 0 ∧
      s.dev.domOn (domCluster 0) = true ∧ s.dev.hasRoom prog0 1 0 = true ∧ s.dev.spillUsed + prog0.spillMib ≤ 2048) ∧
    meets formEngStart (start 0 1) base (fun s => (s.dev.prog 3).isNone = true) ∧
    meets formEngStop (ent [3]) base (fun s => (s.dev.prog 3).isNone = true) ∧ meets formEngStop (ent [3]) (withProg id base) (fun s => s.dev.prog 3 = some prog0 ∧ prog0.placed = false) ∧
    meets formEngStop (ent [3]) (withProg run base) (fun s => s.dev.prog 3 = some (run prog0) ∧ (run prog0).placed = true) ∧
    meets formEngUnload (ent [3]) (withProg run base) (fun s => (s.dev.prog 3).any Prog.placed = true) ∧
    meets formEngUnload (ent [3]) base (fun s => (s.dev.prog 3).any Prog.placed = false) ∧ meets formEngMsg (ent (pl 17 [3])) base (fun s => (s.dev.prog 3).isNone = true) ∧
    meets formEngStatus (ent [3]) (withProg id base) (fun s => s.dev.prog 3 = some prog0 ∧ prog0.placed = false) ∧ meets formEngArray (ent []) base any := by decide +kernel

/-- A message to a running program with an empty inbox: how far the program has got is free, the inbox stays empty. -/
theorem witness_EngineCommands_message :
    let s := withProg (fun p => { p with st := .running, engs := [0] }) base
    meets formEngMsg (ent (pl 17 [3])) s any ∧ ∃ p, (s.dev.progRuns 3).prog 3 = some p ∧ p.st = .running ∧ p.inbox.length < 4 := by
  exact ⟨by decide +kernel, _, rfl, rfl, by show (List.drop _ []).length < 4; simp⟩

/-- The digest of a stored image matches it or does not: SHA-256 is uninterpreted. -/
theorem witness_EngineCommands_start :
    ({ prog0 with digest := Config.sha256 prog0.image } : Prog).intact = true ∧
    Config.sha256 ({ prog0 with digest := Config.sha256 prog0.image ++ [0] } : Prog).image ≠ ({ prog0 with digest := Config.sha256 prog0.image ++ [0] } : Prog).digest := by
  refine ⟨by simp [Prog.intact, prog0], ?_⟩
  intro h
  have := congrArg List.length h
  simp at this

/-- Counters of a running program are brought up to now first; its grants stay what they are. -/
theorem witness_EngineEvents_counters :
    let run := fun m => withProg (fun p => { p with st := .running, engs := [0], cntMask := m }) base
    (∃ p, (run 0x4000).dev.countersRun.prog 3 = some p ∧ p.placed = true ∧ bitAt p.cntMask ((0xE07FF : BitVec 32).toNat / 65536) = true ∧
      (0xE07FF : BitVec 32).toNat / 65536 < 16 ∧ (0xE07FF : BitVec 32).toNat % 65536 < 2048) ∧
    ∃ p, (run 0).dev.countersRun.prog 3 = some p ∧ p.placed = true ∧ bitAt p.cntMask ((0xE07FF : BitVec 32).toNat / 65536) = false := by
  exact ⟨⟨_, rfl, rfl, rfl, by decide, by decide⟩, _, rfl, rfl, rfl⟩

/-- A signature holds or does not: one of the two clauses of `Obligations.EngineCommands` and of `Obligations.SecurityRows` speaks of every image. -/
theorem witness_signature (key msg sig : List Byte) : Config.pssOk key msg sig = true ∨ Config.pssOk key msg sig = false := by
  cases Config.pssOk key msg sig <;> simp

theorem witness_EngineEvents :
    let run := fun f => withProg (fun p => f { p with st := .running, engs := [0] }) base
    holds (run id) (fun s => (s.dev.prog 3).isSome = true ∧ (s.dev.prog 3).any Prog.placed = true) ∧
    holds (run fun p => { p with st := .stopping }) (fun s => (s.dev.prog 3).any (fun p => decide (p.st = .stopping)) = true) ∧
    holds (withRun .search none base) (fun s => s.io.mbxState = .ready ∧ (s.dev.runs.find? fun r => r.cluster.isNone && (s.dev.choose s.env.mask r.prog).isSome).isSome = true) ∧
    holds (withRun .search none base) (fun s => ∃ r ∈ s.dev.runs, r.prog = sysRow 0 ∧ r.carrier = 0 ∧ r.cluster = none ∧ r.warned = false) ∧
    holds locked0 (fun s => s.dev.locked 0 = true ∧ s.dev.eng.capture = []) ∧
    holds (run id) (fun s => (s.dev.prog 3).any (fun p => p.placed && !bitAt p.perm (4 + 0)) = true) ∧
    holds (run fun p => { p with perm := 0x10 }) (fun s => (s.dev.prog 3).any (fun p => p.placed && bitAt p.perm (4 + 0)) = true ∧ s.dev.locked 0 = false) ∧
    holds { run fun p => { p with perm := 0x10 } with dev := { locked0.dev with eng := (run fun p => { p with perm := 0x10 }).dev.eng } } (fun s =>
      (s.dev.prog 3).any (fun p => p.placed && bitAt p.perm (4 + 0)) = true ∧ s.dev.locked 0 = true ∧ s.dev.eng.capture = []) ∧
    holds { run id with dev := { (run id).dev with eng := { (run id).dev.eng with capture := [(0, .hosted 3)] } } } (fun s => s.dev.eng.capture = [(0, .hosted 3)] ∧
      (s.dev.prog 3).any Prog.placed = true) ∧
    holds (run fun p => { p with perm := 1 }) (fun s => (s.dev.prog 3).any (fun p => p.placed && bitAt p.perm 0) = true ∧
      (((s.dev.tx 0).nlc.stage 0 []).commit ((s.dev.tx 0).nlc.stage 0 []).staged (some (16 * (3 + 1) + 0))).2 = none) ∧
    holds (run fun p => { p with perm := 0x200 }) (fun s => (s.dev.prog 3).any (fun p => p.placed && bitAt p.perm 9 && decide (p.userTimes = [])) = true ∧
      0 < s.par.nat pEngUserRate) := by decide +kernel

/-! ### Hypotheses of the statements: timing, sensing, Breeze, counters, security, memory, admission -/

/-- The timing DPLL, a reference, a pulse input or output changed. -/
def timIs (f : Tim → Tim) : State := dv fun d => d.updTim f
def refIs (f : TimRef → TimRef) : State := dv fun d => d.updRef 0 f
def outIs (o : Nat) (f : TimOut → TimOut) (s : State) : State := { s with dev := s.dev.updOut o f }

theorem witness_Timing :
    let cfg := fun en prio f => ent ([0, en, prio, 0] ++ leBytes 4 f)
    let step := fun (v : BitVec 32) => ent ([1, 0, 0, 0] ++ leBytes 4 v.toNat)
    let out := fun o src f => ent ([o, src, 0, 0] ++ leBytes 4 f ++ leBytes 4 0)
    meets formTimRefCfg (cfg 1 0 10000000) base any ∧ meets formTimRefCfg (cfg 1 1 999) base any ∧ meets formTimRefCfg (cfg 1 1 156250001) base any ∧
    meets formTimRefCfg (cfg 1 1 1000) (refIs fun x => { x with enable := true, freq := 1000 }) (fun s => (s.dev.timRef 0).freq = 1000 ∧ (s.dev.timRef 0).enable = true) ∧
    meets formTimRefQl (ent [0, 15]) base any ∧
    meets formTimSelect (ent [1, 0]) base (fun s => TimMode.of 1 = .forced ∧ (s.dev.timRef 0).qualified = false) ∧
    meets formTimSelect (ent [2, 0]) base (fun s => s.dev.tim.history = false) ∧
    meets formTimSelect (ent [0, 0]) (offDom 0x41 base) (fun s => s.dev.domOn domDpll = false) ∧ meets formTimSelect (ent [3, 0]) base (fun s => s.dev.domOn domDpll = true) ∧
    meets formTimPhaseStep (ent (pl 8 [])) base any ∧ meets formTimPhaseStep (step 1000001) base (fun _ => (1000000 : Int) < i32 (step 1000001) 4) ∧
    meets formTimPhaseStep (step (-1000000)) base (fun s => i32 (step (-1000000)) 4 = -1000000 ∧ ∃ o ∈ maskedOutputs 1, (s.dev.timOut o).enable = false) ∧
    meets formTimPhaseStep (step 5) (outIs 0 (fun x => { x with enable := true }) base) (fun s =>
      (∀ o ∈ maskedOutputs 1, (s.dev.timOut o).stepsOffset o = false ∧ (s.dev.timOut o).enable = true) ∧ s.dev.domOn domDpll = true ∧ s.par.nat pTimStepRate = 0) ∧
    meets formTimPhaseStep (step 5) (withPar [(pTimStepRate, 1000)] (outIs 0 (fun x => { x with enable := true }) base)) (fun s => s.dev.domOn domDpll = true ∧
      s.par.nat pTimStepRate ≠ 0 ∧ i32 (step 5) 4 ≠ 0) ∧
    meets formTimPhaseStep (step 5) (outIs 0 (fun x => { x with enable := true }) (offDom 0x41 base)) (fun s => s.dev.domOn domDpll = false) ∧
    meets formTimOutCfg (out 0 2 1000) base (fun _ => bitsAt (u8 (out 0 2 1000) 1) 1 2 = 1) ∧ meets formTimOutCfg (out 0 0 999) base any ∧
    meets formTimOutCfg (out 4 1 100) base (fun s => (i32 (out 4 1 100) 8).natAbs = 0 ∧ (s.dev.timOut 4).enable = false) ∧
    meets formTimStatus (ent []) base (fun s => s.dev.domOn domDpll = true) ∧ meets formTimStatus (ent []) (offDom 0x41 base) (fun s => s.dev.domOn domDpll = false) ∧
    holds (refIs fun x => { x with enable := true }) (fun s => (s.dev.timRef 0).enable = true ∧ (s.dev.timRef 0).lost = false) ∧
    holds (refIs fun x => { x with enable := true, lost := true }) (fun s => s.dev.domOn domDpll = true ∧ (s.dev.timRef 0).lost = true) ∧
    holds (refIs fun x => { x with wtrEnd := some 5 }) (fun s => (s.dev.timRef 0).wtrEnd.isSome = true) ∧
    holds (timIs fun t => { t with st := .switching }) (fun s => s.dev.tim.st = .acquiring ∨ s.dev.tim.st = .switching) ∧
    holds (timIs fun t => { t with st := .holdover }) (fun s => s.dev.tim.st = .holdover) ∧ holds (timIs fun t => { t with st := .locked }) (fun s => s.dev.tim.st = .locked) ∧
    holds (timIs fun t => { t with pps := [(0, ⟨2, true, false⟩)] }) (fun s => (s.dev.tim.pps.get .reset 0).valid = true) ∧
    holds (timIs fun t => { t with pps := [(0, ⟨1, false, false⟩)] }) (fun s => (s.dev.tim.pps.get .reset 0).valid = false ∧ (s.dev.tim.pps.get .reset 0).edges = 1 ∧
      sec ≤ sec + 10 * us) := by decide +kernel

theorem witness_ReferenceSelection :
    let good := fun ql => { TimRef.reset with enable := true, qualified := true, prio := 1, ql := ql }
    let s := timIs fun t => { t with refs := [(0, good 4), (2, good 2), (3, good 2)] }
    holds s (fun s => s.dev.tim.mode = .auto ∧ (s.dev.timRef 2).eligible = true ∧ s.dev.timWanted = some 2) ∧ holds base (fun s => s.dev.tim.mode = .auto ∧ s.dev.timWanted = none) := by
  decide +kernel

def senseIs (f : Sense → Sense) (s : State) : State := { s with dev := s.dev.updSense 0 f }
def hkIs (f : HkConv → HkConv) : State := dv fun d => d.updHk 0 f

theorem witness_Sensing :
    let taps := fun (v : Byte) => ent ([0, 0, 0, 0] ++ (List.replicate 32 [(0 : Byte), v]).flatten)
    let front := fun f => withRun .front (some 0) (senseIs f base)
    let full := List.replicate 500 (⟨0, true, false, 0, 0, 0, 0⟩ : FrontRecord)
    let fades := senseIs (fun x => { x with fading := some (.host []) }) base
    meets formSenseCoefLoad (taps 0) (offDom 0 base) (fun s => layoutFault (payload (taps 0)) [fldCarrier, fldBits 1 1 1, fldRsv 2 2] = none ∧ s.dev.domOn 0 = false) ∧
    meets formSenseCoefLoad (taps 0x7F) base (fun s => s.dev.domOn 0 = true ∧ 4 * 2 ^ 14 < sumBy Int.natAbs (senseTaps (taps 0x7F))) ∧
    meets formSenseCoefLoad (taps 1) base (fun s => sumBy Int.natAbs (senseTaps (taps 1)) ≤ 4 * 2 ^ 14 ∧ (s.dev.sense 0).fading = none) ∧
    meets formSenseStatus (ent [0]) base (fun s => s.dev.domOn 0 = true) ∧ meets formSenseStatus (ent [0]) (offDom 0 base) (fun s => s.dev.domOn 0 = false) ∧
    holds { senseIs (fun x => { x with running := true, k := 1 }) base with dev := { (senseIs (fun x => { x with running := true, k := 1 }) base).dev with pw := Power.reset } }
      (fun s => (s.dev.sense 0).running = true ∧ (List.zipWith SenseSample.mk [true, false] [[0, 0, 0, 0], [0, 0, 0, 0]]).length = 2 ^ (s.dev.sense 0).k ∧
        s.dev.anyStack = false ∧ s.dev.eng.prog = []) ∧
    holds fades (fun s => (s.dev.sense 0).fading = some (.host [])) ∧
    holds (senseIs id base) (fun s => 2 * (1024 * 2 ^ (s.dev.sense 0).k * ((s.dev.sense 0).window.filter fun r => r.valid && !r.step).length) < 10000000 * s.par.nat pFrontWin) ∧
    holds (front fun x => { x with k := 10, window := full }) (fun s => s.dev.runPlaced .front 0 = true ∧
      10000000 * s.par.nat pFrontWin ≤ 2 * (1024 * 2 ^ (s.dev.sense 0).k * ((s.dev.sense 0).window.filter fun r => r.valid && !r.step).length) ∧ 0 ≤ s.par.nat pFrontPhThr ∧ 0 ≤ s.par.nat pFrontSopThr) ∧
    holds (front fun x => { x with k := 10, window := full, ph := { x.ph with above := 1 } }) (fun s => s.dev.runPlaced .front 0 = true ∧ (s.dev.sense 0).ph.above = 1 ∧ (s.dev.sense 0).ph.active = false ∧
      s.par.nat pFrontPhThr < 2 ^ 32) ∧
    holds (senseIs (fun x => { x with ph := { x.ph with active := true, below := true } }) base) (fun s => (s.dev.sense 0).ph.active = true ∧ (s.dev.sense 0).ph.below = true) := by
  decide +kernel

theorem witness_Housekeeping :
    let open0 : HkOpen := ⟨3, [], 0, none⟩
    let cal := fun st m => ent ([0, st, 0, 0] ++ leBytes 4 m ++ leBytes 4 0)
    let on := fun f => hkIs fun c => f { c with enable := true, warm := true, list := [⟨4, false, 0⟩] }
    meets formHkCfg (ent [0, 1, 1, 0, 0, 0x80]) base (fun _ => hkBadEntry (ent [0, 1, 1, 0, 0, 0x80]) = some 5) ∧
    meets formHkCfg (ent [0, 1, 1, 0, 4, 0]) (hkIs fun c => { c with cal := some open0 }) (fun s => hkBadEntry (ent [0, 1, 1, 0, 4, 0]) = none ∧ (s.dev.hkConv 0).cal.isSome = true) ∧
    meets formHkCfg (ent [0, 0, 1, 0, 4, 0]) base (fun s => hkBadEntry (ent [0, 0, 1, 0, 4, 0]) = none ∧ (s.dev.hkConv 0).cal = none) ∧
    meets formHkRead (ent [0, 31, 6]) base any ∧
    meets formHkCal (cal 0 3) (on fun c => { c with cal := some open0 }) (fun s => layoutFault (payload (cal 0 3)) (hkCalLayout 0) = none ∧ (s.dev.hkConv 0).cal.isSome = true) ∧
    meets formHkCal (cal 0 3) base (fun s => (s.dev.hkConv 0).cal = none ∧ (s.dev.hkConv 0).enable = false) ∧
    meets formHkCal (cal 0 3) (on id) (fun s => (s.dev.hkConv 0).cal = none ∧ (s.dev.hkConv 0).enable = true ∧ (s.dev.hkConv 0).warm = true) ∧
    meets formHkCal (cal 1 3) base (fun s => layoutFault (payload (cal 1 3)) (hkCalLayout 1) = none ∧ (s.dev.hkConv 0).cal = none) ∧
    meets formHkCal (cal 2 3) base (fun s => layoutFault (payload (cal 2 3)) (hkCalLayout 2) = none ∧ (s.dev.hkConv 0).cal = none) ∧
    meets formHkCal (cal 1 3) (on fun c => { c with cal := some open0 }) (fun s => (s.dev.hkConv 0).cal = some open0 ∧ open0.mask = u32 (cal 1 3) 4) ∧
    meets formHkCal (cal 3 0) base (fun _ => layoutFault (payload (cal 3 0)) (hkCalLayout 3) = none) ∧
    holds (hkIs fun c => { c with enable := true }) (fun s => s.dev.powered = true ∧ (s.dev.hkConv 0).enable = true) ∧
    holds (on id) (fun s => (s.dev.hkConv 0).warm = true ∧ (s.dev.hkConv 0).list[0]? = some ⟨4, false, 0⟩ ∧ (s.dev.hkConv 0).inCal ⟨4, false, 0⟩ = false ∧
      (s.dev.hkConv 0).suspect = false) := by decide +kernel

/-- A self-check reads within its limits, or not: one of the clauses of `Obligations.SensingAndHousekeeping` speaks of every reading of input 26, and the first of
them asks input 27 as well. -/
theorem witness_Housekeeping_selfcheck (c26 : BitVec 16) :
    (Config.hkFactory 0 false c26.toNat - 1000000).natAbs ≤ 2000 ∨ 2000 < (Config.hkFactory 0 false c26.toNat - 1000000).natAbs := by omega

def brzIs (f : Breeze → Breeze) (s : State) : State := { s with dev := s.dev.updBrz 0 f }

theorem witness_BreezeRows :
    let en := ent [0, 1]
    let send := ent [0, 1, 0, 0, 9]
    let on := withPar [(pBrzTxMode, 0)] (txIs (fun t => { t with state := .on }) ready0)
    let hear := withPar [(pBrzRxEn, 1), (pBrzRxMin, 0)]
    let pkt : List Byte := [1, 9]
    meets formBrzTxEnable en (offDom 0 ready0) (fun s => s.dev.inService = true ∧ (s.dev.rx 0).op = some pt ∧ pt.profile = 0 ∧ s.dev.domOn 0 = false) ∧
    meets formBrzTxEnable en (brzIs (fun b => { b with tone := .rampDown }) ready0) (fun s => (s.dev.brz 0).tone = .rampDown) ∧
    meets formBrzTxEnable en on (fun s => (s.dev.brz 0).tone = .off ∧ (s.dev.brz 0).en = false ∧ s.par.on pBrzTxMode = false ∧ s.dev.brzOutput 0 = true) ∧
    meets formBrzTxEnable en ready0 (fun s => s.dev.domOn 0 = true ∧ s.dev.brzOutput 0 = false) ∧
    meets formBrzTxEnable (ent [0, 0]) (brzIs (fun b => { b with tone := .on, en := true }) on) (fun s => (s.dev.brz 0).tone = .on ∧ (s.dev.brz 0).en = true ∧ (s.dev.brz 0).queue = []) ∧
    meets formBrzTxEnable en base (fun s => s.dev.inService = true ∧ s.dev.domOn 0 = true ∧ (s.dev.rx 0).op = none) ∧
    meets formBrzSend send (offDom 0 base) (fun s => s.dev.domState 0 = .off) ∧
    meets formBrzSend send base (fun s => s.dev.domState 0 ≠ .off ∧ (s.dev.brz 0).en = false) ∧
    meets formBrzSend send (brzIs (fun b => { b with en := true, queue := List.replicate 4 ⟨0, [1]⟩ }) ready0) (fun s => 4 ≤ (s.dev.brz 0).queue.length) ∧
    meets formBrzSend send (brzIs (fun b => { b with en := true }) ready0) (fun s => s.dev.domState 0 ≠ .off ∧ (s.dev.rx 0).op = some pt ∧ (s.dev.brz 0).en = true ∧ (s.dev.brz 0).queue.length < 4) ∧
    meets formBrzRecv (ent (pl 6 [])) base (fun s => (s.dev.brz 0).holds 0 = false) ∧ meets formBrzRecv (ent (pl 6 [])) (brzIs (fun b => { b with wrSeq := 1 }) base) (fun s =>
      (s.dev.brz 0).holds 0 = true) ∧
    meets formBrzStatus (ent [0]) base (fun s => s.dev.domOn 0 = true) ∧ meets formBrzStatus (ent [0]) (offDom 0 base) (fun s => s.dev.domOn 0 = false) ∧
    holds (brzIs (fun b => { b with tone := .rampUp }) base) (fun s => (s.dev.brz 0).tone = .rampUp) ∧
    holds (brzIs (fun b => { b with tone := .rampDown, disabling := true }) base) (fun s => (s.dev.brz 0).tone = .rampDown ∧ (s.dev.brz 0).disabling = true) ∧
    holds (brzIs (fun b => { b with tone := .on, queue := [⟨7, [1]⟩] }) on) (fun s => (s.dev.brz 0).tone = .on ∧ (s.dev.brz 0).queue = [⟨7, [1]⟩] ∧ s.dev.brzOutput 0 = true ∧
      s.par.on pBrzTxMode = false) ∧
    holds (brzIs (fun b => { b with cur := some ⟨7, [1]⟩ }) base) (fun s => (s.dev.brz 0).cur = some ⟨7, [1]⟩) ∧
    holds (hear ready0) (fun s => s.dev.brzListens s.env 0 = true ∧ s.par.nat pBrzRxMin ≤ 0 ∧
      ((1000 * (s.dev.brz 0).rxCfg.freq : Int) - 1000 * ((s.dev.brz 0).rxCfg.freq : Int)).natAbs ≤ 1000 ∧ (s.dev.brz 0).ctx0 = .listening ∧ (s.dev.brz 0).ctx1 = .listening) ∧
    holds (hear (brzIs (fun b => { b with ctx1 := .recv 100 false }) ready0)) (fun s => s.dev.brzListens s.env 0 = true ∧ (s.dev.brz 0).ctx1 = .recv 100 false ∧
      sixDbAbove 200 100 = true ∧ sixDbAbove 199 100 = false) ∧
    holds (withPar [(pBrzRxMin, 10)] base) (fun s => (9 : BitVec 16).toNat < s.par.nat (pBrzRxMin + 0)) ∧
    holds (at_ sec (brzIs (fun b => { b with ctx0 := .sync sec 5 false }) base)) (fun s => (s.dev.brz 0).ctx0 = .sync sec 5 false ∧ (s.dev.brz 0).ctx1 = .listening ∧
      countTrue (List.zipWith xor (natBits 32 (BitVec.ofNat 32 (s.dev.brz 0).rxCfg.sync).toNat) (natBits 32 (s.dev.brz 0).rxCfg.sync)) ≤ 2 ∧
      2 < countTrue (List.zipWith xor (natBits 32 (~~~ BitVec.ofNat 32 (s.dev.brz 0).rxCfg.sync).toNat) (natBits 32 (s.dev.brz 0).rxCfg.sync)) ∧
      (s.now - sec) * brzSymbolRate (s.dev.brz 0).rxCfg.rate ≤ 64 * 10000000) ∧
    holds (at_ sec (brzIs (fun b => { b with ctx0 := .sync 0 5 false, rxCfg := { b.rxCfg with rate := 2 } }) base)) (fun s =>
      ¬ (s.now - 0) * brzSymbolRate (s.dev.brz 0).rxCfg.rate ≤ 64 * 10000000) ∧
    holds (brzIs (fun b => { b with ctx1 := .sync 0 5 false }) base) (fun s => (s.dev.brz 0).ctx1 = .sync 0 5 false) ∧
    holds (brzIs (fun b => { b with ctx0 := .recv 5 true }) base) (fun s => (s.dev.brz 0).ctx0 = .recv 5 true ∧ s.dev.anyStack = true ∧ fieldAt pkt 0 1 = 1 ∧
      beNat (padTo 2 ((pkt ++ [(brzCrc pkt / 256 : Nat), (brzCrc pkt % 256 : Nat)].map (BitVec.ofNat 8)).drop 2)) = brzCrc (padTo 2 pkt)) := by decide +kernel

theorem witness_CounterRows :
    let rd := fun cid => ent (1 :: leBytes 4 cid)
    let sel := fun v => ent ([63, 3] ++ leBytes 2 v)
    let dump : SnapDump := ⟨0, 0, true, 0, 1000, []⟩
    let snap := fun f => ioOf fun io => { io with snap := f io.snap }
    meets formCntRead (rd 0x0E0000) base (fun _ => cidNamed (cidAt (rd 0x0E0000) 0) = true) ∧ meets formCntRead (rd 0xFF0000) base (fun _ => cidNamed (cidAt (rd 0xFF0000) 0) = false) ∧
    meets formCntSelect (sel 0) base (fun _ => sourceCount (u16 (sel 0) 2 / 1024) ≤ 0) ∧ meets formCntSelect (sel 1024) base (fun _ => 0 < sourceCount (u16 (sel 1024) 2 / 1024)) ∧
    meets formCntClear (ent [1, 0]) base (fun _ => bitAt (u16 (ent [1, 0]) 0) 13 = false) ∧
    holds base (fun s => s.dev.deaf = false ∧ s.dev.snapReady = true ∧ s.io.snap.busy = none ∧ (4 : Word).getLsbD 2 = true ∧ (4 : Word).getLsbD 1 = false ∧ (3 : Word).getLsbD 2 = false) ∧
    holds (snap fun x => { x with run := true }) (fun s => s.io.snap.run = true ∧ s.dev.snapReady = true ∧ s.io.snap.busy = none) ∧
    holds (snap fun x => { x with run := true, busy := some dump }) (fun s => s.io.snap.run = true ∧ s.io.snap.busy = some dump ∧ s.dev.anyStack = true ∧ s.io.snap.dmaEn = false ∧ s.mem.wf = true ∧
      ∀ c ∈ dump.cells, c.slot < 32768) ∧
    holds { State.reset with io := { State.reset.io with snap := { State.reset.io.snap with busy := some dump } } } (fun s => s.io.snap.busy.isSome = true ∧ s.dev.anyStack = false) := by decide +kernel

theorem witness_SecurityRows :
    let img : FwImage := ⟨0, 0x04010001, 4096, []⟩
    let hdr := leBytes 4 0x46524C56 ++ [1, 0, 0, 0] ++ leBytes 4 0 ++ leBytes 4 0x04010002 ++ leBytes 4 4096
    let good := withMem 0x34000000 hdr base
    let boot := fun f => dv fun d => { d with boot := f d.boot }
    let nvIs := fun f => dv fun d => { d with nv := f d.nv }
    let enroll := ent ([1, 0] ++ List.replicate 33 0)
    meets formSecStatus (ent []) base any ∧
    meets formFwStage (ent (pl 5 [1])) base any ∧ meets formFwStage (ent (pl 5 [])) { base with dev := { base.dev with pw := { base.dev.pw with state := .calm } } } (fun s => s.dev.inService = false) ∧
    meets formFwStage (ent (pl 5 [])) base (fun s => s.dev.inService = true ∧ fwHeaderFault (s.mem.readAll (fwArea + 0) 512) 0x800000 = some 0) ∧
    meets formFwStage (ent (pl 5 [])) good (fun s => fwHeaderFault (s.mem.readAll (fwArea + 0) 512) 0x800000 = none ∧ s.dev.nv.fuseF ≤ 0) ∧
    holds (withMem 0x34000000 hdr (nvIs fun v => { v with fuseF := 1 })) (fun s => fwHeaderFault (s.mem.readAll (fwArea + 0) 512) 0x800000 = none ∧ 0 < s.dev.nv.fuseF) ∧
    meets formFwActivate (ent []) base (fun s => s.dev.boot.staged = none) ∧
    meets formFwActivate (ent []) (boot fun b => { b with staged := some img }) (fun s => s.dev.boot.staged = some img ∧ s.dev.boot.running = none ∧ s.dev.boot.stagedBad = false) ∧
    meets formSecAttest (ent (pl 32 [])) base any ∧
    meets formSvnCommit (ent [0, 1]) base any ∧ meets formSvnCommit (ent [1, 17]) base any ∧ meets formSvnCommit (ent [1, 0]) (nvIs fun v => { v with engMin := [(0, 1)] }) (fun s => 0 < svnOld s.dev 1) ∧
    meets formSvnCommit (ent [1, 16]) base (fun s => svnOld s.dev 1 + 1 < 16 ∧ s.dev.pwrWarn = false) ∧
    meets formSvnCommit (ent [1, 16]) (dv fun d => { d with pw := { d.pw with vinLow := true } }) (fun s => svnOld s.dev 1 ≤ 16 ∧ s.dev.pwrWarn = true) ∧
    meets formSecEnroll enroll (nvIs fun v => { v with ownerLock := true }) (fun s => layoutFault (payload enroll) (enrollLayout 0) = none ∧ s.dev.nv.ownerLock = true) ∧
    meets formSecEnroll enroll base (fun s => s.dev.nv.ownerLock = false ∧ s.dev.nv.keyDigest = [] ∧ s.dev.nv.revoked = [] ∧ bitAt (u8 enroll 34) 0 = false) ∧
    meets formSecRead (ent (pl 5 [])) base (fun s => (secRegion s.dev 0).length ≤ 0) ∧ meets formSecRead (ent (pl 5 [])) (boot fun b => { b with attest := some [1] }) (fun s =>
      0 < (secRegion s.dev 0).length) ∧
    holds (boot fun b => { b with activating := some img }) (fun s => s.dev.boot.activating = some img) ∧
    holds State.reset (fun s => s.io.mbxState = .booting ∧ s.dev.boot.phase = 0 ∧ s.dev.pw.state = .calm ∧ s.dev.nv.selectedB = false ∧ s.dev.nv.slotA = some img ∧
      s.dev.nv.fuseF ≤ img.svn) := by decide +kernel

theorem witness_MemoryRows :
    let ret := fun m a => ent ([m, 0, 0] ++ leBytes 8 a)
    let buf := withBundle (fun b => { b with st := .enabled, buffered := true }) base
    meets formMemStatus (ent []) base any ∧
    meets formMemRetire (ret 2 0) base (fun _ => retireFault 2 0 0 = some 8) ∧
    meets formMemRetire (ret 0 0) base (fun s => retireFault 0 0 0 = none ∧ s.dev.msys.isRetired 0 0 0 = false ∧ s.dev.msys.hasSpare 0 0 0 = true ∧ bistDomain 0 0 s.dev = true) ∧
    meets formMemBist (ent [2, 0, 0]) base (fun _ => bistFault 2 0 = some 8) ∧
    meets formMemBist (ent [0x10, 0, 0]) ready0 (fun s => bistFault 0x10 0 = none ∧ bistIdle 0x10 0 s.dev = false) ∧
    meets formMemBist (ent [0x10, 0, 0]) base (fun s => bistIdle 0x10 0 s.dev = true ∧ s.dev.inService = true ∧ bistDomain 0x10 0 s.dev = true) ∧
    holds base (fun s => s.dev.inService = true ∧ s.dev.domOn (domStack 0) = true ∧ s.dev.anyStack = true ∧ s.dev.scrubOverdue s.env 0 = false) ∧
    holds (at_ (2 ^ 60) (dv fun d => d.updMsys fun m => { m with scrubStart := m.scrubStart.set 0 0 })) (fun s => s.dev.scrubOverdue s.env 0 = true) ∧
    holds (pwOf fun p => { p with restriping := true }) (fun s => s.dev.pw.restriping = true) ∧
    holds buf (fun s => (s.dev.bundleAt 0).buffered = true ∧ (s.dev.bundleAt 0).lostAt = none) := by decide +kernel

/-- A row whose address is retired already; and a bank whose four spare rows are used, where the address's own row is none of them. -/
theorem witness_MemoryRows_retired :
    let e := ent ([0, 0, 0] ++ leBytes 8 0)
    let b := Config.memBank 0 0 0
    let full := fun r => dv fun d => d.updMsys fun m => { m with retired := List.replicate 4 ⟨0, 0, b, r⟩ }
    (meets formMemRetire e (full (Config.memRow 0 0 0)) any = true ∧ (full (Config.memRow 0 0 0)).dev.msys.isRetired 0 0 0 = true) ∧
    (meets formMemRetire e (full (Config.memRow 0 0 0 + 1)) any = true ∧ (full (Config.memRow 0 0 0 + 1)).dev.msys.isRetired 0 0 0 = false ∧
      (full (Config.memRow 0 0 0 + 1)).dev.msys.hasSpare 0 0 0 = false) := by
  refine ⟨⟨by decide +kernel, ?_⟩, by decide +kernel, ?_, ?_⟩ <;>
    simp [MemSys.isRetired, MemSys.hasSpare, MemSys.used, dv, Dev.updMsys, List.replicate]

theorem witness_Admission :
    let e := ent [0]
    let other : Inflight := ⟨0x0102, ent [1], 0, true, 0, false⟩
    let twin : Inflight := ⟨0x0B01, ent [1], 0, true, 0, false⟩
    let i := Instr.cmdSenseStatus e
    let busy := fun r => ioOf fun io => { io with inflight := [r] }
    commandOf i = some (formSenseStatus, e) ∧
    holds { base with dev := { base.dev with pw := { base.dev.pw with state := .off } } } (fun s => s.dev.deaf = true) ∧
    holds (ioOf fun io => { io with inflight := List.replicate 64 other }) (fun s => s.dev.deaf = false ∧ s.io.inflight.any (isWaiting formSenseStatus.op (canonEntry e)) = false ∧
      64 ≤ s.io.outstanding) ∧
    ([MbxState.activating, .booting, .fault, .ready].all fun m => holds (ioOf fun io => { io with mbxState := m }) fun s =>
      s.dev.deaf = false ∧ (s.consumed formSenseStatus.op (canonEntry e)).isSome = true ∧ s.io.mbxState = m) = true ∧
    holds (busy twin) (fun s => (s.consumed formSenseStatus.op (canonEntry e)).any (fun s1 =>
      (earlier formSenseStatus.op (canonEntry e) s1.io.inflight).any fun r => decide (r.op / 256 = formSenseStatus.op / 256)) = true) ∧
    holds (busy other) (fun s => (s.consumed formSenseStatus.op (canonEntry e)).any (fun s1 =>
      !heldBack formSenseStatus.op (canonEntry e) formSenseStatus.alone (earlier formSenseStatus.op (canonEntry e) s1.io.inflight) &&
      (earlier formSenseStatus.op (canonEntry e) s1.io.inflight).any fun r => decide (r.e.tag = e.tag)) = true) ∧
    holds base (fun _ => formSenseStatus.fault (canonEntry (ent [4])) = some 8 ∧ formSenseStatus.fault (canonEntry e) = none) := by decide +kernel

theorem witness_DuplicateTag :
    let e := ent [0]
    let other : Inflight := ⟨0x0102, ent [1], 0, true, 0, false⟩
    let s := ioOf fun io => { io with inflight := [other] }
    ∃ s1, commandOf (Instr.cmdSenseStatus e) = some (formSenseStatus, e) ∧ s.dev.deaf = false ∧ s.io.mbxState = .ready ∧ s.consumed formSenseStatus.op (canonEntry e) = some s1 ∧
      heldBack formSenseStatus.op (canonEntry e) formSenseStatus.alone (earlier formSenseStatus.op (canonEntry e) s1.io.inflight) = false ∧
      other ∈ earlier formSenseStatus.op (canonEntry e) s1.io.inflight ∧ other.e.tag = e.tag ∧ s.io.cplRing.wf = true := by
  exact ⟨_, rfl, by decide +kernel, rfl, rfl, by decide +kernel, by decide +kernel, rfl, by decide +kernel⟩

theorem witness_MgpAlert :
    holds (ioOf fun io => { io with intStatus := 4, intEnable := 6 }) (fun s => s.dev.deaf = false ∧ s.io.intStatus.getLsbD 2 = true ∧ s.io.intEnable.getLsbD 2 = true) ∧
    holds (ioOf fun io => { io with intStatus := 4, intEnable := 2 }) (fun s => s.dev.deaf = false ∧ ∀ k : Fin 16, s.io.intStatus.getLsbD k = false ∨ s.io.intEnable.getLsbD k = false) := by
  decide +kernel

/-! ### Ill-formed terms are refused -/

theorem test_wf_payload : (Instr.cmdSenseStatus (ent (List.replicate 249 0))).wf = false ∧ (Instr.cmdSenseStatus (ent (List.replicate 248 0))).wf = true := by decide +kernel
theorem test_wf_clip : (Instr.txClipWindow 0 2 1).wf = false ∧ (Instr.adcClipWindow 0 2 1).wf = false ∧ (Instr.adcClipWindow 0 1 1).wf = true := by decide
theorem test_wf_tti : (Instr.ttiAccept 0 (List.replicate 63 0)).wf = false ∧ (Instr.ttiAccept 0 (List.replicate 64 0)).wf = true := by decide
theorem test_wf_rsFields : (Instr.rsFieldsAccept 0 [0, 0, 0, 0]).wf = false ∧ (Instr.rsFieldsAccept 0 [0, 0, 0, 0, 0]).wf = true := by decide
theorem test_wf_training : (Instr.stitchTrainingCwRx 0 0 (List.replicate 31 0)).wf = false := by decide
theorem test_wf_cells : (Instr.stitchCellRx 0 (List.replicate 511 0) .clean).wf = false ∧ (Instr.stitchCellTx 0 0 0 (List.replicate 495 0)).wf = false := by decide +kernel
theorem test_wf_user : (Instr.engUserRaise 0 [0]).wf = false ∧ (Instr.refFreqMeasure [0, 0, 0]).wf = false ∧ (Instr.refFreqMeasure [0, 0, 0, 0]).wf = true := by decide
theorem test_wf_telemetry : (Instr.telemetryRecord 0 0 [false] [[0, 0, 0]]).wf = false ∧ (Instr.telemetryRecord 0 0 [false] [[0, 0, 0, 0]]).wf = true := by decide
theorem test_wf_bar2 : (Instr.bar2HostWrite 0x3FFFFFFF [0, 0]).wf = false ∧ (Instr.bar2HostWrite 0x3FFFFFFF [0]).wf = true := by decide

/-! ### Values the spec writes out -/

/-- Table 4-2: slots, h (H × 64), Rs and Fs in units of 10 MHz, the index of ρ (2, 3/2, 4/3, 5/4). -/
theorem test_table_4_2 : ([(16, 160, 9611, 0, 19221), (32, 256, 12013, 0, 24027), (48, 256, 18020, 0, 36040), (64, 320, 19221, 0, 38443), (80, 288, 26696, 1, 40044),
    (96, 320, 28832, 2, 38443), (112, 352, 30579, 2, 40773), (128, 384, 32036, 3, 40044), (128, 383, 32119, 3, 40149), (128, 448, 27459, 1, 41189)] :
      List (Nat × Nat × Nat × Nat × Nat)).all (fun x =>
    let p : OpPoint := ⟨0, x.1, x.2.1⟩
    decide ((p.symrate + 5000) / 10000 = x.2.2.1 ∧ p.osr = x.2.2.2.1 ∧ (p.sampleRate + 5000) / 10000 = x.2.2.2.2)) = true := by decide +kernel

/-- The worked example of chapter 4: 128 slots with ENTROPY 384 give SYMRATE_ACT 320,355,951 kBd, and the bank covers 10,103 ps/nm. -/
theorem test_symrate : let p : OpPoint := ⟨0, 128, 384⟩; p.symrate = 320355951 ∧ p.osr = 3 ∧
    (2 * coverNum + coverDen p.symrate) / (2 * coverDen p.symrate) = 10103 := by decide +kernel

/-- The worked example of chapter 5: at 320.36 GBd a window to 60,600 ps/nm needs 6 lasts and one to 90,000 needs 9; at 288.32 GBd, 8. -/
theorem test_lasts_needed : (⟨0, 128, 384⟩ : OpPoint).need 58000 60600 = 6 ∧ (⟨0, 128, 384⟩ : OpPoint).need 84000 90000 = 9 ∧
    (⟨0, 96, 320⟩ : OpPoint).need 84000 90000 = 8 := by decide +kernel

/-- The text under R35: 2.13 µs with 8 lasts and 10 iterations, 15.65 µs encrypted, 2.70 µs with 20 lasts and 16 iterations; the totals of Table 1-8. -/
theorem test_latency : (rxLatency true false 8 (fecLatency 0 10 0)).typ = 21300 ∧ ((rxLatency true true 8 (fecLatency 0 10 0)).typ + 500) / 1000 = 156 ∧ (rxLatency true false 20 (fecLatency 0 16 0)).typ = 27000 ∧
    txLatency true = ⟨13100, 16800⟩ ∧ txLatency false = ⟨10500, 13500⟩ := by decide

/-- R329: the check value of the nine bytes "123456789"; the text of R432 gives its CRC. -/
theorem test_crcs : let digits : List Byte := [0x31, 0x32, 0x33, 0x34, 0x35, 0x36, 0x37, 0x38, 0x39]
    CvConfig.crc32.value digits = 0xCBF43926 ∧ brzCrc digits = 0x29B1 := by decide +kernel

/-- The text under Table 13-2: a round trip of 2.3 µs (2,300 ns) needs 15 cells per channel, 2 beyond the allowance of 13. -/
theorem test_extra_cells : extraNeeded 2300 = 2 ∧ extraNeeded 1580 = 0 := by decide

/-- The text under Table 22-2: lane L21 uses AC3, AC4, AC9, AC10; PCIe lane 2 uses rows AL and AN. -/
theorem test_balls : (laneBalls 21).map (·.1) = [22, 22, 22, 22] ∧ rowName 22 = "AC" ∧ (pcieBalls 2).map (fun b => (rowName b.1, b.2)) =
    [("AL", 62), ("AL", 63), ("AN", 62), ("AN", 63)] := by decide +kernel

/-- R493: 96 positions are depopulated. -/
theorem test_depopulated : (grid.filter depopulated).length = 96 := by decide +kernel

/-- The worked example of chapter 21, byte for byte: the two windows and the skew are set together and the command completes with E_OK; with the window's
entries the other way round it completes with E_BAD_PARAM and DETAIL 9, and no parameter changes. -/
def worked21 (swap : Bool) : CmdEntry :=
  let hi : List Byte := [0x96, 3, 0, 0, 0x90, 0x5F, 1, 0, 0, 0, 0, 0]
  let lo : List Byte := [0x92, 3, 0, 0, 0x20, 0x48, 1, 0, 0, 0, 0, 0]
  let skew : List Byte := [0xB6, 3, 0, 0, 0xE7, 0xFF, 0xFF, 0xFF, 0xFF, 0xFF, 0xFF, 0xFF]
  ⟨0x51, 0, 0, 37, 0, [3] ++ (if swap then lo ++ hi else hi ++ lo) ++ skew⟩

theorem test_worked_21 : let after := fun b => match exec (.cmdParamSet (worked21 b)) base with
    | .next t => some (t.par.val 0x0396, t.par.val 0x0392, t.par.val 0x03B6, fieldAt (t.io.cplRing.readAll 0x5000 64) 4 1, fieldAt (t.io.cplRing.readAll 0x5000 64) 6 2)
    | _ => none
    after false = some (90000, 84000, -25, 0, 0) ∧ after true = some (base.par.val 0x0396, base.par.val 0x0392, base.par.val 0x03B6, Status.badParam.code, 9) := by
  decide +kernel

/-- The worked example of chapter 2: with CPL_TAIL at 0x0C the completion of TAG 0x0042 goes to 0x5300, with E_OK and PHASE 1, and CPL_TAIL becomes 0x0D. -/
theorem test_worked_2 : let e : CmdEntry := ⟨0x42, 0, 0, 3, 0, [1, 0x96, 3]⟩
    (match exec (.cmdParamGet e) (ioOf fun io => { io with cplTail := 0x0C, cplHead := 0x0C }) with
    | .next t => some (fieldAt (t.io.cplRing.readAll 0x5300 64) 0 2, fieldAt (t.io.cplRing.readAll 0x5300 64) 4 1, t.io.cplTail.toNat)
    | _ => none) = some (0x42, 0, 0x0D) := by decide +kernel

/-- Table 21-2: 954 parameter instances are held. -/
theorem test_paramCount : paramCount = 954 := by decide +kernel

/-- The step runs the command in front, and no word of the table spells one. -/
theorem test_step : step { base with pending := [.commandConsume] } = exec .commandConsume base ∧ decodeTableWord 16 0 = none ∧
    State.reset.withFetchWord 16 0 = State.reset := by exact ⟨rfl, rfl, rfl⟩

/-- R287: frames come back from the stream they were sent in, 8 bytes longer each; the idle frames vanish. -/
theorem test_gfp : let s := (gfpStream (List.replicate 43 false) [.data [1, 2, 3], .idle, .management 2]).1
    s.length = 11 + 4 + 8 ∧ gfpFrames 3 (List.replicate 43 false) s = [.data [1, 2, 3], .management 2] := by decide +kernel

/-- R295: the absolute taps sum to 1 at the default setting. -/
theorem test_fir : firTaps 4 8 = (-1 / 32, 29 / 32, -1 / 16) := by decide +kernel

/-- R416: at k = 6 with the linear-phase set the bound is 134.3 µs. -/
theorem test_chainBound : chainBound 6 (.dflt false) = 671744 / 5 := by decide +kernel

/-- R435: the preamble of 4-GFSK is found in its own bytes, and a sync word with two bits wrong, not with three. -/
theorem test_preamble : preambleDeclared 2 10 10 (brzSymbols 2 (lineBits [0x77, 0x77, 0x77, 0x77])) = true ∧
    syncFound 0x12345678 (lineBits [0x12, 0x34, 0x56, 0x7B]) = true ∧ syncFound 0x12345678 (lineBits [0x12, 0x34, 0x56, 0x7F]) = false := by decide +kernel

end Sys2Proof.Tests
end

section
/-! Rules of the mailbox that the obligations of chapter 2 share: bytes and fields read back, what a completion leaves in the ring, and the one shape that every
mailbox command's row has. -/

namespace Sys2Proof.Machine

/-! ### Bytes and fields (R6, R7) -/

@[simp] theorem leBytes_length (n v : Nat) : (leBytes n v).length = n := by
  induction n generalizing v with
  | zero => rfl
  | succ n ih => simp [leBytes, ih]

@[simp] theorem padTo_length (n : Nat) (bs : List Byte) : (padTo n bs).length = n := by
  simp only [padTo, List.length_take, List.length_append, List.length_replicate]
  omega

theorem leNat_leBytes (n v : Nat) : leNat (leBytes n v) = v % 256 ^ n := by
  induction n generalizing v with
  | zero => simp [leBytes, leNat, Nat.mod_one]
  | succ n ih =>
    have hb : (BitVec.ofNat 8 (v % 256)).toNat = v % 256 := by simp
    rw [leBytes, leNat, ih, hb, Nat.pow_succ', Nat.mod_mul]

/-- A field laid out behind `pre` reads back, to its width. -/
theorem fieldAt_leBytes (pre post : List Byte) (n v : Nat) : fieldAt (pre ++ (leBytes n v ++ post)) pre.length n = v % 256 ^ n := by
  have hf : (leBytes n v ++ post).take n = leBytes n v := List.take_left' (leBytes_length n v)
  rw [fieldAt, List.drop_left, hf, leNat_leBytes]

/-- What was written over a range of a memory reads back whole. -/
theorem Mem.readAll_writeAll (m : Mem) (a : Nat) (bs : List Byte) (h : m.wf = true) : (m.writeAll a bs).readAll a bs.length = bs := by
  apply List.ext_getElem
  · simp [Mem.readAll]
  · intro k _ hk
    simp [Mem.readAll, Mem.read_writeAll_in bs m a k h hk, hk]

/-! ### Completion entries (Table 2-4a, R43) -/

@[simp] theorem cplBytes_length (tag : BitVec 16) (op : Nat) (st : Status) (phase detail exec : Nat) (r : List Byte) :
    (cplBytes tag op st phase detail exec r).length = 64 := by
  simp [cplBytes]

theorem Status.code_lt (st : Status) : st.code < 256 := by cases st <;> decide

theorem cplBytes_tag (tag : BitVec 16) (op : Nat) (st : Status) (phase detail exec : Nat) (r : List Byte) :
    fieldAt (cplBytes tag op st phase detail exec r) 0 2 = tag.toNat := by
  have h := fieldAt_leBytes [] (leBytes 2 op ++ leBytes 1 st.code ++ leBytes 1 phase ++ leBytes 2 detail ++ leBytes 4 (min 0xFFFFFFFF exec) ++ padTo 52 r) 2 tag.toNat
  rw [Nat.mod_eq_of_lt (show tag.toNat < 256 ^ 2 from tag.isLt)] at h
  simpa [cplBytes] using h

theorem cplBytes_status (tag : BitVec 16) (op : Nat) (st : Status) (phase detail exec : Nat) (r : List Byte) :
    fieldAt (cplBytes tag op st phase detail exec r) 4 1 = st.code := by
  have h := fieldAt_leBytes (leBytes 2 tag.toNat ++ leBytes 2 op) (leBytes 1 phase ++ leBytes 2 detail ++ leBytes 4 (min 0xFFFFFFFF exec) ++ padTo 52 r) 1 st.code
  rw [Nat.mod_eq_of_lt (show st.code < 256 ^ 1 from st.code_lt)] at h
  simpa [cplBytes] using h

theorem cplBytes_detail (tag : BitVec 16) (op : Nat) (st : Status) (phase detail exec : Nat) (r : List Byte) :
    fieldAt (cplBytes tag op st phase detail exec r) 6 2 = detail % 65536 := by
  have h := fieldAt_leBytes (leBytes 2 tag.toNat ++ leBytes 2 op ++ leBytes 1 st.code ++ leBytes 1 phase) (leBytes 4 (min 0xFFFFFFFF exec) ++ padTo 52 r) 2 detail
  simpa [cplBytes] using h

/-- The slot of the next completion, by CPL_TAIL (R41). -/
theorem cplSlot_tail (t : RingPtr) : cplSlot (bitsAt t.toNat 0 6) = 0x5000 + 64 * (t.toNat % 64) := by
  simp [cplSlot, bitsAt]

/-! ### Consuming and completing -/

/-- Consuming an entry changes nothing of the interface block but the list of commands in progress. -/
theorem State.consumed_io (s s1 : State) (op : Nat) (e : CmdEntry) (h : s.consumed op e = some s1) :
    s1.io = { s.io with inflight := s1.io.inflight } := by
  unfold State.consumed at h
  split at h
  · cases h; rfl
  · split at h
    · cases h; rfl
    · cases h

/-- A completed command's own entry alone leaves the list of commands in progress. -/
theorem State.completeWaiting_inflight (s : State) (op : Nat) (e : CmdEntry) (st : Status) (detail : Nat) (r : List Byte) :
    (s.completeWaiting op e st detail r).io.inflight = s.io.inflight.eraseP (isWaiting op e) := by
  unfold State.completeWaiting
  exact (Io.complete_pointers _ _ _ _ _ _ _ _ _).2.2.1

/-- A completion's 64 bytes stand in the slot that CPL_TAIL named (R43). -/
theorem Io.complete_slot (io : Io) (par : Params) (now op : Nat) (e : CmdEntry) (at_ : Nat) (st : Status) (detail : Nat) (r : List Byte)
    (h : io.cplRing.wf = true) : (io.complete par now op e at_ st detail r).cplRing.readAll (0x5000 + 64 * (io.cplTail.toNat % 64)) 64 =
      cplBytes e.tag op st io.phase detail ((now - at_) / 1000) r := by
  obtain ⟨-, -, -, -, hring⟩ := Io.complete_pointers io par now op e at_ st detail r
  have hread := Mem.readAll_writeAll io.cplRing (cplSlot (bitsAt io.cplTail.toNat 0 6)) (cplBytes e.tag op st io.phase detail ((now - at_) / 1000) r) h
  rw [cplBytes_length] at hread
  rw [hring, ← cplSlot_tail, hread]

/-- The same of a waiting command, whatever time it has waited. -/
theorem State.completeWaiting_slot (s : State) (op : Nat) (e : CmdEntry) (st : Status) (detail : Nat) (r : List Byte) (h : s.io.cplRing.wf = true) :
    ∃ exec, (s.completeWaiting op e st detail r).io.cplRing.readAll (0x5000 + 64 * (s.io.cplTail.toNat % 64)) 64 =
      cplBytes e.tag op st s.io.phase detail exec r :=
  ⟨_, Io.complete_slot { s.io with inflight := s.io.inflight.eraseP (isWaiting op e) } s.par s.now op e _ st detail r h⟩

/-- A command consumed before a waiting one stays in progress when that one completes. -/
theorem mem_eraseP_of_mem_earlier {op : Nat} {e : CmdEntry} {l : List Inflight} {r : Inflight} (h : r ∈ earlier op e l) :
    r ∈ l.eraseP (isWaiting op e) := by
  have hn : (!isWaiting op e r) = true := List.mem_takeWhile_imp (p := fun r => !isWaiting op e r) h
  exact (List.mem_eraseP_of_neg (by simpa using hn)).mpr ((List.takeWhile_sublist _).subset h)

/-! ### One shape for all rows of mailbox commands -/

/-- Every row of a mailbox command is one call of `runCmdWith` with that command's form and entry: no command is consumed, ordered or checked in a way of its own. -/
theorem exec_command {i : Instr} {f : CmdForm} {e : CmdEntry} (h : commandOf i = some (f, e)) :
    ∃ body, ∀ s, exec i s = .next (runCmdWith f e body s) := by
  cases i <;> cases h <;> exact ⟨_, fun _ => rfl⟩

/-- A command turned away before its own rule is refused, whichever command it is. -/
theorem exec_turnedAway {i : Instr} {f : CmdForm} {e : CmdEntry} {s s1 : State} {st : Status} {detail : Nat} (hi : commandOf i = some (f, e))
    (h : TurnedAway f e s s1 st detail) (hst : st ≠ .internal) : exec i s = .next (s1.refuses f e st detail) := by
  obtain ⟨body, hx⟩ := exec_command hi
  rw [hx, runCmdWith_turnedAway f e body s s1 st detail h, State.refuses, State.answer, if_neg hst]

end Sys2Proof.Machine
end

section
/-! A command whose TAG an earlier command in progress bears (R47). -/

namespace Sys2Proof.Machine

/-- In READY a command that nothing holds back is turned away when an earlier command bears its TAG (R47). -/
theorem turnedAway_of_duplicateTag {f : CmdForm} {e : CmdEntry} {s s1 : State} {r : Inflight} (hd : s.dev.deaf = false) (hm : s.io.mbxState = .ready)
    (hc : s.consumed f.op (canonEntry e) = some s1)
    (hb : heldBack f.op (canonEntry e) f.alone (earlier f.op (canonEntry e) s1.io.inflight) = false)
    (hr : r ∈ earlier f.op (canonEntry e) s1.io.inflight) (ht : r.e.tag = e.tag) : TurnedAway f e s s1 .badParam 2 := by
  have hready : s1.io.mbxState = .ready := by rw [State.consumed_io _ _ _ _ hc]; exact hm
  have hdup : (earlier f.op (canonEntry e) s1.io.inflight).any (fun r => decide (r.e.tag = (canonEntry e).tag)) = true :=
    List.any_eq_true.mpr ⟨r, hr, decide_eq_true ht⟩
  exact ⟨hd, hc, by simp only [admission, hready, hb, hdup]; rfl⟩

/-- Settles O59: the duplicate is turned away, and a completion erases the waiting entry alone and fills the slot that CPL_TAIL names. -/
theorem duplicateTag : Obligations.DuplicateTag := by
  unfold Obligations.DuplicateTag
  intro i f e s s1 hi hd hm hc hb r hr ht
  obtain ⟨hwait, -, hdev, hpar, hmem, -⟩ := State.consumed_spec s s1 _ _ hc
  have hinfl := State.completeWaiting_inflight s1 f.op (canonEntry e) .badParam 2 []
  refine ⟨s1.completeWaiting f.op (canonEntry e) .badParam 2 [],
    exec_turnedAway hi (turnedAway_of_duplicateTag hd hm hc hb hr ht) (by decide), rfl, ?_, ?_, hdev, hpar, hmem, fun hwf => ?_⟩
  · exact hinfl ▸ mem_eraseP_of_mem_earlier hr
  · exact hinfl ▸ eraseP_length_of_any _ _ hwait
  · have hio := State.consumed_io s s1 _ _ hc
    obtain ⟨exec, hslot⟩ := State.completeWaiting_slot s1 f.op (canonEntry e) .badParam 2 [] (by rw [hio]; exact hwf)
    have htail : s1.io.cplTail = s.io.cplTail := by rw [hio]
    rw [htail] at hslot
    rw [hslot]
    exact ⟨cplBytes_tag .., cplBytes_status .., cplBytes_detail ..⟩

end Sys2Proof.Machine
end

section
/-! MGP_ALERT# (R60). -/

namespace Sys2Proof.Machine

/-- The alert stands exactly while a source is raised and enabled. -/
theorem Io.mgpAlert_iff (io : Io) : io.mgpAlert = true ↔ ∃ k, k < 16 ∧ io.intStatus.getLsbD k = true ∧ io.intEnable.getLsbD k = true := by
  have hbit (k : Nat) : (io.intStatus &&& io.intEnable).getLsbD k = true ↔ io.intStatus.getLsbD k = true ∧ io.intEnable.getLsbD k = true := by
    rw [BitVec.getLsbD_and, Bool.and_eq_true]
  have hzero (k : Nat) : (0 : BitVec 16).getLsbD k = false := BitVec.getLsbD_zero
  rw [Io.mgpAlert, decide_eq_true_eq]
  constructor
  · intro hne
    by_contra hno
    refine hne (BitVec.eq_of_getLsbD_eq fun k hk => ?_)
    rw [hzero k, Bool.eq_false_iff]
    exact fun hk1 => hno ⟨k, hk, (hbit k).mp hk1⟩
  · rintro ⟨k, -, hk⟩ heq
    have hk1 := (hbit k).mpr hk
    rw [heq, hzero k] at hk1
    exact Bool.false_ne_true hk1

/-- On a device that answers, the pin follows the alert. -/
theorem State.pinMgpAlert_of_answers {s : State} (h : s.dev.deaf = false) : s.pinMgpAlert = if s.io.mgpAlert then .low else .highZ := by
  simp [State.pinMgpAlert, h]

/-- Settles O60: the AND of the two registers is non-zero exactly where they share a bit. -/
theorem mgpAlert : Obligations.MgpAlert := by
  unfold Obligations.MgpAlert
  intro s hs
  rw [State.pinMgpAlert_of_answers hs]
  refine ⟨fun hset => ?_, fun hclear => ?_, fun t ht hst hen => ?_⟩
  · rw [if_pos (s.io.mgpAlert_iff.mpr hset)]
  · refine if_neg fun halert => ?_
    obtain ⟨k, hk, hst, hen⟩ := s.io.mgpAlert_iff.mp halert
    simpa [hst, hen] using hclear k hk
  · rw [State.pinMgpAlert_of_answers ht, Io.mgpAlert, hst, hen, Io.mgpAlert]

end Sys2Proof.Machine
end

section
/-! AUTO selection of the timing reference (R392). -/

namespace Sys2Proof.Machine

/-- A reference is eligible exactly under R392's five conditions. -/
theorem TimRef.eligible_iff (x : TimRef) :
    x.eligible = true ↔ x.enable = true ∧ x.qualified = true ∧ x.suspect = false ∧ x.ql ≠ 15 ∧ x.wtrEnd = none := by
  simp [TimRef.eligible, and_assoc]

/-- R392's order of two references: the lower QL, then the lower PRIO, then the lower number. -/
def Dev.timPrecedes (d : Dev) (r q : Nat) : Prop :=
  (d.timRef r).ql < (d.timRef q).ql ∨ ((d.timRef r).ql = (d.timRef q).ql ∧
    ((d.timRef r).prio < (d.timRef q).prio ∨ ((d.timRef r).prio = (d.timRef q).prio ∧ r ≤ q)))

theorem Dev.timPrecedes_refl (d : Dev) (r : Nat) : d.timPrecedes r r := .inr ⟨rfl, .inr ⟨rfl, le_rfl⟩⟩

/-- A reference better by QL and PRIO precedes, whatever the numbers. -/
theorem Dev.timPrecedes_of_timBetter {d : Dev} {r q : Nat} (h : timBetter (d.timRef r) (d.timRef q) = true) : d.timPrecedes r q := by
  rw [timBetter, decide_eq_true_eq] at h
  exact h.imp_right fun ⟨hql, hprio⟩ => ⟨hql, .inl hprio⟩

/-- A reference `r` that `c` does not beat precedes whatever `c` precedes among the higher numbers: `c` is at best its equal, and a tie goes to `r`. -/
theorem Dev.timPrecedes_of_not_timBetter {d : Dev} {r c q : Nat} (h : ¬ timBetter (d.timRef c) (d.timRef r) = true) (hc : d.timPrecedes c q)
    (hrq : r < q) : d.timPrecedes r q := by
  rw [timBetter, decide_eq_true_eq] at h
  unfold Dev.timPrecedes at hc ⊢
  omega

/-- The choice from a list is made exactly where the list is not empty. -/
theorem Dev.timBest_eq_none_iff (d : Dev) (rs : List Nat) : d.timBest rs = none ↔ rs = [] := by
  cases rs with
  | nil => simp [Dev.timBest]
  | cons r rs =>
    rw [Dev.timBest]
    split
    · simp
    · split <;> simp

/-- From references listed in rising order, the choice is one of them and precedes them all. -/
theorem Dev.timBest_precedes (d : Dev) {rs : List Nat} {b : Nat} (hs : rs.Pairwise (· < ·)) (h : d.timBest rs = some b) :
    b ∈ rs ∧ ∀ q ∈ rs, d.timPrecedes b q := by
  induction rs generalizing b with
  | nil => simp [Dev.timBest] at h
  | cons r rs ih =>
    obtain ⟨hr, hs⟩ := List.pairwise_cons.mp hs
    rw [List.forall_mem_cons]
    cases hc : d.timBest rs with
    | none =>
      obtain rfl := (d.timBest_eq_none_iff rs).mp hc
      obtain rfl : r = b := by simpa [Dev.timBest] using h
      exact ⟨List.mem_cons_self, d.timPrecedes_refl r, by simp⟩
    | some c =>
      obtain ⟨hmem, hleast⟩ := ih hs hc
      simp only [Dev.timBest, hc] at h
      split at h
      next hbetter =>
        obtain rfl := Option.some.inj h
        exact ⟨List.mem_cons_of_mem r hmem, Dev.timPrecedes_of_timBetter hbetter, hleast⟩
      next hbetter =>
        obtain rfl := Option.some.inj h
        exact ⟨List.mem_cons_self, d.timPrecedes_refl r, fun q hq => Dev.timPrecedes_of_not_timBetter hbetter (hleast q hq) (hr q hq)⟩

theorem mem_timRefs (r : Nat) : r ∈ timRefs ↔ r < 4 := by
  simp only [timRefs, List.mem_cons, List.not_mem_nil, or_false]
  omega

/-- What AUTO mode chooses from: the eligible ones of the four references. -/
theorem Dev.mem_filter_timAllowed_of_auto {d : Dev} (hauto : d.tim.mode = .auto) (r : Nat) :
    r ∈ timRefs.filter d.timAllowed ↔ r < 4 ∧ (d.timRef r).eligible = true := by
  simp [mem_timRefs, Dev.timAllowed, hauto]

/-- Settles O52: AUTO mode takes the choice from the eligible references, which the list of the four names in rising order. -/
theorem referenceSelection : Obligations.ReferenceSelection := by
  unfold Obligations.ReferenceSelection
  intro d
  refine ⟨fun r => (d.timRef r).eligible_iff, fun hauto => ⟨fun r hr => ?_, ?_⟩⟩
  · have hsorted : (timRefs.filter d.timAllowed).Pairwise (· < ·) :=
      List.Pairwise.filter d.timAllowed (by decide : timRefs.Pairwise (· < ·))
    obtain ⟨hmem, hleast⟩ := d.timBest_precedes hsorted hr
    obtain ⟨hlt, helig⟩ := (Dev.mem_filter_timAllowed_of_auto hauto r).mp hmem
    exact ⟨hlt, helig, fun q hq hqe => hleast q ((Dev.mem_filter_timAllowed_of_auto hauto q).mpr ⟨hq, hqe⟩)⟩
  · rw [Dev.timWanted, Dev.timBest_eq_none_iff, List.eq_nil_iff_forall_not_mem]
    simp only [Dev.mem_filter_timAllowed_of_auto hauto, not_and, Bool.not_eq_true]

end Sys2Proof.Machine
end

section
/-! What every row can do: events, mailbox commands and the host's accesses as inversion principles, and the invariants and frames of one step. -/

namespace Sys2Proof.Machine

/-! ### Inversion of rows -/

/-- What holds of the state that a row is known to answer holds of the state it answers. -/
theorem of_exec_eq {P : State → Prop} {i : Instr} {s t u : State} (h : exec i s = .next t) (hx : exec i s = .next u) (hu : P u) : P t := by
  rw [h] at hx
  obtain rfl := Host.Outcome.next.inj hx
  exact hu

/-- The change of the boot ROM's run is a change of the device, or none. -/
theorem bootRomRun_cases {P : State → Prop} (b : BootEvidence) (s : State) (hrefl : P s) (hdev : ∀ f, P (onDev s f)) : P (bootRomRun b s) := by
  unfold bootRomRun; split
  · exact hdev _
  · exact hrefl

/-- An event of the device is a change of the device, a run of the boot ROM, a restart of Frelvo or its end. -/
theorem exec_event {P : State → Prop} {i : Instr} {s t : State} (hi : kindOf i = .event) (h : exec i s = .next t)
    (hrefl : P s) (hdev : ∀ f, P (onDev s f)) (hdies : ∀ c, P (frelvoDies c s)) (hmemory : ∀ f, P (frelvoDies 1 (onDev s f)))
    (hready : P (restartReady s)) : P t := by
  cases i with
  | bootRomRun b => exact of_exec_eq h rfl (bootRomRun_cases b s hrefl hdev)
  | watchdogExpiry =>
    refine of_exec_eq h rfl ?_
    split
    · exact hdies 0
    · exact hrefl
  | frelvoMemoryUe =>
    refine of_exec_eq h (u := frelvoMemory s) rfl ?_
    unfold frelvoMemory; split
    · exact hmemory _
    · exact hrefl
  | frelvoRestartReady => exact of_exec_eq h rfl hready
  | _ => cases hi <;> exact of_exec_eq h rfl (hdev _)

/-- A mailbox command is one call of `runCmd`; CMD_PARAM_SET alone sets parameters too, and an unknown opcode has no form. -/
theorem exec_commandKind {P : State → Prop} {i : Instr} {s t : State} (hi : kindOf i = .command) (h : exec i s = .next t)
    (hrun : ∀ f e body, P (runCmd f e body s)) (hset : ∀ e, P (runCmdWith formParamSet e (paramSet e) s)) (hunknown : ∀ op e, P (runUnknown op e s)) :
    P t := by
  cases i with
  | cmdParamSet e => exact of_exec_eq h rfl (hset e)
  | unknownOpcode op e => exact of_exec_eq h rfl (hunknown op.toNat e)
  | _ => cases hi <;> exact of_exec_eq h rfl (hrun _ _ _)

/-- From every state every row answers a next state. -/
theorem exec_answers (i : Instr) (s : State) : ∃ t, exec i s = .next t := by
  cases i <;> exact ⟨_, rfl⟩

/-- Settles O6. -/
theorem neverStops : Obligations.NeverStops := exec_answers

/-! ### Events and commands -/

/-- Events and mailbox commands leave time, queue and the host's registers. -/
theorem exec_still {i : Instr} {s t : State} (hi : kindOf i = .event ∨ kindOf i = .command) (h : exec i s = .next t) : State.Still s t := by
  rcases hi with hi | hi
  · exact exec_event hi h (State.Still.refl s) (onDev_still s) (frelvoDies_still · s) (fun f => (onDev_still s f).trans (frelvoDies_still 1 _)) (restartReady_still s)
  · exact exec_commandKind hi h (runCmd_still · · · s) (fun e => runCmdWith_still _ e _ s) (runUnknown_still · · s)

/-- Settles O8. -/
theorem hostRegistersKept : Obligations.HostRegistersKept := fun _ _ _ h hi => (exec_still hi h).host

/-- Events and mailbox commands keep the invariants. -/
theorem State.Ok.exec_eventOrCommand {i : Instr} {s t : State} (k : s.Ok) (hi : kindOf i = .event ∨ kindOf i = .command) (h : exec i s = .next t) :
    t.Ok := by
  rcases hi with hi | hi
  · exact exec_event hi h k k.onDev k.frelvoDies (fun f => (k.onDev f).frelvoDies 1) k.restartReady
  · exact exec_commandKind hi h k.runCmd (fun e => k.runCmdWith _ e _ (paramSet_legal e)) k.runUnknown

end Sys2Proof.Machine
end

section
/-! The host's accesses, consumption, resets and the passing of time: the invariants, the time base, the queue and the command ring's bound. -/

namespace Sys2Proof.Machine

/-! ### The command ring's bound -/

/-- The command ring stays within its bound from one state of the interface block to the next. -/
def Io.RingKept (a b : Io) : Prop := a.ringOk → b.ringOk

theorem Io.RingKept.refl (a : Io) : Io.RingKept a a := id
theorem Io.RingKept.trans {a b c : Io} (h : Io.RingKept a b) (g : Io.RingKept b c) : Io.RingKept a c := fun k => g (h k)
theorem Io.RingKept.ite {a b c : Io} {p : Prop} [Decidable p] (h : Io.RingKept a b) (g : Io.RingKept a c) : Io.RingKept a (if p then b else c) := by
  split <;> assumption

/-- The bound speaks of CMD_HEAD and CMD_TAIL alone. -/
theorem Io.RingKept.ofEq {a b : Io} (hh : b.cmdHead = a.cmdHead) (ht : b.cmdTail = a.cmdTail) : Io.RingKept a b := by
  unfold Io.RingKept Io.ringOk; rw [hh, ht]; exact id

theorem Io.HostSame.ring {a b : Io} (h : Io.HostSame a b) : Io.RingKept a b := .ofEq h.cmdHead h.cmdTail

theorem Io.mbxError_ring (io : Io) (b : Nat) : Io.RingKept io (io.mbxError b) :=
  Io.RingKept.trans (b := { io with mbxErr := io.mbxErr ||| BitVec.ofNat 3 (2 ^ b) }) (.ofEq rfl rfl) (Io.raiseInt_host _ _).ring

theorem Io.guarded_ring (io : Io) (via : Via) {f : Io → Io} (h : Io.RingKept io (f io)) : Io.RingKept io (io.guarded via f) :=
  Io.RingKept.ite (Io.mbxError_ring _ _) h

/-- The doorbell takes no CMD_TAIL further than 64 entries ahead (R45). -/
theorem Io.writeCmdTail_ring (io : Io) (v : Word) : Io.RingKept io (io.writeCmdTail v) := by
  simp only [Io.writeCmdTail]
  split
  · exact Io.mbxError_ring _ _
  · rename_i hfar
    exact fun _ => Nat.le_of_not_lt hfar

theorem Io.writeCplHead_ring (io : Io) (v : Word) : Io.RingKept io (io.writeCplHead v) :=
  Io.RingKept.ite (Io.mbxError_ring _ _) (.ofEq rfl rfl)

theorem Io.writePort_ring (io : Io) (via : Via) (v : Word) : Io.RingKept io (io.writePort via v) :=
  Io.RingKept.ite (Io.mbxError_ring _ _) (.ofEq rfl rfl)

theorem Io.reMark_ring {a b : Io} (h : Io.RingKept a b) : Io.RingKept a (Io.reMark a b) :=
  Io.RingKept.ite (h.trans (Io.latchMark_host b).ring) h

theorem Io.writeMark_ring (io : Io) (v : Word) : Io.RingKept io (io.writeMark v) := Io.reMark_ring (.ofEq rfl rfl)

theorem Io.clearMark_ring (io : Io) : Io.RingKept io io.clearMark :=
  Io.RingKept.ite (Io.RingKept.trans (b := { io with markHit := false }) (.ofEq rfl rfl) (Io.latchMark_host _).ring) (.ofEq rfl rfl)

theorem Io.writeEvtStatus_ring (io : Io) (v : Word) : Io.RingKept io (io.writeEvtStatus v) := by
  have hmark : Io.RingKept io (if v.getLsbD 0 then io.clearMark else io) := .ite (Io.clearMark_ring io) (.refl io)
  have hoverflow (a : Io) : Io.RingKept a (if v.getLsbD 2 then { a with overflow := false } else a) := .ite (.ofEq rfl rfl) (.refl a)
  have hrun (a : Io) (b : Bool) : Io.RingKept a (a.writeRun b) := .ite (Io.reMark_ring (.ofEq rfl rfl)) (.refl a)
  exact (hmark.trans (hoverflow _)).trans (hrun _ _)

theorem Io.pop_ring (io : Io) (now : Nat) (v : Word) : Io.RingKept io (io.pop now v) :=
  .ite (Io.RingKept.trans (b := { io with evts := io.evts.drop 1 }) (.ofEq rfl rfl) (Io.overflowEntry_host _ _).ring) (.refl _)

theorem Io.writeReg_ring (io : Io) (now off : Nat) (v : Word) : Io.RingKept io (io.writeReg now off v) := by
  unfold Io.writeReg
  refine .ite (.ofEq rfl rfl) (.ite (Io.writeCmdTail_ring _ _) (.ite (Io.writeCplHead_ring _ _) (.ite (.ofEq rfl rfl) ?_)))
  refine .ite (Io.writeMark_ring _ _) (.ite (Io.writeEvtStatus_ring _ _) (.ite (.ofEq rfl rfl) (.ite (Io.pop_ring _ _ _) ?_)))
  exact .ite (.ofEq rfl rfl) (.ite (.ofEq rfl rfl) (.ite (.ofEq rfl rfl) (.refl _)))

theorem Io.accessFault_ring (io : Io) (off : Nat) (wr : Bool) : Io.RingKept io (io.accessFault off wr) := by
  unfold Io.accessFault
  refine Io.RingKept.trans ?_ (Io.raiseInt_host _ _).ring
  exact .ite (.ofEq rfl rfl) (.refl _)

theorem Io.faulted_ring (io : Io) (off : Nat) (wr : Bool) : Io.RingKept io (io.faulted off wr) := by
  unfold Io.faulted
  exact (Io.accessFault_ring io off wr).trans (.ite (.refl _) (.ofEq rfl rfl))

theorem Io.sendMessage_ring (io : Io) (src : Nat) (m : Bool) : Io.RingKept io (io.sendMessage src m) := by
  unfold Io.sendMessage
  exact .ite (.ite (.ofEq rfl rfl) (.ofEq rfl rfl)) (.ite (.ofEq rfl rfl) (.refl _))

/-- An entry is consumed only where one waits: one fewer lies in the ring. -/
theorem Io.ringOk_consume {io : Io} (h : io.canConsume = true) (k : io.ringOk) : ({ io with cmdHead := io.cmdHead + 1 } : Io).ringOk := by
  obtain ⟨hne, -⟩ := of_decide_eq_true h
  unfold Io.ringOk at *
  generalize io.cmdHead = a at *; generalize io.cmdTail = b at *
  show (b - (a + 1)).toNat ≤ 64
  bv_omega

/-! ### Time, queue and ring together -/

/-- Time and queue are as they were, and the command ring within its bound if it was. -/
structure State.Tame (s t : State) : Prop where
  now : t.now = s.now
  pending : t.pending = s.pending
  ring : Io.RingKept s.io t.io

theorem State.Tame.refl (s : State) : State.Tame s s := ⟨rfl, rfl, .refl _⟩
theorem State.Tame.trans {a b c : State} (h : State.Tame a b) (g : State.Tame b c) : State.Tame a c :=
  ⟨g.now.trans h.now, g.pending.trans h.pending, h.ring.trans g.ring⟩
theorem State.Tame.ite {a b c : State} {p : Prop} [Decidable p] (h : State.Tame a b) (g : State.Tame a c) : State.Tame a (if p then b else c) := by
  split <;> assumption
theorem State.Tame.ofIo {s : State} {io : Io} (h : Io.RingKept s.io io) : State.Tame s { s with io := io } := ⟨rfl, rfl, h⟩
theorem State.Tame.ofDev (s : State) (d : Dev) : State.Tame s { s with dev := d } := ⟨rfl, rfl, .refl _⟩
theorem State.Tame.snap (s : State) (x : Snap) : State.Tame s { s with io := { s.io with snap := x } } := .ofIo (.ofEq rfl rfl)
theorem State.Still.tame {s t : State} (h : State.Still s t) : State.Tame s t := ⟨h.now, h.pending, h.host.ring⟩

theorem Io.snap_ring (io : Io) (x : Snap) : Io.RingKept io { io with snap := x } := .ofEq rfl rfl

theorem snapSkip_tame (s : State) : State.Tame s (snapSkip s) := by
  unfold snapSkip
  exact .ofIo (.ite ((Io.snap_ring s.io _).trans (Io.event_host _ _ _ _ _ _ _).ring) (Io.snap_ring s.io _))

theorem snapBegin_tame (trig : Bool) (s : State) : State.Tame s (snapBegin trig s) := ⟨rfl, rfl, .ofEq rfl rfl⟩

theorem snapStrobe_tame (s : State) : State.Tame s (snapStrobe s) := .ite (.refl s) (.ite (snapSkip_tame s) (snapBegin_tame _ s))

theorem snapTrig_tame (s : State) : State.Tame s (snapTrig s) := .ite (.snap s _) (.ite (snapSkip_tame s) (snapBegin_tame _ s))

theorem snapEnd_tame (ok : Bool) (s : State) : State.Tame s (snapEnd ok s) := by
  simp only [snapEnd]
  split
  · exact .refl s
  · split
    · exact .snap s _
    · exact ⟨rfl, rfl, (Io.snap_ring s.io _).trans (Io.raiseInt_host _ _).ring⟩

theorem State.writeSnapCtrl_tame (s : State) (v : Word) : State.Tame s (s.writeSnapCtrl v) := by
  simp only [State.writeSnapCtrl]
  exact .ite ((State.Tame.snap s _).trans (snapTrig_tame _)) (.snap s _)

theorem State.busWrite_tame (s : State) (via : Via) (off : Nat) (v : Word) : State.Tame s (s.busWrite via off v) := by
  unfold State.busWrite
  refine .ite (.refl s) (.ite (.ofIo (Io.writePort_ring _ _ _)) (.ite (.ofIo (Io.guarded_ring _ _ (Io.writeReg_ring _ _ _ _))) ?_))
  exact .ite (s.writeSnapCtrl_tame v) (.ite (.snap s _) (.ite (.ofIo (Io.accessFault_ring _ _ _)) (.ofIo (Io.writeReg_ring _ _ _ _))))

theorem State.busWriteWords_tame (n : Nat) : ∀ (off : Nat) (bs : List Byte) (s : State), State.Tame s (State.busWriteWords n off bs s) := by
  induction n with
  | zero => exact fun _ _ s => .refl s
  | succ n ih => exact fun _ _ s => (s.busWrite_tame _ _ _).trans (ih _ _ _)

theorem State.busRead_tame (s : State) (off : Nat) : State.Tame s (s.busRead off).2 := by
  unfold State.busRead
  split
  · exact .refl s
  · split
    · exact .refl s
    · split
      · exact .ofIo (Io.accessFault_ring _ _ _)
      · exact .ofDev s _

theorem State.busReadWords_tame (n : Nat) : ∀ (off : Nat) (s : State), State.Tame s (State.busReadWords n off s).2 := by
  induction n with
  | zero => exact fun _ s => .refl s
  | succ n ih => exact fun _ s => (s.busRead_tame _).trans (ih _ _)

theorem State.bar2Fault_tame (s : State) (wr : Bool) : State.Tame s (s.bar2Fault wr) := ⟨rfl, rfl, Io.faulted_ring _ _ _⟩

theorem commandConsume_tame (s : State) : State.Tame s (commandConsume s) := by
  unfold commandConsume
  split
  · rename_i h
    exact ⟨rfl, rfl, fun k => Io.ringOk_consume h.2 k⟩
  · exact .refl s

theorem responderComplete_tame (s : State) : State.Tame s (responderComplete s) := by
  unfold responderComplete
  split
  · exact .refl s
  · split
    · rename_i h
      exact ⟨rfl, rfl, fun k => (Io.complete_host _ _ _ _ _ _ _ _ _).ring (Io.ringOk_consume h k)⟩
    · exact .refl s

/-! ### Resets -/

theorem Io.reset_ringOk : Io.reset.ringOk := by unfold Io.ringOk; decide

theorem State.afterReset_tame (s : State) (cause : Nat) : State.Tame s (s.afterReset cause false) := ⟨rfl, rfl, fun _ => Io.reset_ringOk⟩

theorem State.wake_tame (s : State) (cause : Nat) : State.Tame s (s.wake cause) := (s.afterReset_tame _).trans (.ofDev _ _)

theorem State.mgpStart_tame (s : State) (addr : Nat) : State.Tame s (s.mgpStart addr) := .ite (s.wake_tame _) (.refl s)

theorem State.Ok.mgpStart {s : State} (k : s.Ok) (addr : Nat) : (s.mgpStart addr).Ok := by
  unfold State.mgpStart; split
  · exact State.Ok.wake _ _
  · exact k

/-! ### Inversion of the host's accesses and of resets -/

/-- What an access leaves on a device that answers, it leaves on every device. -/
theorem of_onBus {P : State → Prop} {s t : State} {f : State → State} (h : onBus s f = .next t) (hrefl : P s) (hf : P (f s)) : P t := by
  obtain rfl := Host.Outcome.next.inj h
  split <;> assumption

/-- An MGP transaction may wake the device. -/
theorem of_onMgp {P : State → Prop} {s t : State} {f : State → State} (h : onMgp s f = .next t) (hwake : ∀ a, P (s.mgpStart a)) (hf : P (f s)) : P t := by
  obtain rfl := Host.Outcome.next.inj h
  split
  · exact hwake _
  · exact hf

/-- The host's accesses leave time and queue, and no CMD_TAIL further ahead than the ring holds. -/
theorem exec_access_tame {i : Instr} {s t : State} (hi : kindOf i = .access) (h : exec i s = .next t) : State.Tame s t := by
  have hbus {f : State → State} (h : onBus s f = .next t) (hf : State.Tame s (f s)) : State.Tame s t := of_onBus h (.refl s) hf
  have hio {f : Io → Io} (h : onBusIo s f = .next t) (hf : Io.RingKept s.io (f s.io)) : State.Tame s t := hbus h (.ofIo hf)
  have hreg {via : Via} {f : Io → Io} (h : (onBusIo s fun io => io.guarded via f) = .next t) (hf : Io.RingKept s.io (f s.io)) : State.Tame s t :=
    hio h (Io.guarded_ring _ _ hf)
  cases i with
  | cmdTailWrite via v => exact hreg (show execCmdTailWrite via v s = _ from h) (Io.writeCmdTail_ring _ _)
  | commandConsume => exact hbus (show execCommandConsume s = _ from h) (commandConsume_tame s)
  | cplHeadWrite via v => exact hreg (show execCplHeadWrite via v s = _ from h) (Io.writeCplHead_ring _ _)
  | mbxPortWrite via v => exact hio (show execMbxPortWrite via v s = _ from h) (Io.writePort_ring _ _ _)
  | portDropWrite via off v => exact hio (show execPortDropWrite via off v s = _ from h) (.ite (Io.mbxError_ring _ _) (.refl _))
  | evtMarkWrite via v => exact hreg (show execEvtMarkWrite via v s = _ from h) (Io.writeMark_ring _ _)
  | evtRunWrite via v => exact hreg (show execEvtRunWrite via v s = _ from h) (Io.writeEvtStatus_ring _ _)
  | markHitClear via => exact hreg (show execMarkHitClear via s = _ from h) (Io.clearMark_ring _)
  | evtPopWrite via v => exact hreg (show execEvtPopWrite via v s = _ from h) (Io.pop_ring _ _ _)
  | intEnableWrite via v => exact hreg (show execIntEnableWrite via v s = _ from h) (.ofEq rfl rfl)
  | registerWrite via off v => exact hbus (show execRegisterWrite via off v s = _ from h) (s.busWrite_tame _ _ _)
  | debugWindowFaultAccess via off wr => exact hbus (show execDebugWindowFaultAccess via off wr s = _ from h) (.ite (.ofIo (.ofEq rfl rfl)) (.ite (.ofIo (Io.faulted_ring _ _ _)) (.refl s)))
  | bar2OffStackAccess off stack wr => exact hbus (show execBar2OffStackAccess off stack wr s = _ from h) (.ite (.refl s) (s.bar2Fault_tame wr))
  | msixMessageSend src masked => exact hio (show execMsixMessageSend src masked s = _ from h) (Io.sendMessage_ring _ _ _)
  | mgpWriteTransaction off data => exact of_onMgp (show execMgpWriteTransaction off data s = _ from h) s.mgpStart_tame ((State.busWriteWords_tame _ _ _ s).trans (.ofIo (.ofEq rfl rfl)))
  | mgpReadTransaction off n => exact of_onMgp (show execMgpReadTransaction off n s = _ from h) s.mgpStart_tame ((State.busReadWords_tame _ _ s).trans (.ofIo (.ofEq rfl rfl)))
  | responderComplete => exact hbus (show execResponderComplete s = _ from h) (responderComplete_tame s)
  | pcieReset => exact of_exec_eq h rfl (.ofIo (.ofEq rfl rfl))
  | snapRunWrite via v => exact hbus (show execSnapRunWrite via v s = _ from h) (s.writeSnapCtrl_tame v)
  | snapDmaEnWrite via v => exact hbus (show execSnapDmaEnWrite via v s = _ from h) (s.writeSnapCtrl_tame v)
  | snapTrigWrite via v => exact hbus (show execSnapTrigWrite via v s = _ from h) (s.writeSnapCtrl_tame v)
  | snapshotStrobe => exact of_exec_eq h rfl (snapStrobe_tame s)
  | snapshotDumpEnd dmaOk => exact of_exec_eq h rfl (snapEnd_tame dmaOk s)
  | bar2HostWrite off data => exact hbus (show execBar2HostWrite off data s = _ from h) (.ite ⟨rfl, rfl, .refl _⟩ (s.bar2Fault_tame true))
  | _ => cases hi

/-- The host's accesses keep the invariants. -/
theorem State.Ok.exec_access {i : Instr} {s t : State} (k : s.Ok) (hi : kindOf i = .access) (h : exec i s = .next t) : t.Ok := by
  have hbus {f : State → State} (h : onBus s f = .next t) (hf : (f s).Ok) : t.Ok := of_onBus h k hf
  have hio {f : Io → Io} (h : onBusIo s f = .next t) (hf : Io.Good s.io (f s.io)) : t.Ok := hbus h (k.good _ hf)
  have hreg {via : Via} {f : Io → Io} (h : (onBusIo s fun io => io.guarded via f) = .next t) (hf : Io.Good s.io (f s.io)) : t.Ok :=
    hio h (Io.guarded_good _ _ _ hf)
  have hquiet {s : State} (k : s.Ok) (x : Nat) (y : List Byte) : State.Ok { s with io := { s.io with lastRead := y, mgpOffset := BitVec.ofNat 20 x } } :=
    k.ioQuiet _ ⟨rfl, rfl, rfl, rfl, rfl⟩ ⟨rfl, rfl, rfl, rfl, rfl⟩
  cases i with
  | cmdTailWrite via v => exact hreg (show execCmdTailWrite via v s = _ from h) (Io.writeCmdTail_good _ _)
  | commandConsume => exact hbus (show execCommandConsume s = _ from h) k.commandConsume
  | cplHeadWrite via v => exact hreg (show execCplHeadWrite via v s = _ from h) (Io.writeCplHead_good _ _)
  | mbxPortWrite via v => exact hio (show execMbxPortWrite via v s = _ from h) (Io.writePort_good _ _ _)
  | portDropWrite via off v => exact hio (show execPortDropWrite via off v s = _ from h) (.ite (Io.mbxError_good _ _) (.refl _))
  | evtMarkWrite via v => exact hreg (show execEvtMarkWrite via v s = _ from h) (Io.writeMark_good _ _)
  | evtRunWrite via v => exact hreg (show execEvtRunWrite via v s = _ from h) (Io.writeEvtStatus_good _ _)
  | markHitClear via => exact hreg (show execMarkHitClear via s = _ from h) (Io.clearMark_good _)
  | evtPopWrite via v => exact hreg (show execEvtPopWrite via v s = _ from h) (Io.pop_good _ _ _)
  | intEnableWrite via v => exact hreg (show execIntEnableWrite via v s = _ from h) (Io.writeEnable_good _ _)
  | registerWrite via off v => exact hbus (show execRegisterWrite via off v s = _ from h) (k.busWrite _ _ _)
  | debugWindowFaultAccess via off wr =>
    refine hbus (show execDebugWindowFaultAccess via off wr s = _ from h) ?_
    split
    · exact k.ioQuiet _ ⟨rfl, rfl, rfl, rfl, rfl⟩ ⟨rfl, rfl, rfl, rfl, rfl⟩
    · split
      · exact k.good _ (Io.faulted_good _ _ _)
      · exact k
  | bar2OffStackAccess off stack wr =>
    refine hbus (show execBar2OffStackAccess off stack wr s = _ from h) ?_
    split
    · exact k
    · exact k.bar2Fault wr
  | msixMessageSend src masked => exact hio (show execMsixMessageSend src masked s = _ from h) (Io.sendMessage_good _ _ _)
  | mgpWriteTransaction off data => exact of_onMgp (show execMgpWriteTransaction off data s = _ from h) k.mgpStart (hquiet (State.Ok.busWriteWords _ _ _ s k) _ _)
  | mgpReadTransaction off n => exact of_onMgp (show execMgpReadTransaction off n s = _ from h) k.mgpStart (hquiet (State.Ok.busReadWords _ _ s k) _ _)
  | responderComplete => exact hbus (show execResponderComplete s = _ from h) k.responderComplete
  | pcieReset => exact of_exec_eq h rfl (k.ioQuiet _ ⟨rfl, rfl, rfl, rfl, rfl⟩ ⟨rfl, rfl, rfl, rfl, rfl⟩)
  | snapRunWrite via v => exact hbus (show execSnapRunWrite via v s = _ from h) (k.writeSnapCtrl v)
  | snapDmaEnWrite via v => exact hbus (show execSnapDmaEnWrite via v s = _ from h) (k.writeSnapCtrl v)
  | snapTrigWrite via v => exact hbus (show execSnapTrigWrite via v s = _ from h) (k.writeSnapCtrl v)
  | snapshotStrobe => exact of_exec_eq h rfl k.snapStrobe
  | snapshotDumpEnd dmaOk => exact of_exec_eq h rfl (k.snapEnd dmaOk)
  | bar2HostWrite off data =>
    refine hbus (show execBar2HostWrite off data s = _ from h) ?_
    split
    · exact k.ofMem _ (Mem.wf_writeAll _ _ _ k.mem.1)
    · exact k.bar2Fault true
  | _ => cases hi

end Sys2Proof.Machine
end

section
/-! One step: resets, the passing of time, and the invariants that every step keeps. -/

namespace Sys2Proof.Machine

/-! ### Resets and losses of supply -/

/-- What a reset leaves of everything but supply and boot state (R82, R83). -/
theorem State.afterReset_resetTo (s : State) (cause : Nat) (zero : Bool) : State.ResetTo s (s.afterReset cause zero) cause where
  pending := rfl
  io := rfl
  par := rfl
  mem := rfl
  nv := rfl
  cause := rfl
  phase := ⟨rfl, rfl⟩
  dom := rfl
  data := ⟨rfl, rfl, rfl, rfl, rfl, rfl, rfl⟩
  clients := ⟨rfl, rfl, rfl, rfl⟩

theorem State.wake_resetTo (s : State) (cause : Nat) : State.ResetTo s (s.wake cause) 0x04 := { s.afterReset_resetTo 0x04 false with }

/-- A reset while the always-on domain runs leaves time and queue, whatever else it leaves of the device. -/
theorem State.afterReset_dev_tame (s : State) (cause : Nat) (d : Dev) : State.Tame s { s.afterReset cause false with dev := d } :=
  (s.afterReset_tame cause).trans (.ofDev _ d)

/-- Resets leave time and queue and an empty command ring. -/
theorem exec_reset_tame {i : Instr} {s t : State} (hi : kindOf i = .reset) (h : exec i s = .next t) : State.Tame s t := by
  cases i with
  | sysrstAssert =>
    exact of_exec_eq h rfl (.ite (s.afterReset_dev_tame 0x02 _) (.ite (s.afterReset_dev_tame 0x02 _) (.ofDev s _)))
  | sysResetDelayExpiry => exact of_exec_eq h rfl (.ite (s.afterReset_tame _) (.refl s))
  | wakeMgpMatch addr => exact of_exec_eq h rfl (s.mgpStart_tame _)
  | wakePin => exact of_exec_eq h rfl (.ite (.ite (s.wake_tame _) (.ofDev s _)) (.refl s))
  | hwThermalShutdown => exact of_exec_eq h rfl (.ite (s.afterReset_dev_tame _ _) (.refl s))
  | thermalRestart => exact of_exec_eq h rfl (.ite (s.afterReset_tame _) (.refl s))
  | _ => cases hi

theorem State.Ok.ite {p : Prop} [Decidable p] {s t : State} (h : s.Ok) (g : t.Ok) : State.Ok (if p then s else t) := by split <;> assumption

theorem State.Ok.exec_reset {i : Instr} {s t : State} (k : s.Ok) (hi : kindOf i = .reset) (h : exec i s = .next t) : t.Ok := by
  have hreset (cause : Nat) (d : Dev) : State.Ok { s.afterReset cause false with dev := d } := (s.afterReset_ok cause false).ofDev d
  cases i with
  | sysrstAssert => exact of_exec_eq h rfl (.ite (hreset 0x02 _) (.ite (hreset 0x02 _) (k.ofDev _)))
  | sysResetDelayExpiry => exact of_exec_eq h rfl (.ite (s.afterReset_ok _ _) k)
  | wakeMgpMatch addr => exact of_exec_eq h rfl (k.mgpStart _)
  | wakePin => exact of_exec_eq h rfl (.ite (.ite (State.Ok.wake _ _) (k.ofDev _)) k)
  | hwThermalShutdown => exact of_exec_eq h rfl (.ite (State.Ok.railsGone _ _ _) k)
  | thermalRestart => exact of_exec_eq h rfl (.ite (s.afterReset_ok _ _) k)
  | _ => cases hi

/-- The queue, and the command ring's bound, outlast a loss of supply too. -/
structure State.Queued (s t : State) : Prop where
  pending : t.pending = s.pending
  ring : Io.RingKept s.io t.io

theorem State.Tame.queued {s t : State} (h : State.Tame s t) : State.Queued s t := ⟨h.pending, h.ring⟩

/-- A loss of supply, and what ends it, leave the queue and an empty command ring. -/
theorem exec_supply_queued {i : Instr} {s t : State} (hi : kindOf i = .supply) (h : exec i s = .next t) : State.Queued s t := by
  have hreset {t : State} (hp : t.pending = s.pending) (hio : t.io = Io.reset) : State.Queued s t := ⟨hp, fun _ => hio ▸ Io.reset_ringOk⟩
  have hrefl : State.Queued s s := (State.Tame.refl s).queued
  cases i with
  | powerOnReset vin =>
    refine of_exec_eq h (u := powerOn vin s) rfl ?_
    unfold powerOn; split
    · exact hreset rfl rfl
    · exact hrefl
  | uvloShutdown vin => exact of_exec_eq h rfl (hreset rfl rfl)
  | overvoltageShutdown vin =>
    refine of_exec_eq h (u := overvoltage vin s) rfl ?_
    unfold overvoltage; split
    · exact hrefl
    · exact hreset rfl rfl
  | overvoltageRestart vin =>
    refine of_exec_eq h (u := Machine.overvoltageRestart vin s) rfl ?_
    unfold Machine.overvoltageRestart; split
    · exact hreset rfl rfl
    · exact hrefl
  | _ => cases hi

theorem State.Ok.exec_supply {i : Instr} {s t : State} (k : s.Ok) (hi : kindOf i = .supply) (h : exec i s = .next t) : t.Ok := by
  cases i with
  | powerOnReset vin => exact of_exec_eq h rfl (k.powerOn vin)
  | uvloShutdown vin => exact of_exec_eq h rfl (State.Ok.railsGone _ _ _)
  | overvoltageShutdown vin => exact of_exec_eq h rfl (k.overvoltage vin)
  | overvoltageRestart vin => exact of_exec_eq h rfl (k.overvoltageRestart vin)
  | _ => cases hi

/-! ### Every row -/

/-- Every row keeps the invariants. -/
theorem State.Ok.exec {i : Instr} {s t : State} (k : s.Ok) (h : exec i s = .next t) : t.Ok := by
  cases hi : kindOf i with
  | command => exact k.exec_eventOrCommand (.inr hi) h
  | access => exact k.exec_access hi h
  | supply => exact k.exec_supply hi h
  | reset => exact k.exec_reset hi h
  | event => exact k.exec_eventOrCommand (.inl hi) h

/-- Every row but a loss of supply leaves time, queue and the ring's bound. -/
theorem exec_tame {i : Instr} {s t : State} (hi : kindOf i ≠ .supply) (h : exec i s = .next t) : State.Tame s t := by
  cases hk : kindOf i with
  | command => exact (exec_still (.inr hk) h).tame
  | access => exact exec_access_tame hk h
  | supply => exact absurd hk hi
  | reset => exact exec_reset_tame hk h
  | event => exact (exec_still (.inl hk) h).tame

theorem exec_queued {i : Instr} {s t : State} (h : exec i s = .next t) : State.Queued s t := by
  by_cases hi : kindOf i = .supply
  · exact exec_supply_queued hi h
  · exact (exec_tame hi h).queued

/-- Settles O7. -/
theorem timeAndQueueKept : Obligations.TimeAndQueueKept := fun _ _ _ h => ⟨(exec_queued h).pending, fun hi => (exec_tame hi h).now⟩

/-! ### The passing of time -/

/-- Where the block answers, a nanosecond changes time and leaves queue and host registers. -/
theorem tick_still_of_answers {s : State} (h : s.dev.deaf = false) : State.Still { s with now := s.now + 1 } (tick s) := by
  have hd : s.dev.pw.state ≠ .doldrums := fun hd => by simp [Dev.deaf, hd] at h
  unfold tick
  rw [if_neg hd, if_neg (by simp [h])]
  exact (((State.levels_still _).trans (State.timeOuts_still _)).trans (State.commit_still _ _)).trans (summaries_still _ _)

/-- In another state without an answer time alone passes. -/
theorem tick_of_deaf {s : State} (hd : s.dev.pw.state ≠ .doldrums) (h : s.dev.deaf = true) : tick s = { s with now := s.now + 1 } := by
  unfold tick; rw [if_neg hd, if_pos h]

/-- In Doldrums the memories go (R76), until a noted wake is due (R75). -/
theorem tick_of_doldrums {s : State} (hd : s.dev.pw.state = .doldrums) :
    tick s = if s.dev.pw.wakeNoted ∧ s.dev.pw.armedAt ≤ s.now + 1 then State.wake { s with now := s.now + 1 } 2
      else { s with now := s.now + 1, io := .reset, par := [], mem := [] } := by
  unfold tick; rw [if_pos hd]

theorem tick_ring (s : State) : Io.RingKept s.io (tick s).io := by
  by_cases hd : s.dev.pw.state = .doldrums
  · rw [tick_of_doldrums hd]
    split <;> exact fun _ => Io.reset_ringOk
  · cases h : s.dev.deaf
    · exact (tick_still_of_answers h).host.ring
    · rw [tick_of_deaf hd h]; exact .refl _

/-- A step is the row at the front of the queue, or a nanosecond. -/
theorem step_cases {s t : State} (h : step s = .next t) :
    (s.pending = [] ∧ t = tick s) ∨ ∃ c cs, s.pending = c :: cs ∧ exec c { s with pending := cs } = .next t := by
  unfold step at h
  cases hp : s.pending with
  | nil => rw [hp] at h; exact .inl ⟨rfl, (Host.Outcome.next.inj h).symm⟩
  | cons c cs => rw [hp] at h; exact .inr ⟨c, cs, rfl, h⟩

/-! ### The obligations of one step -/

/-- Settles O3: each row and each nanosecond keep the five invariants together. -/
theorem invariantsKept : Obligations.InvariantsKept := by
  unfold Obligations.InvariantsKept
  intro s t h hmem hfifo hmark hroom hpar
  have k : s.Ok := ⟨hmem, ⟨hfifo, hmark⟩, hroom, hpar⟩
  have kt : t.Ok := by
    rcases step_cases h with ⟨-, rfl⟩ | ⟨c, cs, -, hx⟩
    · exact k.tick
    · exact (k.ofPending cs).exec hx
  exact ⟨kt.mem, kt.evt.1, kt.evt.2, kt.room, kt.par⟩

/-- Settles O4. -/
theorem commandRingBounded : Obligations.CommandRingBounded := by
  unfold Obligations.CommandRingBounded
  intro s t h hring
  rcases step_cases h with ⟨-, rfl⟩ | ⟨c, cs, -, hx⟩
  · exact tick_ring s hring
  · exact (exec_queued hx).ring hring

/-- Settles O1. -/
theorem stepRunsFront : Obligations.StepRunsFront := by
  unfold Obligations.StepRunsFront
  intro s c cs h
  rw [step, h]

/-- Settles O2. -/
theorem idleStep : Obligations.IdleStep := by
  unfold Obligations.IdleStep
  intro s hp
  refine ⟨tick s, by rw [step, hp], fun hd hn => ?_, fun hd hn ha => ?_, tick_of_deaf, fun h => ?_⟩
  · rw [tick_of_doldrums hd, if_neg]
    rintro ⟨hw, ha⟩
    rcases hn with hn | hn
    · simp [hn] at hw
    · omega
  · rw [tick_of_doldrums hd, if_pos ⟨hn, ha⟩]
    exact ⟨{ State.wake_resetTo { s with now := s.now + 1 } 2 with }, rfl, rfl, rfl⟩
  · have hs := tick_still_of_answers h
    exact ⟨hs.now, hs.pending.trans hp⟩

/-- Settles O5. -/
theorem resetMeetsInvariants : Obligations.ResetMeetsInvariants :=
  have k := State.reset_ok
  ⟨k.mem, k.evt.1, k.evt.2, k.room, Io.reset_ringOk, k.par⟩

end Sys2Proof.Machine
end

section
/-! What carrying out a change of the device leaves alone, request by request; what a refusal leaves alone; and what a command meets before its own rule. -/

namespace Sys2Proof.Machine

/-! ### The event side of the interface block -/

/-- The event FIFO, its sequence number, the record kept while ACTIVATING and MBX_STATE are as they were. -/
structure Io.EvtSame (a b : Io) : Prop where
  evts : b.evts = a.evts
  evtSeq : b.evtSeq = a.evtSeq
  held : b.held = a.held
  mbxState : b.mbxState = a.mbxState

theorem Io.EvtSame.refl (a : Io) : Io.EvtSame a a := ⟨rfl, rfl, rfl, rfl⟩
theorem Io.EvtSame.trans {a b c : Io} (h : Io.EvtSame a b) (g : Io.EvtSame b c) : Io.EvtSame a c :=
  ⟨g.evts.trans h.evts, g.evtSeq.trans h.evtSeq, g.held.trans h.held, g.mbxState.trans h.mbxState⟩

theorem Io.raiseInt_evtSame (io : Io) (n : Nat) : Io.EvtSame io (io.raiseInt n) := by
  unfold Io.raiseInt; split <;> exact ⟨rfl, rfl, rfl, rfl⟩

theorem Io.complete_evtSame (io : Io) (par : Params) (now op : Nat) (e : CmdEntry) (at_ : Nat) (st : Status) (detail : Nat) (r : List Byte) :
    Io.EvtSame io (io.complete par now op e at_ st detail r) := by
  simp only [Io.complete]; split
  · refine Io.EvtSame.trans ?_ (Io.raiseInt_evtSame _ _)
    exact ⟨rfl, rfl, rfl, rfl⟩
  · exact ⟨rfl, rfl, rfl, rfl⟩

theorem Io.finish_evtSame (io : Io) (par : Params) (now op key : Nat) (st : Status) (detail : Nat) (r : List Byte) :
    Io.EvtSame io (io.finish par now op key st detail r) := by
  unfold Io.finish; split
  · exact .refl io
  · refine Io.EvtSame.trans ?_ (Io.complete_evtSame _ _ _ _ _ _ _ _ _)
    exact ⟨rfl, rfl, rfl, rfl⟩

theorem State.dump_evtSame (s : State) (op : Nat) : Io.EvtSame s.io (s.dump op).io := by
  unfold State.dump; split
  · exact Io.raiseInt_evtSame _ _
  · exact .refl _

theorem State.finish_evtSame (s : State) (op key : Nat) (st : Status) (detail : Nat) (r : List Byte) : Io.EvtSame s.io (s.finish op key st detail r).io := by
  simp only [State.finish]
  refine Io.EvtSame.trans ?_ (Io.finish_evtSame _ _ _ _ _ _ _ _)
  split
  · exact State.dump_evtSame _ _
  · exact .refl _

theorem Io.raiseOn_evtSame (io : Io) (n : Nat) (c : Bool) : Io.EvtSame io (io.raiseOn n c) := by
  unfold Io.raiseOn; split
  · exact Io.raiseInt_evtSame _ _
  · exact .refl _

theorem raiseSummaries_evtSame (old new : State) : Io.EvtSame new.io (raiseSummaries old new) := by
  unfold raiseSummaries
  exact ((((Io.raiseOn_evtSame _ _ _).trans (Io.raiseOn_evtSame _ _ _)).trans (Io.raiseOn_evtSame _ _ _)).trans (Io.raiseOn_evtSame _ _ _)).trans
    (Io.raiseOn_evtSame _ _ _)

/-! ### What follows of a change on the I/O die -/

@[simp] theorem State.refreshF_mem (s : State) : s.refreshF.mem = s.mem := by unfold State.refreshF; split <;> rfl
@[simp] theorem State.refreshF_par (s : State) : s.refreshF.par = s.par := by unfold State.refreshF; split <;> rfl
@[simp] theorem State.refreshF_dev (s : State) : s.refreshF.dev = s.dev := by unfold State.refreshF; split <;> rfl
@[simp] theorem settle_mem (old new : State) : (settle old new).mem = new.mem := State.refreshF_mem new
@[simp] theorem settle_par (old new : State) : (settle old new).par = new.par := State.refreshF_par new
@[simp] theorem settle_dev (old new : State) : (settle old new).dev = new.dev := State.refreshF_dev new

theorem State.refreshF_keeps (s : State) : Io.Keeps s.io s.refreshF.io := by
  unfold State.refreshF; split
  · exact ⟨rfl, rfl, rfl, rfl, rfl⟩
  · exact .refl _

theorem State.refreshF_evtSame (s : State) : Io.EvtSame s.io s.refreshF.io := by
  unfold State.refreshF; split
  · exact ⟨rfl, rfl, rfl, rfl⟩
  · exact .refl _

theorem settle_keeps (old new : State) : Io.Keeps new.io (settle old new).io := by
  refine (new.refreshF_keeps.trans ?_).trans (raiseSummaries_keeps _ _)
  exact ⟨rfl, rfl, rfl, rfl, rfl⟩

theorem settle_evtSame (old new : State) : Io.EvtSame new.io (settle old new).io := by
  refine (new.refreshF_evtSame.trans ?_).trans (raiseSummaries_evtSame _ _)
  exact ⟨rfl, rfl, rfl, rfl⟩

/-! ### Requests -/

/-- What each of a list of requests keeps, carrying them all out keeps. -/
theorem State.foldApply_of {P : State → State → Prop} (hrefl : ∀ s, P s s) (htrans : ∀ {a b c}, P a b → P b c → P a c) (l : List Emit)
    (hx : ∀ x ∈ l, ∀ s : State, P s (s.apply x)) (s : State) : P s (l.foldl State.apply s) := by
  induction l generalizing s with
  | nil => exact hrefl s
  | cons x l ih => exact htrans (hx x List.mem_cons_self s) (ih (fun y hy => hx y (List.mem_cons_of_mem x hy)) (s.apply x))

theorem State.finish_of_ne_internal (s : State) (op key : Nat) {st : Status} (detail : Nat) (r : List Byte) (h : st ≠ .internal) :
    s.finish op key st detail r = { s with io := s.io.finish s.par s.now op key st detail r } := by
  rw [State.finish, if_neg (fun hst => h hst.1)]

theorem State.dump_par (s : State) (op : Nat) : (s.dump op).par = s.par := by unfold State.dump; split <;> rfl

theorem State.finish_par (s : State) (op key : Nat) (st : Status) (detail : Nat) (r : List Byte) : (s.finish op key st detail r).par = s.par := by
  simp only [State.finish]; split
  · exact s.dump_par op
  · rfl

/-- A request that stores nothing leaves DRAM. -/
theorem State.apply_mem {x : Emit} (hx : x.storing = false) (s : State) : (s.apply x).mem = s.mem := by
  cases x with
  | finish op key st detail r => rw [State.apply, s.finish_of_ne_internal _ _ _ _ (of_decide_eq_false hx)]
  | dram a bs => cases hx
  | wipe w => cases hx
  | _ => rfl

theorem State.apply_par {x : Emit} (hx : x.setting = false) (s : State) : (s.apply x).par = s.par := by
  cases x with
  | finish op key st detail r => exact s.finish_par _ _ _ _ _
  | params l => cases hx
  | _ => rfl

/-- Only a completion with E_INTERNAL changes the device: its dump is noted (R480). -/
theorem State.apply_dev {x : Emit} (hx : x.finishing = true → x.storing = false) (s : State) : (s.apply x).dev = s.dev := by
  cases x with
  | finish op key st detail r => rw [State.apply, s.finish_of_ne_internal _ _ _ _ (of_decide_eq_false (hx rfl))]
  | _ => rfl

theorem State.apply_keeps {x : Emit} (hx : x.finishing = false) (s : State) : Io.Keeps s.io (s.apply x).io := by
  cases x with
  | event ev inst sev fs => exact Io.event_keeps _ _ _ _ _ _ _
  | int src => exact Io.raiseInt_keeps _ _
  | finish op key st detail r => cases hx
  | mbx st => exact Io.setMbx_keeps _ _ _
  | _ => exact ⟨rfl, rfl, rfl, rfl, rfl⟩

theorem State.apply_evtSame {x : Emit} (hx : x.entering = false) (s : State) : Io.EvtSame s.io (s.apply x).io := by
  cases x with
  | event ev inst sev fs => cases hx
  | int src => exact Io.raiseInt_evtSame _ _
  | finish op key st detail r => exact s.finish_evtSame _ _ _ _ _
  | mbx st => cases hx
  | _ => exact ⟨rfl, rfl, rfl, rfl⟩

/-- A byte of DRAM that no store names, where stores are all that reach DRAM. -/
def State.ByteSame (a : Nat) (s t : State) : Prop := s.mem.wf = true → t.mem.wf = true ∧ t.mem.read a = s.mem.read a

theorem State.ByteSame.ofMem {a : Nat} {s t : State} (h : t.mem = s.mem) : State.ByteSame a s t := by
  intro hwf; rw [h]; exact ⟨hwf, rfl⟩

theorem State.apply_byteSame {x : Emit} {a : Nat} (hx : x.storing = true → ∃ p bs, x = .dram p bs ∧ (a < p ∨ p + bs.length ≤ a)) (s : State) :
    State.ByteSame a s (s.apply x) := by
  cases hs : x.storing with
  | false => exact .ofMem (State.apply_mem hs s)
  | true =>
    obtain ⟨p, bs, rfl, ha⟩ := hx hs
    exact fun hwf => ⟨Mem.wf_writeAll _ _ _ hwf, Mem.read_writeAll_other bs s.mem p a hwf ha⟩

/-- Settles O9: each clause is a property of every single request that those of the device have. -/
theorem commitFrame : Obligations.CommitFrame := by
  unfold Obligations.CommitFrame
  intro s d d1 t
  have hfold {P : State → State → Prop} (hrefl : ∀ s, P s s) (htrans : ∀ {a b c}, P a b → P b c → P a c) (hx : ∀ x ∈ d1.out, ∀ s : State, P s (s.apply x)) :
      P { s with dev := { d1 with out := [] } } (s.carryOut d) := State.foldApply_of hrefl htrans d1.out hx _
  obtain ⟨hnow, hpending, hhost⟩ := State.commit_still s d
  refine ⟨hnow, hpending, hhost, fun hx => ?_, fun hwf hx a ha => ?_, fun hx => ?_, fun hx => ?_, fun hx => ?_, fun hx => ?_⟩
  · exact (settle_mem _ _).trans
      (hfold (P := fun s t => t.mem = s.mem) (fun _ => rfl) (fun h g => g.trans h) fun x hm => State.apply_mem (hx x hm))
  · have hbyte : State.ByteSame a { s with dev := { d1 with out := [] } } (s.carryOut d) := by
      refine hfold (fun _ => .ofMem rfl) (fun h g hwf => ?_) fun x hm => State.apply_byteSame fun hs => ?_
      · exact ⟨(g (h hwf).1).1, (g (h hwf).1).2.trans (h hwf).2⟩
      · obtain ⟨p, bs, rfl⟩ := hx x hm hs
        exact ⟨p, bs, rfl, ha p bs hm⟩
    exact (congrArg (Mem.read · a) (settle_mem s (s.carryOut d))).trans (hbyte hwf).2
  · exact (settle_par _ _).trans
      (hfold (P := fun s t => t.par = s.par) (fun _ => rfl) (fun h g => g.trans h) fun x hm => State.apply_par (hx x hm))
  · have hk : Io.Keeps s.io t.io := Io.Keeps.trans
      (hfold (P := fun s t => Io.Keeps s.io t.io) (fun _ => .refl _) Io.Keeps.trans fun x hm => State.apply_keeps (hx x hm)) (settle_keeps s _)
    exact ⟨hk.cplRing, hk.cplTail, hk.inflight⟩
  · have he : Io.EvtSame s.io t.io := Io.EvtSame.trans
      (hfold (P := fun s t => Io.EvtSame s.io t.io) (fun _ => .refl _) Io.EvtSame.trans fun x hm => State.apply_evtSame (hx x hm)) (settle_evtSame s _)
    exact ⟨he.evts, he.evtSeq, he.held, he.mbxState⟩
  · exact (settle_dev _ _).trans
      (hfold (P := fun s t => t.dev = s.dev) (fun _ => rfl) (fun h g => g.trans h) fun x hm => State.apply_dev (hx x hm))

/-! ### Refusals -/

/-- A completion leaves every byte of the ring outside the slot that CPL_TAIL names (R43). -/
theorem Io.complete_read_other (io : Io) (par : Params) (now op : Nat) (e : CmdEntry) (at_ : Nat) (st : Status) (detail : Nat) (r : List Byte)
    (h : io.cplRing.wf = true) {a : Nat} (ha : a < 0x5000 + 64 * (io.cplTail.toNat % 64) ∨ 0x5000 + 64 * (io.cplTail.toNat % 64) + 64 ≤ a) :
    (io.complete par now op e at_ st detail r).cplRing.read a = io.cplRing.read a := by
  obtain ⟨-, -, -, -, hring⟩ := Io.complete_pointers io par now op e at_ st detail r
  rw [hring, cplSlot_tail]
  exact Mem.read_writeAll_other _ _ _ _ h (by rwa [cplBytes_length])

/-- A refusal with another status than E_INTERNAL is the completion of the waiting entry. -/
theorem State.refuses_eq (s1 : State) (f : CmdForm) (e : CmdEntry) {st : Status} (detail : Nat) (hst : st ≠ .internal) :
    s1.refuses f e st detail = s1.completeWaiting f.op (canonEntry e) st detail [] := by
  rw [State.refuses, State.answer, if_neg hst]

/-- The completion of a waiting entry is one of the interface block, the entry taken out, with some time of consumption. -/
theorem State.completeWaiting_io (s : State) (op : Nat) (e : CmdEntry) (st : Status) (detail : Nat) (r : List Byte) :
    ∃ at_, (s.completeWaiting op e st detail r).io =
      Io.complete { s.io with inflight := s.io.inflight.eraseP (isWaiting op e) } s.par s.now op e at_ st detail r := ⟨_, rfl⟩

/-- Settles O10. -/
theorem refusalFrame : Obligations.RefusalFrame := by
  unfold Obligations.RefusalFrame
  intro s1 f e st detail hst hwait
  rw [State.refuses_eq s1 f e detail hst]
  obtain ⟨at_, hio⟩ := State.completeWaiting_io s1 f.op (canonEntry e) st detail []
  have hhost := (State.completeWaiting_still s1 f.op (canonEntry e) st detail []).host
  have hlen := eraseP_length_of_any _ _ hwait
  rw [← State.completeWaiting_inflight s1 f.op (canonEntry e) st detail []] at hlen
  rw [hio] at hhost hlen
  dsimp only
  rw [hio]
  have hevt := Io.complete_evtSame { s1.io with inflight := s1.io.inflight.eraseP (isWaiting f.op (canonEntry e)) } s1.par s1.now f.op (canonEntry e) at_ st detail []
  have htail := (Io.complete_pointers { s1.io with inflight := s1.io.inflight.eraseP (isWaiting f.op (canonEntry e)) } s1.par s1.now f.op (canonEntry e) at_ st detail []).1
  refine ⟨rfl, rfl, rfl, rfl, rfl, hhost, hevt.evts, hevt.mbxState, htail, hlen, fun hwf a ha => ?_⟩
  exact Io.complete_read_other { s1.io with inflight := s1.io.inflight.eraseP (isWaiting f.op (canonEntry e)) } _ _ _ _ _ _ _ _ hwf ha

/-! ### Admission -/

/-- A deaf device takes no command. -/
theorem runCmdWith_of_deaf (f : CmdForm) (e : CmdEntry) (body : State → Params × CmdRes) {s : State} (h : s.dev.deaf = true) :
    runCmdWith f e body s = s := by
  rw [runCmdWith, if_pos h]

/-- With no entry waiting and 64 commands outstanding nothing is consumed (R46). -/
theorem State.consumed_eq_none {s : State} {op : Nat} {e : CmdEntry} (hw : s.io.inflight.any (isWaiting op e) = false) (hfull : 64 ≤ s.io.outstanding) :
    s.consumed op e = none := by
  rw [State.consumed, if_neg (by simp [hw]), if_neg (by omega)]

theorem runCmdWith_of_full (f : CmdForm) (e : CmdEntry) (body : State → Params × CmdRes) {s : State} (hd : s.dev.deaf = false)
    (hc : s.consumed f.op (canonEntry e) = none) : runCmdWith f e body s = s := by
  simp only [runCmdWith, hd, hc]; rfl

/-- Outside READY the responder answers whatever waits (R51). -/
theorem admission_of_not_ready {mbx : MbxState} (f : CmdForm) (e : CmdEntry) (before : List Inflight) {st : Status} {detail : Nat}
    (h : mbx.response = some (st, detail)) : admission mbx f e before = .complete st detail := by
  cases mbx <;> simp_all [MbxState.response, admission]

/-- In READY a command that is held back waits (R48). -/
theorem heldBack_of_mem {op : Nat} {e : CmdEntry} {alone : Bool} {before : List Inflight} {r : Inflight} (hr : r ∈ before)
    (h : r.op / 256 = op / 256 ∨ fenced r.e = true ∨ fenced e = true ∨ alone = true) : heldBack op e alone before = true :=
  List.any_eq_true.mpr ⟨r, hr, by simpa [or_assoc] using h⟩

theorem heldBack_eq_false {op : Nat} {e : CmdEntry} {before : List Inflight} (h : ∀ r ∈ before, r.op / 256 ≠ op / 256 ∧ fenced r.e = false)
    (he : fenced e = false) : heldBack op e false before = false :=
  List.any_eq_false.mpr fun r hr => by simp [h r hr, he]

/-- In READY, nothing holding it back and no earlier TAG like its own, a command meets the checks of its entry (R510). -/
theorem admission_of_free {f : CmdForm} {e : CmdEntry} {before : List Inflight} (hb : heldBack f.op e f.alone before = false)
    (ht : ∀ r ∈ before, r.e.tag ≠ e.tag) :
    admission .ready f e before = match f.fault e with | some k => .complete .badParam k | none => .run := by
  have hdup : (before.any fun r => decide (r.e.tag = e.tag)) = false := List.any_eq_false.mpr fun r hr => by simp [ht r hr]
  simp only [admission, hb, hdup]
  rfl

end Sys2Proof.Machine

namespace Sys2Proof
open Machine

/-- Settles O58: each answer is one outcome of `admission`, for the one shape that every mailbox command has. -/
theorem admission : Obligations.Admission := by
  unfold Obligations.Admission
  intro i f e s s1 hi c before
  obtain ⟨body, hx⟩ := exec_command hi
  refine ⟨fun hd => ?_, fun hd hw hfull => ?_, fun hd hc => ?_⟩
  · rw [hx, runCmdWith_of_deaf f e body hd]
  · rw [hx, runCmdWith_of_full f e body hd (State.consumed_eq_none hw hfull)]
  · have hmbx : s1.io.mbxState = s.io.mbxState := by rw [State.consumed_io s s1 _ _ hc]
    have haway {st : Status} {detail : Nat} (hst : st ≠ .internal) (h : Machine.admission s.io.mbxState f c before = .complete st detail) :
        exec i s = .next (s1.refuses f e st detail) := exec_turnedAway hi ⟨hd, hc, hmbx ▸ h⟩ hst
    refine ⟨fun hm => ?_, fun hm => ?_, fun hm => ⟨fun ⟨r, hr, h⟩ => ?_, fun hfree hfence halone => ?_⟩⟩
    · exact haway (by decide) (admission_of_not_ready f c before (by rw [hm]; rfl))
    · exact haway (by decide) (admission_of_not_ready f c before (by rcases hm with hm | hm <;> rw [hm] <;> rfl))
    · rw [hx, runCmdWith_heldBack f e body s s1 ⟨hd, hc, hmbx.trans hm, heldBack_of_mem hr h⟩]
    · have hb : heldBack f.op c f.alone before = false := halone ▸ heldBack_eq_false hfree hfence
      refine ⟨fun ⟨r, hr, ht⟩ => exec_turnedAway hi (turnedAway_of_duplicateTag hd hm hc hb hr ht) (by decide), fun ht => ⟨fun k hk => ?_, fun hn => ?_⟩⟩
      · exact haway (by decide) (by rw [hm, admission_of_free hb ht, hk])
      · exact ⟨hd, hc, by rw [hmbx, hm]; exact (admission_of_free hb ht).trans (by rw [hn])⟩

end Sys2Proof
end

section
/-! The registers of the mailbox, the event window, the interrupt block and the MGP (chapter 2). -/

namespace Sys2Proof.Machine

/-! ### Accesses on a device that answers -/

theorem onBus_of_answers {s : State} (h : s.dev.deaf = false) (f : State → State) : onBus s f = .next (f s) := by
  rw [onBus, if_neg (by simp [h])]

theorem onBusIo_of_answers {s : State} (h : s.dev.deaf = false) (f : Io → Io) : onBusIo s f = .next { s with io := f s.io } := onBus_of_answers h _

theorem onMgp_of_answers {s : State} (h : s.dev.deaf = false) (f : State → State) : onMgp s f = .next (f s) := by
  rw [onMgp, if_neg (by simp [h])]

theorem Io.guarded_of_let {io : Io} {via : Via} (h : io.excludes via = false) (f : Io → Io) : io.guarded via f = f io := by
  rw [Io.guarded, if_neg (by simp [h])]

theorem Io.guarded_of_excluded {io : Io} {via : Via} (h : io.excludes via = true) (f : Io → Io) : io.guarded via f = io.mbxError errPortDrop := by
  rw [Io.guarded, if_pos h]

/-- A register write of an interface that MBX_PORT lets through, on a device that answers. -/
theorem onBusIo_guarded {s : State} {via : Via} (hd : s.dev.deaf = false) (hp : s.io.excludes via = false) (f : Io → Io) :
    (onBusIo s fun io => io.guarded via f) = .next { s with io := f s.io } := by
  rw [onBusIo_of_answers hd, Io.guarded_of_let hp]

/-! ### Doorbells (R44, R45) -/

/-- Settles O11. -/
theorem ringPointers : Obligations.RingPointers := by
  unfold Obligations.RingPointers
  intro s via v hd hp
  have htail : exec (.cmdTailWrite via v) s = .next { s with io := s.io.writeCmdTail v } := onBusIo_guarded hd hp _
  have hhead : exec (.cplHeadWrite via v) s = .next { s with io := s.io.writeCplHead v } := onBusIo_guarded hd hp _
  refine ⟨fun h => ?_, fun h => ?_, fun h => ?_, fun h => ?_⟩
  · rw [htail, Io.writeCmdTail, if_neg (by omega)]
  · rw [htail, Io.writeCmdTail, if_pos h]; rfl
  · rw [Io.unread] at h
    rw [hhead, Io.writeCplHead, if_neg (Nat.not_lt.mpr h)]
  · rw [Io.unread] at h
    rw [hhead, Io.writeCplHead, if_pos h]; rfl

/-! ### MBX_PORT (R65) -/

/-- A shut-out write to a restricted register is dropped. -/
theorem State.busWrite_of_excluded {s : State} {via : Via} (h : s.io.excludes via = true) {off : Nat} (hoff : off % 4 = 0)
    (hr : restricted off = true) (v : Word) : s.busWrite via off v = { s with io := s.io.mbxError errPortDrop } := by
  have hport : off ≠ 0x6014 := by rintro rfl; exact absurd hr (by decide)
  rw [State.busWrite, if_neg (by simp [hoff]), if_neg hport, if_pos hr, Io.guarded_of_excluded h]

/-- MBX_PORT takes a value where neither 3 is written nor a port set is changed by the other interface or over entries that wait. -/
theorem Io.writePort_of_free {io : Io} {via : Via} {v : Word} (hv : (v.setWidth 2 : BitVec 2) ≠ 3)
    (h : io.mbxPort = 0 ∨ (io.excludes via = false ∧ io.ringsEmpty = true)) : io.writePort via v = { io with mbxPort := v.setWidth 2 } := by
  rw [Io.writePort, if_neg]
  rintro (h3 | ⟨hp, hx⟩)
  · exact hv h3
  · rcases h with h | ⟨he, hr⟩
    · exact hp h
    · simp [he, hr] at hx

theorem Io.ringsEmpty_eq_false {io : Io} (h : io.cmdHead ≠ io.cmdTail ∨ io.cplHead ≠ io.cplTail) : io.ringsEmpty = false := by
  rw [Io.ringsEmpty, decide_eq_false_iff_not]
  rintro ⟨hc, hp⟩
  exact h.elim (· hc) (· hp)

/-- Settles O12. -/
theorem portExclusion : Obligations.PortExclusion := by
  unfold Obligations.PortExclusion
  intro s via v hd
  have hport : exec (.mbxPortWrite via v) s = .next { s with io := s.io.writePort via v } :=
    show execMbxPortWrite via v s = _ from onBusIo_of_answers hd _
  refine ⟨fun hx off hoff hr => ?_, fun h0 hv => ?_, fun _ hx hc hp hv => ?_, fun h => ?_⟩
  · have hdrop : exec (.portDropWrite via off v) s = .next { s with io := s.io.mbxError errPortDrop } :=
      (onBusIo_of_answers hd _).trans (by rw [if_pos (by simp [hx, hr])])
    refine ⟨?_, hdrop⟩
    have hwrite : exec (.registerWrite via off v) s = .next (s.busWrite via off.toNat v) := show execRegisterWrite via off v s = _ from onBus_of_answers hd _
    rw [hdrop, hwrite, State.busWrite_of_excluded hx hoff hr]
  · rw [hport, Io.writePort_of_free hv (.inl h0)]
  · rw [hport, Io.writePort_of_free hv (.inr ⟨hx, decide_eq_true ⟨hc, hp⟩⟩)]
  · rw [hport, Io.writePort, if_pos]
    · rfl
    · exact h.imp id fun ⟨h0, h⟩ => ⟨h0, h.imp id Io.ringsEmpty_eq_false⟩

/-! ### Consumption (R46, R51) -/

theorem MbxState.response_of_unbooted {m : MbxState} (h : m = .booting ∨ m = .fault) : m.response = some (.state, 0) := by
  rcases h with rfl | rfl <;> rfl

/-- Settles O13. -/
theorem consumption : Obligations.Consumption := by
  unfold Obligations.Consumption
  intro s op e hd hne he
  have hconsume : exec .commandConsume s = .next (commandConsume s) := onBus_of_answers hd _
  have hrespond : exec .responderComplete s = .next (responderComplete s) := onBus_of_answers hd _
  have hcan : s.io.outstanding < 64 → s.io.canConsume = true := fun h => decide_eq_true ⟨hne, h⟩
  have hanswer {st : Status} {detail : Nat} (hm : s.io.mbxState.response = some (st, detail)) (h : s.io.outstanding < 64) :
      responderComplete s = { s with io := { s.io with cmdHead := s.io.cmdHead + 1 }.complete s.par s.now op e s.now st detail [] } := by
    simp only [responderComplete, hm, hcan h, he]; rfl
  refine ⟨fun hm h => ?_, fun hm h => ?_, fun hm h => ?_, fun h => ?_⟩
  · rw [hconsume, commandConsume, if_pos ⟨hm, hcan h⟩, he]
  · rw [hrespond, hanswer (by rw [hm]; rfl) h]
  · rw [hrespond, hanswer (MbxState.response_of_unbooted hm) h]
  · have hfull : s.io.canConsume = false := decide_eq_false fun hc => absurd hc.2 (Nat.not_lt.mpr h)
    refine ⟨?_, ?_⟩
    · rw [hconsume, commandConsume, if_neg (by simp [hfull])]
    · rw [hrespond, responderComplete]
      cases s.io.mbxState.response <;> simp [hfull]

/-! ### Completion entries (R43) -/

theorem cplBytes_op (tag : BitVec 16) (op : Nat) (st : Status) (phase detail exec : Nat) (r : List Byte) :
    fieldAt (cplBytes tag op st phase detail exec r) 2 2 = op % 2 ^ 16 := by
  have h := fieldAt_leBytes (leBytes 2 tag.toNat) (leBytes 1 st.code ++ leBytes 1 phase ++ leBytes 2 detail ++ leBytes 4 (min 0xFFFFFFFF exec) ++ padTo 52 r) 2 op
  simpa [cplBytes] using h

theorem cplBytes_phase (tag : BitVec 16) (op : Nat) (st : Status) (phase detail exec : Nat) (r : List Byte) :
    fieldAt (cplBytes tag op st phase detail exec r) 5 1 = phase % 256 := by
  have h := fieldAt_leBytes (leBytes 2 tag.toNat ++ leBytes 2 op ++ leBytes 1 st.code) (leBytes 2 detail ++ leBytes 4 (min 0xFFFFFFFF exec) ++ padTo 52 r) 1 phase
  simpa [cplBytes] using h

theorem cplBytes_exec (tag : BitVec 16) (op : Nat) (st : Status) (phase detail exec : Nat) (r : List Byte) :
    fieldAt (cplBytes tag op st phase detail exec r) 8 4 = min (2 ^ 32 - 1) exec := by
  have h := fieldAt_leBytes (leBytes 2 tag.toNat ++ leBytes 2 op ++ leBytes 1 st.code ++ leBytes 1 phase ++ leBytes 2 detail) (padTo 52 r) 4 (min 0xFFFFFFFF exec)
  rw [Nat.mod_eq_of_lt (show min 0xFFFFFFFF exec < 256 ^ 4 by omega)] at h
  simpa [cplBytes] using h

/-- RESULT stands behind the 12 bytes of the header, zeros past its length. -/
theorem cplBytes_result (tag : BitVec 16) (op : Nat) (st : Status) (phase detail exec : Nat) (r : List Byte) {k : Nat} (hk : k < 52) :
    ((cplBytes tag op st phase detail exec r)[12 + k]?).getD 0 = (r[k]?).getD 0 := by
  rw [cplBytes, List.getElem?_append_right (by simp)]
  have hlen : (leBytes 2 tag.toNat ++ leBytes 2 op ++ leBytes 1 st.code ++ leBytes 1 phase ++ leBytes 2 detail ++ leBytes 4 (min 0xFFFFFFFF exec)).length = 12 := by
    simp
  rw [hlen, Nat.add_sub_cancel_left, padTo, List.getElem?_take_of_lt hk]
  by_cases hr : k < r.length
  · rw [List.getElem?_append_left hr]
  · rw [List.getElem?_append_right (by omega), List.getElem?_replicate]
    split <;> simp [hr]

theorem Io.phase_eq (io : Io) : io.phase = if io.cplTail.toNat < 64 then 1 else 0 := by
  have h := io.cplTail.isLt
  have hbit : bitAt io.cplTail.toNat 6 = decide (64 ≤ io.cplTail.toNat) := by
    rw [bitAt, Bool.eq_iff_iff, beq_iff_eq, decide_eq_true_iff]; omega
  rw [Io.phase, hbit]
  by_cases h64 : io.cplTail.toNat < 64 <;> simp [h64, Nat.not_le.mpr, Nat.le_of_not_lt]

/-- Settles O14. -/
theorem completionEntry : Obligations.CompletionEntry := by
  unfold Obligations.CompletionEntry
  intro io par now op e at_ st detail r hwf hop hdetail base t
  obtain ⟨htail, -, -, -, hring⟩ := Io.complete_pointers io par now op e at_ st detail r
  have hslot : t.cplRing.readAll base 64 = cplBytes e.tag op st io.phase detail ((now - at_) / 1000) r := Io.complete_slot io par now op e at_ st detail r hwf
  rw [hslot]
  refine ⟨htail, cplBytes_tag .., (cplBytes_op ..).trans (Nat.mod_eq_of_lt hop), cplBytes_status .., ?_, (cplBytes_detail ..).trans (Nat.mod_eq_of_lt hdetail),
    cplBytes_exec .., fun k hk => ?_, fun a ha => Io.complete_read_other io par now op e at_ st detail r hwf ha⟩
  · rw [cplBytes_phase, Io.phase_eq]; split <;> rfl
  · rw [hring, cplSlot_tail, Nat.add_assoc, Mem.read_writeAll_in _ _ _ _ hwf (by rw [cplBytes_length]; omega), cplBytes_result _ _ _ _ _ _ _ hk]

end Sys2Proof.Machine
end

section
/-! The event window, accesses that fault, the register map and MGP transactions (chapter 2). -/

namespace Sys2Proof.Machine

/-! ### The event window (R55 to R58) -/

/-- The three bits of a write of EVT_STATUS. -/
theorem getLsbD_eq_bit (v : Word) (k : Nat) : v.getLsbD k = decide (v.toNat / 2 ^ k % 2 = 1) := by
  rw [BitVec.getLsbD, Nat.testBit_eq_decide_div_mod_eq]

/-- EVT_MARK holds at most 1,024. -/
theorem Io.writeMark_eq (io : Io) (v : Word) :
    io.writeMark v = Io.reMark io { io with evtMark := if 1024 < v.toNat % 2048 then 1024 else BitVec.ofNat 11 (v.toNat % 2048) } := by
  have hval : (v.setWidth 11 : BitVec 11).toNat = v.toNat % 2048 := BitVec.toNat_setWidth ..
  have hbits : (v.setWidth 11 : BitVec 11) = BitVec.ofNat 11 (v.toNat % 2048) := BitVec.eq_of_toNat_eq (by rw [hval, BitVec.toNat_ofNat]; omega)
  rw [Io.writeMark, evtCapacity, hval, hbits]

/-- A write of EVT_STATUS whose write-1-to-clear bits are 0 is a write of RUN. -/
theorem Io.writeEvtStatus_of_no_clear (io : Io) {v : Word} (h0 : v.getLsbD 0 = false) (h2 : v.getLsbD 2 = false) :
    io.writeEvtStatus v = io.writeRun (v.getLsbD 1) := by
  simp only [Io.writeEvtStatus, h0, h2]; rfl

theorem Io.clearMark_of_over {io : Io} (hc : io.markCond = false) : io.clearMark = { io with markHit := false } := by
  have hcond : ({ io with markHit := false } : Io).markCond = false := hc
  rw [Io.clearMark, if_neg (by simp [hcond])]

/-- Where its condition still holds the latch sets again at once and its interrupt is raised again (R58). -/
theorem Io.clearMark_of_standing {io : Io} (hm : io.markHit = true) (hc : io.markCond = true) : io.clearMark = io.raiseInt intEvtMark := by
  have hcond : ({ io with markHit := false } : Io).markCond = true := hc
  have hset : ({ io with markHit := true } : Io) = io := by rw [← hm]
  rw [Io.clearMark, if_pos (by rw [hm, hcond]; rfl), Io.latchMark, if_neg (by simp)]
  exact congrArg (Io.raiseInt · intEvtMark) hset

/-- Settles O15. -/
theorem eventRegisters : Obligations.EventRegisters := by
  unfold Obligations.EventRegisters
  intro s via v hd hp
  have hmark : exec (.evtMarkWrite via v) s = .next { s with io := s.io.writeMark v } := onBusIo_guarded hd hp _
  have hrun : exec (.evtRunWrite via v) s = .next { s with io := s.io.writeEvtStatus v } := onBusIo_guarded hd hp _
  have hhit : exec (.markHitClear via) s = .next { s with io := s.io.clearMark } := onBusIo_guarded hd hp _
  have hpop : exec (.evtPopWrite via v) s = .next { s with io := s.io.pop s.now v } := onBusIo_guarded hd hp _
  have hbit (k : Nat) := getLsbD_eq_bit v k
  refine ⟨?_, fun h hm => ?_, fun h => ?_, fun _ hc => ?_, fun hm hc => ?_, fun h => ?_, fun h => ?_⟩
  · rw [hmark, Io.writeMark_eq]
  · rw [hrun, Io.writeEvtStatus_of_no_clear _ (by rw [hbit]; simp; omega) (by rw [hbit]; simp; omega), Io.writeRun, if_pos]
    simp only [hm, hbit, Bool.not_false, Bool.and_true, decide_eq_true_eq]; omega
  · rw [hrun, Io.writeEvtStatus_of_no_clear _ (by rw [hbit]; simp; omega) (by rw [hbit]; simp; omega), Io.writeRun, if_neg]
    simp only [hbit, Bool.and_eq_true, decide_eq_true_eq]; omega
  · rw [hhit, Io.clearMark_of_over hc]
  · rw [hhit, Io.clearMark_of_standing hm hc]
  · rw [hpop, Io.pop, if_pos]
    rw [hbit]; simpa using h
  · rw [hpop, Io.pop, if_neg]
    rw [hbit]; simp [h]

/-! ### Accesses that fault (R62) -/

theorem Io.raiseInt_of_clear {io : Io} {n : Nat} (h : io.intStatus &&& bit16 n = 0) : (io.raiseInt n).intStatus = io.intStatus ||| bit16 n := by
  rw [Io.raiseInt, if_pos h]

/-- A source that has been raised stands. -/
theorem Io.raiseInt_stands (io : Io) {n : Nat} (hn : bit16 n ≠ 0) : (io.raiseInt n).intStatus &&& bit16 n ≠ 0 := by
  by_cases h : io.intStatus &&& bit16 n = 0
  · rw [Io.raiseInt_of_clear h]
    intro h0
    apply hn
    have hor : (io.intStatus ||| bit16 n) &&& bit16 n = bit16 n := by
      ext k hk; simp only [BitVec.getElem_and, BitVec.getElem_or]; grind
    rw [← hor, h0]
  · rw [Io.raiseInt, if_neg h]; exact h

theorem Io.raiseInt_accessFaultAddr (io : Io) (n : Nat) : (io.raiseInt n).accessFaultAddr = io.accessFaultAddr := (Io.raiseInt_host io n).accessFaultAddr

theorem Io.accessFault_stands (io : Io) (off : Nat) (wr : Bool) : (io.accessFault off wr).intStatus &&& bit16 intAccessFault ≠ 0 := by
  unfold Io.accessFault
  exact Io.raiseInt_stands _ (by decide)

theorem Io.accessFault_lastRead (io : Io) (off : Nat) (wr : Bool) : (io.accessFault off wr).lastRead = io.lastRead := by
  unfold Io.accessFault
  refine (Io.raiseInt_host _ _).lastRead.trans ?_
  split <;> rfl

/-- The first fault since ACCESS_FAULT was cleared sets the source and leaves its offset and direction. -/
theorem Io.accessFault_first {io : Io} (h : io.intStatus &&& bit16 intAccessFault = 0) (off : Nat) (wr : Bool) :
    (io.accessFault off wr).intStatus = io.intStatus ||| bit16 intAccessFault ∧
      (io.accessFault off wr).accessFaultAddr = BitVec.ofNat 32 (off % 2 ^ 20 + 2 ^ 31 * b2n wr) := by
  simp only [Io.accessFault, if_pos h]
  exact ⟨Io.raiseInt_of_clear h, Io.raiseInt_accessFaultAddr _ _⟩

/-- A faulting read answers 0xD0FF_D0FF, a faulting write reads nothing. -/
theorem Io.faulted_lastRead (io : Io) (off : Nat) (wr : Bool) :
    (wr = false → leNat (io.faulted off wr).lastRead = 0xD0FFD0FF) ∧ (wr = true → (io.faulted off wr).lastRead = io.lastRead) := by
  cases wr with
  | false => exact ⟨fun _ => by rw [Io.faulted]; exact leNat_leBytes 4 faultWord, nofun⟩
  | true => exact ⟨nofun, fun _ => Io.accessFault_lastRead io off true⟩

theorem Io.faulted_of_fields {P : Io → Prop} (io : Io) (off : Nat) (wr : Bool) (h : ∀ l, P { io.accessFault off wr with lastRead := l }) :
    P (io.faulted off wr) := by
  cases wr with
  | false => exact h _
  | true => exact h (io.accessFault off true).lastRead

theorem Io.faulted_stands (io : Io) (off : Nat) (wr : Bool) : (io.faulted off wr).intStatus &&& bit16 intAccessFault ≠ 0 :=
  Io.faulted_of_fields (P := fun x => x.intStatus &&& bit16 intAccessFault ≠ 0) io off wr fun _ => Io.accessFault_stands io off wr

/-- The same, with the offset as the register reads it. -/
theorem Io.faulted_first {io : Io} (h : io.intStatus &&& bit16 intAccessFault = 0) (off : BitVec 20) (wr : Bool) :
    (io.faulted off.toNat wr).intStatus = io.intStatus ||| bit16 intAccessFault ∧
      (io.faulted off.toNat wr).accessFaultAddr.toNat = off.toNat + 2 ^ 31 * b2n wr := by
  obtain ⟨hst, haddr⟩ := Io.accessFault_first h off.toNat wr
  refine Io.faulted_of_fields (P := fun x => x.intStatus = io.intStatus ||| bit16 intAccessFault ∧ x.accessFaultAddr.toNat = off.toNat + 2 ^ 31 * b2n wr)
    io off.toNat wr fun _ => ⟨hst, ?_⟩
  have hoff := off.isLt
  have hwr : b2n wr ≤ 1 := by cases wr <;> decide
  show (io.accessFault off.toNat wr).accessFaultAddr.toNat = _
  rw [haddr, BitVec.toNat_ofNat]
  omega

/-! ### Messages (R59) -/

/-- A due message goes out, or waits while its vector is masked. -/
theorem Io.sendMessage_of_due {io : Io} {src : Nat} (h : io.msgDue.contains src = true) :
    io.sendMessage src false =
      { io with msgDue := io.msgDue.erase src, lastMsg := some (io.vec src).toNat, msixPending := io.msixPending.erase (io.vec src).toNat } := by
  rw [Io.sendMessage, if_pos h]; rfl

theorem Io.sendMessage_of_masked {io : Io} {src : Nat} (h : io.msgDue.contains src = true) (hp : io.msixPending.contains (io.vec src).toNat = false) :
    io.sendMessage src true = { io with msgDue := io.msgDue.erase src, msixPending := io.msixPending ++ [(io.vec src).toNat] } := by
  simp only [Io.sendMessage, if_pos h, hp]; rfl

/-- One held back goes out once unmasked. -/
theorem Io.sendMessage_of_pending {io : Io} {src : Nat} (h : io.msgDue.contains src = false) (hp : io.msixPending.contains (io.vec src).toNat = true) :
    io.sendMessage src false = { io with lastMsg := some (io.vec src).toNat, msixPending := io.msixPending.erase (io.vec src).toNat } := by
  rw [Io.sendMessage, if_neg (by rw [h]; decide), if_pos (by rw [hp]; rfl)]

/-- An access through the debug window, by what it meets. -/
theorem exec_debugWindowFaultAccess {s : State} (hd : s.dev.deaf = false) (via : Via) (off : BitVec 20) (wr : Bool) :
    exec (.debugWindowFaultAccess via off wr) s = .next (
      if !wr && keySlotWord off.toNat then { s with io := { s.io with lastRead := leBytes 4 0 } }
      else if s.debugFaults off.toNat then { s with io := s.io.faulted off.toNat wr } else s) :=
  show execDebugWindowFaultAccess via off wr s = _ from onBus_of_answers hd _

/-- Settles O16. -/
theorem accessRows : Obligations.AccessRows := by
  unfold Obligations.AccessRows
  intro s via hd
  have hsend (src : Fin 12) (masked : Bool) : exec (.msixMessageSend src masked) s = .next { s with io := s.io.sendMessage src masked } :=
    show execMsixMessageSend src masked s = _ from onBusIo_of_answers hd _
  refine ⟨fun v hp => ?_, fun src hdue => ⟨?_, fun hp => ?_⟩, fun src hdue hp => ?_, fun off _ => ?_, fun off wr hf hk hclear => ?_,
    fun off stack wr hoff => ?_, fun off data hserv hstack hfit hwf => ?_⟩
  · exact onBusIo_guarded hd hp fun io => io.writeEnable v
  · rw [hsend, Io.sendMessage_of_due hdue]
  · rw [hsend, Io.sendMessage_of_masked hdue hp]
  · rw [hsend, Io.sendMessage_of_pending hdue hp]
  · refine ⟨_, exec_debugWindowFaultAccess hd via off false, ?_⟩
    cases hk : keySlotWord off.toNat with
    | true => exact ⟨rfl, rfl, fun _ => rfl⟩
    | false =>
      rw [if_neg (by simp)]
      split <;> exact ⟨rfl, rfl, nofun⟩
  · have hno : (!wr && keySlotWord off.toNat) = false := by rcases hk with rfl | hk <;> simp [*]
    refine ⟨_, (exec_debugWindowFaultAccess hd via off wr).trans (by rw [if_neg (by simp [hno]), if_pos hf]), ?_⟩
    obtain ⟨hst, haddr⟩ := Io.faulted_first hclear off wr
    obtain ⟨hread, hwrite⟩ := Io.faulted_lastRead s.io off.toNat wr
    exact ⟨haddr, hst, rfl, rfl, rfl, hread, hwrite⟩
  · refine ⟨s.bar2Fault wr, (show execBar2OffStackAccess off stack wr s = _ from onBus_of_answers hd _).trans (by rw [if_neg (by simp [hoff])]), ?_⟩
    obtain ⟨hread, hwrite⟩ := Io.faulted_lastRead s.io s.dev.draw.1 wr
    exact ⟨Io.faulted_stands _ _ _, rfl, rfl, hread, hwrite⟩
  · refine ⟨{ s with mem := s.mem.writeAll off.toNat data }, (show execBar2HostWrite off data s = _ from onBus_of_answers hd _).trans ?_, rfl, rfl, rfl,
      fun k hk => Mem.read_writeAll_in _ _ _ _ hwf hk, fun a ha => Mem.read_writeAll_other _ _ _ _ hwf ha⟩
    rw [if_pos (by simp [hserv, hstack]), List.take_of_length_le (by omega)]

/-! ### The register map (R39, R44) -/

/-- An aligned write below the snapshot block to a restricted register. -/
theorem State.busWrite_restricted (s : State) (via : Via) {off : Nat} (h4 : off % 4 = 0) (hr : restricted off = true) (v : Word) :
    s.busWrite via off v = { s with io := s.io.guarded via fun io => io.writeReg s.now off v } := by
  have hport : off ≠ 0x6014 := by rintro rfl; exact absurd hr (by decide)
  rw [State.busWrite, if_neg (by simp [h4]), if_neg hport, if_pos hr]

/-- An aligned write elsewhere on the interface block. -/
theorem State.busWrite_open (s : State) (via : Via) {off : Nat} (h4 : off % 4 = 0) (hlow : off < 0x20000) (hport : off ≠ 0x6014) (hr : restricted off = false)
    (v : Word) : s.busWrite via off v = { s with io := s.io.writeReg s.now off v } := by
  have hdebug : s.debugFaults off = false := by
    rw [State.debugFaults, debugRegion, if_neg (by omega), if_neg (by omega)]
  rw [State.busWrite, if_neg (by simp [h4]), if_neg hport, if_neg (by simp [hr]), if_neg (by omega), if_neg (by omega), if_neg (by simp [hdebug])]

theorem exec_registerWrite (s : State) (via : Via) (off : BitVec 20) (v : Word) :
    exec (.registerWrite via off v) s = onBus s fun s => s.busWrite via off.toNat v := rfl

/-- A register of the restricted regions has its own row. -/
theorem exec_registerWrite_restricted (s : State) (via : Via) {off : BitVec 20} (h4 : off.toNat % 4 = 0) (hr : restricted off.toNat = true) (v : Word) :
    exec (.registerWrite via off v) s = onBus s fun s => { s with io := s.io.guarded via fun io => io.writeReg s.now off.toNat v } := by
  rw [exec_registerWrite]
  simp only [State.busWrite_restricted _ via h4 hr]

/-- MARK_HIT is bit 0 of EVT_STATUS. -/
theorem Io.writeEvtStatus_one (io : Io) : io.writeEvtStatus 1 = io.clearMark := by
  simp [Io.writeEvtStatus, Io.writeRun]

/-- Settles O17: each register's offset chooses its own branch of `busWrite` and `Io.writeReg`. -/
theorem registerMap : Obligations.RegisterMap := by
  unfold Obligations.RegisterMap
  intro s via v
  have hrow {off : BitVec 20} (f : Io → Nat → Io) (w : Word) (h4 : off.toNat % 4 = 0) (hr : restricted off.toNat = true)
      (hf : ∀ io now, Io.writeReg io now off.toNat w = f io now) :
      exec (.registerWrite via off w) s = onBus s fun s => { s with io := s.io.guarded via fun io => f io s.now } := by
    rw [exec_registerWrite_restricted s via h4 hr]; simp only [hf]
  refine ⟨hrow (fun io _ => io.writeCmdTail v) v (by decide) (by decide) fun _ _ => rfl, hrow (fun io _ => io.writeCplHead v) v (by decide) (by decide) fun _ _ => rfl,
    rfl, hrow (fun io _ => io.writeMark v) v (by decide) (by decide) fun _ _ => rfl, hrow (fun io _ => io.writeEvtStatus v) v (by decide) (by decide) fun _ _ => rfl,
    hrow (fun io _ => io.clearMark) 1 (by decide) (by decide) fun io _ => io.writeEvtStatus_one, hrow (fun io now => io.pop now v) v (by decide) (by decide) fun _ _ => rfl,
    hrow (fun io _ => io.writeEnable v) v (by decide) (by decide) fun _ _ => rfl, rfl, rfl, rfl, fun hd hp => ⟨?_, ?_, ?_, ?_, fun n hn hwf => ?_⟩⟩
  · rw [exec_registerWrite, onBus_of_answers hd, State.busWrite_open s via (by decide) (by decide) (by decide) (by decide)]; rfl
  · rw [exec_registerWrite, onBus_of_answers hd, State.busWrite_restricted s via (by decide) (by decide), Io.guarded_of_let hp]; rfl
  · rw [exec_registerWrite, onBus_of_answers hd, State.busWrite_restricted s via (by decide) (by decide), Io.guarded_of_let hp]; rfl
  · rw [exec_registerWrite, onBus_of_answers hd, State.busWrite_open s via (by decide) (by decide) (by decide) (by decide)]; rfl
  · have hoff : (BitVec.ofNat 20 (0x1000 + 4 * n)).toNat = 0x1000 + 4 * n := by rw [BitVec.toNat_ofNat]; omega
    have hr : restricted (0x1000 + 4 * n) = true := by simp [restricted]; omega
    have hreg : s.io.writeReg s.now (0x1000 + 4 * n) v = { s.io with cmdRing := s.io.cmdRing.writeAll (0x1000 + 4 * n) (leBytes 4 v.toNat) } := by
      rw [Io.writeReg, if_pos (by omega)]
    have hlen : (leBytes 4 v.toNat).length = 4 := leBytes_length 4 _
    refine ⟨{ s with io := { s.io with cmdRing := s.io.cmdRing.writeAll (0x1000 + 4 * n) (leBytes 4 v.toNat) } }, ?_, ?_, fun a ha => ?_, rfl, rfl, rfl, rfl, rfl⟩
    · rw [exec_registerWrite, onBus_of_answers hd, hoff, State.busWrite_restricted s via (by omega) hr, Io.guarded_of_let hp, hreg]
    · have hall := Mem.readAll_writeAll s.io.cmdRing (0x1000 + 4 * n) (leBytes 4 v.toNat) hwf
      rw [hlen] at hall
      rw [hall, leNat_leBytes]; exact Nat.mod_eq_of_lt v.isLt
    · exact Mem.read_writeAll_other _ _ _ _ hwf (by rwa [hlen])

/-! ### MGP transactions (R63) -/

/-- Settles O18. -/
theorem mgpTransactions : Obligations.MgpTransactions := by
  unfold Obligations.MgpTransactions
  intro s n hd hn
  have hoff : (BitVec.ofNat 20 (4 * n)).toNat = 4 * n := by rw [BitVec.toNat_ofNat]; omega
  have hbase : (BitVec.ofNat 20 (4 * n)).toNat / 4 * 4 = 4 * n := by omega
  have hwrap : 4 * n % 2 ^ 20 = 4 * n := by omega
  refine ⟨fun data hlen => ?_, fun data hlen => ?_, fun hdebug => ?_⟩
  · refine ⟨s.busWrite .mgp (4 * n) (BitVec.ofNat 32 (leNat data)), ?_, ?_⟩
    · rw [exec_registerWrite, onBus_of_answers hd, hoff]
    · refine (show execMgpWriteTransaction (BitVec.ofNat 20 (4 * n)) data s = _ from onMgp_of_answers hd _).trans ?_
      simp only [hbase, hlen, Nat.div_self (show 0 < 4 by decide), State.busWriteWords, hwrap, List.take_of_length_le (Nat.le_of_eq hlen)]
  · refine (show execMgpWriteTransaction (BitVec.ofNat 20 (4 * n)) data s = _ from onMgp_of_answers hd _).trans ?_
    simp only [hbase, Nat.div_eq_of_lt hlen, State.busWriteWords, Nat.mul_zero, Nat.add_zero]
  · refine (show execMgpReadTransaction (BitVec.ofNat 20 (4 * n)) 4 s = _ from onMgp_of_answers hd _).trans ?_
    have hread : s.busRead (4 * n) = (s.regRead (4 * n), s) := by rw [State.busRead, hdebug]
    have htake : (leBytes 4 (s.regRead (4 * n)) ++ []).take 4 = leBytes 4 (s.regRead (4 * n)) := by
      rw [List.append_nil, List.take_of_length_le (Nat.le_of_eq (leBytes_length 4 _))]
    have hone : ceilDiv 4 4 = 1 := rfl
    simp only [hbase, hone, State.busReadWords, hwrap, hread, htake, Nat.div_self (show 0 < 4 by decide)]

end Sys2Proof.Machine
end

section
/-! Resets, losses of supply and wakes (chapter 3). -/

namespace Sys2Proof.Machine

/-! ### Answers of rows -/

/-- An event's row, once what it makes of the device is known. -/
theorem exec_of_onDev {i : Instr} {s : State} {f : Env → Dev → Dev} {d : Dev} (hx : exec i s = .next (onDev s f)) (hd : f s.env s.dev = d) :
    exec i s = .next (s.commit d) := by
  rw [hx, onDev, hd]

/-- A command that runs and ends with E_OK. -/
theorem Runs.completes {i : Instr} {f : CmdForm} {e : CmdEntry} {s s1 : State} {body : Env → Dev → CmdRes} {r : List Byte} {d : Dev} (h : Runs f e s s1)
    (hx : exec i s = .next (runCmd f e body s)) (hb : body s.env s.dev = .done r d) : exec i s = .next (s1.completes f e r d) := by
  rw [hx, runCmd_runs f e body s s1 h, hb]; rfl

/-- A command that runs and starts an action. -/
theorem Runs.starts {i : Instr} {f : CmdForm} {e : CmdEntry} {s s1 : State} {body : Env → Dev → CmdRes} {bound : Nat} {d : Dev} (h : Runs f e s s1)
    (hx : exec i s = .next (runCmd f e body s)) (hb : body s.env s.dev = .start bound d) : exec i s = .next (s1.starts f e bound d) := by
  rw [hx, runCmd_runs f e body s s1 h, hb]; rfl

/-- A command that runs and ends with another status, its stated effects carried out. -/
theorem Runs.fails {i : Instr} {f : CmdForm} {e : CmdEntry} {s s1 : State} {body : Env → Dev → CmdRes} {st : Status} {detail : Nat} {d : Dev}
    (h : Runs f e s s1) (hx : exec i s = .next (runCmd f e body s)) (hb : body s.env s.dev = .fail st detail d) :
    exec i s = .next (s1.fails f e st detail d) := by
  rw [hx, runCmd_runs f e body s s1 h, hb]; rfl

/-- A command that runs and is refused by its own rule. -/
theorem Runs.refuses {i : Instr} {f : CmdForm} {e : CmdEntry} {s s1 : State} {body : Env → Dev → CmdRes} {st : Status} {detail : Nat} (h : Runs f e s s1)
    (hx : exec i s = .next (runCmd f e body s)) (hb : body s.env s.dev = .refuse st detail) : exec i s = .next (s1.refuses f e st detail) := by
  rw [hx, runCmd_runs f e body s s1 h, hb]; rfl

/-! ### Resets -/

/-- Front ends fitted while VIN was absent change carriers and the count of draws alone. -/
theorem Dev.refit_eq (d : Dev) : ∃ n car, d.refit = { d with drawn := n, car := car } := by
  have hfold : ∀ (l : List Nat) (d : Dev), ∃ n car, l.foldl (fun d n =>
      if (d.tx n).present then d else let (v, d1) := d.draw; d1.updTx n fun t => { t with present := decide (v % 2 = 1) }) d = { d with drawn := n, car := car } := by
    intro l
    induction l with
    | nil => exact fun d => ⟨d.drawn, d.car, rfl⟩
    | cons c l ih =>
      intro d
      rw [List.foldl_cons]
      split
      · exact ih d
      · obtain ⟨n, car, h⟩ := ih ((Dev.draw d).2.updTx c fun t => { t with present := decide ((Dev.draw d).1 % 2 = 1) })
        exact ⟨n, car, h⟩
  exact hfold carriers d

/-- Which rails are up, by the power state. -/
theorem Dev.rails_iff (d : Dev) : d.rails = true ↔ d.pw.state = .calm ∨ d.pw.state = .service := decide_eq_true_iff

/-- An MGP START wakes the device exactly in step 4 of Doldrums, with its address and its wake source. -/
theorem State.mgpWakes_iff (s : State) (addr : Nat) : s.mgpWakes addr = true ↔
    (s.dev.pw.state = .doldrums ∧ s.dev.pw.armedAt ≤ s.now ∧ addr = 0x58 + s.dev.pw.addrStrap.toNat) ∧ bitAt s.dev.pw.wakeSources 0 = true := by
  rw [State.mgpWakes, Bool.and_eq_true, decide_eq_true_iff]

/-- WAKE_PIN, by its three cases. -/
theorem exec_wakePin (s : State) : exec .wakePin s = .next (
    if s.dev.pw.state = .doldrums ∧ bitAt s.dev.pw.wakeSources 1 = true then
      if s.dev.pw.armedAt ≤ s.now then s.wake 2 else { s with dev := s.dev.updPw fun p => { p with wakeNoted := true } }
    else s) := rfl

/-- SYSRST_ASSERT, by its three cases. -/
theorem exec_sysrstAssert (s : State) : exec .sysrstAssert s = .next (
    if s.dev.pw.state ≠ .off then { s.afterReset 0x02 false with dev := (s.dev.afterReset 0x02).updPw fun p => { p with inReset := true } }
    else if s.dev.pw.hotShut = true then
      { s.afterReset 0x02 false with dev := (s.dev.afterReset 0x02).updPw fun p => { p with state := .off, hotShut := true, inReset := true } }
    else { s with dev := s.dev.updPw fun p => { p with inReset := true } }) := rfl

/-- Settles O19: each row's condition, then the fields that `State.afterReset` gives. -/
theorem resetRows : Obligations.ResetRows := by
  unfold Obligations.ResetRows
  intro s vin p
  have hon : exec (.powerOnReset vin) s = .next (powerOn vin s) := rfl
  have hover : exec (.overvoltageShutdown vin) s = .next (if s.dev.pw.state = .off ∧ s.dev.pw.hotShut = false then s
      else s.railsGone false fun p => { p with vin := vin, vinLow := false, ovShut := true }) := rfl
  have hrestart : exec (.overvoltageRestart vin) s = .next (if s.dev.pw.ovShut then
      { s.afterReset 0x10 true with dev := (s.dev.afterReset 0x10).setVin vin } else s) := rfl
  have hdelay : exec .sysResetDelayExpiry s = .next (if s.dev.pw.resetDue then s.afterReset 0x08 false else s) := rfl
  have hhot : exec .hwThermalShutdown s = .next (if s.dev.rails then s.railsGone true fun p => { p with hotShut := true } else s) := rfl
  have hcool : exec .thermalRestart s = .next (if s.dev.pw.hotShut then s.afterReset 0x20 false else s) := rfl
  refine ⟨fun h => ?_, fun h => ?_, ?_, fun h => ?_, fun h => ?_, fun h => ?_, fun h => ?_, fun h => ?_, fun h => ?_, fun h => ?_, rfl, fun h => ?_, fun h => ?_,
    fun h => ?_, fun h => ?_, fun h => ?_, fun h => ?_, fun h => ?_, fun h => ?_, fun h => ?_, fun addr => ⟨fun h => ?_, fun h => ?_⟩, rfl⟩
  · obtain ⟨n, car, hfit⟩ := Dev.refit_eq ((s.dev.afterReset 0x01).updPw fun p => { p with vin := vin, vinLow := true })
    refine ⟨{ s.afterReset 0x01 true with dev := ((s.dev.afterReset 0x01).updPw fun p => { p with vin := vin, vinLow := true }).refit },
      by rw [hon, powerOn, if_pos h]; rfl, ?_⟩
    rw [hfit]
    exact ⟨{ s.afterReset_resetTo 0x01 true with }, rfl, rfl, rfl, rfl, rfl⟩
  · rw [hon, powerOn, if_neg]
    rintro ⟨h1, h2, h3⟩
    simp [p, h1, h2, h3] at h
  · exact ⟨_, rfl, { s.afterReset_resetTo 0 true with }, rfl, rfl, rfl, rfl, rfl, rfl⟩
  · have hno : ¬(s.dev.pw.state = .off ∧ s.dev.pw.hotShut = false) := by
      rintro ⟨h1, h2⟩
      simp [p, h1, h2] at h
    exact ⟨_, hover.trans (congrArg _ (if_neg hno)), { s.afterReset_resetTo 0 true with }, rfl, rfl, rfl, rfl⟩
  · rw [hover, if_pos h]
  · exact ⟨_, hrestart.trans (congrArg _ (if_pos h)), { s.afterReset_resetTo 0x10 true with }, rfl, rfl, rfl, rfl⟩
  · rw [hrestart, if_neg (by simpa [p] using h)]
  · exact ⟨_, (exec_sysrstAssert s).trans (congrArg _ (if_pos h)), { s.afterReset_resetTo 0x02 false with }, rfl, rfl, rfl⟩
  · exact ⟨_, (exec_sysrstAssert s).trans (congrArg _ ((if_neg (not_not.mpr h.1)).trans (if_pos h.2))), { s.afterReset_resetTo 0x02 false with }, rfl, rfl, rfl, rfl⟩
  · rw [exec_sysrstAssert, if_neg (by simpa using h.1), if_neg (by simpa using h.2)]; rfl
  · exact ⟨_, hdelay.trans (congrArg _ (if_pos h)), s.afterReset_resetTo 0x08 false, rfl, rfl, rfl⟩
  · rw [hdelay, if_neg (by simpa using h)]
  · exact ⟨_, hhot.trans (congrArg _ (if_pos (s.dev.rails_iff.mpr h))), { s.afterReset_resetTo 0 false with }, rfl, rfl, rfl⟩
  · rw [hhot, if_neg]
    rw [Dev.rails_iff]
    rcases h with h | h <;> simp [p] at h <;> simp [h]
  · exact ⟨_, hcool.trans (congrArg _ (if_pos h)), s.afterReset_resetTo 0x20 false, rfl, rfl, rfl⟩
  · rw [hcool, if_neg (by simpa using h)]
  · obtain ⟨hd, hb, ha⟩ := h
    exact ⟨_, (exec_wakePin s).trans (congrArg _ ((if_pos ⟨hd, hb⟩).trans (if_pos ha))), s.wake_resetTo 2, rfl, rfl, rfl⟩
  · obtain ⟨hd, hb, ha⟩ := h
    rw [exec_wakePin, if_pos ⟨hd, hb⟩, if_neg (Nat.not_le.mpr ha)]; rfl
  · rw [exec_wakePin, if_neg]
    rintro ⟨hd, hb⟩
    simp [p, hd, hb] at h
  · obtain ⟨hd, hb, ha, hm⟩ := h
    have haddr : (BitVec.ofNat 15 (1 + 256 * addr.toNat)).toNat = 1 + 256 * addr.toNat := by
      have := addr.isLt
      rw [BitVec.toNat_ofNat]; omega
    refine ⟨s.wake (1 + 256 * addr.toNat), ?_, s.wake_resetTo _, rfl, haddr, rfl⟩
    show Host.Outcome.next (s.mgpStart addr.toNat) = _
    rw [State.mgpStart, if_pos ((s.mgpWakes_iff _).mpr ⟨⟨hd, ha, hm⟩, hb⟩)]
  · show Host.Outcome.next (s.mgpStart addr.toNat) = _
    rw [State.mgpStart, if_neg]
    rw [State.mgpWakes_iff]
    rintro ⟨⟨hd, ha, hm⟩, hb⟩
    rcases h with h | h | h | h
    · exact h hd
    · exact absurd (hb.symm.trans h) (by decide)
    · exact absurd ha (Nat.not_le.mpr h)
    · exact h hm

end Sys2Proof.Machine
end

section
/-! Supply events, the thermal governor and restarts of Frelvo (chapter 3). -/

namespace Sys2Proof.Machine

/-! ### Drops to Calm -/

theorem Dev.pwrWarn_updPw_vinLow (d : Dev) (vin : Nat) : ((d.setVin vin).updPw fun p => { p with vinLow := true }).pwrWarn = true := rfl

theorem Dev.pwrWarn_updPw_ilimit (d : Dev) (vin : Nat) : ((d.setVin vin).updPw fun p => { p with ilimit := true }).pwrWarn = true := by
  simp [Dev.pwrWarn, Dev.updPw]

/-- PWR_WARN is raised where a cause first asserts PWRWARN#. -/
theorem warnRaise_of_warned {d : Dev} {env : Env} {vin : Nat} {f : Power → Power} (h : ((d.setVin vin).updPw f).pwrWarn = true) :
    warnRaise env vin f d = ((d.setVin vin).updPw f).raiseIf (!d.pwrWarn && env.frelvo && d.rails) .pwrWarn 0 [(4, vin)] := by
  simp only [warnRaise, h, Bool.and_true]

/-- A drop from Service leaves Calm at once; the transition then lasts a free time up to its bound. -/
theorem Dev.dropWithin_of_service {d : Dev} (h : d.inService = true) (env : Env) (most : Nat) :
    d.dropWithin env most = (d.toCalm env .domainOff).inTransition env most d.notOff := by
  rw [Dev.dropWithin, if_pos h, Dev.drop, if_pos h]

theorem Dev.inTransition_eq (d : Dev) (env : Env) (most : Nat) (l : List Nat) : d.inTransition env most l =
    { d with drawn := d.drawn + 1, pw := { d.pw with transEnd := env.now + Config.freeValue d.drawn % (most + 1), changing := l } } := rfl

/-- The time that a drop takes is free up to its bound. -/
theorem Dev.dropWithin_bounded {d : Dev} (h : d.inService = true) (env : Env) (most : Nat) : ∃ n, n ≤ most ∧ ∃ d1 : Dev,
    d1 = d.toCalm env .domainOff ∧ d.dropWithin env most =
    { d1 with drawn := d1.drawn + 1, pw := { d1.pw with transEnd := env.now + n, changing := d.notOff } } :=
  ⟨_, Nat.le_of_lt_succ (Nat.mod_lt _ (Nat.succ_pos _)), _, rfl, (Dev.dropWithin_of_service h env most).trans (Dev.inTransition_eq _ _ _ _)⟩

theorem Dev.dropWithin_of_calm {d : Dev} (h : d.inService = false) (env : Env) (most : Nat) : d.dropWithin env most = d := by
  rw [Dev.dropWithin, if_neg (by simp [h])]

theorem Dev.inService_of_calm {d : Dev} (h : d.pw.state = .calm) : d.inService = false := by simp [Dev.inService, h]

theorem Dev.rails_of_service {d : Dev} (h : d.inService = true) : d.rails = true := d.rails_iff.mpr (.inr (of_decide_eq_true h))

theorem Dev.rails_of_calm {d : Dev} (h : d.pw.state = .calm) : d.rails = true := d.rails_iff.mpr (.inl h)

/-- Boost time decides alone once its window holds less than 20 s. -/
theorem Dev.boostSpend_of_free {d : Dev} {env : Env} (h : d.pw.boostUsed env.now < 20000) :
    d.boostSpend env = { d with pw := { d.pw with boostSpent := false } } := by
  have hno : decide (boostLimit ≤ d.pw.boostUsed env.now) = false := decide_eq_false (Nat.not_le.mpr h)
  simp [Dev.boostSpend, hno, Dev.raiseIf]

theorem Dev.boostSpend_of_spent {d : Dev} {env : Env} (hb : d.pw.boost = true) (hs : d.pw.boostSpent = false) (h : 20000 ≤ d.pw.boostUsed env.now) :
    d.boostSpend env = Dev.raise { d with pw := { d.pw with boostSpent := true } } .boostSpent 0 [] := by
  have hyes : decide (boostLimit ≤ d.pw.boostUsed env.now) = true := decide_eq_true h
  simp [Dev.boostSpend, hyes, hb, hs, Dev.raiseIf]

/-- The limit drops nothing in Calm. -/
theorem limitDrop_of_calm {d : Dev} (env : Env) (vin : Nat) (hl : d.pw.ilimit = true) (hc : d.pw.state = .calm) :
    limitDrop env vin d = Dev.raise { d with pw := { d.pw with vin := vin } } .pwrIlimit 0 [(4, vin)] := by
  rw [limitDrop, if_pos (by rw [hl, Dev.rails_of_calm hc]; rfl), Dev.dropWithin_of_calm (Dev.inService_of_calm (d := d.setVin vin) hc)]
  rfl

/-- Within a second of the last SQUALL a droop is counted alone (R88). -/
theorem squallDroop_of_recent {d : Dev} {env : Env} {veng vmc : Bool} (hs : d.inService = true) (h : (veng || vmc) = true) (hsome : d.pw.squallAt ≠ none)
    (hrecent : ∀ x, d.pw.squallAt = some x → env.now < x + sec) :
    squallDroop env veng vmc d = (Dev.count { d with pw := { d.pw with squall := true } } (ckey 2 0) (b2n veng)).count (ckey 2 1) (b2n vmc) := by
  obtain ⟨x, hx⟩ := Option.ne_none_iff_exists'.mp hsome
  rw [squallDroop, if_pos (by rw [hs, h]; rfl)]
  refine if_neg ?_
  simp only [hx, decide_eq_false (Nat.not_le.mpr (hrecent x hx))]
  exact Bool.false_ne_true

/-- An oscillator measured more than 200 ppm away (R408). -/
theorem xoFail_of_drift {d : Dev} {env : Env} (ppm : Int) (hr : d.rails = true) (hf : env.frelvo = true) (h : 200 < ppm.natAbs) :
    xoFail env false ppm d = (Dev.raise { d with drawn := d.drawn + 1 } .timXoFail 0 [(4, ppm)]).dropWithin env (10 * ms) := by
  rw [xoFail, if_pos (by rw [hr, hf, decide_eq_true h]; rfl)]; rfl

/-- Settles O20. -/
theorem supplyEvents : Obligations.SupplyEvents := by
  unfold Obligations.SupplyEvents
  intro s vin d p
  refine ⟨exec_of_onDev rfl (warnRaise_of_warned (d.pwrWarn_updPw_vinLow vin)), rfl, fun hr => exec_of_onDev rfl ?_, rfl, fun hr => exec_of_onDev rfl ?_,
    fun hl hs => ?_, fun hl hc => exec_of_onDev rfl (limitDrop_of_calm s.env vin hl hc), fun veng vmc hs hdroop hrecent hsome => exec_of_onDev rfl ?_, rfl, rfl,
    fun hb hs hu => exec_of_onDev rfl (Dev.boostSpend_of_spent hb hs hu), fun hu => exec_of_onDev rfl (Dev.boostSpend_of_free hu),
    fun hu => exec_of_onDev rfl (Dev.boostSpend_of_free hu), fun ppm hs hf hppm => ?_, fun ppm hc hf => exec_of_onDev rfl ?_⟩
  · rw [if_pos hr, warnRaise_of_warned (Dev.pwrWarn_updPw_ilimit _ vin), hr, Bool.and_true]; rfl
  · rw [if_neg (by simp [d] at hr; simp [hr])]; rfl
  · obtain ⟨n, hn, d1, hd1, h⟩ := Dev.dropWithin_bounded (d := d.setVin vin) hs s.env (150 * ms)
    refine ⟨n, hn, d1, hd1, exec_of_onDev rfl ?_⟩
    rw [limitDrop, if_pos (by rw [hl, Dev.rails_of_service hs]; rfl), h]
    rfl
  · exact squallDroop_of_recent hs hdroop hsome hrecent
  · have hdrop := xoFail_of_drift ppm (Dev.rails_of_service hs) hf hppm
    obtain ⟨n, hn, d1, hd1, h⟩ := Dev.dropWithin_bounded (d := Dev.raise { d with drawn := d.drawn + 1 } .timXoFail 0 [(4, ppm)]) hs s.env (10 * ms)
    exact ⟨n, hn, d1, hd1, exec_of_onDev rfl (hdrop.trans h)⟩
  · rw [xoFail, if_pos (by rw [hf, Dev.rails_of_calm hc]; rfl)]
    exact Dev.dropWithin_of_calm (d := Dev.raise { d with drawn := d.drawn + 1 } .timXoFail 0 [(4, (Config.freeValue d.drawn : Int))])
      (Dev.inService_of_calm hc) s.env (10 * ms)

/-! ### The thermal governor (R89) -/

/-- The device as throttling starts, the hottest die named. -/
def Dev.throttled (d : Dev) : Dev :=
  (d.updPw fun p => { p with throttle := true }).raise .thermThrottle 0 [(2, wholeDegrees d.pw.tjMax), (1, d.pw.tjDie)]

/-- With rails up and Frelvo running a sample judges throttling, and trips from 115 °C. -/
theorem thermalSample_eq {d : Dev} {env : Env} (hr : d.rails = true) (hf : env.frelvo = true) (core cv0 cv1 io : Int) (vin : Nat) :
    thermalSample env core cv0 cv1 io vin d =
      let d1 := d.updPw fun p => { p with tjCore := core, tjCv0 := cv0, tjCv1 := cv1, tjIo := io, vin := vin }
      let d2 : Dev :=
        if !d.pw.throttle && decide (env.par.val pThermThrottle * 10 ≤ d1.pw.tjMax) then
          d1.throttled
        else if d.pw.throttle && decide (d1.pw.tjMax < env.par.val pThermThrottle * 10 - 50) then
          d1.updPw fun p => { p with throttle := false, throttleHeld := false }
        else d1
      if 1150 ≤ d1.pw.tjMax then d2.thermalTrip env else d2 := by
  simp only [thermalSample, hr, hf]; rfl

/-- A trip notes itself; outside Service nothing else of the supply changes. -/
theorem Dev.thermalTrip_of_calm {d : Dev} (env : Env) (ht : d.pw.tripped = false) (hs : d.inService = false) :
    d.thermalTrip env = (d.raise .thermTrip 0 [(2, wholeDegrees d.pw.tjMax), (1, d.pw.tjDie)]).updPw fun p => { p with tripped := true } := by
  rw [Dev.thermalTrip, if_neg (by simp [ht])]
  exact congrArg (Dev.updPw · _) (Dev.dropWithin_of_calm (d := d.raise .thermTrip 0 [(2, wholeDegrees d.pw.tjMax), (1, d.pw.tjDie)]) hs _ _)

theorem Dev.thermalTrip_of_service {d : Dev} (env : Env) (ht : d.pw.tripped = false) (hs : d.inService = true) :
    d.thermalTrip env = (((d.raise .thermTrip 0 [(2, wholeDegrees d.pw.tjMax), (1, d.pw.tjDie)]).toCalm env .domainOff).inTransition env (10 * ms) d.notOff).updPw
      fun p => { p with tripped := true } := by
  rw [Dev.thermalTrip, if_neg (by simp [ht])]
  exact congrArg (Dev.updPw · _) (Dev.dropWithin_of_service (d := d.raise .thermTrip 0 [(2, wholeDegrees d.pw.tjMax), (1, d.pw.tjDie)]) hs _ _)

/-- Settles O21. -/
theorem thermalGovernor : Obligations.ThermalGovernor := by
  unfold Obligations.ThermalGovernor
  intro s core cv0 cv1 io vin hr hf d1 tj limit
  have hrow {d2 : Dev} (h : thermalSample s.env core cv0 cv1 io vin s.dev = d2) : exec (.thermalSample core cv0 cv1 io vin) s = .next (s.commit d2) :=
    exec_of_onDev rfl h
  have hsample : thermalSample s.env core cv0 cv1 io vin s.dev =
      let d2 : Dev := if !s.dev.pw.throttle && decide (limit ≤ tj) then d1.throttled
        else if s.dev.pw.throttle && decide (tj < limit - 50) then d1.updPw fun p => { p with throttle := false, throttleHeld := false } else d1
      if 1150 ≤ tj then d2.thermalTrip s.env else d2 := thermalSample_eq hr hf core cv0 cv1 io vin
  have hcool (h : limit - 50 ≤ tj) : ¬(s.dev.pw.throttle && decide (tj < limit - 50)) = true := by rw [decide_eq_false (not_lt.mpr h)]; simp
  have hbelow (h : tj < limit) : ¬(!s.dev.pw.throttle && decide (limit ≤ tj)) = true := by rw [decide_eq_false (not_le.mpr h)]; simp
  have hkeep (h : s.dev.pw.throttle = true) : ¬(!s.dev.pw.throttle && decide (limit ≤ tj)) = true := by rw [h]; exact Bool.false_ne_true
  refine ⟨fun h1 h2 h3 => hrow ?_, fun h1 h2 h3 => ⟨d1.throttled, rfl, hrow ?_⟩, fun h1 h2 h3 => hrow ?_, fun h1 h2 h3 h4 h5 => ?_, fun h1 h2 h3 h4 h5 => ?_⟩
  · exact hsample.trans ((if_neg (not_le.mpr h3)).trans ((if_neg (hbelow h1)).trans (if_neg (hcool h2))))
  · have hstart : (!s.dev.pw.throttle && decide (limit ≤ tj)) = true := by rw [h1, decide_eq_true h2]; rfl
    exact hsample.trans ((if_neg (not_le.mpr h3)).trans (if_pos hstart))
  · have hend : (s.dev.pw.throttle && decide (tj < limit - 50)) = true := by rw [h1, decide_eq_true h2]; rfl
    exact hsample.trans ((if_neg (not_le.mpr h3)).trans ((if_neg (hkeep h1)).trans (if_pos hend)))
  · have htrip : thermalSample s.env core cv0 cv1 io vin s.dev = d1.thermalTrip s.env :=
      (hsample.trans (if_pos h1)).trans (congrArg (Dev.thermalTrip · s.env) ((if_neg (hkeep h2)).trans (if_neg (hcool h3))))
    have hrow' := hrow (htrip.trans (Dev.thermalTrip_of_calm (d := d1) s.env h4 h5))
    refine ⟨_, ?_, ?_, ?_, ?_, hrow'⟩ <;> rfl
  · have htrip : thermalSample s.env core cv0 cv1 io vin s.dev = d1.thermalTrip s.env :=
      (hsample.trans (if_pos h1)).trans (congrArg (Dev.thermalTrip · s.env) ((if_neg (hkeep h2)).trans (if_neg (hcool h3))))
    have hrow' := hrow (htrip.trans (Dev.thermalTrip_of_service (d := d1) s.env h4 h5))
    refine ⟨_, ?_, ?_, ?_, ?_, ?_, hrow'⟩
    case refine_4 => exact Nat.add_le_add_left (Nat.le_of_lt_succ (Nat.mod_lt _ (Nat.succ_pos _))) _
    all_goals rfl

/-! ### Restarts of Frelvo (R86) -/

theorem exec_watchdogExpiry {s : State} (hr : s.dev.rails = true) (hi : s.dev.pw.inReset = false) : exec .watchdogExpiry s = .next (frelvoDies 0 s) := by
  show Host.Outcome.next (if s.dev.rails && !s.dev.pw.inReset then frelvoDies 0 s else s) = _
  rw [if_pos (by rw [hr, hi]; rfl)]

/-- In READY, no activation under way: a second restart within 60 s is the last (R86). -/
theorem frelvoDies_of_ready {s : State} (c : Nat) (hm : s.io.mbxState = .ready) (ha : s.dev.boot.activating = none) :
    frelvoDies c s = if s.dev.diedBefore s.now then (onDev s fun _ d => d.emit (.mbx .fault)).completeAll (fun _ => true) .state 0
      else onDev { s with io := s.io.cutAll } fun env d =>
        (((d.cutAll env s.io.inflight).frelvoRestarts env).updBoot fun b => { b with restartCause := c, expiryAt := some env.now }).emit (.mbx .activating) := by
  simp only [frelvoDies, hm, ha]; rfl

theorem Dev.diedBefore_iff (d : Dev) (now : Nat) : d.diedBefore now = true ↔ ∃ x, d.boot.expiryAt = some x ∧ now < x + 60 * sec := by
  unfold Dev.diedBefore
  cases d.boot.expiryAt <;> simp

theorem Dev.log_logSeq (d : Dev) (env : Env) (x : LogEntry) : (d.log env x).msys.logSeq = (d.msys.logSeq + 1) % 2 ^ 32 := by
  unfold Dev.log; split <;> rfl

/-- An uncorrectable word of Frelvo's memory takes one entry of the log, and restarts Frelvo with cause 1. -/
theorem frelvoMemory_of_rails {s : State} (hr : s.dev.rails = true) (hi : s.dev.pw.inReset = false) :
    ∃ d : Dev, frelvoMemory s = frelvoDies 1 (s.commit d) ∧ d.msys.logSeq = (s.dev.msys.logSeq + 1) % 2 ^ 32 := by
  rw [frelvoMemory, if_pos (by rw [hr, hi]; rfl)]
  exact ⟨_, rfl, Dev.log_logSeq _ _ _⟩

/-- Settles O22. -/
theorem frelvoRestarts : Obligations.FrelvoRestarts := by
  unfold Obligations.FrelvoRestarts
  intro s hr hi
  rw [exec_watchdogExpiry hr hi]
  refine ⟨fun hm => ?_, fun hm => ?_, fun hm ha hx => ?_, fun hm ha hx => ?_, ?_, fun hm ha => ?_⟩
  · simp only [frelvoDies, hm]
  · simp only [frelvoDies, hm]; rfl
  · have hno : ¬s.dev.diedBefore s.now = true := fun h => by
      obtain ⟨x, hs, hlt⟩ := (s.dev.diedBefore_iff s.now).mp h
      exact absurd (hx x hs) (Nat.not_le.mpr hlt)
    rw [frelvoDies_of_ready 0 hm ha, if_neg hno]
    exact ⟨_, rfl, rfl, rfl, rfl⟩
  · rw [frelvoDies_of_ready 0 hm ha, if_pos ((s.dev.diedBefore_iff s.now).mpr hx)]; rfl
  · obtain ⟨d, hd, hseq⟩ := frelvoMemory_of_rails hr hi
    exact ⟨d, s.commit d, rfl, hseq, congrArg _ hd⟩
  · show Host.Outcome.next (restartReady s) = _
    rw [restartReady, if_pos ⟨hm, ha⟩]; rfl

end Sys2Proof.Machine
end

section
/-! The commands of the system and power families (chapters 3 and 21). -/

namespace Sys2Proof.Machine

/-! ### Fields of a RESULT -/

/-- The bits that the fields of a list take. -/
def fieldsWidth (fs : List (Nat × Nat)) : Nat := sumBy (·.1) fs

theorem fieldsWidth_append (fs gs : List (Nat × Nat)) : fieldsWidth (fs ++ gs) = fieldsWidth fs + fieldsWidth gs := by
  induction fs with
  | nil => exact (Nat.zero_add _).symm
  | cons f fs ih => exact (congrArg (f.1 + ·) ih).trans (Nat.add_assoc _ _ _).symm

theorem fieldsWidth_map_const {α : Type} (w : Nat) (g : α → Nat) (l : List α) : fieldsWidth (l.map fun a => (w, g a)) = w * l.length := by
  induction l with
  | nil => rfl
  | cons a l ih => rw [List.length_cons, Nat.mul_succ, Nat.add_comm]; exact congrArg (w + ·) ih

theorem packBits_lt (fs : List (Nat × Nat)) : packBits fs < 2 ^ fieldsWidth fs := by
  induction fs with
  | nil => exact Nat.one_pos
  | cons f fs ih =>
    obtain ⟨w, v⟩ := f
    show v % 2 ^ w + 2 ^ w * packBits fs < 2 ^ (w + fieldsWidth fs)
    have hv : v % 2 ^ w < 2 ^ w := Nat.mod_lt _ (Nat.two_pow_pos w)
    calc v % 2 ^ w + 2 ^ w * packBits fs < 2 ^ w * (packBits fs + 1) := by rw [Nat.mul_succ]; omega
      _ ≤ 2 ^ w * 2 ^ fieldsWidth fs := Nat.mul_le_mul_left _ ih
      _ = 2 ^ (w + fieldsWidth fs) := (Nat.pow_add ..).symm

theorem packBits_append (fs gs : List (Nat × Nat)) : packBits (fs ++ gs) = packBits fs + 2 ^ fieldsWidth fs * packBits gs := by
  induction fs with
  | nil => exact ((Nat.zero_add _).trans (Nat.one_mul _)).symm
  | cons f fs ih =>
    obtain ⟨w, v⟩ := f
    show v % 2 ^ w + 2 ^ w * packBits (fs ++ gs) = v % 2 ^ w + 2 ^ w * packBits fs + 2 ^ (w + fieldsWidth fs) * packBits gs
    rw [ih, Nat.pow_add, Nat.mul_add, Nat.mul_assoc, Nat.add_assoc]

/-- The field that follows the fields of `fs`. -/
theorem bitsAt_packBits (fs gs : List (Nat × Nat)) (w v : Nat) : bitsAt (packBits (fs ++ (w, v) :: gs)) (fieldsWidth fs) w = v % 2 ^ w := by
  rw [packBits_append, bitsAt, Nat.add_mul_div_left _ _ (Nat.two_pow_pos _), Nat.div_eq_of_lt (packBits_lt fs), Nat.zero_add]
  show (v % 2 ^ w + 2 ^ w * packBits gs) % 2 ^ w = v % 2 ^ w
  rw [Nat.add_mul_mod_self_left, Nat.mod_mod]

theorem bitsAt_mod (n N lo w : Nat) (h : lo + w ≤ N) : bitsAt (n % 2 ^ N) lo w = bitsAt n lo w := by
  rw [bitsAt, bitsAt, ← Nat.sub_add_cancel (Nat.le_of_add_right_le h), Nat.add_comm (N - lo), Nat.pow_add, Nat.mod_mul_right_div_self,
    Nat.mod_mod_of_dvd _ (Nat.pow_dvd_pow 2 (Nat.le_sub_of_add_le' h))]

/-- A field of a RESULT stands at its place in the list. -/
theorem bitsAt_resultBits {l fs gs : List (Nat × Nat)} {lo w v : Nat} (hl : l = fs ++ (w, v) :: gs) (hlo : fieldsWidth fs = lo) (h : lo + w ≤ 416) :
    bitsAt (leNat (resultBits l)) lo w = v % 2 ^ w := by
  subst hlo hl
  rw [resultBits, leNat_leBytes, show (256 : Nat) ^ 52 = 2 ^ 416 from (pow_mul 2 8 52).symm, bitsAt_mod _ _ _ _ h, bitsAt_packBits]

theorem bitAt_eq_bitsAt (v k : Nat) : bitAt v k = (bitsAt v k 1 == 1) := rfl

theorem bitAt_resultBits {l fs gs : List (Nat × Nat)} {lo : Nat} {b : Bool} (hl : l = fs ++ (1, b2n b) :: gs) (hlo : fieldsWidth fs = lo) (h : lo + 1 ≤ 416) :
    bitAt (leNat (resultBits l)) lo = b := by
  rw [bitAt_eq_bitsAt, bitsAt_resultBits hl hlo h]; cases b <;> rfl

/-- One entry of a list of equal fields. -/
theorem bitsAt_resultBits_map {α : Type} {l fs gs : List (Nat × Nat)} {lo w k : Nat} {g : α → Nat} {ids : List α} {id : α}
    (hl : l = fs ++ (ids.map (fun a => (w, g a)) ++ gs)) (hk : ids[k]? = some id) (hlo : fieldsWidth fs = lo) (h : lo + w * ids.length ≤ 416) :
    bitsAt (leNat (resultBits l)) (lo + w * k) w = g id % 2 ^ w := by
  obtain ⟨hlt, hid⟩ := List.getElem?_eq_some_iff.mp hk
  have hsplit : ids = ids.take k ++ id :: ids.drop (k + 1) := by rw [← hid, ← List.drop_eq_getElem_cons hlt, List.take_append_drop]
  have hfields : l = (fs ++ (ids.take k).map fun a => (w, g a)) ++ (w, g id) :: ((ids.drop (k + 1)).map (fun a => (w, g a)) ++ gs) := by
    rw [hl]; conv_lhs => rw [hsplit]
    simp
  refine bitsAt_resultBits hfields ?_ ?_
  · rw [fieldsWidth_append, fieldsWidth_map_const, List.length_take_of_le hlt.le, hlo]
  · have := Nat.mul_le_mul_left w hlt; rw [Nat.mul_succ] at this; omega

/-! ### Transitions of the power state -/

theorem Dev.moving_eq_false {d : Dev} {env : Env} (h : d.pw.transEnd ≤ env.now) : d.moving env = false := decide_eq_false (Nat.not_lt.mpr h)

theorem Dev.moving_eq_true {d : Dev} {env : Env} (h : env.now < d.pw.transEnd) : d.moving env = true := decide_eq_true h

/-- Between transitions to Service. -/
theorem powerState_service {d : Dev} {env : Env} {e : CmdEntry} (w : PowerEvidence) (hq : d.pw.queued = false) (hm : d.pw.transEnd ≤ env.now) (h2 : u8 e 0 = 2) :
    powerState env e w d = if d.inService then .done [] d else goService env w.failed (w.cut.filter fun k => d.cutBy k) d := by
  simp only [powerState, hq, Dev.moving_eq_false hm, h2]; rfl

/-- Between transitions out of Service, or from Calm. -/
theorem powerState_down {d : Dev} {env : Env} {e : CmdEntry} (w : PowerEvidence) (hq : d.pw.queued = false) (hm : d.pw.transEnd ≤ env.now) (h2 : u8 e 0 ≠ 2) :
    powerState env e w d = if d.inService && d.anyLit && !force e then .refuse .trafficPresent 0 else
      match (if d.inService then w.cut.filter fun k => d.cutBy k else none), d.doldrumsFault env with
      | some k, _ => if u8 e 0 = 1 then .done [] (d.takenOver env k) else goDoldrums env (d.takenOver env k)
      | none, fault =>
        let d1 := if d.inService then d.toCalm env .domainOff else d
        if u8 e 0 = 1 then .done [] d1
        else match fault with
          | some f => .refuse f.1 f.2
          | none => .done [] (d1.toDoldrums env (env.par.nat pWakeSources)) := by
  simp only [powerState, hq, Dev.moving_eq_false hm, if_neg h2, Bool.false_eq_true, if_false] <;> rfl

theorem powerState_busy {d : Dev} {env : Env} {e : CmdEntry} (w : PowerEvidence) (h : d.pw.queued = true ∨ (env.now < d.pw.transEnd ∧ u8 e 0 ≠ 0)) :
    powerState env e w d = .refuse .busy 0 := by
  unfold powerState
  by_cases hq : d.pw.queued = true
  · exact if_pos hq
  · obtain ⟨hm, h0⟩ := h.resolve_left hq
    exact (if_neg hq).trans ((if_pos (Dev.moving_eq_true hm)).trans (if_neg h0))

theorem powerState_queues {d : Dev} {env : Env} {e : CmdEntry} (w : PowerEvidence) (hq : d.pw.queued = false) (hm : env.now < d.pw.transEnd) (h0 : u8 e 0 = 0) :
    powerState env e w d = .start (250 * ms) (d.updPw fun p => { p with queued := true }) := by
  unfold powerState
  exact (if_neg (by rw [hq]; exact Bool.false_ne_true)).trans ((if_pos (Dev.moving_eq_true hm)).trans (if_pos h0))

theorem goService_of_plan {d : Dev} {env : Env} {failed : List Nat} (cut : Option Takeover) (hhot : d.tooHot = false)
    (hrec : d.pw.recorded.get .off 0x30 = .on ∨ d.pw.recorded.get .off 0x31 = .on) (hfail : ∀ id ∈ failed, d.pw.recorded.get .off id ≠ .on) :
    goService env failed cut d = match cut with
      | some k => .fail .busy 0 (d.takenOver env k)
      | none => .done [] (d.toService env) := by
  have hstack : ¬(d.pw.recorded.get .off (domStack 0) ≠ .on ∧ d.pw.recorded.get .off (domStack 1) ≠ .on) := fun h => hrec.elim h.1 h.2
  have hall : (failed.any fun id => decide (d.pw.recorded.get .off id = .on)) = false := by simpa using hfail
  simp only [goService, hhot, if_neg hstack, hall, Bool.false_eq_true, if_false] <;> rfl

theorem goService_of_hot {d : Dev} (env : Env) (failed : List Nat) (cut : Option Takeover) (hhot : d.tooHot = true) :
    goService env failed cut d = .refuse .state 0 := by
  simp only [goService, hhot, if_true]

theorem Dev.anyLit_iff (d : Dev) : d.anyLit = true ↔ ∃ n ∈ carriers, (d.tx n).state ≠ .dark := by simp [Dev.anyLit]

theorem Dev.doldrumsFault_of_sources {d : Dev} {env : Env} (hw : env.par.val pWakeSources ≠ 0) (hh : d.tooHot = false) : d.doldrumsFault env = none := by
  rw [Dev.doldrumsFault, if_neg hw, hh]; rfl

theorem Dev.doldrumsFault_of_noSource {d : Dev} {env : Env} (hw : env.par.val pWakeSources = 0) : d.doldrumsFault env = some (.badParam, pWakeSources) := by
  rw [Dev.doldrumsFault, if_pos hw]

/-- The command from Calm. -/
theorem powerState_down_calm {d : Dev} {env : Env} {e : CmdEntry} (w : PowerEvidence) (hq : d.pw.queued = false) (hm : d.pw.transEnd ≤ env.now) (h2 : u8 e 0 ≠ 2)
    (hs : d.inService = false) : powerState env e w d = if u8 e 0 = 1 then .done [] d else match d.doldrumsFault env with
      | some f => .refuse f.1 f.2
      | none => .done [] (d.toDoldrums env (env.par.nat pWakeSources)) := by
  rw [powerState_down w hq hm h2]; simp only [hs]; rfl

/-! ### Domains -/

theorem domainSet_of_entries {d : Dev} {env : Env} {e : CmdEntry} (cut : Option Takeover) (hf : domFault e = none) (hq : d.pw.queued = false)
    (hm : d.pw.transEnd ≤ env.now) (hs : d.inService = true) (hstack : stacksIn (recordAll d.pw.dom (domEntries e)) ≠ 0) :
    domainSet env e cut d =
      if !force e && (domEntries e).any (fun m => decide (m.2 ≠ .on ∧ m.2 ≠ d.domState m.1) && d.depends m.1) then .refuse .trafficPresent 0
      else match cut.filter fun k => d.cutBy k with
        | some k => .fail .busy 0 ((d.updPw fun p => { p with recorded := recordAll d.pw.recorded (domEntries e) }).takenOver env k)
        | none => .done [] ((d.updPw fun p => { p with recorded := recordAll d.pw.recorded (domEntries e) }).domMoves env true (domEntries e)) := by
  simp only [domainSet, hf, hq, Dev.moving_eq_false hm, hs, if_neg hstack, Bool.or_self, Bool.false_eq_true, if_false, if_true] <;> rfl

theorem domainSet_of_fault {d : Dev} {env : Env} {e : CmdEntry} (cut : Option Takeover) {k : Nat} (hf : domFault e = some k) :
    domainSet env e cut d = .refuse .badParam (9 + 2 * k) := by
  simp only [domainSet, hf, badField]; congr 1; omega

theorem DomState.code_mod (x : DomState) : x.code % 2 ^ 2 = x.code := by cases x <;> rfl

theorem Dev.domShown_eq (d : Dev) (env : Env) (id : Nat) : d.domShown env id % 2 ^ 2 = if env.now < d.pw.transEnd ∧ id ∈ d.pw.changing then 3 else (d.domState id).code := by
  have hiff : (d.moving env && d.pw.changing.contains id) = true ↔ env.now < d.pw.transEnd ∧ id ∈ d.pw.changing := by simp [Dev.moving]
  unfold Dev.domShown
  by_cases h : env.now < d.pw.transEnd ∧ id ∈ d.pw.changing
  · rw [if_pos (hiff.mpr h), if_pos h]; rfl
  · rw [if_neg (mt hiff.mp h), if_neg h, DomState.code_mod]

theorem queuedDoldrums_of_queued {d : Dev} {env : Env} (hq : d.pw.queued = true) (hc : d.pw.state = .calm) :
    queuedDoldrums env d = match d.doldrumsFault env with
      | some f => (d.updPw fun p => { p with queued := false, transEnd := env.now }).finish 0x0201 0 f.1 f.2 []
      | none => ((d.updPw fun p => { p with queued := false, transEnd := env.now }).finish 0x0201 0 .ok 0 []).toDoldrums env (env.par.nat pWakeSources) := by
  rw [queuedDoldrums, if_pos ⟨hq, hc⟩] <;> rfl

/-- CMD_POWER_STATUS: 64 bits of readings, the domains as they are, and the plan. -/
theorem powerStatus_fields (env : Env) (d : Dev) : ∃ head tail, fieldsWidth head = 64 ∧ powerStatus env d = resultBits
    (head ++ (domIds.map (fun id => (2, d.domShown env id)) ++ (domIds.map (fun id => (2, (d.pw.recorded.get .off id).code)) ++ tail))) :=
  ⟨_, _, rfl, congrArg resultBits ((List.append_assoc _ _ _).trans (List.append_assoc _ _ _))⟩

theorem paramCount_eq : paramCount = 954 := by decide +kernel

theorem powerState_toCalm {d : Dev} {env : Env} {e : CmdEntry} {w : PowerEvidence} (hq : d.pw.queued = false) (hm : d.pw.transEnd ≤ env.now) (h1 : u8 e 0 = 1)
    (hs : d.inService = true) (hcut : w.cut = none) (hdark : d.anyLit = false) : powerState env e w d = .done [] (d.toCalm env .domainOff) := by
  rw [powerState_down w hq hm (by omega), hdark, hs, hcut]
  exact if_pos h1

/-- Settles O23. -/
theorem powerCommands : Obligations.PowerCommands := by
  unfold Obligations.PowerCommands
  intro e s s1 w r d p l
  refine ⟨fun h => h.completes rfl (by rw [sysInfo, paramCount_eq]; rfl), fun h => h.completes rfl rfl,
    fun h hq hm => ⟨fun h2 hs => ?_, fun h2 hs hh hrec hfail => ?_, fun h2 hs hh => ?_, fun h1 hs => ?_, fun h1 hs hcut hdark => ?_,
      fun h2 hs hlit hforce => ?_, fun h0 hs hw hh => ?_, fun h0 hs hw => ?_⟩,
    fun h hq hm h0 => h.starts rfl (powerState_queues w hq hm h0), fun h hb => h.refuses rfl (powerState_busy w hb),
    ⟨fun h hf hq hm hs hcut hon hstack => ?_, fun h hf hq hm hs hforce hstack hdep => ?_, fun h k hf => h.refuses rfl (domainSet_of_fault r.cut hf)⟩,
    fun h => ⟨_, h.completes rfl rfl, ?_, ?_, ?_, fun k id hk => ⟨?_, ?_⟩⟩, fun hq hc hw hh => exec_of_onDev rfl ?_, fun hq hc hw => exec_of_onDev rfl ?_⟩
  · exact h.completes rfl ((powerState_service w hq hm h2).trans (if_pos hs))
  · have hgo := (powerState_service w hq hm h2).trans ((if_neg (by rw [hs]; exact Bool.false_ne_true)).trans (goService_of_plan (env := s.env) _ hh hrec hfail))
    refine ⟨fun hcut => h.completes rfl (hgo.trans ?_), fun vin hcut hl hc => h.fails rfl (hgo.trans ?_)⟩
    · rw [hcut]; rfl
    · have hact : (w.cut.filter fun k => d.cutBy k) = some (.limit vin) := by rw [hcut, Option.filter, if_pos (show d.cutBy (.limit vin) = true from hl)]
      rw [hact]
      exact congrArg (fun d1 : Dev => CmdRes.fail .busy 0 (d1.updPw fun p => { p with transEnd := s.now })) (limitDrop_of_calm s.env vin hl hc)
  · exact h.refuses rfl ((powerState_service w hq hm h2).trans ((if_neg (by rw [hs]; exact Bool.false_ne_true)).trans (goService_of_hot s.env _ _ hh)))
  · exact h.completes rfl ((powerState_down_calm w hq hm (by omega) hs).trans (if_pos h1))
  · have hno : d.anyLit = false := by rw [← Bool.not_eq_true, d.anyLit_iff]; rintro ⟨n, hn, hx⟩; exact hx (hdark n hn)
    exact ⟨_, rfl, rfl, h.completes rfl (powerState_toCalm (env := s.env) hq hm h1 hs hcut hno)⟩
  · have hlit' : (d.inService && d.anyLit && !force e) = true := by rw [hs, d.anyLit_iff.mpr hlit, hforce]; rfl
    exact h.refuses rfl ((powerState_down w hq hm h2).trans (if_pos hlit'))
  · refine h.completes rfl ((powerState_down_calm w hq hm (by omega) hs).trans ((if_neg (by omega)).trans ?_))
    rw [Dev.doldrumsFault_of_sources (env := s.env) hw hh]; rfl
  · refine h.refuses rfl ((powerState_down_calm w hq hm (by omega) hs).trans ((if_neg (by omega)).trans ?_))
    rw [Dev.doldrumsFault_of_noSource (env := s.env) hw]
  · have hon' : l.any (fun m => decide (m.2 ≠ .on ∧ m.2 ≠ d.domState m.1) && d.depends m.1) = false := by
      simp only [List.any_eq_false, Bool.and_eq_true, decide_eq_true_eq]; exact fun m hm h => h.1.1 (hon m hm)
    refine h.completes rfl ((domainSet_of_entries r.cut hf hq hm hs hstack).trans ?_)
    rw [show (domEntries r.toCmdEntry).any _ = false from hon', hcut, Bool.and_false]; rfl
  · have hdep' : l.any (fun m => decide (m.2 ≠ .on ∧ m.2 ≠ d.domState m.1) && d.depends m.1) = true := by
      obtain ⟨m, hmem, h1, h2, h3⟩ := hdep
      exact List.any_eq_true.mpr ⟨m, hmem, by rw [decide_eq_true ⟨h1, h2⟩, h3]; rfl⟩
    refine h.refuses rfl ((domainSet_of_entries r.cut hf hq hm hs hstack).trans (if_pos ?_))
    rw [show (domEntries r.toCmdEntry).any _ = true from hdep', hforce]; rfl
  · refine (bitsAt_resultBits (fs := []) rfl rfl (by decide)).trans ?_
    show (if s.dev.inService then 2 else 1) % 2 ^ 2 = if s.dev.inService then 2 else 1
    split <;> rfl
  · exact bitAt_resultBits (fs := [_]) rfl rfl (by decide)
  · exact bitAt_resultBits (fs := [_, _]) rfl rfl (by decide)
  · obtain ⟨head, tail, hw, hp⟩ := powerStatus_fields s.env d
    rw [hp]
    exact (bitsAt_resultBits_map rfl hk hw (Nat.le_of_ble_eq_true rfl)).trans (d.domShown_eq s.env id)
  · obtain ⟨head, tail, hw, hp⟩ := powerStatus_fields s.env d
    have hlo : fieldsWidth (head ++ domIds.map fun id => (2, d.domShown s.env id)) = 144 := by rw [fieldsWidth_append, hw, fieldsWidth_map_const]; rfl
    rw [hp]
    exact (bitsAt_resultBits_map (List.append_assoc _ _ _).symm hk hlo (Nat.le_of_ble_eq_true rfl)).trans (DomState.code_mod _)
  · rw [queuedDoldrums_of_queued hq hc, Dev.doldrumsFault_of_sources (env := s.env) hw hh]; rfl
  · rw [queuedDoldrums_of_queued hq hc, Dev.doldrumsFault_of_noSource (env := s.env) hw]; rfl

end Sys2Proof.Machine
end

section
/-! Parameters, unknown opcodes, and the links between the dies (chapters 1, 2 and 21). -/

namespace Sys2Proof.Machine

/-! ### CMD_PARAM_SET and CMD_PARAM_GET -/

theorem Params.val_set_same (p : Params) (id : Nat) (v : Int) : Params.val (Tbl.set p id v) id = v := Tbl.get_set_same _ _ _ _

theorem Params.val_set_other (p : Params) {id j : Nat} (v : Int) (h : j ≠ id) : Params.val (Tbl.set p id v) j = p.val j := Tbl.get_set_other _ _ _ _ _ h

theorem Dev.setAll_cons {d : Dev} {k : Nat} {x : Nat × Nat × Int} {xs : List (Nat × Nat × Int)} {p p' : Params} (h : d.setAll k (x :: xs) p = (p', none)) :
    d.setAll (k + 1) xs (Tbl.set p x.1 x.2.2) = (p', none) := by
  unfold Dev.setAll at h
  split at h
  · cases h
  · exact h

/-- An identifier that no entry names keeps its value. -/
theorem Dev.setAll_other {d : Dev} {id : Nat} {p' : Params} (xs : List (Nat × Nat × Int)) : ∀ (k : Nat) (p : Params), d.setAll k xs p = (p', none) →
    (∀ x ∈ xs, x.1 ≠ id) → p'.val id = p.val id := by
  induction xs with
  | nil => intro k p h _; cases h; rfl
  | cons x xs ih =>
    intro k p h hne
    rw [ih (k + 1) _ (Dev.setAll_cons h) fun y hy => hne y (List.mem_cons_of_mem x hy)]
    exact Params.val_set_other p _ (hne x List.mem_cons_self).symm

/-- The last entry that names an identifier gives its value. -/
theorem Dev.setAll_last {d : Dev} {p' : Params} {x : Nat × Nat × Int} (xs : List (Nat × Nat × Int)) : ∀ (k j : Nat) (p : Params), d.setAll k xs p = (p', none) →
    xs[j]? = some x → (∀ i y, j < i → xs[i]? = some y → y.1 ≠ x.1) → p'.val x.1 = x.2.2 := by
  induction xs with
  | nil => intro k j p _ hx; cases hx
  | cons y ys ih =>
    intro k j p h hx hlast
    cases j with
    | succ j => exact ih (k + 1) j _ (Dev.setAll_cons h) hx fun i z hij hz => hlast (i + 1) z (Nat.succ_lt_succ hij) hz
    | zero =>
      obtain rfl : y = x := Option.some.inj hx
      rw [Dev.setAll_other ys (k + 1) _ (Dev.setAll_cons h) fun z hz => by
        obtain ⟨i, hi⟩ := List.mem_iff_getElem?.mp hz
        exact hlast (i + 1) z (Nat.succ_pos i) hi]
      exact Params.val_set_same p _ _

theorem paramSet_of_setAll {e : CmdEntry} {s : State} {p : Params} (h : s.dev.setAll 0 ((List.range (u8 e 0)).map (setEntry e)) s.par = (p, none)) :
    paramSet e s = (p, .done [] (((List.range (u8 e 0)).map (setEntry e)).foldl (fun d x => d.paramApplied { s.env with par := p } s.par x.1) s.dev)) := by
  simp only [paramSet, h]

theorem paramSet_of_fault {e : CmdEntry} {s : State} {p : Params} {k : Nat} {st : Status}
    (h : s.dev.setAll 0 ((List.range (u8 e 0)).map (setEntry e)) s.par = (p, some (k, st))) : paramSet e s = (s.par, .refuse st (9 + 12 * k)) := by
  simp only [paramSet, h]

/-- What a command judges is the same before and after its entry is consumed. -/
theorem paramSet_consumed {f : CmdForm} {e : CmdEntry} {s s1 : State} (h : Runs f e s s1) : paramSet e s1 = paramSet e s := by
  obtain ⟨-, hc, -⟩ := h
  obtain ⟨-, -, hdev, hpar, -, -, -, henv⟩ := s.consumed_spec s1 f.op (canonEntry e) hc
  simp only [paramSet, hdev, hpar, henv]

/-- CMD_PARAM_SET once it runs. -/
theorem exec_paramSet {e : CmdEntry} {s s1 : State} (h : Runs formParamSet e s s1) :
    exec (.cmdParamSet e) s = .next (State.answer { s1 with par := (paramSet e s).1 } formParamSet.op (canonEntry e) (paramSet e s).2) := by
  rw [← paramSet_consumed h]
  exact congrArg Host.Outcome.next (runCmdWith_runs formParamSet e (paramSet e) s s1 h)

theorem Runs.par_eq {f : CmdForm} {e : CmdEntry} {s s1 : State} (h : Runs f e s s1) : s1.par = s.par := by
  obtain ⟨-, hc, -⟩ := h
  obtain ⟨-, -, -, hpar, -⟩ := s.consumed_spec s1 f.op (canonEntry e) hc
  exact hpar

theorem Dev.paramValue_of_kept {d : Dev} {env : Env} {id : Nat} {sp : ParamSpec} (h : paramSpec id = some sp) (hc : sp.cls ≠ .measured) :
    d.paramValue env id = (env.par.val id, d) := by
  simp only [Dev.paramValue, h, if_neg hc]

/-- Values of parameters that are not measured; reading them changes nothing. -/
theorem paramValues_of_kept {env : Env} {d : Dev} (ids : List Nat) (h : ∀ id ∈ ids, ∃ sp, paramSpec id = some sp ∧ sp.cls ≠ .measured) :
    paramValues env ids d = (ids.flatMap fun id => leBytes 8 (ofSigned 64 (env.par.val id)), d) := by
  induction ids with
  | nil => rfl
  | cons id ids ih =>
    obtain ⟨sp, hsp, hc⟩ := h id List.mem_cons_self
    simp only [paramValues, Dev.paramValue_of_kept hsp hc, ih fun x hx => h x (List.mem_cons_of_mem id hx), List.flatMap_cons]

theorem isMeasured_of_kept {id : Nat} {sp : ParamSpec} (h : paramSpec id = some sp) (hc : sp.cls ≠ .measured) : isMeasured id = false := by
  simp [isMeasured, h, hc]

theorem paramGet_of_kept {env : Env} {e : CmdEntry} {d : Dev} (h : ∀ k, k < u8 e 0 → ∃ sp, paramSpec (u16 e (1 + 2 * k)) = some sp ∧ sp.cls ≠ .measured) :
    paramGet env e d = .done ((List.range (u8 e 0)).flatMap fun k => leBytes 8 (ofSigned 64 (env.par.val (u16 e (1 + 2 * k))))) d := by
  have hids : ∀ id ∈ (List.range (u8 e 0)).map fun k => u16 e (1 + 2 * k), ∃ sp, paramSpec id = some sp ∧ sp.cls ≠ .measured := by
    rintro id hid
    obtain ⟨k, hk, rfl⟩ := List.mem_map.mp hid
    exact h k (List.mem_range.mp hk)
  have hknown : ((List.range (u8 e 0)).map fun k => u16 e (1 + 2 * k)).findIdx? (fun id => (paramSpec id).isNone) = none :=
    List.findIdx?_eq_none_iff.mpr fun id hid => by obtain ⟨sp, hsp, -⟩ := hids id hid; rw [hsp]; rfl
  have hkept : ((List.range (u8 e 0)).map fun k => u16 e (1 + 2 * k)).findIdx? (fun id => isMeasured id && d.measuredOff id) = none :=
    List.findIdx?_eq_none_iff.mpr fun id hid => by obtain ⟨sp, hsp, hc⟩ := hids id hid; rw [isMeasured_of_kept hsp hc]; rfl
  simp only [paramGet, hknown, hkept, paramValues_of_kept _ hids, List.flatMap_map]

theorem paramGet_of_unknown {env : Env} {e : CmdEntry} {d : Dev} {k : Nat} (hk : k < u8 e 0) (hno : paramSpec (u16 e (1 + 2 * k)) = none)
    (hfirst : ∀ j, j < k → paramSpec (u16 e (1 + 2 * j)) ≠ none) : paramGet env e d = .refuse .badParam (9 + 2 * k) := by
  have hfind : ((List.range (u8 e 0)).map fun k => u16 e (1 + 2 * k)).findIdx? (fun id => (paramSpec id).isNone) = some k := by
    refine List.findIdx?_eq_some_iff_getElem.mpr ⟨by simpa using hk, by simp [hno], fun j hj => ?_⟩
    simpa using hfirst j hj
  simp only [paramGet, hfind]

/-! ### Unknown opcodes -/

theorem exec_unknownOpcode {op : BitVec 16} {e : CmdEntry} {s s1 : State} (hop : knownOpcodes.contains op.toNat = false) (h : Runs (form op.toNat .own []) e s s1) :
    exec (.unknownOpcode op e) s = .next (s1.refuses (form op.toNat .own []) e .badOpcode 0) := by
  obtain ⟨hd, hc, ha⟩ := h
  have hc' : s.consumed op.toNat (canonEntry e) = some s1 := hc
  have ha' : admission s1.io.mbxState (form op.toNat .own []) (canonEntry e) (earlier op.toNat (canonEntry e) s1.io.inflight) = .run := ha
  have hrun : runUnknown op.toNat e s = s1.completeWaiting op.toNat (canonEntry e) .badOpcode 0 [] := by
    simp only [runUnknown, hd, hop, hc', ha']; rfl
  exact congrArg Host.Outcome.next hrun

/-- Settles O24. -/
theorem parameterCommands : Obligations.ParameterCommands := by
  unfold Obligations.ParameterCommands
  intro e s s1
  refine ⟨fun h xs p hxs hset => ?_, fun h xs p k st hxs hset => ?_, fun h hkept => h.completes rfl (paramGet_of_kept hkept),
    fun h k hk hno hfirst => h.refuses rfl (paramGet_of_unknown hk hno hfirst), fun op hop h => exec_unknownOpcode hop h⟩
  · refine ⟨?_, fun k x hx hlast => Dev.setAll_last xs 0 k s.par hset hx hlast, fun id hno => Dev.setAll_other xs 0 s.par hset hno⟩
    subst hxs
    rw [exec_paramSet h, paramSet_of_setAll hset]; rfl
  · subst hxs
    rw [exec_paramSet h, paramSet_of_fault hset, ← h.par_eq]; rfl

/-! ### The links between the dies -/

/-- A retried flit on a link that still serves a carrier (R21, R22). -/
theorem flitRetry_of_serving {d : Dev} {env : Env} {l fails : Nat} (hs : d.inService = true) (hl : d.seamSpent l = false) :
    flitRetry env l fails d =
      let n := if fails < 16 then fails + 1 else 16
      let recent := (env.now, n) :: (d.seamAt l).recent.filter fun r => decide (env.now < r.1 + ms)
      let d1 := (d.count (ckey 1 l) n).updSeam l fun x => { x with window := x.window + n, recent := recent }
      if fails < 16 then d1 else d1.seamFail env l (sumBy (·.2) recent) := by
  have hp : ¬(d.pw.state ≠ .calm ∧ d.pw.state ≠ .service) := fun h => h.2 (of_decide_eq_true hs)
  rw [flitRetry, if_neg hp, if_neg (by rw [hs, hl]; exact Bool.false_ne_true)]

theorem flitRetry_of_spent {d : Dev} {env : Env} {l : Nat} (fails : Nat) (hs : d.inService = true) (hl : d.seamSpent l = true) :
    flitRetry env l fails d = d.count (ckey 1 l) (min 16 (fails + 1)) := by
  have hp : ¬(d.pw.state ≠ .calm ∧ d.pw.state ≠ .service) := fun h => h.2 (of_decide_eq_true hs)
  have hn : (if fails < 16 then fails + 1 else 16) = min 16 (fails + 1) := by split <;> omega
  rw [flitRetry, if_neg hp, if_pos (by rw [hs, hl]; rfl), hn]

/-- A window of at most 10,000 retransmissions ends a run of bad ones (R22). -/
theorem windowEnd_of_good {d : Dev} {env : Env} {l : Nat} (hl : d.seamSpent l = false) (hw : (d.seamAt l).window ≤ 10000) :
    windowEnd env l d = d.updSeam l fun x => { x with window := 0, badWindows := 0 } := by
  simp only [windowEnd, hl, Bool.false_eq_true, if_false, if_neg (Nat.not_lt.mpr hw)]; rfl

theorem windowEnd_of_bad {d : Dev} {env : Env} {l : Nat} (hl : d.seamSpent l = false) (hw : 10000 < (d.seamAt l).window) :
    windowEnd env l d = if 3 ≤ (d.seamAt l).badWindows + 1 then d.seamFail env l (d.seamAt l).window
      else d.updSeam l fun x => { x with window := 0, badWindows := (d.seamAt l).badWindows + 1 } := by
  simp only [windowEnd, hl, Bool.false_eq_true, if_false, if_pos hw]

theorem carrierRecover_of_heldDown {d : Dev} {env : Env} {e : CmdEntry} (retrains : Bool) (hs : d.inService = true) (hh : (d.carrier (u8 e 0)).heldDown = true)
    (ho : d.domOn (u8 e 0) = true) :
    carrierRecover env e retrains d = if !retrains then .refuse .internal (d.carrier (u8 e 0)).link else
      let ls := (seamLinks (u8 e 0)).filter fun l => (d.seamAt l).failed
      .done [] ((ls.flatMap seamCarriers).foldl (fun d m => d.letGo env m) (ls.foldl (fun d l => d.updSeam l fun _ => .reset) d)) := by
  rw [carrierRecover, if_neg (by rw [hs, hh]; exact Bool.false_ne_true), if_neg (by rw [show d.domOn (domCarrier (u8 e 0)) = true from ho]; exact Bool.false_ne_true)]

/-- Settles O25. -/
theorem seamRows : Obligations.SeamRows := by
  unfold Obligations.SeamRows
  intro s link l x
  have hretry (fails : Nat) {d : Dev} (h : flitRetry s.env l fails s.dev = d) : exec (.seamFlitRetry link fails) s = .next (s.commit d) := exec_of_onDev rfl h
  have hwindow {d : Dev} (h : windowEnd s.env l s.dev = d) : exec (.seamWindowEnd link) s = .next (s.commit d) := exec_of_onDev rfl h
  refine ⟨fun fails hs hl hf => ?_, fun fails hs hl hf => ?_, fun fails hs hl => hretry fails (flitRetry_of_spent fails hs hl), fun hl hw => hwindow (windowEnd_of_good hl hw),
    fun hl hw hb => hwindow ((windowEnd_of_bad hl hw).trans (if_neg (Nat.not_le.mpr (Nat.succ_lt_succ hb)))), fun hl hw hb => hwindow ((windowEnd_of_bad hl hw).trans (if_pos (Nat.succ_le_succ hb))), fun e s1 retrains h hs hh ho => ⟨fun hr => ?_, fun hr => ?_⟩⟩
  · have hrow := hretry fails ((flitRetry_of_serving hs hl).trans (if_pos hf))
    refine ⟨_, hrow, ?_, ?_, ?_⟩
    · rw [if_pos hf]; exact s.dev.count_same _ _
    · rw [Dev.updSeam_same, if_pos hf]; rfl
    · rw [Dev.updSeam_same]; rfl
  · have hrow := hretry fails ((flitRetry_of_serving hs hl).trans (if_neg (Nat.not_lt.mpr hf)))
    refine ⟨_, _, hrow, ?_⟩
    rw [if_neg (Nat.not_lt.mpr hf)]; exact s.dev.count_same _ _
  · exact h.completes rfl ((carrierRecover_of_heldDown (env := s.env) retrains hs hh ho).trans (if_neg (by rw [hr]; exact Bool.false_ne_true)))
  · exact h.refuses rfl ((carrierRecover_of_heldDown (env := s.env) retrains hs hh ho).trans (if_pos (by rw [hr]; rfl)))

end Sys2Proof.Machine
end

section
/-! The line transmitter: its events and its commands (chapter 4). -/

namespace Sys2Proof.Machine

/-! ### What Breeze's packets leave of a carrier and of its counters -/

section
variable {n : Nat} {P : Dev → Prop}

theorem Dev.brzFlush_keeps (hupd : ∀ d f, P d → P (d.updBrz n f)) (habort : ∀ d c p, P d → P (d.brzAborted n c p)) {d : Dev} (cause : Nat) (h : P d) :
    P (d.brzFlush n cause) := by
  unfold Dev.brzFlush
  generalize (d.brz n).queue = l
  suffices hl : ∀ d1, P d1 → P (l.foldl (fun d p => d.brzAborted n cause p) d1) from hl _ (hupd _ _ h)
  induction l with
  | nil => exact fun _ h1 => h1
  | cons p l ih => exact fun d1 h1 => ih _ (habort d1 cause p h1)

/-- What changes of Breeze's own state, aborted packets and finished Breeze commands keep, the end of its output keeps. -/
theorem Dev.breezeAbort_keeps (hupd : ∀ d f, P d → P (d.updBrz n f)) (habort : ∀ d c p, P d → P (d.brzAborted n c p))
    (hfinish : ∀ d, P d → P (d.brzFinish n .ok)) {d : Dev} (cause : Nat) (h : P d) : P (d.breezeAbort n cause) := by
  unfold Dev.breezeAbort
  extract_lets b d1 d2 d3
  have h2 : P d2 := by
    simp only [d2]; split
    · exact habort _ _ _ (hupd _ _ h)
    · exact hupd _ _ h
  have h3 : P d3 := by
    simp only [d3]; split
    · exact Dev.brzFlush_keeps hupd habort 1 h2
    · exact h2
  split
  · exact h3
  · exact hfinish _ h3

end

theorem Dev.breezeAbort_car (d : Dev) (n cause : Nat) : (d.breezeAbort n cause).car = d.car :=
  Dev.breezeAbort_keeps (P := fun x => x.car = d.car) (fun _ _ h => h) (fun _ _ _ h => h) (fun _ h => h) cause rfl

theorem Dev.breezeAbort_counter (d : Dev) (n cause : Nat) {k : Nat} (hk : k ≠ ctrBrz 6 n) : (d.breezeAbort n cause).counter k = d.counter k :=
  Dev.breezeAbort_keeps (P := fun x => x.counter k = d.counter k) (fun _ _ h => h) (fun x _ _ h => (x.count_other _ _ _ hk).trans h) (fun _ h => h) cause rfl

theorem Dev.brzWithdrawn_car (d : Dev) (env : Env) (n : Nat) : (d.brzWithdrawn env n).car = d.car := by
  unfold Dev.brzWithdrawn; split <;> rfl

theorem Dev.tx_of_car {d d' : Dev} (h : d'.car = d.car) (m : Nat) : d'.tx m = d.tx m := by
  unfold Dev.tx Dev.carrier; rw [h]

theorem Dev.updTx_car_congr {d d' : Dev} (h : d'.car = d.car) (n : Nat) (f : Tx → Tx) : (d'.updTx n f).car = (d.updTx n f).car := by
  unfold Dev.updTx Dev.updCarrier; rw [h]

theorem ctrTxMutes_ne_brz (n : Nat) : ctrTxMutes n ≠ ctrBrz 6 n := by
  unfold ctrTxMutes ctrBrz ckey; omega

theorem Dev.breezeAbort_tx (d : Dev) (n cause m : Nat) : (d.breezeAbort n cause).tx m = d.tx m := Dev.tx_of_car (d.breezeAbort_car n cause) m

/-! ### Entering MUTED and DARK -/

theorem Dev.enterMuted_tx (d : Dev) (n m : Nat) : (d.enterMuted n).tx m = (d.updTx n fun t => { t with state := .muted }).tx m :=
  Dev.breezeAbort_tx _ n 0 m

theorem Dev.enterMuted_counter (d : Dev) (n : Nat) : (d.enterMuted n).counter (ctrTxMutes n) = (d.counter (ctrTxMutes n) + 1) % 2 ^ 48 :=
  (Dev.breezeAbort_counter _ n 0 (ctrTxMutes_ne_brz n)).trans (Dev.count_same _ _ _)

theorem Dev.goDark_tx (d : Dev) (env : Env) (n m : Nat) :
    (d.goDark env n).tx m = (d.updTx n fun t => { t with state := .dark, rampToDark := false, mutePresence := false, muteClock := false }).tx m := by
  rw [Dev.goDark, Dev.breezeAbort_tx]
  exact Dev.tx_of_car (Dev.updTx_car_congr (d' := (d.brzWithdrawn env n).brzFinish n .state) (d.brzWithdrawn_car env n) n _) m

/-- A mute from RAMP_UP or ON, where no disable runs, is at once. -/
theorem Dev.muteNow_of_on {d : Dev} {n : Nat} (env : Env) (h : (d.tx n).state = .on) : d.muteNow env n = d.enterMuted n := by
  rw [Dev.muteNow, if_pos (by simp [Tx.carries, h]), h]; rfl

theorem Dev.unmute_of_free {d : Dev} {n : Nat} (hm : (d.tx n).state = .muted) (hc : (d.tx n).causes = 0) :
    d.unmute n = d.updTx n fun t => { t with state := .rampUp } := if_pos ⟨hm, hc⟩

theorem Dev.interlock_of_unlatched {d : Dev} {n : Nat} (h : (d.tx n).muteInterlock = false) :
    d.interlock n = (d.updTx n fun t => { t with muteInterlock := true }).raise .txInterlock n [] := by
  rw [Dev.interlock, h]; rfl

theorem Dev.txEpochStart_tx (d : Dev) (env : Env) (n m : Nat) : (d.txEpochStart env n).tx m = d.tx m := by
  rw [Dev.txEpochStart, Dev.updFrm_tx]; exact Dev.updRate_tx d n m _

/-- The pilot generator's start touches nothing that mutes. -/
theorem Tx.startPilots_eq (t : Tx) (now : Nat) : ∃ s c since, t.startPilots now = { t with pilotState := s, pilotCount := c, pilotSince := since } := by
  unfold Tx.startPilots
  split
  · exact ⟨_, _, _, rfl⟩
  · exact ⟨_, _, _, rfl⟩

theorem Tx.causes_of_interlock {t : Tx} (h : t.muteInterlock = true) : t.causes ≠ 0 := by
  unfold Tx.causes; rw [h]; exact Nat.ne_of_gt (by have : b2n true = 1 := rfl; omega)

/-- Steps 1 to 3 of an enable leave what mutes and the state of the carrier (R116). -/
theorem framerStart_tx (d : Dev) (env : Env) (n : Nat) : ∃ s c since, ((d.updTx n fun t => t.startPilots env.now).txEpochStart env n).tx n =
    { d.tx n with pilotState := s, pilotCount := c, pilotSince := since } := by
  obtain ⟨s, c, since, h⟩ := (d.tx n).startPilots_eq env.now
  exact ⟨s, c, since, by rw [Dev.txEpochStart_tx, Dev.updTx_same, h]⟩

theorem framerStart_of_ok {d : Dev} {env : Env} {n : Nat} (hs : (d.tx n).state = .starting) (hok : (d.tx n).txok = true) (hc : (d.tx n).causes = 0) :
    framerStart env n d = ((d.updTx n fun t => t.startPilots env.now).txEpochStart env n).updTx n fun t => { t with state := .rampUp } := by
  obtain ⟨s, c, since, htx⟩ := framerStart_tx d env n
  have hok' : (((d.updTx n fun t => t.startPilots env.now).txEpochStart env n).tx n).txok = true := by rw [htx]; exact hok
  have hc' : (((d.updTx n fun t => t.startPilots env.now).txEpochStart env n).tx n).causes = 0 := by rw [htx]; exact hc
  simp only [framerStart, if_pos hs, if_pos hok', if_pos hc']

theorem framerStart_of_low {d : Dev} {env : Env} {n : Nat} (hs : (d.tx n).state = .starting) (hlow : (d.tx n).txok = false) (hi : (d.tx n).muteInterlock = false) :
    framerStart env n d = Dev.enterMuted (Dev.raise (((d.updTx n fun t => t.startPilots env.now).txEpochStart env n).updTx n fun t =>
      { t with muteInterlock := true }) .txInterlock n []) n := by
  obtain ⟨s, c, since, htx⟩ := framerStart_tx d env n
  have hlow' : ¬(((d.updTx n fun t => t.startPilots env.now).txEpochStart env n).tx n).txok = true := by rw [htx]; exact (hlow ▸ Bool.false_ne_true)
  have hi' : (((d.updTx n fun t => t.startPilots env.now).txEpochStart env n).tx n).muteInterlock = false := by rw [htx]; exact hi
  simp only [framerStart, if_pos hs, if_neg hlow', Dev.interlock_of_unlatched hi']
  refine if_neg (Tx.causes_of_interlock ?_)
  rw [Dev.raise_tx, Dev.updTx_same]

/-- Settles O26. -/
theorem transmitEvents : Obligations.TransmitEvents := by
  unfold Obligations.TransmitEvents
  refine ⟨fun s c => ?_, fun d env n => ⟨⟨?_, d.enterMuted_counter n, fun m hm => ?_⟩, ⟨?_, ?_, fun m hm => ?_⟩, ?_, fun m hm => ?_⟩, fun t now p hp => ⟨fun h => ?_, fun h => ?_⟩⟩
  · intro n d x
    refine ⟨fun hs hok hc => exec_of_onDev rfl (framerStart_of_ok hs hok hc), fun hs hlow hi => exec_of_onDev rfl (framerStart_of_low hs hlow hi),
      fun hs => exec_of_onDev rfl ?_, fun hs hr => exec_of_onDev rfl ?_, fun hs hr => exec_of_onDev rfl ?_, fun hs => exec_of_onDev rfl (if_pos hs),
      fun hs hi => exec_of_onDev rfl ?_, rfl, fun hp hok hs hc => exec_of_onDev rfl ?_, fun hs => exec_of_onDev rfl (if_pos (.inl hs)),
      fun hs hp => exec_of_onDev rfl ?_, fun hs => exec_of_onDev rfl ?_, fun hs => exec_of_onDev rfl (if_pos hs), fun hs hc => exec_of_onDev rfl ?_,
      fun clipped samples h => exec_of_onDev rfl ?_, fun h1 h2 => exec_of_onDev rfl (if_neg (not_or.mpr ⟨h1, h2⟩)), rfl, rfl, rfl, rfl⟩
    · simp only [rampEnd, show (s.dev.tx ↑c).state = .rampUp from hs]; rfl
    · simp only [rampEnd, show (s.dev.tx ↑c).state = .rampDown from hs]; exact if_pos hr
    · simp only [rampEnd, show (s.dev.tx ↑c).state = .rampDown from hs]; exact if_neg (hr ▸ Bool.false_ne_true)
    · have hon : ¬(d.tx n).state = .dark := by rw [show (d.tx n).state = .on from hs]; exact TxState.noConfusion
      have hlatch : ((d.updTx n fun t => { t with txok := false }).tx n).muteInterlock = false := by rw [Dev.updTx_same]; exact hi
      refine (if_neg hon).trans ?_
      rw [Dev.interlock_of_unlatched hlatch, Dev.updTx_fuse]
      exact Dev.muteNow_of_on _ (by rw [Dev.raise_tx, Dev.updTx_same]; exact hs)
    · refine (if_pos (by rw [show s.env.par.on (pTxIlAuto + n) = true from hp, show (s.dev.tx n).txok = true from hok]; rfl)).trans ?_
      rw [Dev.unmute_of_free (by rw [Dev.updTx_same]; exact hs) (by rw [Dev.updTx_same]; exact hc), Dev.updTx_fuse]
    · have hno : ¬((d.tx n).state = .dark ∨ (d.tx n).mutePresence = true) := by
        rw [show (d.tx n).state = .on from hs, show (d.tx n).mutePresence = false from hp]; simp
      refine (if_neg hno).trans ?_
      rw [Dev.updTx_fuse]
      exact Dev.muteNow_of_on _ (by rw [Dev.raise_tx, Dev.updTx_same]; exact hs)
    · refine (if_neg (by rw [show (s.dev.tx n).state = .on from hs]; exact TxState.noConfusion)).trans ?_
      exact Dev.muteNow_of_on _ (by rw [Dev.updTx_same]; exact hs)
    · exact (Dev.unmute_of_free (by rw [Dev.updTx_same]; exact hs) (by rw [Dev.updTx_same]; exact hc)).trans (Dev.updTx_fuse _ _ _ _)
    · simp only [txClipWindow, ppm, if_neg (Nat.ne_of_gt h)]; rfl
  · rw [Dev.enterMuted_tx, Dev.updTx_same]
  · rw [Dev.enterMuted_tx, Dev.updTx_other _ _ _ _ hm]
  · rw [Dev.enterDark, Dev.updTx_same, Dev.goDark_tx, Dev.updTx_same]
  · rw [Dev.enterDark, Dev.updTx_same, Dev.goDark_tx, Dev.updTx_same]; rfl
  · rw [Dev.enterDark, Dev.updTx_other _ _ _ _ hm, Dev.goDark_tx, Dev.updTx_other _ _ _ _ hm]
  · rw [Dev.goDark_tx, Dev.updTx_same]
  · rw [Dev.goDark_tx, Dev.updTx_other _ _ _ _ hm]
  · exact if_pos (by rw [Tx.native, hp]; exact decide_eq_true h)
  · exact if_neg (by rw [Tx.native, hp]; exact fun hx => h (of_decide_eq_true hx))

end Sys2Proof.Machine
end

section
/-! The transmit commands (chapter 4). -/

namespace Sys2Proof.Machine

theorem TxState.code_lt (x : TxState) : x.code < 2 ^ 3 := by cases x <;> decide

theorem Tx.coefState_lt (t : Tx) : t.coefState < 2 ^ 2 := by
  unfold Tx.coefState; split
  · decide
  · split <;> decide

theorem Dev.ifPowered_of_off {d : Dev} {n : Nat} (r : CmdRes) (h : d.domState n = .off) : d.ifPowered n r = .refuse .domainOff 0 := if_pos h

theorem Dev.ifPowered_of_powered {d : Dev} {n : Nat} (r : CmdRes) (h : d.domState n ≠ .off) : d.ifPowered n r = r := if_neg h

/-- An enable once the device and the carrier's front end allow it. -/
theorem txEnable_of_present {d : Dev} {env : Env} {n : Nat} (hs : d.inService = true) (hp : (d.tx n).present = true) (hh : (d.carrier n).heldDown = false) :
    txEnable env n d = if !d.domOn n then .refuse .domainOff 0
      else if (d.tx n).op.isNone || !d.dacCalDone n then .refuse .sequence 0
      else if (d.tx n).state ≠ .dark then .done [] d
      else .start (5 * ms + env.par.nat (pTxRamp + n) * us) (d.updTx n fun t => { t.capture env.par n with state := .starting }) := by
  rw [txEnable, if_neg (by rw [hs, hp]; exact Bool.false_ne_true), if_neg (hh ▸ Bool.false_ne_true)]

theorem txEnable_of_ready {d : Dev} {env : Env} {n : Nat} (hs : d.inService = true) (hp : (d.tx n).present = true) (hh : (d.carrier n).heldDown = false)
    (ho : d.domOn n = true) (hop : (d.tx n).op.isSome = true) (hcal : d.dacCalDone n = true) :
    txEnable env n d = if (d.tx n).state ≠ .dark then .done [] d
      else .start (5 * ms + env.par.nat (pTxRamp + n) * us) (d.updTx n fun t => { t.capture env.par n with state := .starting }) := by
  have hnone : ((d.tx n).op.isNone || !d.dacCalDone n) = false := by rw [hcal, ← Option.not_isSome, hop]; rfl
  rw [txEnable_of_present hs hp hh, if_neg (by rw [ho]; exact Bool.false_ne_true), if_neg (hnone ▸ Bool.false_ne_true)]

theorem txDisable_of_powered {d : Dev} {env : Env} {n : Nat} (hb : d.anyBundleEnabled n = false) (ho : d.domState n ≠ .off) :
    txDisable env n d = match (d.tx n).state with
      | .dark => .done [] d
      | .muted => .done [] (d.enterDark env n)
      | .starting => .done [] (d.enterDark env n)
      | _ => .start (5 * ms + env.par.nat (pTxRamp + n) * us) (d.updTx n fun t => { t with state := .rampDown, rampToDark := true }) := by
  rw [txDisable, if_neg (hb ▸ Bool.false_ne_true), if_neg (show ¬d.domState (domCarrier n) = .off from ho)] <;> (cases (d.tx n).state <;> rfl)

/-- An unmute with no cause left starts a ramp (R117). -/
theorem txMute_clears {d : Dev} {n : Nat} (ho : d.domState n ≠ .off) (hm : (d.tx n).state = .muted) (hok : (d.tx n).txok = true) (hp : (d.tx n).mutePresence = false)
    (hc : (d.tx n).muteClock = false) : txMute n false d = .start 0 (d.updTx n fun t => { t with
      muteHost := false, muteInterlock := false, causesWas := ((d.tx n).muteHost, (d.tx n).muteInterlock), state := .rampUp }) := by
  have hcauses : ((d.updTx n fun t => { t with muteHost := false, muteInterlock := t.muteInterlock && !t.txok, causesWas := (t.muteHost, t.muteInterlock) }).tx n).causes = 0 := by
    rw [Dev.updTx_same]; simp [Tx.causes, hok, hp, hc, b2n]
  have hstate : ((d.updTx n fun t => { t with muteHost := false, muteInterlock := t.muteInterlock && !t.txok, causesWas := (t.muteHost, t.muteInterlock) }).tx n).state = .muted := by
    rw [Dev.updTx_same]; exact hm
  refine (if_neg ho).trans ((if_neg Bool.false_ne_true).trans ((if_pos ⟨hm, hcauses⟩).trans (congrArg (CmdRes.start 0) ?_)))
  rw [Dev.unmute_of_free hstate hcauses, Dev.updTx_fuse]
  exact Dev.updTx_congr _ _ _ _ (by simp [hok])

/-- A load without COMMIT stages its entries (R104). -/
theorem txCoefLoad_of_staged {d : Dev} {e : CmdEntry} (hf : txCoefFault e = none) (ho : d.domState (u8 e 0) ≠ .off)
    (hg : d.txTableGranted (u8 e 0) (u8 e 1) = false) (hc : bitAt (u8 e 4) 0 = false) :
    txCoefLoad e d = .done [] (d.updTx (u8 e 0) fun x => if u8 e 1 = 0
      then { x with nlc := { (d.tx (u8 e 0)).nlc with staged := stageEntries e 8 (u8 e 2) (u8 e 3) (d.tx (u8 e 0)).nlc.staged } }
      else { x with taps := { (d.tx (u8 e 0)).taps with staged := stageEntries e 2 (u8 e 2) (u8 e 3) (d.tx (u8 e 0)).taps.staged } }) := by
  simp only [txCoefLoad, hf, hg, hc, if_neg (show ¬d.domState (domCarrier (u8 e 0)) = .off from ho), Bool.false_eq_true, if_false]
  by_cases h : u8 e 1 = 0 <;> simp only [h, if_true, if_false] <;> rfl

theorem txCoefLoad_of_fault {d : Dev} {e : CmdEntry} {k : Nat} (hf : txCoefFault e = some k) : txCoefLoad e d = .refuse .badParam k := by
  simp only [txCoefLoad, hf]

/-- Settles O27. -/
theorem transmitCommands : Obligations.TransmitCommands := by
  unfold Obligations.TransmitCommands
  intro e s s1 n d x
  refine ⟨fun h hen hs hp hh => ⟨fun ho => ?_, fun ho hop => ?_, fun ho hop hcal hst => ?_, fun ho hop hcal hst => ?_⟩,
    fun h hdis => ⟨fun hb => ?_, fun hb ho => ?_, fun hb ho hst => ?_, fun hb ho hst => ?_⟩, fun h ho => h.refuses rfl (if_pos ho),
    fun h ho hm => ⟨fun hst => ?_, fun hst => ?_⟩, fun h ho hm hst hok hp hc => ?_, fun h hf ho hg hc => ⟨fun h0 => ?_, fun h1 => ?_⟩,
    fun h k hf => h.refuses rfl (txCoefLoad_of_fault hf), fun h ho => h.refuses rfl (Dev.ifPowered_of_off _ ho),
    fun h ho => ⟨_, h.completes rfl (Dev.ifPowered_of_powered _ ho), ?_, ?_, ?_, ?_, ?_, ?_, ?_, ?_⟩,
    fun rx h => ⟨fun hp => ?_, fun hp => ?_⟩⟩
  · exact h.refuses rfl ((if_pos hen).trans ((txEnable_of_present hs hp hh).trans (if_pos (by rw [ho]; rfl))))
  · refine h.refuses rfl ((if_pos hen).trans ((txEnable_of_present hs hp hh).trans ((if_neg (by rw [ho]; exact Bool.false_ne_true)).trans (if_pos ?_))))
    rw [show (s.dev.tx (u8 e 0)).op = none from hop]; rfl
  · exact h.completes rfl ((if_pos hen).trans ((txEnable_of_ready (env := s.env) hs hp hh ho hop hcal).trans (if_pos hst)))
  · exact h.starts rfl ((if_pos hen).trans ((txEnable_of_ready (env := s.env) hs hp hh ho hop hcal).trans (if_neg (not_not.mpr hst))))
  · exact h.refuses rfl ((if_neg (hdis ▸ Bool.false_ne_true)).trans (if_pos hb))
  · exact h.refuses rfl ((if_neg (hdis ▸ Bool.false_ne_true)).trans ((if_neg (show ¬s.dev.anyBundleEnabled (u8 e 0) = true from hb ▸ Bool.false_ne_true)).trans (if_pos ho)))
  · refine h.completes rfl ((if_neg (hdis ▸ Bool.false_ne_true)).trans ((txDisable_of_powered (env := s.env) hb ho).trans ?_))
    rw [show (s.dev.tx (u8 e 0)).state = .muted from hst]
  · refine h.starts rfl ((if_neg (hdis ▸ Bool.false_ne_true)).trans ((txDisable_of_powered (env := s.env) hb ho).trans ?_))
    rw [show (s.dev.tx (u8 e 0)).state = .on from hst]; rfl
  · refine h.starts rfl ((if_neg ho).trans ((if_pos hm).trans ((if_pos ?_).trans (congrArg (CmdRes.start 0) (Dev.updTx_fuse _ _ _ _)))))
    simp [Tx.carries, show (s.dev.tx (u8 e 0)).state = .on from hst]
  · refine h.completes rfl ((if_neg ho).trans ((if_pos hm).trans (if_neg ?_)))
    simp [Tx.carries, show (s.dev.tx (u8 e 0)).state = .muted from hst]
  · exact h.starts rfl ((congrArg (txMute n · d) hm).trans (txMute_clears ho hst hok hp hc))
  · refine h.completes rfl ((txCoefLoad_of_staged hf ho hg hc).trans ?_)
    simp only [if_pos h0]; exact congrArg (CmdRes.done []) (Dev.updTx_congr _ _ _ _ rfl)
  · have hne : ¬u8 e 1 = 0 := by omega
    refine h.completes rfl ((txCoefLoad_of_staged hf ho hg hc).trans ?_)
    simp only [if_neg hne]; exact congrArg (CmdRes.done []) (Dev.updTx_congr _ _ _ _ rfl)
  · exact (bitsAt_resultBits (fs := []) rfl rfl (by decide)).trans (Nat.mod_eq_of_lt x.state.code_lt)
  · exact bitAt_resultBits (fs := [_, _]) rfl rfl (by decide)
  · exact bitAt_resultBits (fs := [_, _, _]) rfl rfl (by decide)
  · exact bitAt_resultBits (fs := [_, _, _, _]) rfl rfl (by decide)
  · exact bitAt_resultBits (fs := [_, _, _, _, _]) rfl rfl (by decide)
  · exact (bitsAt_resultBits (fs := [_, _, _, _, _, _, _]) rfl rfl (Nat.le_of_ble_eq_true rfl)).trans (Nat.mod_eq_of_lt x.coefState_lt)
  · exact bitsAt_resultBits (fs := [_, _, _, _, _, _, _, _, _]) rfl rfl (by decide)
  · exact bitsAt_resultBits (fs := [_, _, _, _, _, _, _, _, _, _]) rfl rfl (by decide)
  · exact h.completes rfl (if_neg (by rw [show (s.dev.tx (u8 e 0)).present = true from hp]; exact Bool.false_ne_true))
  · exact h.refuses rfl (if_pos (by rw [show (s.dev.tx (u8 e 0)).present = false from hp]; rfl))

end Sys2Proof.Machine
end

section
/-! Operating points, reach and the pool of lasts: the commands (chapters 4 and 5). -/

namespace Sys2Proof.Machine

theorem Dev.endRestore_of_idle {d : Dev} {n : Nat} (h : (d.rx n).restoring = false) : d.endRestore n = d := by
  unfold Dev.endRestore; rw [h]; rfl

/-- A good native layout and point on a carrier: the rules that remain (R96 to R98). -/
theorem carrierSet_of_native {d : Dev} {env : Env} {e : CmdEntry} {p : OpPoint} (hprof : csProfile e = 0)
    (hp : p = targetPoint (csSlots e) (csMode1 e) (csEntropy e) (csRate e)) (hlay : layoutFault (payload e) (csLayout e) = none)
    (hpt : pointFault env (u8 e 0) p (csMode1 e) (csEntropy e) = none) : carrierSet env e d =
    if (d.tx (u8 e 0)).state ≠ .dark then .refuse .state 0
    else if !d.inService then .refuse .state 0
    else if p.profile ≠ 0 ∧ (d.otherInterop (u8 e 0)).isSome then .refuse .state ((d.otherInterop (u8 e 0)).getD 0)
    else if !d.domOn (domCarrier (u8 e 0)) then .refuse .domainOff 0
    else if d.bundleAbove (u8 e 0) p.slots then .refuse .trafficPresent 0
    else if decide (p.profile ≠ 0) && d.interopBroken (u8 e 0) p.slots then badField 1
    else if decide (0 < d.stepAdds (u8 e 0) p.slots) && !fitsBandwidth d.stacksFor (d.bufferedChans + d.stepAdds (u8 e 0) p.slots) d.protectedChans then
      .refuse .dramBw 0
    else
      match lastsForPoint env (u8 e 0) (p.need (env.par.val (pCdRangeLo + u8 e 0)) (env.par.val (pCdRangeHi + u8 e 0)))
          (decide ((d.rx (u8 e 0)).op.map OpPoint.symrate ≠ some p.symrate))
          ((if (d.rx (u8 e 0)).build.isSome then (d.endRestore (u8 e 0)).dropBuild (u8 e 0) else d.endRestore (u8 e 0))) with
      | none => .refuse .noLast 0
      | some d1 =>
        let d2 := (d1.stopRx env (u8 e 0) .down).restored (u8 e 0) (p.need (env.par.val (pCdRangeLo + u8 e 0)) (env.par.val (pCdRangeHi + u8 e 0)))
        let d3 := d2.updCarrier (u8 e 0) fun c => { c with
          tx := { c.tx.capture env.par (u8 e 0) with op := some p },
          rx := { c.rx.capture env.par (u8 e 0) with op := some p, build := none, preempted := false, short := false, stale := true, acqFailAt := none,
                                                     recentreDeferred := false, trimLimitRaised := false } }
        let d3 := if p.profile ≠ 0 then d3.frameGone (u8 e 0) else d3
        let r := carrierSetResult p ((d3.growElastic (u8 e 0) p.slots).carrierConfigured env (u8 e 0) (fsChanges (d.rx (u8 e 0)).op p || fsChanges (d.tx (u8 e 0)).op p))
        .done r.1 r.2 := by
  subst hp
  simp only [carrierSet, if_pos hprof, hlay, hpt] <;> rfl

section
variable {d : Dev} {env : Env} {e : CmdEntry} {p : OpPoint} (hprof : csProfile e = 0)
  (hp : p = targetPoint (csSlots e) (csMode1 e) (csEntropy e) (csRate e)) (hlay : layoutFault (payload e) (csLayout e) = none)
  (hpt : pointFault env (u8 e 0) p (csMode1 e) (csEntropy e) = none) (hdark : (d.tx (u8 e 0)).state = .dark) (hs : d.inService = true) (hnat : p.profile = 0)
  (ho : d.domOn (u8 e 0) = true) (hb : d.bundleAbove (u8 e 0) p.slots = false)
include hprof hp hlay hpt hdark hs hnat ho hb

/-- More channels than the bandwidth of the stacks carries. -/
theorem carrierSet_of_bandwidth (hadds : 0 < d.stepAdds (u8 e 0) p.slots)
    (hfit : fitsBandwidth d.stacksFor (d.bufferedChans + d.stepAdds (u8 e 0) p.slots) d.protectedChans = false) :
    carrierSet env e d = .refuse .dramBw 0 := by
  have hon : d.domOn (domCarrier (u8 e 0)) = true := ho
  rw [carrierSet_of_native hprof hp hlay hpt]
  simp only [hdark, hs, hnat, hon, hb, hfit, decide_eq_true hadds, ne_eq, not_true_eq_false, if_false, Bool.not_true, Bool.false_eq_true, false_and,
    decide_false, Bool.false_and, Bool.not_false, Bool.and_true, if_true]

variable (hbuild : (d.rx (u8 e 0)).build = none) (hres : (d.rx (u8 e 0)).restoring = false)
  (hroom : d.stepAdds (u8 e 0) p.slots = 0 ∨ fitsBandwidth d.stacksFor (d.bufferedChans + d.stepAdds (u8 e 0) p.slots) d.protectedChans = true)
include hbuild hres hroom

/-- A point that the carrier may take asks for its lasts. -/
theorem carrierSet_noLast (hl : lastsForPoint env (u8 e 0) (p.need (env.par.val (pCdRangeLo + u8 e 0)) (env.par.val (pCdRangeHi + u8 e 0)))
      (decide ((d.rx (u8 e 0)).op.map OpPoint.symrate ≠ some p.symrate)) d = none) : carrierSet env e d = .refuse .noLast 0 := by
  have hon : d.domOn (domCarrier (u8 e 0)) = true := ho
  have hfit : (decide (0 < d.stepAdds (u8 e 0) p.slots) && !fitsBandwidth d.stacksFor (d.bufferedChans + d.stepAdds (u8 e 0) p.slots) d.protectedChans) = false := by
    rcases hroom with h | h <;> simp [h]
  have hlasts : (if (d.rx (u8 e 0)).build.isSome = true then (d.endRestore (u8 e 0)).dropBuild (u8 e 0) else d.endRestore (u8 e 0)) = d := by
    rw [hbuild, Dev.endRestore_of_idle hres]; rfl
  rw [carrierSet_of_native hprof hp hlay hpt]
  simp only [hlasts, hl]
  simp only [hdark, hs, hnat, hon, hb, hfit, ne_eq, not_true_eq_false, if_false, Bool.not_true, Bool.false_eq_true, false_and, decide_false, Bool.false_and]

theorem carrierSet_takes {d1 : Dev} (hl : lastsForPoint env (u8 e 0) (p.need (env.par.val (pCdRangeLo + u8 e 0)) (env.par.val (pCdRangeHi + u8 e 0)))
      (decide ((d.rx (u8 e 0)).op.map OpPoint.symrate ≠ some p.symrate)) d = some d1) : carrierSet env e d =
    let d2 := ((d1.stopRx env (u8 e 0) .down).restored (u8 e 0) (p.need (env.par.val (pCdRangeLo + u8 e 0)) (env.par.val (pCdRangeHi + u8 e 0)))).updCarrier (u8 e 0) fun c =>
      { c with
        tx := { c.tx.capture env.par (u8 e 0) with op := some p },
        rx := { c.rx.capture env.par (u8 e 0) with op := some p, build := none, preempted := false, short := false, stale := true, acqFailAt := none,
                                                   recentreDeferred := false, trimLimitRaised := false } }
    let r := carrierSetResult p ((d2.growElastic (u8 e 0) p.slots).carrierConfigured env (u8 e 0) (fsChanges (d.rx (u8 e 0)).op p || fsChanges (d.tx (u8 e 0)).op p))
    .done r.1 r.2 := by
  have hon : d.domOn (domCarrier (u8 e 0)) = true := ho
  have hfit : (decide (0 < d.stepAdds (u8 e 0) p.slots) && !fitsBandwidth d.stacksFor (d.bufferedChans + d.stepAdds (u8 e 0) p.slots) d.protectedChans) = false := by
    rcases hroom with h | h <;> simp [h]
  have hlasts : (if (d.rx (u8 e 0)).build.isSome = true then (d.endRestore (u8 e 0)).dropBuild (u8 e 0) else d.endRestore (u8 e 0)) = d := by
    rw [hbuild, Dev.endRestore_of_idle hres]; rfl
  rw [carrierSet_of_native hprof hp hlay hpt]
  simp only [hlasts, hl]
  simp only [hdark, hs, hnat, hon, hb, hfit, ne_eq, not_true_eq_false, if_false, Bool.not_true, Bool.false_eq_true, false_and, decide_false, Bool.false_and]

end

section
variable {d : Dev} {env : Env} {e : CmdEntry} {p : OpPoint}

/-- A window that would leave out the dispersion of a locked receiver (R141). -/
theorem cdReach_of_outside (hw : i32 e 4 ≤ i32 e 8) (hs : d.inService = true) (ho : d.domOn (u8 e 0) = true)
    (hop : (d.rx (u8 e 0)).op = some p) (hneed : p.need (i32 e 4) (i32 e 8) ≤ 20) (hr : d.rateBusy (u8 e 0) = false) (hb : (d.rx (u8 e 0)).build = none)
    (hl : d.locked (u8 e 0) = true) (hout : (d.rx (u8 e 0)).cd < i32 e 4 ∨ i32 e 8 < (d.rx (u8 e 0)).cd) (hf : force e = false) :
    cdReach env e d = .refuse .trafficPresent 0 := by
  have hon : d.domOn (domCarrier (u8 e 0)) = true := ho
  simp only [cdReach, not_lt.mpr hw, hs, hon, hop, Nat.not_lt.mpr hneed, hr, hb, hl, decide_eq_true hout, hf, if_true, if_false, Bool.not_true, Bool.not_false,
    Bool.and_true, Bool.false_eq_true, Option.any_none, Bool.or_self]

/-- A window around it: the set stays where its size does, else a shadow set is loaded (R141). -/
theorem cdReach_of_inside (hs : d.inService = true) (ho : d.domOn (u8 e 0) = true)
    (hop : (d.rx (u8 e 0)).op = some p) (hneed : p.need (i32 e 4) (i32 e 8) ≤ 20) (hr : d.rateBusy (u8 e 0) = false) (hb : (d.rx (u8 e 0)).build = none)
    (hl : d.locked (u8 e 0) = true) (hlo : i32 e 4 ≤ (d.rx (u8 e 0)).cd) (hhi : (d.rx (u8 e 0)).cd ≤ i32 e 8) :
    cdReach env e d = if p.profile ≠ 0 then .done [] (d.setWindow (u8 e 0) (i32 e 4) (i32 e 8))
      else if p.need (i32 e 4) (i32 e 8) = d.setSize (u8 e 0) then .done [] (d.setWindow (u8 e 0) (i32 e 4) (i32 e 8))
      else match d.allocShadow env (u8 e 0) (p.need (i32 e 4) (i32 e 8)) with
        | none => .refuse .noLast 0
        | some d1 => .start (50 * ms) (d1.startBuild env (u8 e 0) ⟨.reach (i32 e 4) (i32 e 8), false, (d.rx (u8 e 0)).dL, false⟩) := by
  have hon : d.domOn (domCarrier (u8 e 0)) = true := ho
  have hin : decide ((d.rx (u8 e 0)).cd < i32 e 4 ∨ i32 e 8 < (d.rx (u8 e 0)).cd) = false := decide_eq_false (by omega)
  simp only [cdReach, not_lt.mpr (hlo.trans hhi), hs, hon, hop, Nat.not_lt.mpr hneed, hr, hb, hl, hin, if_true, if_false, Bool.not_true, Bool.not_false,
    Bool.and_true, Bool.false_eq_true, Option.any_none, Bool.or_self, Bool.and_false, Bool.false_and] <;> rfl

theorem cdReach_of_size (hs : d.inService = true) (ho : d.domOn (u8 e 0) = true)
    (hop : (d.rx (u8 e 0)).op = some p) (hneed : p.need (i32 e 4) (i32 e 8) ≤ 20) (hr : d.rateBusy (u8 e 0) = false) (hb : (d.rx (u8 e 0)).build = none)
    (hl : d.locked (u8 e 0) = true) (hlo : i32 e 4 ≤ (d.rx (u8 e 0)).cd) (hhi : (d.rx (u8 e 0)).cd ≤ i32 e 8)
    (hsize : p.need (i32 e 4) (i32 e 8) = d.setSize (u8 e 0)) : cdReach env e d = .done [] (d.setWindow (u8 e 0) (i32 e 4) (i32 e 8)) := by
  rw [cdReach_of_inside hs ho hop hneed hr hb hl hlo hhi, if_pos hsize, ite_self]

theorem cdReach_of_shadow (hs : d.inService = true) (ho : d.domOn (u8 e 0) = true)
    (hop : (d.rx (u8 e 0)).op = some p) (hneed : p.need (i32 e 4) (i32 e 8) ≤ 20) (hr : d.rateBusy (u8 e 0) = false) (hb : (d.rx (u8 e 0)).build = none)
    (hl : d.locked (u8 e 0) = true) (hlo : i32 e 4 ≤ (d.rx (u8 e 0)).cd) (hhi : (d.rx (u8 e 0)).cd ≤ i32 e 8) (hnat : p.profile = 0)
    (hsize : p.need (i32 e 4) (i32 e 8) ≠ d.setSize (u8 e 0)) {d1 : Dev} (ha : d.allocShadow env (u8 e 0) (p.need (i32 e 4) (i32 e 8)) = some d1) :
    cdReach env e d = .start (50 * ms) (d1.startBuild env (u8 e 0) ⟨.reach (i32 e 4) (i32 e 8), false, (d.rx (u8 e 0)).dL, false⟩) := by
  rw [cdReach_of_inside hs ho hop hneed hr hb hl hlo hhi, if_neg (not_not.mpr hnat), if_neg hsize, ha]

theorem cdReach_of_need (hw : i32 e 4 ≤ i32 e 8) (hs : d.inService = true) (ho : d.domOn (u8 e 0) = true) (hop : (d.rx (u8 e 0)).op = some p)
    (hneed : 20 < p.need (i32 e 4) (i32 e 8)) : cdReach env e d = .refuse .badParam (reachNeedDetail (i32 e 4) (i32 e 8)) := by
  have hon : d.domOn (domCarrier (u8 e 0)) = true := ho
  simp only [cdReach, not_lt.mpr hw, hs, hon, hop, hneed, if_true, if_false, Bool.not_true, Bool.false_eq_true]

end

theorem LastState.owner_lt (x : LastState) : x.owner < 2 ^ 4 := by
  cases x <;> simp only [LastState.owner] <;> omega

theorem LastState.lender_lt (x : LastState) : x.lender < 2 ^ 4 := by
  cases x <;> simp only [LastState.lender] <;> omega

/-- CMD_LAST_STATUS: 32 owners, 32 lenders. -/
theorem lastStatus_fields (env : Env) (d : Dev) : ∃ tail, lastStatus env d = resultBits
    ((List.range 32).map (fun i => (4, (d.last i).owner)) ++ ((List.range 32).map (fun i => (4, (d.last i).lender)) ++ tail)) :=
  ⟨_, congrArg resultBits ((List.append_assoc _ _ _).trans ((List.append_assoc _ _ _).trans (congrArg _ (List.append_assoc _ _ _).symm)))⟩

/-- Settles O28. -/
theorem dispersionCommands : Obligations.DispersionCommands := by
  unfold Obligations.DispersionCommands
  intro e s s1 n d r
  refine ⟨fun p h hprof hp hlay hpt => ⟨fun hst => h.refuses rfl ((carrierSet_of_native hprof hp hlay hpt).trans (if_pos hst)),
      fun hdark hs hnat ho hb hbuild hres => ?_⟩,
    fun p h hw hs ho hop => ⟨fun hneed => h.refuses rfl (cdReach_of_need hw hs ho hop hneed), fun hneed hr hb =>
      ⟨fun hl hout hf => h.refuses rfl (cdReach_of_outside hw hs ho hop hneed hr hb hl hout hf), fun hl hlo hhi hsize => ?_, fun hl hlo hhi hnat hsize d1 ha => ?_⟩⟩,
    fun h hw => h.refuses rfl (if_pos hw), fun h => ⟨_, h.completes rfl rfl, fun i hi => ⟨?_, ?_⟩⟩⟩
  · refine ⟨fun hadds hfit => h.refuses rfl (carrierSet_of_bandwidth hprof hp hlay hpt hdark hs hnat ho hb hadds hfit),
      fun hroom => ⟨fun d1 hl => ⟨_, _, rfl, rfl, h.completes rfl ?_⟩, fun hl => h.refuses rfl ?_⟩⟩
    · exact carrierSet_takes hprof hp hlay hpt hdark hs hnat ho hb hbuild hres hroom hl
    · exact carrierSet_noLast hprof hp hlay hpt hdark hs hnat ho hb hbuild hres hroom hl
  · exact h.completes rfl (cdReach_of_size (env := s.env) hs ho hop hneed hr hb hl hlo hhi hsize)
  · exact h.starts rfl (cdReach_of_shadow (env := s.env) hs ho hop hneed hr hb hl hlo hhi hnat hsize ha)
  · obtain ⟨tail, ht⟩ := lastStatus_fields s.env d
    rw [ht]
    have hi' : (List.range 32)[i]? = some i := List.getElem?_range hi
    have hown := bitsAt_resultBits_map (fs := []) (lo := 0) (gs := (List.range 32).map (fun i => (4, (d.last i).lender)) ++ tail) (w := 4) (g := fun i => (d.last i).owner) (List.nil_append _).symm hi' rfl (Nat.le_of_ble_eq_true rfl)
    rw [Nat.zero_add] at hown
    exact hown.trans (Nat.mod_eq_of_lt (LastState.owner_lt _))
  · obtain ⟨tail, ht⟩ := lastStatus_fields s.env d
    rw [ht]
    have hi' : (List.range 32)[i]? = some i := List.getElem?_range hi
    exact (bitsAt_resultBits_map rfl hi' (fieldsWidth_map_const 4 _ _) (Nat.le_of_ble_eq_true rfl)).trans (Nat.mod_eq_of_lt (LastState.lender_lt _))

end Sys2Proof.Machine
end

section
/-! Dispersion: loss of signal, loads and switches, the search and the trim (chapter 5). -/

namespace Sys2Proof.Machine

theorem losDeclare_of_low {d : Dev} {env : Env} {n rms : Nat} (hl : (d.rx n).los = false) (ho : d.domOn n = true) (hop : (d.rx n).op.isSome = true)
    (h : rms < env.losThr n) : losDeclare env n rms d =
      ((((d.raise .rxLos n []).stopRx env n .noSignal).updRx n fun r => { r with los := true }).updCal n fun c => { c with losSeen := true }).breezeRxLost n := by
  have hcond : ¬((d.rx n).los || !d.domOn (domCarrier n) || decide (env.losThr n ≤ rms)) = true := by
    rw [hl, show d.domOn (domCarrier n) = true from ho, decide_eq_false (Nat.not_le.mpr h)]; exact Bool.false_ne_true
  rw [losDeclare, if_neg hcond, if_pos hop]

/-- Loss of signal clears: a set that is to be rebuilt makes the attempt a full one. -/
theorem losClear_of_high {d : Dev} {env : Env} {n rms : Nat} (hl : (d.rx n).los = true) (h : env.losThr n ^ 20 * 10 ^ 3 ≤ rms ^ 20) :
    losClear env n rms d =
      let d1 := (d.updRx n fun r => { r with los := false, acq := .down }).raise .rxLosClr n []
      if (d.rx n).rebuild then d1.startFull env n else d1.goFast env n := by
  rw [losClear, if_pos (by rw [hl, threeDbAbove, decide_eq_true h]; rfl)]

theorem adcClipWindow_of_samples {samples : Nat} (d : Dev) (env : Env) (n clipped : Nat) (h : 0 < samples) : adcClipWindow env n clipped samples d =
    ((d.count (ctrRxClip n) clipped).updRx n fun r => { r with clipPpm := clipped * 1000000 / samples }).raiseIf
      (decide (samples * env.par.nat (pRxAdcClipAlarm + n) < clipped * 1000000)) .adcClip n [(4, (clipped * 1000000 / samples : Nat))] := by
  simp only [adcClipWindow, if_neg (Nat.ne_of_gt h)]

theorem loadEnd_of_restoring {d : Dev} {env : Env} {n : Nat} (hr : (d.rx n).restoring = true) (hp : d.runPlaced .builder n = true) :
    loadEnd env n d = ((d.endRun .builder n).updRx n fun r => { r with restoring := false }).startFast env n := by
  rw [loadEnd, if_pos (by rw [hr, hp]; rfl)]

/-- A shadow set of a locked receiver is ready for its switch. -/
theorem loadEnd_of_shadow {d : Dev} {env : Env} {n : Nat} {b : Build} (hb : (d.rx n).build = some b) (hc : b.why ≠ .candidate) (hs : b.why ≠ .rateStep)
    (hp : d.runPlaced .builder n = true) (hi : b.inPlace = false) (hl : d.locked n = true) (hr : (d.rx n).restoring = false) :
    loadEnd env n d = (d.endRun .builder n).updRx n fun r => { r with build := some { b with loaded := true } } := by
  simp only [loadEnd, hr, hb, hp, hi, hl, hc, hs, Bool.false_and, Bool.false_eq_true, if_false, if_true, false_or, reduceCtorEq]

theorem shadowSwitch_of_loaded {d : Dev} {n : Nat} {b : Build} (hb : (d.rx n).build = some b) (hl : b.loaded = true) (hk : d.locked n = true)
    (hs : b.why ≠ .rateStep) : shadowSwitch n d = (d.switchSets n).afterSwitch n b := by
  simp only [shadowSwitch, hb]; exact if_pos ⟨hl, hk, hs⟩

theorem reallocate_of_short {d d1 : Dev} {env : Env} {n : Nat} (hs : (d.rx n).short = true) (hb : (d.rx n).build = none) (ho : d.domOn n = true)
    (ha : d.allocActive env n (d.needOf n) = some d1) :
    reallocate env n d = ((d1.updRx n fun r => { r with stale := true }).restored n (d.needOf n)).startFull env n := by
  have hon : d.domOn (domCarrier n) = true := ho
  simp only [reallocate, hs, hb, hon, Bool.true_or, Bool.and_self, Option.isNone_none, if_true, ha]

theorem searchEnd_of_search {d : Dev} {env : Env} {n : Nat} (found : SearchReport) (ha : (d.rx n).acq = .search) (hp : d.runPlaced .search n = true) :
    searchEnd env n found d = match (d.rx n).candidatesOf found with
      | [] => ((d.endRun .search n).raise .cdSearchFail n [(4, (d.rx n).lo), (4, (d.rx n).hi)]).acqFail env n .noCd
      | cand :: rest => ((d.endRun .search n).raise .cdSearchDone n [(4, cand), (1, (rest.length + 1 : Nat))]).loadCandidate env n cand rest := by
  rw [searchEnd, if_pos ⟨ha, hp⟩] <;> rfl

theorem Rx.candidatesOf_length (r : Rx) (f : SearchReport) : (r.candidatesOf f).length ≤ 3 := by
  simp [Rx.candidatesOf, searchPeaks]

/-- A window with signal and error in both polarisations. -/
theorem qualityWindow_of_signal {d : Dev} {n : Nat} {p : OpPoint} {q : QualityReport} (hop : (d.rx n).op = some p) (hl : d.locked n = true)
    (h1 : q.sigX ≠ 0) (h2 : q.sigY ≠ 0) (h3 : q.errX ≠ 0) (h4 : q.errY ≠ 0) : qualityWindow n q d = d.updRx n fun r => { r with
      mimo := q.taps, meas := ⟨(qualitySnr p q).1, (qualitySnr p q).2.1, (qualitySnr p q).2.2.1, (qualitySnr p q).2.2.2, Config.eqDgd q.taps, q.freq, q.clock,
        Config.eqResidual q.taps, Config.eqPdl q.taps, Config.eqSopRate r.mimo q.taps, q.pilotBer⟩ } := by
  simp only [qualityWindow, hop, hl, h1, h2, h3, h4, or_self, if_true, if_false]

/-- The trim follows within 80 % of its range, no re-centring deferred (R140). -/
theorem trimUpdate_of_within {d : Dev} {env : Env} {n : Nat} {p : OpPoint} (hop : (d.rx n).op = some p) (hl : d.locked n = true)
    (hw : p.trimWithin (max (-(p.trimMax : Int)) (min (p.trimMax : Int) ((d.rx n).dT + trimMove (d.rx n).meas.resid))) 80 = true)
    (hr : (d.rx n).recentreDeferred = false) : trimUpdate env n d =
      d.updRx n fun r => r.moveTrim env.now (max (-(p.trimMax : Int)) (min (p.trimMax : Int) ((d.rx n).dT + trimMove (d.rx n).meas.resid))) := by
  have hmove (v : Int) : ((d.rx n).moveTrim env.now v).recentreDeferred = false := by
    unfold Rx.moveTrim; split <;> exact hr
  simp only [trimUpdate, hop, hl, hw, if_true, Bool.not_true, Bool.and_false, Bool.false_eq_true, if_false, Dev.updRx_same, hmove, false_and]

/-- Settles O29. -/
theorem dispersionEvents : Obligations.DispersionEvents := by
  unfold Obligations.DispersionEvents
  intro s c n d r
  refine ⟨fun rms hl ho hop h => exec_of_onDev rfl (losDeclare_of_low (env := s.env) hl ho hop h),
    fun rms hl h => ⟨fun hr => exec_of_onDev rfl ((losClear_of_high (env := s.env) hl h).trans (if_neg (hr ▸ Bool.false_ne_true))),
      fun hr => exec_of_onDev rfl ((losClear_of_high (env := s.env) hl h).trans (if_pos hr))⟩,
    fun clipped samples h => exec_of_onDev rfl (adcClipWindow_of_samples d s.env n clipped h),
    fun b hb hc hs hp hi hl hr => exec_of_onDev rfl (loadEnd_of_shadow hb hc hs hp hi hl hr), fun hr hp => exec_of_onDev rfl (loadEnd_of_restoring hr hp),
    fun b hb hl hk hs => exec_of_onDev rfl (shadowSwitch_of_loaded hb hl hk hs), fun d1 hs hb ho ha => exec_of_onDev rfl (reallocate_of_short (env := s.env) hs hb ho ha),
    fun found ha hp => ⟨fun cand rest hc => exec_of_onDev rfl ((searchEnd_of_search found ha hp).trans ?_), fun hc => exec_of_onDev rfl ((searchEnd_of_search found ha hp).trans ?_),
      r.candidatesOf_length found⟩, fun p q hop hl h1 h2 h3 h4 => ?_⟩
  · simp only [show (s.dev.rx n).candidatesOf found = cand :: rest from hc]; rfl
  · simp only [show (s.dev.rx n).candidatesOf found = [] from hc]; rfl
  · intro resid dT d1 hw hr
    refine exec_of_onDev rfl ?_
    have hq : qualityWindow n q d = d1 := qualityWindow_of_signal hop hl h1 h2 h3 h4
    have hrx : d1.rx n = _ := Dev.updRx_same d n _
    rw [show qualityWindow (↑c) q s.dev = d1 from hq]
    have htrim := trimUpdate_of_within (d := d1) (env := s.env) (n := n) (p := p) (by rw [hrx]; exact hop) (by rw [Dev.locked, hrx]; exact hl)
    rw [hrx] at htrim
    exact htrim hw hr

end Sys2Proof.Machine
end

section
/-! Acquisition, lock and recovery of a carrier: the events (chapter 6). -/

namespace Sys2Proof.Machine

/-- A full acquisition begins where the conditions of R160 hold: with an engine in SEARCH, without one in WAIT. -/
theorem Dev.startFull_of_can {d : Dev} {n : Nat} (env : Env) (h : d.canAcquire n = true) : d.startFull env n =
    let d1 := (((d.fecCapture env n).updRx n fun r => r.captureAcq env.par n).endRun .search n).startRun env .search n
    if d1.runPlaced .search n then d1.updRx n fun r => { r with acq := .search, fast := false, candidates := [], attemptStart := env.now }
    else d1.updRx n fun r => { r with acq := .wait, fast := false, candidates := [], attemptStart := env.now, failCause := .noEngine } := if_pos h

theorem candidateLoadEnd_of_load {d : Dev} {n : Nat} {b : Build} (hb : (d.rx n).build = some b) (ha : (d.rx n).acq = .load) (hw : b.why = .candidate)
    (hp : d.runPlaced .builder n = true) : candidateLoadEnd n d =
      (d.endRun .builder n).updRx n fun r => { r.setTrim 0 with acq := .coarse, dL := b.dL, build := none, stale := false, rebuild := false } := by
  simp only [candidateLoadEnd, hb]; exact if_pos ⟨ha, hw, hp⟩

/-- A spectrum with power has a centroid, and the derotator takes it within its range (R151). -/
theorem coarseEnd_of_power {d : Dev} {n : Nat} {sp : Spectrum} (env : Env) (ok : Bool) (ha : (d.rx n).acq = .coarse) (hp : 0 < (centroid sp).2) :
    coarseEnd env n sp ok d = if (d.rx n).foRange * (centroid sp).2 < (centroid sp).1.natAbs then d.acqFail env n .noFreq
      else
        let d1 := d.updRx n fun r => { r with derot := roundHalfAway (1000 * (centroid sp).1) (centroid sp).2 }
        if !ok then d1.acqFail env n .noTiming else d1.updRx n fun r => { r with acq := .preconverge } := by
  simp only [coarseEnd, ha, if_true, if_neg (Nat.ne_of_gt hp)]

theorem pilotSyncEnd_of_native {d : Dev} {n : Nat} {p : OpPoint} (env : Env) (rep : PilotReport) (ha : (d.rx n).acq = .pilotSync) (hop : (d.rx n).op = some p)
    (hp : p.profile = 0) : pilotSyncEnd env n rep d = match pilotAccepted rep with
      | none => d.acqFail env n .noPilot
      | some (c, g) => d.updRx n fun r =>
          { r with acq := .track, pilotPos := pilotPosition rep, pilotSwap := c.1, pilotTurn := (c.2.1, c.2.2), pilotGen := g, repeatAt := none } := by
  simp only [pilotSyncEnd, ha, hop, hp, if_true, Option.any_some, ne_eq, not_true_eq_false, decide_false, Bool.false_eq_true, if_false] <;>
    (cases pilotAccepted rep <;> rfl)

theorem pilotSyncEnd_of_interop {d : Dev} {n : Nat} {p : OpPoint} (env : Env) (rep : PilotReport) (ha : (d.rx n).acq = .pilotSync) (hop : (d.rx n).op = some p)
    (hp : p.profile ≠ 0) : pilotSyncEnd env n rep d = d.updRx n fun r => { r with acq := .track } := by
  simp only [pilotSyncEnd, ha, hop, if_true, Option.any_some, decide_eq_true hp]

/-- The lock criteria over 16 windows (R162). -/
theorem lockHolds_of_windows {rep : LockReport} (hlen : 16 ≤ rep.windows.length)
    (h : ∀ w ∈ rep.windows.take 16, w.errs * 100 < 5 * 4096 ∧ w.timing.natAbs ≤ 150000 ∧ w.resid.natAbs < 50 ∧ w.corr < 500) : lockHolds rep = true := by
  have hall : (rep.windows.take 16).all windowGood = true := List.all_eq_true.mpr fun w hw => by
    obtain ⟨h1, h2, h3, h4⟩ := h w hw
    simp only [windowGood, decide_eq_true h1, decide_eq_true h2, decide_eq_true h3, decide_eq_true h4, Bool.and_self]
  simp only [lockHolds, decide_eq_true hlen, hall, Bool.and_self]

theorem rxLock_of_track {d : Dev} {n : Nat} {rep : LockReport} (env : Env) (ha : (d.rx n).acq = .track) (h : lockHolds rep = true) : rxLock env n rep d =
    (((d.updRx n fun r => { r.setCount (env.nlcTarget n) with
        acq := .locked, fast := false, acqTime := (env.now - (d.rx n).attemptStart) / us, acqCount := r.acqCount + 1, lockedSince := env.now, seedsSeen := [],
        acqFailAt := none, candidates := [] }).raise .rxLock n
      [(4, ((env.now - (d.rx n).attemptStart) / us : Nat))]).endReacq n .ok 0).rxLocked n := if_pos ⟨ha, h⟩

theorem acqTimeout_of_cause {d : Dev} {n : Nat} {cause : FailCause} (env : Env) (h : stateCause (d.rx n).acq = some cause) :
    acqTimeout env n d = (if (d.rx n).acq = .search then d.endRun .search n else d).acqFail env n cause := by
  simp only [acqTimeout, h]

/-! ### Slips -/

/-- A run of pulses adds requests and nothing else. -/
theorem Dev.foldPulses (l : List Unit) (n : Nat) : ∀ d : Dev, l.foldl (fun d _ => d.emit (.pulse 6 n)) d = { d with out := d.out ++ l.map fun _ => .pulse 6 n } := by
  induction l with
  | nil => intro d; rw [List.foldl_nil, List.map_nil, List.append_nil]
  | cons u l ih => intro d; rw [List.foldl_cons, ih, List.map_cons]; simp [Dev.emit]

theorem Dev.countSlips_eq (d : Dev) (n k : Nat) : d.countSlips n k =
    { (d.count (ctrSlips n) k).updRx n fun r => { r with slips := r.slips + k } with out := d.out ++ List.replicate k (.pulse 6 n) } := by
  rw [Dev.countSlips, Dev.foldPulses, List.map_replicate]; rfl

theorem Dev.countSlips_rx (d : Dev) (n k : Nat) : (d.countSlips n k).rx n = { d.rx n with slips := (d.rx n).slips + k } := by
  rw [Dev.countSlips_eq]; exact Dev.updRx_same (d.count (ctrSlips n) k) n fun r => { r with slips := r.slips + k }

theorem slipWindow_of_locked {d : Dev} {n : Nat} (env : Env) (more : Nat) (hl : d.locked n = true) : slipWindow env n more d =
    ((d.countSlips n more).updRx n fun r => { r with slips := 0 }).raiseIf (decide (env.par.nat (pRxSlipAlarm + n) < (d.rx n).slips + more))
      .cycleSlip n [(4, ((d.rx n).slips + more : Nat))] := by
  simp only [slipWindow, hl, if_true, Dev.countSlips_rx]

theorem cycleSlip_of_locked {d : Dev} {n : Nat} {rep : SlipReport} (hl : d.locked n = true) : cycleSlip n rep d =
    if phaseSlips rep then (d.countSlips n 1).updRx n fun r => { r with ddPhase := rep.pilot } else d.updRx n fun r => { r with ddPhase := rep.directed } := if_pos hl

theorem Dev.raiseIf_rx (d : Dev) (c : Bool) (ev : Evt) (i : Nat) (fs : List (Nat × Int)) (n : Nat) : (d.raiseIf c ev i fs).rx n = d.rx n := by
  unfold Dev.raiseIf; split <;> rfl

/-- A repeat of the far-end seed where it is expected (R152). -/
theorem seedRepeat_of_due {d : Dev} {env : Env} {n : Nat} (seed : Nat) (ha : (d.rx n).acq = .locked) (hd : (d.rx n).repeatDue env.now = true) :
    ∃ d1 : Dev, seedRepeat env n seed d = d1 ∧ (d1.rx n).seedRx = seed ∧ (d1.rx n).seedsSeen = (seed :: (d.rx n).seedsSeen).take 3 ∧
      (d1.rx n).pilotGen = BitVec.ofNat 15 seed ∧ (d1.rx n).repeatAt = some env.now := by
  have hrun : seedRepeat env n seed d = _ := if_pos ⟨.inr (.inr ha), hd⟩
  refine ⟨_, hrun, ?_⟩
  simp only [Dev.raiseIf_rx, Dev.updRx_same, if_pos ha, and_self]

theorem nlcTrainEnd_of_placed {d : Dev} {n : Nat} (env : Env) (fit : List (BitVec 48)) (new old : Int) (ht : (d.rx n).nlcTraining = true)
    (hp : d.runPlaced .trainer n = true) : nlcTrainEnd env n fit new old d =
      let d1 := (d.endRun .trainer n).updRx n fun r => { r with nlcTraining := false }
      if old + 5 ≤ new ∧ env.par.val (pRxNlcMode + n) = 1 then
        (d1.updRx n fun _ => ((d1.rx n).commitNlc (fitTable fit (env.par.nat (pRxNlcTriplets + n))) (d.runCluster .trainer n)).1).countSuperseded
          ((d1.rx n).commitNlc (fitTable fit (env.par.nat (pRxNlcTriplets + n))) (d.runCluster .trainer n)).2
      else d1 := if_pos ⟨ht, hp⟩

/-- Settles O30. -/
theorem acquisitionEvents : Obligations.AcquisitionEvents := by
  unfold Obligations.AcquisitionEvents
  intro s c n d r
  refine ⟨fun ha hc => exec_of_onDev rfl ((if_pos ha).trans (Dev.startFull_of_can s.env hc)), fun b hb ha hw hp => exec_of_onDev rfl (candidateLoadEnd_of_load hb ha hw hp),
    fun sp ha hp hin => ⟨exec_of_onDev rfl ((coarseEnd_of_power s.env true ha hp).trans (if_neg (Nat.not_lt.mpr hin))),
      exec_of_onDev rfl ((coarseEnd_of_power s.env false ha hp).trans (if_neg (Nat.not_lt.mpr hin)))⟩,
    fun sp ok ha hp hout => exec_of_onDev rfl ((coarseEnd_of_power s.env ok ha hp).trans (if_pos hout)), fun ha => exec_of_onDev rfl (if_pos ha), fun rep hc ha => ?_,
    fun rep hc ha hlen hw => ?_, fun ha => exec_of_onDev rfl ?_, fun ha => exec_of_onDev rfl ?_, fun ha hw => exec_of_onDev rfl (if_pos ⟨ha, hw⟩),
    fun ws why hl hw => exec_of_onDev rfl ?_, fun ws hw => exec_of_onDev rfl ?_, fun seed hd => exec_of_onDev rfl (if_neg ?_), fun seed ha hd _ => ?_,
    fun rep hc hl => ⟨fun h => ?_, fun h => ?_⟩, fun more hl => exec_of_onDev rfl (slipWindow_of_locked s.env more hl),
    fun p q hop hl h1 h2 h3 h4 => exec_of_onDev rfl (qualityWindow_of_signal hop hl h1 h2 h3 h4), fun p hm hl ht hop hp h1 h2 => exec_of_onDev rfl (if_pos ?_),
    fun fit new old ht hp => ?_, fun hf => exec_of_onDev rfl ((if_pos (.inl hf)).trans ?_)⟩
  · subst hc
    refine ⟨fun p hop hp => exec_of_onDev rfl (pilotSyncEnd_of_interop s.env rep ha hop hp), fun p sw a b g hop hp hacc => exec_of_onDev rfl ?_,
      fun p hop hp hacc => exec_of_onDev rfl ?_⟩
    · rw [pilotSyncEnd_of_native s.env rep ha hop hp, hacc]
    · rw [pilotSyncEnd_of_native s.env rep ha hop hp, hacc]
  · subst hc
    exact exec_of_onDev rfl (rxLock_of_track s.env ha (lockHolds_of_windows hlen hw))
  · refine (acqTimeout_of_cause (cause := .noCd) s.env (by rw [show (s.dev.rx ↑c).acq = .search from ha]; rfl)).trans ?_
    rw [if_pos (show (s.dev.rx ↑c).acq = .search from ha)]
  · refine (acqTimeout_of_cause (cause := .noPilot) s.env (by rw [show (s.dev.rx ↑c).acq = .pilotSync from ha]; rfl)).trans ?_
    rw [if_neg (by rw [show (s.dev.rx ↑c).acq = .pilotSync from ha]; exact Acq.noConfusion)]
  · simp only [lossOfLock, hw]; exact if_pos hl
  · simp only [lossOfLock, hw]; rfl
  · rw [show (s.dev.rx ↑c).repeatDue s.env.now = false from hd]; exact fun h => Bool.false_ne_true h.2
  · obtain ⟨d1, hx, h1, h2, h3, h4⟩ := seedRepeat_of_due (env := s.env) (n := n) seed.toNat ha hd
    exact ⟨d1, h1, h2, h3.trans (BitVec.ofNat_toNat _ _ |>.trans (BitVec.setWidth_eq _)), h4, exec_of_onDev rfl hx⟩
  · subst hc
    have hrow := exec_of_onDev (i := .cycleSlip rep) (s := s) rfl ((cycleSlip_of_locked hl).trans (if_pos (decide_eq_true h)))
    refine ⟨_, hrow, ?_, ?_, ?_⟩
    · rw [Dev.countSlips_eq]; exact Dev.count_same _ _ _
    · rw [Dev.updRx_same, Dev.countSlips_rx]
    · rw [Dev.countSlips_eq]; rfl
  · subst hc
    refine exec_of_onDev rfl ((cycleSlip_of_locked hl).trans (if_neg ?_))
    rw [phaseSlips, decide_eq_false (Nat.not_le.mpr h)]; exact Bool.false_ne_true
  · refine ⟨hm, hl, ht, ?_, h1, h2⟩
    rw [show (s.dev.rx ↑c).op = some p from hop]; exact decide_eq_true hp
  · intro d1
    refine ⟨fun h => exec_of_onDev rfl ((nlcTrainEnd_of_placed s.env fit new old ht hp).trans (if_neg fun hx => by omega)), fun h hm => ?_⟩
    exact exec_of_onDev rfl ((nlcTrainEnd_of_placed s.env fit new old ht hp).trans (if_pos ⟨h, hm⟩))
  · simp only [show (s.dev.rx ↑c).nlc.fading.isSome = true from hf]; rfl

end Sys2Proof.Machine
end

section
/-! The receive commands (chapter 6). -/

namespace Sys2Proof.Machine

theorem Rx.stateCode_lt (r : Rx) : r.stateCode < 2 ^ 4 := by
  unfold Rx.stateCode; repeat' split
  all_goals decide

theorem nlcState_lt (env : Env) (n : Nat) (r : Rx) : nlcState env n r < 2 ^ 2 := by
  unfold nlcState; repeat' split
  all_goals decide

theorem ofSigned_lt (w : Nat) (v : Int) : ofSigned w v < 2 ^ w := by
  have hpos : (0 : Int) < ((2 ^ w : Nat) : Int) := by exact_mod_cast Nat.two_pow_pos w
  have h := Int.emod_lt_of_pos v hpos
  unfold ofSigned; omega

section
variable {d : Dev} {env : Env} {e : CmdEntry} (hs : d.inService = true) (hh : (d.carrier (u8 e 0)).heldDown = false) (ho : d.domOn (u8 e 0) = true)
include hs hh ho

/-- A re-acquisition on a carrier in Service, its domain ON (R165). -/
theorem reacquire_of_on : reacquire env e d =
    if (d.rx (u8 e 0)).op.isNone then .refuse .sequence 0
    else if d.rateBusy (u8 e 0) || (d.rx (u8 e 0)).build.any (fun b => !b.inPlace) then .refuse .busy 0
    else if d.locked (u8 e 0) && d.anyBundleEnabled (u8 e 0) && !force e then .refuse .trafficPresent 0
    else
      let full := bitAt (u8 e 1) 0
      let goal : Acq := if (d.rx (u8 e 0)).los then .noSignal else .down
      let bound := if full || (d.rx (u8 e 0)).stale then fullBound d (u8 e 0) else 5500 * us
      if (d.rx (u8 e 0)).build.any (fun b => b.why.isReach || (!full && decide (b.why = .recentre))) || (!full && (d.rx (u8 e 0)).restoring) then
        .start bound (d.updRx (u8 e 0) fun r => { r with reacq := true })
      else
        let d1 := (((d.endRestore (u8 e 0)).endRun .builder (u8 e 0)).stopRx env (u8 e 0) goal).updRx (u8 e 0) fun r => { r with reacq := true, build := none }
        .start bound (if full then d1.startFull env (u8 e 0) else d1.startFast env (u8 e 0)) := by
  have hon : d.domOn (domCarrier (u8 e 0)) = true := ho
  simp only [reacquire, hs, hh, hon, Bool.not_true, Bool.or_self, Bool.false_eq_true, if_false]

variable (hop : (d.rx (u8 e 0)).op.isSome = true) (hr : d.rateBusy (u8 e 0) = false) (hb : (d.rx (u8 e 0)).build = none)
include hop hr hb

theorem reacquire_of_traffic (hl : d.locked (u8 e 0) = true) (ht : d.anyBundleEnabled (u8 e 0) = true) (hf : force e = false) :
    reacquire env e d = .refuse .trafficPresent 0 := by
  simp only [reacquire_of_on hs hh ho, ← Option.not_isSome, hop, hr, hb, hl, ht, hf, Bool.not_true, Bool.false_eq_true, if_false, Option.any_none, Bool.or_self,
    Bool.not_false, Bool.and_self, if_true]

/-- The attempt starts again from its first state. -/
theorem reacquire_starts (hres : (d.rx (u8 e 0)).restoring = false) (hlos : (d.rx (u8 e 0)).los = false)
    (ht : d.locked (u8 e 0) = false ∨ d.anyBundleEnabled (u8 e 0) = false ∨ force e = true) : reacquire env e d =
      let d1 := ((d.endRun .builder (u8 e 0)).stopRx env (u8 e 0) .down).updRx (u8 e 0) fun r => { r with reacq := true, build := none }
      .start (if bitAt (u8 e 1) 0 || (d.rx (u8 e 0)).stale then fullBound d (u8 e 0) else 5500 * us)
        (if bitAt (u8 e 1) 0 then d1.startFull env (u8 e 0) else d1.startFast env (u8 e 0)) := by
  have hfree : (d.locked (u8 e 0) && d.anyBundleEnabled (u8 e 0) && !force e) = false := by rcases ht with h | h | h <;> simp [h]
  simp only [reacquire_of_on hs hh ho, ← Option.not_isSome, hop, hr, hb, hfree, hres, hlos, Bool.not_true, Bool.false_eq_true, if_false, Option.any_none, Bool.or_self,
    Bool.and_false, Dev.endRestore_of_idle hres]

end

theorem nlcLoad_of_staged {d : Dev} {env : Env} {e : CmdEntry} (hf : nlcLoadFault e = none) (hm : env.par.val (pRxNlcMode + u8 e 0) = 2)
    (ho : d.domOn (u8 e 0) = true) (hc : bitAt (u8 e 4) 0 = false) : nlcLoad env e d = .done [] (d.updRx (u8 e 0) fun r => { r with nlc := { r.nlc with
      staged := (List.range (u8 e 3)).foldl (fun t k => t.set (u8 e 2 + k) (fieldAt (payload e) (8 + 8 * k) 8)) (d.rx (u8 e 0)).nlc.staged } }) := by
  have hon : d.domOn (domCarrier (u8 e 0)) = true := ho
  simp only [nlcLoad, hf, hm, hon, hc, ne_eq, not_true_eq_false, if_false, Bool.not_true, Bool.false_eq_true]
  exact congrArg (CmdRes.done []) (Dev.updRx_congr d (u8 e 0) (fun _ => { d.rx (u8 e 0) with nlc := { (d.rx (u8 e 0)).nlc with staged := _ } }) _ rfl)

theorem nlcLoad_of_mode {d : Dev} {env : Env} {e : CmdEntry} (hf : nlcLoadFault e = none) (hm : env.par.val (pRxNlcMode + u8 e 0) ≠ 2) :
    nlcLoad env e d = .refuse .state 0 := by
  simp only [nlcLoad, hf, if_pos hm]

/-- Settles O31. -/
theorem receiveCommands : Obligations.ReceiveCommands := by
  unfold Obligations.ReceiveCommands
  intro e s s1 n d r
  refine ⟨fun h ho => h.refuses rfl (Dev.ifPowered_of_off _ ho), fun h ho => ⟨_, h.completes rfl (Dev.ifPowered_of_powered _ ho), ?_, ?_, ?_, ?_, ?_, ?_, ?_⟩,
    fun h hs hh ho => ⟨fun hop => h.refuses rfl ((reacquire_of_on (env := s.env) hs hh ho).trans (if_pos ?_)), fun hop hr => ?_,
      fun hop hr hb hl ht hf => h.refuses rfl (reacquire_of_traffic (env := s.env) hs hh ho hop hr hb hl ht hf),
      fun hop hr hb hres hlos ht => ⟨_, rfl, fun hfull => h.starts rfl ?_, fun hfast => h.starts rfl ?_⟩⟩,
    fun h hf hm ho hc => h.completes rfl (nlcLoad_of_staged (env := s.env) hf hm ho hc), fun h hf hm => h.refuses rfl (nlcLoad_of_mode (env := s.env) hf hm)⟩
  · exact (bitsAt_resultBits (fs := []) rfl rfl (by decide)).trans (Nat.mod_eq_of_lt r.stateCode_lt)
  · exact bitsAt_resultBits (fs := [_]) rfl rfl (by decide)
  · exact (bitsAt_resultBits (fs := [_, _]) rfl rfl (Nat.le_of_ble_eq_true rfl)).trans (Nat.mod_eq_of_lt (nlcState_lt _ _ _))
  · exact (bitsAt_resultBits (fs := [_, _, _, _]) rfl rfl (Nat.le_of_ble_eq_true rfl)).trans (Nat.mod_eq_of_lt (ofSigned_lt _ _))
  · exact bitsAt_resultBits (fs := [_, _, _, _, _, _, _, _, _, _, _, _, _, _, _]) rfl (by simp only [fieldsWidth, sumBy, List.foldr]) (by decide)
  · exact bitsAt_resultBits (fs := [_, _, _, _, _, _, _, _, _, _, _, _, _, _, _, _]) rfl (by simp only [fieldsWidth, sumBy, List.foldr]) (by decide)
  · exact bitsAt_resultBits (fs := [_, _, _, _, _, _, _, _, _, _, _, _, _, _, _, _, _]) rfl (by simp only [fieldsWidth, sumBy, List.foldr]) (by decide)
  · rw [show (s.dev.rx (u8 e 0)).op = none from hop]; rfl
  · refine h.refuses rfl ((reacquire_of_on (env := s.env) hs hh ho).trans ((if_neg ?_).trans (if_pos ?_)))
    · rw [← Option.not_isSome, show (s.dev.rx (u8 e 0)).op.isSome = true from hop]; exact Bool.false_ne_true
    · rw [show s.dev.rateBusy (u8 e 0) = true from hr]; rfl
  · rw [reacquire_starts (env := s.env) hs hh ho hop hr hb hres hlos ht]; simp only [hfull, Bool.true_or, if_true]; rfl
  · rw [reacquire_starts (env := s.env) hs hh ho hop hr hb hres hlos ht]; simp only [hfast, Bool.false_or, Bool.false_eq_true, if_false]; rfl

end Sys2Proof.Machine
end

section
/-! Converter calibration: its events and commands (chapter 7). -/

namespace Sys2Proof.Machine

/-! ### What a converter's report leaves -/

/-- The readings of the supply, and what the carrier's calibration was asked to do, are as they were. -/
def Dev.CalKept (n : Nat) (d d' : Dev) : Prop := d'.pw = d.pw ∧ (d'.cal n).action = (d.cal n).action

theorem Dev.CalKept.refl (n : Nat) (d : Dev) : Dev.CalKept n d d := ⟨rfl, rfl⟩

theorem Dev.CalKept.trans {n : Nat} {a b c : Dev} (h : Dev.CalKept n a b) (h' : Dev.CalKept n b c) : Dev.CalKept n a c :=
  ⟨h'.1.trans h.1, h'.2.trans h.2⟩

theorem Dev.calKept_updConv (d : Dev) (n k : Nat) (f : Conv → Conv) : Dev.CalKept n d (d.updCal n fun x => x.updConv k f) :=
  ⟨rfl, by rw [Dev.updCal_same]; rfl⟩

theorem Dev.calKept_raise (n : Nat) (d : Dev) (ev : Evt) (fs : List (Nat × Int)) : Dev.CalKept n d (d.raise ev n fs) := ⟨rfl, rfl⟩

theorem Dev.calKept_foldl {α : Type} {n : Nat} {f : Dev → α → Dev} (h : ∀ d a, Dev.CalKept n d (f d a)) (l : List α) : ∀ d, Dev.CalKept n d (l.foldl f d) := by
  induction l with
  | nil => exact Dev.CalKept.refl n
  | cons a l ih => exact fun d => (h d a).trans (ih _)

theorem Dev.calKept_sliceFail (d : Dev) (n k pos q : Nat) : Dev.CalKept n d (d.sliceFail n k pos q) := by
  unfold Dev.sliceFail
  dsimp only
  split
  · exact Dev.CalKept.trans (b := (Dev.draw d).2) ⟨rfl, rfl⟩ ((Dev.calKept_updConv _ n k _).trans (Dev.calKept_raise n _ _ _))
  · split
    · exact Dev.CalKept.refl n d
    · exact (Dev.calKept_updConv d n k _).trans (Dev.calKept_raise n _ _ _)

theorem Dev.calKept_strike (d : Dev) (n k pos q : Nat) : Dev.CalKept n d (d.strike n k pos q) := by
  unfold Dev.strike
  split
  · exact Dev.calKept_sliceFail d n k pos q
  · exact Dev.calKept_updConv d n k _

theorem Dev.calKept_calSlice (d : Dev) (env : Env) (n k : Nat) (s : Nat × Correction) : Dev.CalKept n d (d.calSlice env n k s) := by
  unfold Dev.calSlice
  dsimp only
  split
  · exact Dev.CalKept.refl n d
  · split
    · exact Dev.calKept_strike d n k _ _
    · exact Dev.calKept_updConv d n k _

theorem Dev.calKept_calReport (d : Dev) (env : Env) (n : Nat) (r : ConvReport) : Dev.CalKept n d (d.calReport env n r) :=
  (Dev.calKept_updConv d n r.conv _).trans ((Dev.calKept_foldl (fun d s => Dev.calKept_calSlice d env n r.conv s) r.slices _).trans (Dev.calKept_updConv _ n r.conv _))

/-! ### Rounds -/

/-- A round starts where none runs (R171). -/
theorem Dev.startRound_of_idle {d : Dev} {n : Nat} (env : Env) (mask trigger : Nat) (hp : (d.cal n).phase = .idle) (hc : d.canCalibrate n = true) :
    d.startRound env n mask trigger = d.updCal n fun c => c.begin env.now .round mask trigger (d.rx n).los := by
  rw [Dev.startRound, if_neg (by rw [hp, hc]; simp)]

theorem Dev.roundDue_continuous {d : Dev} {env : Env} {n : Nat} (hp : (d.cal n).phase = .idle) (hm : env.par.nat (pCalMode + n) = 2) : d.roundDue env n = some 6 := by
  simp only [Dev.roundDue, hp, hm, reduceCtorEq, if_false]

theorem Dev.roundDue_periodic {d : Dev} {env : Env} {n : Nat} (hp : (d.cal n).phase = .idle) (hm : env.par.nat (pCalMode + n) = 1) : d.roundDue env n =
    if 10 * env.par.nat (pCalTempTrig + n) < (d.convTemp n - (d.cal n).prevTemp).natAbs then some 2
    else if (d.cal n).prevEnd + env.par.nat (pCalPeriod + n) * sec ≤ env.now then some 1 else none := by
  simp only [Dev.roundDue, hp, hm, reduceCtorEq, if_false]

theorem calRoundTrigger_of_due {d : Dev} {env : Env} {n t : Nat} (hm : env.mbx = .ready) (hp : (d.cal n).phase = .idle) (hc : d.canCalibrate n = true)
    (hd : d.roundDue env n = some t) : calRoundTrigger env n d = d.updCal n fun c => c.begin env.now .round maskAll t (d.rx n).los := by
  simp only [calRoundTrigger, hm, hd, ne_eq, not_true_eq_false, if_false]
  exact Dev.startRound_of_idle env maskAll t hp hc

/-- Hold mode starts no round, nor does a Frelvo that does not run (R176, R182). -/
theorem calRoundTrigger_of_hold {d : Dev} {env : Env} {n : Nat} (h : env.par.nat (pCalMode + n) = 0 ∨ env.mbx ≠ .ready) : calRoundTrigger env n d = d := by
  rcases h with hm | hm
  · have hd : d.roundDue env n = none := by
      unfold Dev.roundDue; simp only [hm]; exact ite_self _
    unfold calRoundTrigger
    simp only [hd]; exact ite_self _
  · exact if_pos hm

theorem calFsTrigger_of_due {d : Dev} {env : Env} {n : Nat} {t : Nat × Nat} {rest : List (Nat × Nat)} (hm : env.mbx = .ready) (hf : (d.cal n).fsDue = t :: rest)
    (ht : t.1 ≤ env.now) (hp : (d.cal n).phase = .idle) (hc : d.canCalibrate n = true) :
    calFsTrigger env n d = d.updCal n fun c => { c with fsDue := rest }.begin env.now .round t.2 4 (d.rx n).los := by
  have hfind : (d.cal n).fsDue.find? (fun t => decide (t.1 ≤ env.now ∧ env.mbx = .ready)) = some t := by
    rw [hf]; exact List.find?_cons_of_pos (decide_eq_true ⟨ht, hm⟩)
  have hcan : (d.updCal n fun c => { c with fsDue := c.fsDue.erase t }).canCalibrate n = true := by
    rw [← hc]; simp only [Dev.canCalibrate, Dev.updCal, Dev.updCarrier_same]; rfl
  simp only [calFsTrigger, hfind]
  rw [Dev.startRound_of_idle env _ _ (by rw [Dev.updCal_same]; exact hp) hcan, Dev.updCal_fuse, Dev.updCal_rx]
  exact Dev.updCal_congr _ _ _ _ (by rw [hf, List.erase_cons_head])

theorem mem_convs {mask k : Nat} : k ∈ convs mask ↔ k < 8 ∧ bitAt mask k = true := by simp [convs]

theorem prefixOk_of_whole {r : ConvReport} (h : reportWhole r = true) : prefixOk r = true := by
  have hmap : r.slices.map (·.1) = List.range (positions r.conv) := of_decide_eq_true h
  have hlen : r.slices.length = positions r.conv := by simpa using congrArg List.length hmap
  exact decide_eq_true ⟨hlen.le, by rw [hmap, hlen]⟩

/-- A whole report of a mask is a report of it, and leaves no converter (R171). -/
theorem roundPart_of_whole {mask : Nat} {found : List ConvReport} (h : roundWhole mask found = true) : roundPart mask found = true := by
  obtain ⟨hmap, hall⟩ := Bool.and_eq_true_iff.mp h
  have hmap : found.map (·.conv) = convs mask := of_decide_eq_true hmap
  refine Bool.and_eq_true_iff.mpr ⟨decide_eq_true ?_, List.all_eq_true.mpr fun r hr => ?_⟩
  · rw [hmap]; exact List.nodup_range.filter _
  · obtain ⟨hlt, hbit⟩ := mem_convs.mp (hmap ▸ List.mem_map_of_mem (f := ConvReport.conv) hr)
    rw [decide_eq_true hlt, hbit, prefixOk_of_whole (List.all_eq_true.mp hall r hr)]; rfl

theorem roundLeft_of_whole {mask : Nat} {found : List ConvReport} (h : roundWhole mask found = true) : roundLeft mask found = 0 := by
  obtain ⟨hmap, hall⟩ := Bool.and_eq_true_iff.mp h
  have hmap : found.map (·.conv) = convs mask := of_decide_eq_true hmap
  have hnone : ((convs mask).filter fun k => !found.any fun r => decide (r.conv = k) && reportWhole r) = [] := by
    refine List.filter_eq_nil_iff.mpr fun k hk => ?_
    obtain ⟨r, hr, rfl⟩ := List.mem_map.mp (hmap ▸ hk : k ∈ found.map (·.conv))
    have hany : (found.any fun x => decide (x.conv = r.conv) && reportWhole x) = true :=
      List.any_eq_true.mpr ⟨r, hr, by rw [decide_eq_true rfl, List.all_eq_true.mp hall r hr]; rfl⟩
    rw [hany]; exact Bool.false_ne_true
  rw [roundLeft, hnone]; rfl

/-- Whole reports are each one converter's end. -/
theorem foldl_roundReport (env : Env) (n : Nat) (l : List ConvReport) (h : l.all reportWhole = true) : ∀ d : Dev,
    l.foldl (fun d r => d.roundReport env n r) d = l.foldl (fun d r => d.calReport env n r) d := by
  induction l with
  | nil => exact fun _ => rfl
  | cons r l ih =>
    obtain ⟨hr, hl⟩ := Bool.and_eq_true_iff.mp (List.all_cons ▸ h)
    intro d
    rw [List.foldl_cons, List.foldl_cons, ih hl, Dev.roundReport, if_pos hr]

theorem calRoundEnd_of_whole {d : Dev} {env : Env} {n : Nat} {found : List ConvReport} (hp : (d.cal n).phase = .round) (ha : (d.cal n).action = 0)
    (h : roundWhole (d.cal n).left found = true) : calRoundEnd env n found d = ((found.foldl (fun d r => d.calReport env n r) d).updCal n fun k =>
      { k with phase := .idle, left := 0, prevEnd := env.now, prevTemp := d.convTemp n }).finish 0x0318 n .ok 0 [] := by
  obtain ⟨-, hall⟩ := Bool.and_eq_true_iff.mp h
  obtain ⟨hpw, hact⟩ := Dev.calKept_foldl (fun d r => Dev.calKept_calReport d env n r) found d
  have htemp : (((found.foldl (fun d r => d.calReport env n r) d).updCal n fun c => { c with left := 0 }).convTemp n) = d.convTemp n := by
    have : ((found.foldl (fun d r => d.calReport env n r) d).updCal n fun c => { c with left := 0 }).pw = d.pw := hpw
    unfold Dev.convTemp; rw [this]
  simp only [calRoundEnd, if_pos (show ((d.cal n).phase = .initial ∨ (d.cal n).phase = .round) ∧ roundPart (d.cal n).left found = true from
    ⟨.inr hp, roundPart_of_whole h⟩), roundLeft_of_whole h, foldl_roundReport env n found hall, if_true]
  rw [Dev.roundOver, htemp, Dev.updCal_fuse, if_pos (by rw [Dev.updCal_same]; exact hact.trans ha)]

/-! ### Gradual application -/

theorem Cal.convAt_settle (l : List Nat) (j : Nat) : ∀ c : Cal, (l.foldl (fun c k => c.updConv k Conv.settle) c).convAt j = if j ∈ l then (c.convAt j).settle else c.convAt j := by
  induction l with
  | nil => exact fun _ => rfl
  | cons k l ih =>
    intro c
    rw [List.foldl_cons, ih]
    by_cases hk : j = k
    · subst hk
      have hset : (c.updConv j Conv.settle).convAt j = (c.convAt j).settle := Tbl.get_upd_same _ _ _ _
      rw [hset, if_pos List.mem_cons_self]; exact ite_self _
    · have hset : (c.updConv k Conv.settle).convAt j = c.convAt j := Tbl.get_upd_other _ _ _ _ _ hk
      rw [hset]; simp only [List.mem_cons, hk, false_or]

theorem dacInitEnd_of_whole {d : Dev} {n : Nat} {found : List ConvReport} (hb : (d.cal n).dacBusy = true) (ha : (d.cal n).action = 2) (ho : d.domOn n = true)
    (h : dacWhole (d.cal n).dacMask found = true) : dacInitEnd n found d =
      (((found.foldl (fun d r => r.slices.foldl (fun d q => d.initSlice n r.conv q) d) d).updCal n fun k => { k with dacBusy := false, dacDone := true }).raise
        .calReady n []).finish 0x0318 n .ok 0 [] := by
  simp only [dacInitEnd, if_pos (show (d.cal n).dacBusy = true ∧ d.domOn (domCarrier n) = true ∧ dacWhole (d.cal n).dacMask found = true from ⟨hb, ho, h⟩), ha, if_true]

/-! ### Commands -/

theorem calRun_of_state {d : Dev} {e : CmdEntry} (env : Env) (ev : CalEvidence) (h : d.inService = false ∨ (d.carrier (u8 e 0)).heldDown = true) :
    calRun env e ev d = .refuse .state 0 := if_pos (by rcases h with h | h <;> simp [h])

/-- The actions of CMD_CAL_RUN on a carrier in Service, its domain ON. -/
theorem calRun_of_on {d : Dev} {e : CmdEntry} (env : Env) (ev : CalEvidence) (hs : d.inService = true) (hh : (d.carrier (u8 e 0)).heldDown = false) (ho : d.domOn (u8 e 0) = true) :
    let mask := if u8 e 2 = 0 then maskAll else u8 e 2
    (u8 e 1 = 0 → calRun env e ev d = .start (200 * ms) ((d.startRound env (u8 e 0) mask 3).updCal (u8 e 0) fun c => { c with action := 0 })) ∧
    (u8 e 1 = 1 → calRun env e ev d = calTone env e (u8 e 0) mask ev d) ∧
    (u8 e 1 = 2 → calRun env e ev d = if (d.tx (u8 e 0)).state = .dark then .start (40 * ms) (d.updCal (u8 e 0) fun c =>
        { c with dacBusy := true, dacMask := (if c.dacBusy then c.dacMask else 0) ||| (mask &&& maskDac), action := 2,
                 conv := (convs (mask &&& maskDac)).foldl (fun t k => t.upd .factory k fun v => { v with shown := 0 }) c.conv }) else .refuse .state 0) ∧
    (u8 e 1 = 3 → calRun env e ev d = .done [] (d.stopRound env (u8 e 0) ev.reports)) := by
  have hon : d.domOn (domCarrier (u8 e 0)) = true := ho
  refine ⟨fun h => ?_, fun h => ?_, fun h => ?_, fun h => ?_⟩ <;>
    simp only [calRun, hs, hh, hon, h, Bool.not_true, Bool.or_self, Bool.false_eq_true, if_false]
  rfl

theorem calStateCode_lt (env : Env) (n k : Nat) (d : Dev) : calStateCode env n k d < 2 ^ 3 := by
  unfold calStateCode
  dsimp only
  split
  · decide
  · split <;> (repeat' split) <;> decide

/-- Between rounds no converter has a position under calibration (R179). -/
theorem Cal.doneBy_of_idle {c : Cal} (now f k : Nat) (hp : c.phase = .idle) (hb : c.dacBusy = false) : c.doneBy now f k = none := by
  simp [Cal.doneBy, Cal.rotating, hp, hb]

theorem calStatus_of_idle {d : Dev} {n : Nat} (env : Env) (k : Nat) (hp : (d.cal n).phase = .idle) (hb : (d.cal n).dacBusy = false) : ∃ rs, calStatus env n k d = (rs, d) ∧
    ∃ x gs, rs = resultBits ([(3, calStateCode env n k d), (5, 0), (8, 0xFF), (4, min 15 ((d.cal n).convAt k).failCount), (2, x), (1, b2n ((d.cal n).convAt k).toneValid), (9, 0),
      (32, ((d.cal n).convAt k).rounds)] ++ gs) := by
  simp only [calStatus, Cal.doneBy_of_idle env.now _ k hp hb]
  exact ⟨_, rfl, _, _, rfl⟩

/-- Settles O32. -/
theorem calibration : Obligations.Calibration := by
  unfold Obligations.Calibration
  refine ⟨fun s c => ?_, fun e s s1 ev => ?_⟩
  · intro n d k
    refine ⟨fun hm hp h2 hc => exec_of_onDev rfl (calRoundTrigger_of_due (env := s.env) hm hp hc (Dev.roundDue_continuous hp h2)),
      fun hm hp h1 hc ht => exec_of_onDev rfl (calRoundTrigger_of_due (env := s.env) hm hp hc ((Dev.roundDue_periodic (env := s.env) hp h1).trans (if_pos ht))),
      fun hm hp h1 hc ht hd => exec_of_onDev rfl (calRoundTrigger_of_due (env := s.env) hm hp hc ((Dev.roundDue_periodic (env := s.env) hp h1).trans
        ((if_neg (Nat.not_lt.mpr ht)).trans (if_pos hd)))), fun h => exec_of_onDev rfl (calRoundTrigger_of_hold (env := s.env) h),
      fun t rest hm hf ht hp hc => exec_of_onDev rfl (calFsTrigger_of_due (env := s.env) hm hf ht hp hc),
      fun found hp ha h => exec_of_onDev rfl (calRoundEnd_of_whole hp ha h), fun found h => exec_of_onDev rfl (if_neg ?_), ?_,
      fun found hb ha ho h => exec_of_onDev rfl (dacInitEnd_of_whole hb ha ho h)⟩
    · rintro ⟨hphase, hpart⟩
      rcases h with h | h
      · rw [show (s.dev.cal ↑c).phase = .idle from h] at hphase; simp at hphase
      · exact Bool.false_ne_true (h.symm.trans hpart)
    · refine ⟨_, exec_of_onDev rfl rfl, fun m hm => Dev.updCal_other _ _ _ _ hm, rfl, fun j hj => ?_⟩
      rw [calApplyEnd, Dev.updCal_same, Cal.convAt_settle]
      simp only [List.mem_filter, List.mem_range, hj, true_and]; rfl
  · intro n d k
    refine ⟨fun h hst => h.refuses rfl (calRun_of_state s.env ev hst), fun h hs hh ho => h.refuses rfl ?_, fun h hs hh ho => ?_,
      fun h ho => h.refuses rfl (Dev.ifPowered_of_off _ ho), fun h ho hp hb => ?_⟩
    · refine (if_neg ?_).trans (if_pos ?_)
      · rw [show s.dev.inService = true from hs, show (s.dev.carrier (u8 e 0)).heldDown = false from hh]; exact Bool.false_ne_true
      · rw [show s.dev.domOn (domCarrier (u8 e 0)) = false from ho]; rfl
    · obtain ⟨hround, htone, hdac, hstop⟩ := calRun_of_on (e := e) s.env ev hs hh ho
      refine ⟨fun h0 => h.starts rfl (hround h0), fun h1 hl hf => h.refuses rfl ((htone h1).trans (if_pos ?_)), fun h2 hm hd => h.starts rfl ((hdac h2).trans ?_),
        fun h2 hd => h.refuses rfl ((hdac h2).trans (if_neg hd)), fun h3 => h.completes rfl (hstop h3)⟩
      · rw [show s.dev.locked (u8 e 0) = true from hl, hf]; rfl
      · rw [if_pos hd, if_pos hm]; rfl
    · obtain ⟨rs, hstat, x, gs, hrs⟩ := calStatus_of_idle s.env (u8 e 1) hp hb
      have hbody : Dev.ifPowered s.dev (u8 e 0) (.done (calStatus s.env (u8 e 0) (u8 e 1) s.dev).1 (calStatus s.env (u8 e 0) (u8 e 1) s.dev).2) = .done rs d := by
        rw [Dev.ifPowered_of_powered _ ho, hstat]
      subst hrs
      refine ⟨_, h.completes rfl hbody, ?_, ?_, ?_, ?_, ?_⟩
      · exact (bitsAt_resultBits (fs := []) rfl rfl (by decide)).trans (Nat.mod_eq_of_lt (calStateCode_lt _ _ _ _))
      · exact bitsAt_resultBits (fs := [_, _]) rfl rfl (Nat.le_of_ble_eq_true rfl)
      · exact (bitsAt_resultBits (fs := [_, _, _]) rfl rfl (Nat.le_of_ble_eq_true rfl)).trans (Nat.mod_eq_of_lt (by omega))
      · exact bitAt_resultBits (fs := [_, _, _, _, _]) rfl rfl (by decide)
      · exact bitsAt_resultBits (fs := [_, _, _, _, _, _, _]) rfl rfl (by decide)

end Sys2Proof.Machine
end

section
/-! Forward error correction: its events and commands (chapter 8). -/

namespace Sys2Proof.Machine

theorem ctrFec_ne {j k : Nat} (n : Nat) (h : j ≠ k) : ctrFec j n ≠ ctrFec k n := by
  unfold ctrFec ckey; omega

theorem Dev.count_fec_other (d : Dev) {j k : Nat} (n v : Nat) (h : j ≠ k) : (d.count (ctrFec k n) v).counter (ctrFec j n) = d.counter (ctrFec j n) :=
  Dev.count_other _ _ _ _ (ctrFec_ne n h)

/-- What a window adds to the counters of a carrier (R196). -/
def Dev.fecCounted (d : Dev) (env : Env) (n : Nat) (w : FecWindow) : Dev :=
  ((((((d.count (ctrFec fecBits n) w.bits).count (ctrFec fecCorr n) (w.innerCorr + w.outerCorr)).count (ctrFec fecBlocks n) w.blocks).count
    (ctrFec fecIterSum n) (d.itersIn env n w)).count (ctrFec fecInnerFail n) w.innerFail).count (ctrFec fecDmErr n) w.dmErr).count (ctrFec fecInjected n) w.injected

theorem fecDegWindow_of_counts {d : Dev} {n : Nat} {w : FecWindow} (env : Env) (hl : (d.fec n).lock ≠ .down) (hb : w.bits ≠ 0) (hk : w.blocks ≠ 0) :
    fecDegWindow env n w d = if env.mbx = .ready then
      ((d.fecCounted env n w).updFec n fun f => { f with preBer := min 0xFFFFFFFF (w.innerCorr * 10 ^ 10 / w.bits), iterMean := d.itersIn env n w * 256 / w.blocks,
                                                         mi := if d.interop n then 0 else w.mi }).fecDegrade env n w
      else d.fecCounted env n w := if_neg (by simp [hl, hb, hk])

theorem Dev.fecCounted_counters (d : Dev) (env : Env) (n : Nat) (w : FecWindow) :
    (d.fecCounted env n w).counter (ctrFec fecBits n) = (d.counter (ctrFec fecBits n) + w.bits) % 2 ^ 48 ∧
    (d.fecCounted env n w).counter (ctrFec fecCorr n) = (d.counter (ctrFec fecCorr n) + (w.innerCorr + w.outerCorr)) % 2 ^ 48 ∧
    (d.fecCounted env n w).counter (ctrFec fecBlocks n) = (d.counter (ctrFec fecBlocks n) + w.blocks) % 2 ^ 48 := by
  unfold Dev.fecCounted
  refine ⟨?_, ?_, ?_⟩ <;> simp (disch := decide) only [Dev.count_same, Dev.count_fec_other]

theorem Dev.count_car (d : Dev) (k n : Nat) : (d.count k n).car = d.car := rfl

theorem Dev.fecCounted_car (d : Dev) (env : Env) (n : Nat) (w : FecWindow) : (d.fecCounted env n w).car = d.car := by
  simp only [Dev.fecCounted, Dev.count_car]

theorem Dev.fecCounted_fec (d : Dev) (env : Env) (n m : Nat) (w : FecWindow) : (d.fecCounted env n w).fec m = d.fec m := by
  simp only [Dev.fecCounted, Dev.count_fec]

theorem Dev.raiseIf_fec (d : Dev) (c : Bool) (ev : Evt) (i : Nat) (fs : List (Nat × Int)) (n : Nat) : (d.raiseIf c ev i fs).fec n = d.fec n := by
  unfold Dev.raiseIf; split <;> rfl

/-- The degrade condition of a window (R197). -/
theorem Dev.fecDegrade_fec (d : Dev) (env : Env) (n : Nat) (w : FecWindow) : ∃ above under deg,
    (d.fecDegrade env n w).fec n = { d.fec n with above := above, under := under, deg := deg } ∧
    ((d.fec n).deg = false → deg = decide (env.par.nat (pFecDegWin + n) ≤ if env.par.nat (pFecDegThr + n) * w.bits < w.innerCorr * 10 ^ 6 then (d.fec n).above + 1 else 0)) := by
  have hfec : (d.fecDegrade env n w).fec n = _ := (Dev.raiseIf_fec _ _ _ _ _ _).trans ((Dev.raiseIf_fec _ _ _ _ _ _).trans (Dev.updFec_same _ _ _))
  refine ⟨_, _, _, hfec, fun h => ?_⟩
  simp only [h, Bool.not_false, Bool.true_and, Bool.false_or, Bool.false_and, Bool.and_true] <;> rfl

theorem fecUncorrBlock_of_recent {d : Dev} {env : Env} {n t : Nat} (hl : (d.fec n).lock = .locked) (hact : env.par.on (pFecUncorrAct + n) = false)
    (ht : (d.fec n).uncorrAt = some t) (hr : env.now < t + sec) : fecUncorrBlock env n d =
      ((d.count (ctrFec fecUncorr n) 1).emit (.pulse 7 n)).updFec n fun f => { f with uncorr := f.uncorr + 1 } := by
  have hat : ((((d.count (ctrFec fecUncorr n) 1).emit (.pulse 7 n)).updFec n fun f => { f with uncorr := f.uncorr + 1 }).fec n).uncorrAt = some t := by
    rw [Dev.updFec_same]; exact ht
  simp only [fecUncorrBlock, hl, if_true, hat, decide_eq_false (Nat.not_le.mpr hr), hact, Bool.false_eq_true, if_false]

/-- A burst at the receive point, more of them to come (R201). -/
theorem fecInjectTick_of_burst {d : Dev} {n : Nat} {i : Injection} (env : Env) (hi : (d.fec n).inj = some i) (hm : i.mode = 2) (hleft : 2 ≤ i.left)
    (ht : i.transmit = false) (hl : (d.fec n).lock ≠ .down) : fecInjectTick env n d =
      (d.updFec n fun f => { f with inj := some { i with left := i.left - 1 } }).count (ctrFec fecInjected n) i.burst := by
  have hgo : ¬i.left ≤ 1 := by omega
  simp only [fecInjectTick, hi, hm, ht, decide_eq_false hl, Injection.flips, if_neg hgo, Bool.or_self, Bool.false_eq_true, if_false, OfNat.ofNat_ne_one, Nat.reduceEqDiff]

theorem fecInjectTick_of_last {d : Dev} {n : Nat} {i : Injection} (env : Env) (hi : (d.fec n).inj = some i) (hm : i.mode ≠ 1) (hleft : i.left = 1)
    (ht : i.transmit = true) : fecInjectTick env n d = d.updFec n fun f => { f with inj := none } := by
  simp only [fecInjectTick, hi, if_neg hm, ht, hleft, Bool.true_or, if_true, le_refl]

theorem fecInjectEnd_of_over {d : Dev} {env : Env} {n t : Nat} {i : Injection} (hi : (d.fec n).inj = some i) (he : i.ends = some t) (ht : t ≤ env.now) :
    fecInjectEnd env n d = d.updFec n fun f => { f with inj := none } := by
  simp only [fecInjectEnd, hi, he, if_pos ht]

theorem FecLock.code_lt (x : FecLock) : x.code < 2 ^ 2 := by cases x <;> decide

theorem Dev.interop_of_native {d : Dev} {n : Nat} {p : OpPoint} (hop : (d.rx n).op = some p) (hp : p.profile = 0) : d.interop n = false := by
  rw [Dev.interop, hop]; exact decide_eq_false (not_not.mpr hp)

/-- An injection on a native carrier in Service, its domain ON (R202). -/
theorem fecInject_of_native {d : Dev} {env : Env} {e : CmdEntry} {p : OpPoint} (hf : injFault e = none) (hs : d.inService = true) (hop : (d.rx (u8 e 0)).op = some p)
    (hp : p.profile = 0) (ho : d.domOn (u8 e 0) = true) : fecInject env e d =
      if d.anyBundleEnabled (u8 e 0) && injHarmful (d.fecThreshold4 (u8 e 0)) e && !force e then .refuse .trafficPresent 0
      else .done [] (d.updFec (u8 e 0) fun f => { f with inj := injNew env e }) := by
  have hon : d.domOn (domCarrier (u8 e 0)) = true := ho
  simp only [fecInject, hf, hs, hon, hop, Dev.interop_of_native hop hp, Bool.not_true, Bool.false_and, Bool.or_self, Bool.false_eq_true, if_false, Option.isNone_some]

theorem fecInject_of_fault {d : Dev} {env : Env} {e : CmdEntry} {k : Nat} (hf : injFault e = some k) : fecInject env e d = .refuse .badParam k := by
  simp only [fecInject, hf]

/-- Settles O33. -/
theorem forwardErrorCorrection : Obligations.ForwardErrorCorrection := by
  unfold Obligations.ForwardErrorCorrection
  refine ⟨fun s c => ?_, fun e s s1 => ?_⟩
  · intro n d f
    refine ⟨fun x hc hl hk hb => exec_of_onDev rfl ?_, fun why hl hk hw => exec_of_onDev rfl (if_pos ⟨hl, hk, hw⟩), fun w hl hb hk hm => ?_, fun w hl hb hk hm => ?_,
      fun hl hact ⟨t, ht, hr⟩ => exec_of_onDev rfl (fecUncorrBlock_of_recent (env := s.env) hl hact ht hr),
      fun i hi hm hleft ht hl => exec_of_onDev rfl (fecInjectTick_of_burst s.env hi hm hleft ht hl),
      fun i hi hm hleft ht => exec_of_onDev rfl (fecInjectTick_of_last s.env hi hm hleft ht), fun i t hi he ht => exec_of_onDev rfl (fecInjectEnd_of_over (env := s.env) hi he ht)⟩
    · subst hc
      exact if_pos ⟨hl, hk, hb⟩
    · have hrow := exec_of_onDev (i := .fecDegWindow c w) (s := s) rfl ((fecDegWindow_of_counts s.env hl hb hk).trans (if_neg hm))
      exact ⟨_, hrow, d.fecCounted_car s.env n w, d.fecCounted_counters s.env n w⟩
    · have hrow := exec_of_onDev (i := .fecDegWindow c w) (s := s) rfl ((fecDegWindow_of_counts s.env hl hb hk).trans (if_pos hm))
      obtain ⟨above, under, deg, hfec, hdeg⟩ := Dev.fecDegrade_fec ((d.fecCounted s.env n w).updFec n fun f =>
        { f with preBer := min 0xFFFFFFFF (w.innerCorr * 10 ^ 10 / w.bits), iterMean := d.itersIn s.env n w * 256 / w.blocks,
                 mi := if d.interop n then 0 else w.mi }) s.env n w
      refine ⟨_, hrow, ?_⟩
      rw [Dev.updFec_same, Dev.fecCounted_fec] at hfec hdeg
      rw [hfec]
      exact ⟨rfl, rfl, hdeg⟩
  · intro n d f
    refine ⟨fun h ho => ⟨_, h.completes rfl (if_pos ho), ?_, ?_, ?_, ?_, ?_, ?_⟩, fun h ho => h.refuses rfl (if_neg (ho ▸ Bool.false_ne_true)),
      fun h k hf => h.refuses rfl (fecInject_of_fault hf), fun p h hf hs hop hp ho => ⟨fun ht hh hforce => h.refuses rfl ((fecInject_of_native hf hs hop hp ho).trans (if_pos ?_)),
        fun ht => h.completes rfl ((fecInject_of_native (env := s.env) hf hs hop hp ho).trans (if_neg ?_))⟩⟩
    · exact (bitsAt_resultBits (fs := []) rfl rfl (by decide)).trans (Nat.mod_eq_of_lt f.lock.code_lt)
    · exact bitsAt_resultBits (fs := [_, _, _, _]) rfl rfl (by decide)
    · exact bitsAt_resultBits (fs := [_, _, _, _, _, _]) rfl rfl (by decide)
    · exact bitsAt_resultBits (fs := [_, _, _, _, _, _, _, _, _]) rfl rfl (by decide)
    · exact bitsAt_resultBits (fs := [_, _, _, _, _, _, _, _, _, _, _]) rfl (by simp only [fieldsWidth, sumBy, List.foldr]) (by decide)
    · exact bitAt_resultBits (fs := [_, _, _, _, _, _, _, _, _, _, _, _, _, _, _]) rfl (by simp only [fieldsWidth, sumBy, List.foldr]) (by decide)
    · rw [show s.dev.anyBundleEnabled (u8 e 0) = true from ht, show injHarmful (s.dev.fecThreshold4 (u8 e 0)) e = true from hh, hforce]; rfl
    · rcases ht with h | h | h
      · rw [show s.dev.anyBundleEnabled (u8 e 0) = false from h]; exact Bool.false_ne_true
      · rw [show injHarmful (s.dev.fecThreshold4 (u8 e 0)) e = false from h, Bool.and_false]; exact Bool.false_ne_true
      · rw [h, Bool.not_true, Bool.and_false]; exact Bool.false_ne_true

end Sys2Proof.Machine
end

section
/-! The frame of a carrier: alignment, defects and consequent actions (chapter 9). -/

namespace Sys2Proof.Machine

/-! ### Parity counters: what a look at them leaves -/

theorem Dev.parityDraws_car (keys : List Nat) : ∀ d : Dev, (keys.foldl (fun d k => d.draw.2.count k d.draw.1) d).car = d.car := by
  induction keys with
  | nil => exact fun _ => rfl
  | cons k ks ih => intro d; rw [List.foldl_cons, ih]; rfl

theorem Dev.parityDraws_counter {key : Nat} (keys : List Nat) : ∀ d : Dev, key ∉ keys →
    (keys.foldl (fun d k => d.draw.2.count k d.draw.1) d).counter key = d.counter key := by
  induction keys with
  | nil => exact fun _ _ => rfl
  | cons k ks ih =>
    intro d hk
    obtain ⟨hne, hks⟩ := not_or.mp (mt List.mem_cons.mpr hk)
    rw [List.foldl_cons, ih _ hks, Dev.count_other _ _ _ _ hne]; rfl

theorem Dev.parityRuns_car (d : Dev) (n : Nat) (keys : List Nat) : (d.parityRuns n keys).car = d.car := by
  unfold Dev.parityRuns; split
  · exact Dev.parityDraws_car _ _
  · rfl

theorem Dev.parityRuns_counter {key : Nat} (d : Dev) (n : Nat) (keys : List Nat) (h : key ∉ keys) : (d.parityRuns n keys).counter key = d.counter key := by
  unfold Dev.parityRuns; split
  · exact Dev.parityDraws_counter _ _ h
  · rfl

theorem Dev.parityOf_car (d : Dev) (n : Nat) : (d.parityOf n).car = d.car := Dev.parityRuns_car _ _ _

theorem Dev.frm_of_car {d d' : Dev} (h : d'.car = d.car) (n : Nat) : d'.frm n = d.frm n := by
  unfold Dev.frm Dev.carrier; rw [h]

theorem Dev.rate_of_car {d d' : Dev} (h : d'.car = d.car) (n : Nat) : d'.rate n = d.rate n := by
  unfold Dev.rate Dev.carrier; rw [h]

/-- LOF_COUNT is none of the parity counters. -/
theorem ctrFrmLof_not_parity (n k : Nat) : ctrFrm frmLof n ∉ sectionParity n ++ (List.range k).flatMap fun s => pathParity (chanNo n s) := by
  simp only [sectionParity, pathParity, ctrFrm, frmLof, ckey, chanNo, List.mem_append, List.mem_flatMap, List.mem_cons, List.not_mem_nil, or_false]
  rintro ((h | h) | ⟨s, -, h | h⟩) <;> omega

theorem Dev.parityOf_lofCount (d : Dev) (n : Nat) : (d.parityOf n).counter (ctrFrm frmLof n) = d.counter (ctrFrm frmLof n) :=
  Dev.parityRuns_counter _ _ _ (ctrFrmLof_not_parity _ _)

/-! ### The framer's events, case by case -/

theorem Dev.updFrm_sectionCa (d : Dev) (env : Env) (n : Nat) (f : Frm → Frm) :
    (d.updFrm n f).sectionCa env n = d.updFrm n fun x => { f x with ca := true, dirtyAt := some env.now } := Dev.updFrm_fuse _ _ _ _

theorem inFrame_of_hunt {d : Dev} {n : Nat} (h : (d.frm n).st = .hunt) :
    inFrame n d = (d.updFrm n fun f => { f with st := .inFrame, mf := .none, lof := false }).raiseIf (d.frm n).lof .lofClr n [] := if_pos h

/-- What LOF makes of the framer, before the rate step is looked at. -/
def Dev.lofFrame (d : Dev) (env : Env) (n : Nat) : Dev :=
  ((d.parityOf n).updFrm n fun f => { f with st := .hunt, mf := .none, lof := true, ca := true, dirtyAt := some env.now }).count (ctrFrm frmLof n) 1 |>.raise .lof n []

theorem lofDeclare_of_inFrame {d : Dev} {n : Nat} (env : Env) (h : (d.frm n).st = .inFrame) :
    lofDeclare env n d = ((d.lofFrame env n).stepLoss env n).reacquireMissed env n := by
  simp only [lofDeclare, h, if_true, Dev.updFrm_sectionCa, Dev.lofFrame]

/-- With no step in hand a loss touches no rate step. -/
theorem Dev.stepLoss_of_idle {d : Dev} {n : Nat} (env : Env) (h : (d.rate n).st = .idle) : d.stepLoss env n = d := by
  simp [Dev.stepLoss, Rate.uncommitted, h]

theorem Dev.reacquireMissed_of_none {d : Dev} {n : Nat} (env : Env) (h : (d.rate n).missed = none) : d.reacquireMissed env n = d := by
  simp [Dev.reacquireMissed, h]

theorem Dev.lofFrame_rate (d : Dev) (env : Env) (n : Nat) : (d.lofFrame env n).rate n = d.rate n := by
  unfold Dev.lofFrame; rw [Dev.raise_rate, Dev.count_rate, Dev.updFrm_rate]; exact Dev.rate_of_car (Dev.parityOf_car d n) n

theorem lofDeclare_of_noStep {d : Dev} {n : Nat} (env : Env) (h : (d.frm n).st = .inFrame) (hst : (d.rate n).st = .idle) (hm : (d.rate n).missed = none) :
    lofDeclare env n d = d.lofFrame env n := by
  rw [← Dev.lofFrame_rate d env n] at hst hm
  rw [lofDeclare_of_inFrame env h, Dev.stepLoss_of_idle env hst, Dev.reacquireMissed_of_none env hm]

theorem Dev.lofFrame_frm (d : Dev) (env : Env) (n : Nat) :
    (d.lofFrame env n).frm n = { d.frm n with st := .hunt, mf := .none, lof := true, ca := true, dirtyAt := some env.now } := by
  unfold Dev.lofFrame; rw [Dev.raise_frm, Dev.count_frm, Dev.updFrm_same, Dev.frm_of_car (Dev.parityOf_car d n)]

theorem Dev.lofFrame_frm_other (d : Dev) (env : Env) {n m : Nat} (h : m ≠ n) : (d.lofFrame env n).frm m = d.frm m := by
  unfold Dev.lofFrame; rw [Dev.raise_frm, Dev.count_frm, Dev.updFrm_other _ _ _ _ h, Dev.frm_of_car (Dev.parityOf_car d n)]

theorem Dev.lofFrame_counter (d : Dev) (env : Env) (n : Nat) :
    (d.lofFrame env n).counter (ctrFrm frmLof n) = (d.counter (ctrFrm frmLof n) + 1) % 2 ^ 48 :=
  (Dev.count_same _ _ _).trans (congrArg (fun v => (v + 1) % 2 ^ 48) (Dev.parityOf_lofCount d n))

theorem mfAlign_of_first {d : Dev} {n : Nat} (env : Env) (mfas : Nat) (h : (d.frm n).st = .inFrame) (hm : (d.frm n).mf = .none) (hl : (d.frm n).lom = false) :
    mfAlign env n mfas d = d.updFrm n fun f => { f with mf := .aligned, lom := false, mfas := mfas, mfasAt := env.now } := by
  simp [mfAlign, h, hm, hl, Dev.raiseIf]

theorem mfAlign_of_moved {d : Dev} {n mfas : Nat} {env : Env} (h : (d.frm n).st = .inFrame) (hm : (d.frm n).mf = .oom) (hl : (d.frm n).lom = true)
    (hne : (d.frm n).frameNo env.now ≠ mfas) : mfAlign env n mfas d =
      (d.updFrm n fun f => { f with mf := .aligned, lom := false, mfas := mfas, mfasAt := env.now, ca := true, dirtyAt := some env.now }).raise .lomClr n [] := by
  simp [mfAlign, h, hm, hl, hne, Dev.raiseIf, Dev.updFrm_sectionCa]

theorem lomDeclare_of_oom {d : Dev} {n : Nat} (env : Env) (hm : (d.frm n).mf = .oom) (hl : (d.frm n).lom = false) :
    lomDeclare env n d = (d.updFrm n fun f => { f with lom := true, ca := true, dirtyAt := some env.now }).raise .lom n [] := by
  unfold lomDeclare; rw [if_pos ⟨hm, hl⟩, Dev.updFrm_sectionCa]

/-- With trace checking off an accepted trace declares nothing. -/
theorem ttiAccept_of_unchecked {d : Dev} {env : Env} {n : Nat} (tti : List Byte) (hi : d.interop n = false) (hp : env.par.val (pFrmTimMode + n) = 0) :
    ttiAccept env n tti d = d.updFrm n fun f => { f with ttiRx := some (padTo 64 tti), tim := false } := by
  have hmode : env.par.nat (pFrmTimMode + n) = 0 := congrArg Int.toNat hp
  simp [ttiAccept, hi, Dev.timEval, hmode, Dev.updFrm_fuse]

theorem sbdiChange_of_change {d : Dev} {n : Nat} {on : Bool} (hi : d.interop n = false) (h : (d.frm n).sbdi ≠ on) :
    sbdiChange n on d = (d.updFrm n fun f => { f with sbdi := on }).raise .sbdi n [(1, if on then 1 else 0)] := by
  simp [sbdiChange, hi, h]

theorem caEnd_of_clean {d : Dev} {env : Env} {n : Nat} (ha : (d.frm n).ca = true) (hcl : (d.frm n).clean (decide (env.par.val (pFrmTimMode + n) = 2)) = true)
    (hch : d.chan = []) : caEnd env n d = d.updFrm n fun f => { f with ca := false, dirtyAt := some env.now } := by
  have hd1 : (d.updFrm n fun f => { f with ca := false, dirtyAt := some env.now }).chan = [] := hch
  simp only [caEnd, ha, hcl, Bool.and_self, if_true, hd1, List.map_nil, List.foldl_nil]

theorem rsTick_of_countdown {d : Dev} {n : Nat} (ho : (d.rate n).tx.op = opCommit) (hcd : 1 < (d.rate n).tx.cd) :
    rsTick n d = d.updRate n fun r => { r with tx := { r.tx with cd := r.tx.cd - 1 } } := Dev.updRate_congr _ _ _ _ (if_pos ⟨ho, hcd⟩)

/-- Settles O34. -/
theorem frameEvents : Obligations.FrameEvents := by
  unfold Obligations.FrameEvents
  refine ⟨fun s c => ⟨?_, ?_, ?_, ?_, ?_, ?_, ?_, ?_, ?_, ?_, ?_, ?_, ?_, ?_⟩, ?_⟩
  · intro h hl
    exact exec_of_onDev rfl ((inFrame_of_hunt h).trans (if_pos hl))
  · intro h hl
    exact exec_of_onDev rfl ((inFrame_of_hunt h).trans (if_neg (Bool.eq_false_iff.mp hl)))
  · exact fun h => exec_of_onDev rfl (if_pos h)
  · exact fun h => exec_of_onDev rfl (lofDeclare_of_inFrame s.env h)
  · exact fun mfas h hm hl => exec_of_onDev rfl (mfAlign_of_first s.env mfas.toNat h hm hl)
  · exact fun mfas h hm hl hne => exec_of_onDev rfl (mfAlign_of_moved (env := s.env) h hm hl hne)
  · exact fun h hm => exec_of_onDev rfl (if_pos ⟨h, hm⟩)
  · exact fun hm hl => exec_of_onDev rfl (lomDeclare_of_oom s.env hm hl)
  · exact fun tti hi hp => exec_of_onDev rfl (ttiAccept_of_unchecked (env := s.env) tti hi hp)
  · exact fun on hi h => exec_of_onDev rfl (sbdiChange_of_change hi h)
  · exact fun ch x hon hs hi => exec_of_onDev rfl (if_pos ⟨hon, hs, hi⟩)
  · exact fun ha hcl hch => exec_of_onDev rfl (caEnd_of_clean (env := s.env) ha hcl hch)
  · exact fun bytes hi => exec_of_onDev rfl (if_neg (Bool.eq_false_iff.mp hi))
  · exact fun ho hcd => exec_of_onDev rfl (rsTick_of_countdown ho hcd)
  · intro d env n h hst hm
    rw [lofDeclare_of_noStep env h hst hm, Dev.lofFrame_frm]
    exact ⟨rfl, rfl, rfl, Dev.lofFrame_counter d env n, fun m hne => Dev.lofFrame_frm_other d env hne⟩

end Sys2Proof.Machine
end

section
/-! Bundles, and the commands of the frame (chapter 9). -/

namespace Sys2Proof.Machine

/-! ### Bundles -/

theorem Dev.rxSlots_of_op {d : Dev} {n : Nat} {p : OpPoint} (h : (d.rx n).op = some p) : d.rxSlots n = p.slots := by
  unfold Dev.rxSlots; rw [h]

/-- The bundle that CMD_BUNDLE_CREATE describes (R223). -/
def createdBundle (env : Env) (e : CmdEntry) : Bundle :=
  { Bundle.absent with
    carrier := u8 e 1, first := u8 e 2, count := u8 e 3, buffered := bitAt (u8 e 4) 0, toLine := env.par.val (pMemBufDir + u8 e 0) = 0, depth := env.par.nat pMemBufDepth }

theorem bundleCreate_of_noPoint {d : Dev} {e : CmdEntry} (env : Env) (h : (d.tx (u8 e 1)).op = none) : bundleCreate env e d = .refuse .sequence 0 := by
  simp only [bundleCreate, h]

theorem bundleCreate_of_existing {d : Dev} {e : CmdEntry} {p : OpPoint} (env : Env) (h : (d.tx (u8 e 1)).op = some p) (hb : d.hasBundle (u8 e 0) = true) :
    bundleCreate env e d = .refuse .badParam 8 := by
  simp only [bundleCreate, h, hb, if_true, badField]

section
variable {d : Dev} {env : Env} {e : CmdEntry} {p : OpPoint} (ht : (d.tx (u8 e 1)).op = some p) (hr : (d.rx (u8 e 1)).op = some p) (hp : p.profile = 0)
  (hb : d.hasBundle (u8 e 0) = false)
include ht hr hp hb

theorem bundleCreate_of_above (hs : p.slots < u8 e 2 + u8 e 3) : bundleCreate env e d = .refuse .badParam 10 := by
  simp [bundleCreate, ht, hb, hp, Dev.rxSlots_of_op hr, hs, badField]

theorem bundleCreate_of_free (hs : u8 e 2 + u8 e 3 ≤ p.slots) (hfree : ∀ ch ∈ (createdBundle env e).chans, d.bundleOf ch = none) (hbuf : bitAt (u8 e 4) 0 = false)
    (hrate : d.rateBusy (u8 e 1) = false) : bundleCreate env e d = .done [] { d with bundle := d.bundle.set (u8 e 0) (createdBundle env e) } := by
  have hany : (createdBundle env e).chans.any (fun ch => (d.bundleOf ch).isSome) = false :=
    List.any_eq_false.mpr fun ch hch => by rw [hfree ch hch]; exact Bool.false_ne_true
  unfold createdBundle at hany ⊢
  simp only [bundleCreate, ht]
  rw [if_neg (by simp [hb]), if_neg (by simp [hp]), if_neg (by simp [hp]), if_neg (by rw [Dev.rxSlots_of_op hr]; omega), if_neg (Bool.eq_false_iff.mp hany),
    if_neg (by simp [hbuf]), if_neg (by simp [hbuf]), if_neg (by simp [hrate])]

end

section
variable {d : Dev} {e : CmdEntry} (hon : (d.bundleAt (u8 e 0)).on = false) (ha : (d.bundleAt (u8 e 0)).attach = .none) (hg : d.groupsOf (u8 e 0) = [])
include hon ha hg

theorem bundleDelete_of_absent (hb : d.hasBundle (u8 e 0) = false) : bundleDelete e d = .refuse .badParam 8 := by
  simp [bundleDelete, hon, ha, hg, hb, badField]

theorem bundleDelete_of_free (hb : d.hasBundle (u8 e 0) = true) (hrate : d.rateBusy (d.bundleAt (u8 e 0)).carrier = false) :
    bundleDelete e d = .done [] { d with bundle := d.bundle.drop (u8 e 0) } := by
  simp [bundleDelete, hon, ha, hg, hb, hrate]

end

theorem bundleDelete_of_on {d : Dev} {e : CmdEntry} (hon : (d.bundleAt (u8 e 0)).on = true) : bundleDelete e d = .refuse .trafficPresent 0 := by
  simp [bundleDelete, hon]

section
variable {d : Dev} {e : CmdEntry} (hb : d.hasBundle (u8 e 0) = true) (hen : bitAt (u8 e 1) 0 = true) (hon : (d.bundleAt (u8 e 0)).on = false)
include hb hen hon

theorem bundleEnable_of_unattached (ha : d.attached (u8 e 0) = false) : bundleEnable e d = .refuse .sequence 0 := by
  simp [bundleEnable, hb, hen, hon, ha]

theorem bundleEnable_of_off (ha : d.attached (u8 e 0) = true) (ho : d.domOn (domCarrier (d.bundleAt (u8 e 0)).carrier) = false) :
    bundleEnable e d = .refuse .domainOff 0 := by
  simp [bundleEnable, hb, hen, hon, ha, ho]

theorem bundleEnable_of_ready (ha : d.attached (u8 e 0) = true) (ho : d.domOn (domCarrier (d.bundleAt (u8 e 0)).carrier) = true)
    (hrate : d.rateBusy (d.bundleAt (u8 e 0)).carrier = false) : bundleEnable e d = .start 0 (d.updBundle (u8 e 0) fun x => { x with st := .enabling }) := by
  simp [bundleEnable, hb, hen, hon, ha, ho, hrate]

end

theorem bundleEnable_of_disable {d : Dev} {e : CmdEntry} (hb : d.hasBundle (u8 e 0) = true) (hen : bitAt (u8 e 1) 0 = false) (hon : (d.bundleAt (u8 e 0)).on = true) :
    bundleEnable e d = .start 0 (d.updBundle (u8 e 0) fun x => { x with st := .draining }) := by
  simp [bundleEnable, hb, hen, hon]

theorem boundaryApply_of_enabling {d : Dev} {b : Nat} (h : (d.bundleAt b).st = .enabling) :
    boundaryApply b d = (d.updBundle b fun x => { x with st := .enabled }).finish 0x0403 b .ok 0 [] := by
  simp only [boundaryApply, h]

theorem boundaryApply_of_closing {d : Dev} {b : Nat} (h : (d.bundleAt b).st = .closing) :
    boundaryApply b d = d.updBundle b fun x => { x with st := .disabled } := by
  simp only [boundaryApply, h]

/-! ### Status and traces -/

theorem FrmState.code_lt (x : FrmState) : x.code < 2 ^ 2 := by cases x <;> decide

theorem Frm.mfCode_lt (f : Frm) : f.mfCode < 2 ^ 2 := by
  unfold Frm.mfCode; split
  · decide
  · split <;> decide

theorem frmStatus_of_aligned {d : Dev} {n : Nat} (env : Env) (hst : (d.frm n).st = .inFrame) (hm : (d.frm n).mf = .aligned) :
    (frmStatus env n d).2 = d.parityRuns n (sectionParity n) := by
  have hf := Dev.frm_of_car (Dev.parityRuns_car d n (sectionParity n)) n
  simp [frmStatus, hf, hst, hm]

/-- What the status names, of a framer that is IN_FRAME and aligned (Table 9-8). -/
theorem frmStatus_fields {d : Dev} {n : Nat} (env : Env) (hst : (d.frm n).st = .inFrame) (hm : (d.frm n).mf = .aligned) :
    let r := leNat (frmStatus env n d).1; let f := d.frm n
    bitsAt r 72 48 = (d.parityRuns n (sectionParity n)).counter (ckey 4 n) % 2 ^ 48 ∧ bitsAt r 0 2 = f.st.code ∧ bitsAt r 2 2 = f.mfCode ∧
    bitAt r 4 = f.lof ∧ bitAt r 5 = f.lom ∧ bitAt r 6 = f.tim ∧ bitAt r 7 = f.sbdi ∧ bitAt r 8 = f.ca ∧ bitsAt r 24 7 = f.frameNo env.now := by
  have hf := Dev.frm_of_car (Dev.parityRuns_car d n (sectionParity n)) n
  have hkey : ctrFrm frmSbip n = ckey 4 n := by simp [ctrFrm, frmSbip]
  have hlt : (d.frm n).frameNo env.now < 2 ^ 7 := Nat.mod_lt _ (by decide)
  simp only [frmStatus, hf, hst, hm, hkey, ne_eq, reduceCtorEq, not_false_eq_true, and_self, decide_true, if_true]
  refine ⟨?_, ?_, ?_, ?_, ?_, ?_, ?_, ?_, ?_⟩
  · exact bitsAt_resultBits (fs := [_, _, _, _, _, _, _, _, _, _, _, _, _]) rfl (by simp only [fieldsWidth, sumBy, List.foldr]) (by decide)
  · exact (bitsAt_resultBits (fs := []) rfl rfl (by decide)).trans (Nat.mod_eq_of_lt (FrmState.code_lt _))
  · exact (bitsAt_resultBits (fs := [_]) rfl rfl (Nat.le_of_ble_eq_true rfl)).trans (Nat.mod_eq_of_lt (Frm.mfCode_lt _))
  · exact bitAt_resultBits (fs := [_, _]) rfl rfl (by decide)
  · exact bitAt_resultBits (fs := [_, _, _]) rfl rfl (by decide)
  · exact bitAt_resultBits (fs := [_, _, _, _]) rfl rfl (by decide)
  · exact bitAt_resultBits (fs := [_, _, _, _, _]) rfl rfl (by decide)
  · exact bitAt_resultBits (fs := [_, _, _, _, _, _]) rfl rfl (by decide)
  · exact (bitsAt_resultBits (fs := [_, _, _, _, _, _, _, _, _, _]) rfl (by simp only [fieldsWidth, sumBy, List.foldr]) (Nat.le_of_ble_eq_true rfl)).trans
      (Nat.mod_eq_of_lt hlt)

theorem frmTti_of_fault {d : Dev} {e : CmdEntry} {k : Nat} (env : Env) (h : ttiFault e = some k) : frmTti env e d = .refuse .badParam k := by
  simp only [frmTti, h]

theorem frmTti_of_off {d : Dev} {e : CmdEntry} (env : Env) (h : ttiFault e = none) (ho : d.domState (domCarrier (u8 e 0)) = .off) :
    frmTti env e d = .refuse .domainOff 0 := by
  simp only [frmTti, h, ho, if_true]

theorem frmTti_of_send {d : Dev} {e : CmdEntry} (env : Env) (h : ttiFault e = none) (ho : d.domState (domCarrier (u8 e 0)) ≠ .off) (h1 : u8 e 1 = 0) :
    frmTti env e d = .done [] (d.updFrm (u8 e 0) fun f => { f with ttiTx := ((payload e).drop 3).take 64 }) := by
  simp only [frmTti, h, ho, h1, if_false]

theorem Dev.timEval_of_unchecked {d : Dev} {env : Env} {n : Nat} (hp : env.par.val (pFrmTimMode + n) = 0) :
    d.timEval env n = d.updFrm n fun f => { f with tim := false } := by
  have hmode : env.par.nat (pFrmTimMode + n) = 0 := congrArg Int.toNat hp
  simp [Dev.timEval, hmode]

theorem frmTti_of_expect {d : Dev} {env : Env} {e : CmdEntry} (h : ttiFault e = none) (ho : d.domState (domCarrier (u8 e 0)) ≠ .off) (h1 : u8 e 1 = 1)
    (hp : env.par.val (pFrmTimMode + u8 e 0) = 0) :
    frmTti env e d = .done [] (d.updFrm (u8 e 0) fun f => { f with ttiExp := ((payload e).drop 3).take 64, tim := false }) := by
  simp only [frmTti, h, ho, h1, if_false, Dev.timEval_of_unchecked hp, Dev.updFrm_fuse]

theorem Dev.parityRuns_bundleOf (d : Dev) (n ch : Nat) (keys : List Nat) : (d.parityRuns n keys).bundleOf ch = d.bundleOf ch := by
  have hbundle : ∀ d : Dev, (keys.foldl (fun d k => d.draw.2.count k d.draw.1) d).bundle = d.bundle := by
    induction keys with
    | nil => exact fun _ => rfl
    | cons k ks ih => intro d; rw [List.foldl_cons, ih]; rfl
  unfold Dev.parityRuns; split
  · unfold Dev.bundleOf; rw [hbundle]
  · rfl

theorem Dev.parityRuns_chan (d : Dev) (n : Nat) (keys : List Nat) : (d.parityRuns n keys).chan = d.chan := by
  have hchan : ∀ d : Dev, (keys.foldl (fun d k => d.draw.2.count k d.draw.1) d).chan = d.chan := by
    induction keys with
    | nil => exact fun _ => rfl
    | cons k ks ih => intro d; rw [List.foldl_cons, ih]; rfl
  unfold Dev.parityRuns; split
  · exact hchan d
  · rfl

theorem Dev.parityRuns_chanAt (d : Dev) (n ch : Nat) (keys : List Nat) : (d.parityRuns n keys).chanAt ch = d.chanAt ch :=
  congrArg (fun t => Tbl.get Chan.reset t ch) (Dev.parityRuns_chan d n keys)

theorem Dev.parityRuns_chanCa (d : Dev) (n ch : Nat) (keys : List Nat) : (d.parityRuns n keys).chanCa ch = d.chanCa ch := by
  unfold Dev.chanCa; rw [Dev.parityRuns_chanAt, Dev.frm_of_car (Dev.parityRuns_car d n keys)]

/-- What the status of a channel names, once its parity counters were looked at (Table 9-9). -/
theorem chanStatus_fields (d : Dev) (n ch : Nat) (keys : List Nat) :
    let r := leNat (chanStatus ch (d.parityRuns n keys))
    bitAt r 7 = (d.bundleOf ch).isSome ∧ bitsAt r 16 5 = (d.chanAt ch).defects % 32 ∧ bitAt r 21 = d.chanCa ch := by
  simp only [chanStatus, Dev.parityRuns_bundleOf, Dev.parityRuns_chanAt, Dev.parityRuns_chanCa]
  refine ⟨?_, ?_, ?_⟩
  · exact bitAt_resultBits (fs := [_]) rfl rfl (by decide)
  · exact bitsAt_resultBits (fs := [_, _, _, _]) rfl rfl (by decide)
  · exact bitAt_resultBits (fs := [_, _, _, _, _]) rfl rfl (by decide)

/-- Settles O35. -/
theorem bundleAndFrameCommands : Obligations.BundleAndFrameCommands := by
  unfold Obligations.BundleAndFrameCommands
  refine ⟨fun e s s1 => ⟨?_, ?_, ?_, ?_, ?_, ?_, ?_, ?_, ?_⟩, fun e s s1 => ⟨?_, ?_, ?_, ?_, ?_, ?_, ?_, ?_⟩⟩
  · intro h p ht hr hp
    refine ⟨?_, ?_, ?_⟩
    · exact fun hb => h.refuses rfl (bundleCreate_of_existing s.env ht hb)
    · exact fun hb hs => h.refuses rfl (bundleCreate_of_above (env := s.env) ht hr hp hb hs)
    · exact fun hb hs hfree hbuf hrate => h.completes rfl (bundleCreate_of_free (env := s.env) ht hr hp hb hs hfree hbuf hrate)
  · exact fun h ht => h.refuses rfl (bundleCreate_of_noPoint s.env ht)
  · intro h hon ha hg
    exact ⟨fun hb => h.refuses rfl (bundleDelete_of_absent hon ha hg hb), fun hb hrate => h.completes rfl (bundleDelete_of_free hon ha hg hb hrate)⟩
  · exact fun h hon => h.refuses rfl (bundleDelete_of_on hon)
  · intro h hb hen hon
    refine ⟨?_, ?_, ?_⟩
    · exact fun ha => h.refuses rfl (bundleEnable_of_unattached hb hen hon ha)
    · exact fun ha ho => h.refuses rfl (bundleEnable_of_off hb hen hon ha ho)
    · exact fun ha ho hrate => h.starts rfl (bundleEnable_of_ready hb hen hon ha ho hrate)
  · exact fun h hb hen hon => h.starts rfl (bundleEnable_of_disable hb hen hon)
  · exact fun k hk => exec_of_onDev rfl (boundaryApply_of_enabling hk)
  · exact fun k hk => exec_of_onDev rfl (boundaryApply_of_closing hk)
  · exact fun k bytes hk => exec_of_onDev rfl (if_pos hk)
  · intro h ho hst hm
    have ho' : s.dev.domOn (domCarrier (u8 e 0)) = true := ho
    have hbody : (if s.dev.domOn (domCarrier (u8 e 0)) then CmdRes.done (frmStatus s.env (u8 e 0) s.dev).1 (frmStatus s.env (u8 e 0) s.dev).2 else .refuse .domainOff 0)
        = .done (frmStatus s.env (u8 e 0) s.dev).1 (s.dev.parityRuns (u8 e 0) (sectionParity (u8 e 0))) := by
      rw [if_pos ho', frmStatus_of_aligned s.env hst hm]
    exact ⟨_, h.completes rfl hbody, frmStatus_fields s.env hst hm⟩
  · exact fun h ho => h.refuses rfl (if_neg (Bool.eq_false_iff.mp ho))
  · intro h ho hs
    have ho' : s.dev.domOn (domCarrier (u16 e 0 / 128)) = true := ho
    have hbody : (if !s.dev.domOn (domCarrier (u16 e 0 / 128)) then CmdRes.refuse .domainOff 0
        else if s.dev.rxSlots (u16 e 0 / 128) ≤ u16 e 0 % 128 then badField 0
        else .done (chanStatus (u16 e 0) (s.dev.parityRuns (u16 e 0 / 128) (pathParity (u16 e 0)))) (s.dev.parityRuns (u16 e 0 / 128) (pathParity (u16 e 0)))) = .done (chanStatus (u16 e 0) (s.dev.parityRuns (u16 e 0 / 128) (pathParity (u16 e 0)))) (s.dev.parityRuns (u16 e 0 / 128) (pathParity (u16 e 0))) := by
      rw [ho', if_neg (by decide), if_neg (Nat.not_le.mpr hs)]
    exact ⟨_, h.completes rfl hbody, chanStatus_fields s.dev _ _ _⟩
  · intro h ho hs
    have ho' : s.dev.domOn (domCarrier (u16 e 0 / 128)) = true := ho
    exact h.refuses rfl ((if_neg (by rw [ho']; decide)).trans (if_pos hs))
  · exact fun h hf ho => h.refuses rfl (frmTti_of_off s.env hf ho)
  · exact fun h hf ho h1 => h.completes rfl (frmTti_of_send s.env hf ho h1)
  · exact fun h hf ho h1 hp => h.completes rfl (frmTti_of_expect (env := s.env) hf ho h1 hp)
  · exact fun h k hk => h.refuses rfl (frmTti_of_fault s.env hk)

end Sys2Proof.Machine
end

section
/-! Rate steps: their commands and the events of the handshake (chapter 10). -/

namespace Sys2Proof.Machine

/-! ### How a step begins and goes on -/

/-- What a step's beginning notes of it, where it brings no new symbol rate (R236, R237). -/
def Rate.begun (env : Env) (responder : Bool) (seq slots h oldSlots oldH : Nat) (roomOk : Bool) (r : Rate) : Rate :=
  { r with
    st := .prepare, responder := responder, seq := seq, slots := slots, h := h, oldSlots := oldSlots, oldH := oldH, txDone := false, rxDone := false,
    shadow := false, loading := false, throttling := false, throttled := false, room := roomOk, auto := false, start := env.now, missed := none }

theorem Dev.updRate_stepNeedsRoom (d : Dev) (n m : Nat) (f : Rate → Rate) : (d.updRate n f).stepNeedsRoom m = d.stepNeedsRoom m := rfl

theorem Dev.stepNeedsRoom_of_inelastic {d : Dev} {n : Nat} (h : d.elasticOf n = none) : d.stepNeedsRoom n = false := by
  unfold Dev.stepNeedsRoom; rw [h]; rfl

theorem Dev.stepCheck_of_traffic {d : Dev} {n : Nat} {p : OpPoint} (h : d.stepTraffic n p.slots = true) : d.stepCheck n p = some (3, .trafficPresent) := if_pos h

theorem Dev.stepCheck_of_inelastic {d : Dev} {n : Nat} {p : OpPoint} (ht : d.stepTraffic n p.slots = false) (he : d.elasticOf n = none) : d.stepCheck n p = none := by
  have hadds : d.stepAdds n p.slots = 0 := by unfold Dev.stepAdds; rw [he]
  simp [Dev.stepCheck, ht, hadds]

theorem Dev.stepPrepare_of_traffic {d : Dev} {n : Nat} {p : OpPoint} (env : Env) (responder : Bool) (seq : Nat) (roomOk : Bool) (h : d.stepTraffic n p.slots = true) :
    d.stepPrepare env n p responder seq roomOk = .error (3, .trafficPresent) := by
  unfold Dev.stepPrepare; rw [Dev.stepCheck_of_traffic h]

/-- REQ or ACK goes out where the ring has its room (R237, R239). -/
theorem Dev.stepSend_of_room {d : Dev} {n : Nat} (env : Env) (h : d.stepNeedsRoom n = false ∨ (d.rate n).room = true) :
    d.stepSend env n = (d.updRate n fun r => { r with st := if r.responder then .ackSent else .reqSent }).sendRs env n
      ⟨if (d.rate n).responder then opAck else opReq, (d.rate n).seq, (d.rate n).slots, (d.rate n).h, 0⟩ := by
  have hc : (d.stepNeedsRoom n && !(d.rate n).room) = false := by
    rcases h with h | h
    · rw [h]; rfl
    · rw [h]; exact Bool.and_false _
  unfold Dev.stepSend
  rw [if_neg (Bool.eq_false_iff.mp hc)]

theorem Dev.stepThrottle_of_inelastic {d : Dev} {n : Nat} (env : Env) (h : d.elasticOf n = none) : d.stepThrottle env n = d.stepSend env n := by
  simp only [Dev.stepThrottle, h]

/-- A step on a carrier with no elastic bundle, at the symbol rate in force, sends its REQ or ACK at once (R237). -/
theorem Dev.stepPrepare_of_sameRate {d : Dev} {n : Nat} {p q : OpPoint} (env : Env) (responder : Bool) (seq : Nat) (roomOk : Bool) (hq : (d.rx n).op = some q)
    (hrs : q.symrate = p.symrate) (ht : d.stepTraffic n p.slots = false) (he : d.elasticOf n = none) :
    d.stepPrepare env n p responder seq roomOk = .ok ((d.updRate n fun r =>
      { r.begun env responder seq p.slots p.h q.slots q.h roomOk with st := if responder then .ackSent else .reqSent }).sendRs env n
        ⟨if responder then opAck else opReq, seq, p.slots, p.h, 0⟩) := by
  have hchanges : decide ((d.rx n).op.map OpPoint.symrate ≠ some p.symrate) = false := by rw [hq]; simp [hrs]
  have hsend := Dev.stepSend_of_room (d := d.updRate n (Rate.begun env responder seq p.slots p.h q.slots q.h roomOk)) (n := n) env
    (Or.inl (Dev.stepNeedsRoom_of_inelastic he))
  simp only [Dev.updRate_same, Dev.updRate_fuse] at hsend
  simp only [Dev.stepPrepare, Dev.stepCheck_of_inelastic ht he, hchanges, Bool.false_eq_true, if_false, Dev.stepNeedsRoom_of_inelastic he, Bool.false_and]
  rw [hq]
  exact congrArg Except.ok ((Dev.stepThrottle_of_inelastic (d := d.updRate n (Rate.begun env responder seq p.slots p.h q.slots q.h roomOk)) env he).trans hsend)

/-! ### CMD_RATE_STEP -/

/-- The target that a CMD_RATE_STEP names (R235). -/
abbrev stepTarget (e : CmdEntry) : OpPoint := targetPoint (csSlots e) (csMode1 e) (csEntropy e) (csRate e)

theorem rateStep_of_interop {d : Dev} {e : CmdEntry} (env : Env) (roomOk : Bool) (hl : layoutFault (payload e) (csLayout e) = none) (hp : csProfile e ≠ 0) :
    rateStep env e roomOk d = .refuse .state 0 := by
  simp only [rateStep, hl]; exact if_pos (Or.inl hp)

theorem stepBound_of_sameRate {d : Dev} {n : Nat} {p q : OpPoint} (env : Env) (hq : (d.rx n).op = some q) (hrs : q.symrate = p.symrate) :
    stepBound env n p d = env.par.nat (pRsAckTimeout + n) * ms + 5 * ms := by
  simp [stepBound, hq, hrs]

section
variable {d : Dev} {env : Env} {e : CmdEntry} {roomOk : Bool} (hl : layoutFault (payload e) (csLayout e) = none) (hp : csProfile e = 0) (hs : d.inService = true)
  (hh : (d.carrier (u8 e 0)).heldDown = false)
include hl hp hs hh

theorem rateStep_of_off (ho : d.domOn (domCarrier (u8 e 0)) = false) : rateStep env e roomOk d = .refuse .domainOff 0 := by
  simp [rateStep, hl, hp, hs, hh, ho]

variable (ho : d.domOn (domCarrier (u8 e 0)) = true)
include ho

theorem rateStep_of_unready (hr : d.stepReady (u8 e 0) = false) : rateStep env e roomOk d = .refuse .state 0 := by
  simp [rateStep, hl, hp, hs, hh, ho, hr]

variable (hr : d.stepReady (u8 e 0) = true) (hf : d.stepFault env (u8 e 0) (stepTarget e) (csMode1 e) (csEntropy e) = none)
include hr hf

theorem rateStep_of_samePoint (ht : (d.tx (u8 e 0)).op = some (stepTarget e)) (hx : (d.rx (u8 e 0)).op = some (stepTarget e)) :
    rateStep env e roomOk d = .refuse .badParam (if csMode1 e then 14 else 12) := by
  simp only [rateStep, hl, hp, hs, hh, ho, hr, hf, ht, hx, ne_eq, not_true_eq_false, Bool.true_eq_false, Bool.false_eq_true, or_self, Bool.not_true, if_false, and_self, if_true]

theorem rateStep_of_otherPoint (hne : ¬ ((d.tx (u8 e 0)).op = some (stepTarget e) ∧ (d.rx (u8 e 0)).op = some (stepTarget e))) :
    rateStep env e roomOk d = match d.stepPrepare env (u8 e 0) (stepTarget e) false (((d.rate (u8 e 0)).seq + 1) % 16) roomOk with
      | .error (_, st) => .refuse st 0
      | .ok d1 => if d.anyRateBusy then .refuse .busy 0 else .start (stepBound env (u8 e 0) (stepTarget e) d) d1 := by
  simp only [rateStep, hl, hp, hs, hh, ho, hr, hf, ne_eq, not_true_eq_false, Bool.true_eq_false, Bool.false_eq_true, or_self, Bool.not_true, if_false]
  exact if_neg hne

theorem rateStep_of_traffic (hne : (d.tx (u8 e 0)).op ≠ some (stepTarget e)) (ht : d.stepTraffic (u8 e 0) (stepTarget e).slots = true) :
    rateStep env e roomOk d = .refuse .trafficPresent 0 := by
  rw [rateStep_of_otherPoint hl hp hs hh ho hr hf fun h => hne h.1, Dev.stepPrepare_of_traffic _ _ _ _ ht]

theorem rateStep_of_sameRate {q : OpPoint} (hq : (d.rx (u8 e 0)).op = some q) (hne : q ≠ stepTarget e) (hrs : q.symrate = (stepTarget e).symrate)
    (ht : d.stepTraffic (u8 e 0) (stepTarget e).slots = false) (he : d.elasticOf (u8 e 0) = none) (hb : d.anyRateBusy = false) :
    rateStep env e roomOk d = .start (env.par.nat (pRsAckTimeout + u8 e 0) * ms + 5 * ms) ((d.updRate (u8 e 0) fun r =>
      { r.begun env false ((r.seq + 1) % 16) (stepTarget e).slots (stepTarget e).h q.slots q.h roomOk with st := .reqSent }).sendRs env (u8 e 0)
        ⟨opReq, ((d.rate (u8 e 0)).seq + 1) % 16, (stepTarget e).slots, (stepTarget e).h, 0⟩) := by
  rw [rateStep_of_otherPoint hl hp hs hh ho hr hf fun h => hne (Option.some.inj (hq.symm.trans h.2)), Dev.stepPrepare_of_sameRate _ _ _ _ hq hrs ht he]
  dsimp only
  rw [hb, if_neg Bool.false_ne_true, stepBound_of_sameRate env hq hrs]
  exact congrArg (CmdRes.start _) (congrArg (fun x : Dev => x.sendRs env (u8 e 0) _) (Dev.updRate_congr _ _ _ _ rfl))

end

/-! ### Status and elastic bundles -/

theorem RsState.code_lt (x : RsState) : x.code < 2 ^ 3 := by cases x <;> decide

theorem rateStatus_fields (n : Nat) (d : Dev) :
    let res := leNat (rateStatus n d); let r := d.rate n
    bitsAt res 0 3 = r.st.code ∧ bitAt res 3 = r.responder ∧ bitsAt res 4 4 = r.seq % 16 ∧ bitsAt res 8 8 = r.slots % 256 ∧
    bitsAt res 16 16 = r.h % 65536 ∧ bitsAt res 32 8 = r.lastCause % 256 ∧
    bitsAt res 64 32 = d.counter (ctrStepsDone n) % 2 ^ 32 ∧ bitsAt res 96 32 = d.counter (ctrStepsFailed n) % 2 ^ 32 := by
  refine ⟨?_, ?_, ?_, ?_, ?_, ?_, ?_, ?_⟩
  · exact (bitsAt_resultBits (fs := []) rfl rfl (by decide)).trans (Nat.mod_eq_of_lt (RsState.code_lt _))
  · exact bitAt_resultBits (fs := [_]) rfl rfl (by decide)
  · exact bitsAt_resultBits (fs := [_, _]) rfl rfl (by decide)
  · exact bitsAt_resultBits (fs := [_, _, _]) rfl rfl (by decide)
  · exact bitsAt_resultBits (fs := [_, _, _, _]) rfl rfl (by decide)
  · exact bitsAt_resultBits (fs := [_, _, _, _, _]) rfl rfl (by decide)
  · exact bitsAt_resultBits (fs := [_, _, _, _, _, _, _]) rfl rfl (by decide)
  · exact bitsAt_resultBits (fs := [_, _, _, _, _, _, _, _]) rfl rfl (by decide)

section
variable {d : Dev} {e : CmdEntry} (hb : d.hasBundle (u8 e 0) = true)
include hb

theorem rateElastic_of_free (hon : bitAt (u8 e 1) 0 = true)
    (htop : (d.bundleAt (u8 e 0)).first + (d.bundleAt (u8 e 0)).count = d.txSlots (d.bundleAt (u8 e 0)).carrier)
    (he : d.elasticOf (d.bundleAt (u8 e 0)).carrier = none) (ha : (d.bundleAt (u8 e 0)).attach = .none) (hg : d.groupsOf (u8 e 0) = []) :
    rateElastic e d = .done [] (d.updBundle (u8 e 0) fun x => { x with elastic := true }) := by
  simp [rateElastic, hb, hon, htop, he, ha, hg]

theorem rateElastic_of_clash (hon : bitAt (u8 e 1) 0 = true)
    (h : (d.bundleAt (u8 e 0)).first + (d.bundleAt (u8 e 0)).count ≠ d.txSlots (d.bundleAt (u8 e 0)).carrier ∨
      (d.elasticOf (d.bundleAt (u8 e 0)).carrier).isSome = true ∨ (∃ q, (d.bundleAt (u8 e 0)).attach = .eth q) ∨ d.groupsOf (u8 e 0) ≠ []) :
    rateElastic e d = .refuse .state 0 := by
  simp only [rateElastic, hb, hon, Bool.not_true, Bool.false_eq_true, if_false, if_true]
  refine if_pos ?_
  rcases h with h | h | ⟨q, h⟩ | h
  · simp [h]
  · simp [h]
  · simp [h]
  · simp [h]

theorem rateElastic_of_end (hon : bitAt (u8 e 1) 0 = false) : rateElastic e d = .done [] (d.updBundle (u8 e 0) fun x => { x with elastic := false }) := by
  simp [rateElastic, hb, hon]

end

theorem rateElastic_of_absent {d : Dev} {e : CmdEntry} (hb : d.hasBundle (u8 e 0) = false) : rateElastic e d = .refuse .badParam 8 := by
  simp [rateElastic, hb, badField]

/-- Settles O36. -/
theorem rateCommands : Obligations.RateCommands := by
  unfold Obligations.RateCommands
  intro e s s1
  refine ⟨?_, ?_, ?_, ?_, ?_, ?_, ?_⟩
  · intro roomOk h hl hp hs hh
    refine ⟨fun ho => ?_, fun ho hr => ?_, fun ho hr hf => ⟨fun ht hx => ?_, fun hne ht => ?_, fun q hq hne hrs ht he hb => ?_⟩⟩
    · exact h.refuses rfl (rateStep_of_off (env := s.env) hl hp hs hh ho)
    · exact h.refuses rfl (rateStep_of_unready (env := s.env) hl hp hs hh ho hr)
    · exact h.refuses rfl (rateStep_of_samePoint hl hp hs hh ho hr hf ht hx)
    · exact h.refuses rfl (rateStep_of_traffic hl hp hs hh ho hr hf hne ht)
    · exact h.starts rfl (rateStep_of_sameRate hl hp hs hh ho hr hf hq hne hrs ht he hb)
  · exact fun roomOk h hl hp => h.refuses rfl (rateStep_of_interop s.env roomOk hl hp)
  · exact fun h ho => h.refuses rfl (Dev.ifPowered_of_off _ ho)
  · exact fun h ho => ⟨_, h.completes rfl (Dev.ifPowered_of_powered _ ho), rateStatus_fields _ _⟩
  · intro h hb hon
    exact ⟨fun htop he ha hg => h.completes rfl (rateElastic_of_free hb hon htop he ha hg), fun hc => h.refuses rfl (rateElastic_of_clash hb hon hc)⟩
  · exact fun h hb => h.refuses rfl (rateElastic_of_absent hb)
  · exact fun h hb hon => h.completes rfl (rateElastic_of_end hb hon)

/-! ### The handshake, case by case -/

section
variable {d : Dev} {env : Env} {n : Nat} {roomOk : Bool} (hop : (d.rsIn n).op = opReq)
include hop

theorem reqRx_of_collision (hst : (d.rate n).st = .reqSent) : reqRx env n roomOk d = (d.stepFail env n 7 .busy 0).nak env n 7 := by
  unfold reqRx; dsimp only; rw [if_neg (not_not_intro hop), if_pos hst]

variable (hst : (d.rate n).st = .idle)
include hst

theorem reqRx_of_idle : reqRx env n roomOk d = match d.reqRefusal env n with
    | some c => (if c = 1 then d else d.reqReport n).nak env n c
    | none => match (d.reqReport n).reqCheck env n ⟨0, (d.rsIn n).slots, (d.rsIn n).h⟩ with
      | some c => (d.reqReport n).reqFail env n c
      | none => match (d.reqReport n).stepPrepare env n ⟨0, (d.rsIn n).slots, (d.rsIn n).h⟩ true (d.rsIn n).seq roomOk with
        | .error (c, _) => (d.reqReport n).reqFail env n c
        | .ok d2 => d2 := by
  unfold reqRx; dsimp only
  rw [if_neg (not_not_intro hop), if_neg (by rw [hst]; decide), if_neg (by simp [Dev.rateBusy, hst])] <;> rfl

theorem reqRx_of_barred (hp : env.par.val (pRsAccept + n) = 0) :
    reqRx env n roomOk d = d.sendRs env n ⟨opNak, (d.rsIn n).seq, (d.rsIn n).slots, (d.rsIn n).h, 1⟩ := by
  rw [reqRx_of_idle hop hst, show d.reqRefusal env n = some 1 from if_pos hp] <;> rfl

variable (hp : env.par.val (pRsAccept + n) ≠ 0) (hb : d.anyRateBusy = false) (hc : d.reqCheck env n ⟨0, (d.rsIn n).slots, (d.rsIn n).h⟩ = none)
include hp hb hc

theorem reqRx_of_checked : reqRx env n roomOk d =
    match (d.reqReport n).stepPrepare env n ⟨0, (d.rsIn n).slots, (d.rsIn n).h⟩ true (d.rsIn n).seq roomOk with
      | .error (c, _) => (d.reqReport n).reqFail env n c
      | .ok d2 => d2 := by
  have hrefusal : d.reqRefusal env n = none := by unfold Dev.reqRefusal; rw [if_neg hp, hb]; rfl
  have hcheck : (d.reqReport n).reqCheck env n ⟨0, (d.rsIn n).slots, (d.rsIn n).h⟩ = none := hc
  rw [reqRx_of_idle hop hst, hrefusal]; dsimp only; rw [hcheck]

theorem reqRx_of_traffic (ht : d.stepTraffic n (d.rsIn n).slots = true) : reqRx env n roomOk d = (d.reqReport n).reqFail env n 3 := by
  have ht' : (d.reqReport n).stepTraffic n (⟨0, (d.rsIn n).slots, (d.rsIn n).h⟩ : OpPoint).slots = true := ht
  rw [reqRx_of_checked hop hst hp hb hc, Dev.stepPrepare_of_traffic _ _ _ _ ht']

theorem reqRx_of_sameRate {q : OpPoint} (hq : (d.rx n).op = some q) (hrs : q.symrate = (⟨0, (d.rsIn n).slots, (d.rsIn n).h⟩ : OpPoint).symrate)
    (ht : d.stepTraffic n (d.rsIn n).slots = false) (he : d.elasticOf n = none) :
    reqRx env n roomOk d = ((d.reqReport n).updRate n fun r =>
      { r.begun env true (d.rsIn n).seq (d.rsIn n).slots (d.rsIn n).h q.slots q.h roomOk with st := .ackSent }).sendRs env n
        ⟨opAck, (d.rsIn n).seq, (d.rsIn n).slots, (d.rsIn n).h, 0⟩ := by
  have hprep := Dev.stepPrepare_of_sameRate (d := d.reqReport n) (p := ⟨0, (d.rsIn n).slots, (d.rsIn n).h⟩) env true (d.rsIn n).seq roomOk hq hrs ht he
  rw [reqRx_of_checked hop hst hp hb hc, hprep] <;> rfl

end

section
variable {d : Dev} {env : Env} {n : Nat}

theorem Dev.rsIs_of {op : Nat} (ho : (d.rsIn n).op = op) (hs : (d.rsIn n).seq = (d.rate n).seq) : d.rsIs n op = true := decide_eq_true ⟨ho, hs⟩

theorem throttleDone_of_met (hst : (d.rate n).st = .prepare) (ht : (d.rate n).throttling = true) (hm : d.throttleMet n = true) (hr : (d.rate n).responder = false)
    (hroom : d.stepNeedsRoom n = false ∨ (d.rate n).room = true) :
    throttleDone env n d = (d.updRate n fun r => { r with throttling := false, st := .reqSent }).sendRs env n
      ⟨opReq, (d.rate n).seq, (d.rate n).slots, (d.rate n).h, 0⟩ := by
  have hroom' : (d.updRate n fun r => { r with throttling := false }).stepNeedsRoom n = false ∨ ((d.updRate n fun r => { r with throttling := false }).rate n).room = true := by
    rw [Dev.updRate_stepNeedsRoom, Dev.updRate_same]; exact hroom
  unfold throttleDone
  rw [if_pos ⟨hst, ht, hm⟩, Dev.stepSend_of_room env hroom', Dev.updRate_same, Dev.updRate_fuse]
  simp only [hr, Bool.false_eq_true, if_false]
  exact congrArg (fun x : Dev => x.sendRs env n _) (Dev.updRate_congr _ _ _ _ (by simp [hr]))

theorem throttleTimeout_of_throttling (hst : (d.rate n).st = .prepare) (ht : (d.rate n).throttling = true) :
    throttleTimeout env n d = d.stepRefused env n 8 .noCredit := if_pos ⟨hst, ht⟩

theorem Dev.stepRefused_of_initiator {cause : Nat} {st : Status} (hr : (d.rate n).responder = false) : d.stepRefused env n cause st = d.stepFail env n cause st 0 :=
  if_neg (Bool.eq_false_iff.mp hr)

theorem Dev.stepRefused_of_responder {cause : Nat} {st : Status} (hr : (d.rate n).responder = true) :
    d.stepRefused env n cause st = (d.stepFail env n cause st 0).sendRs env n ⟨opNak, (d.rate n).seq, (d.rate n).slots, (d.rate n).h, cause⟩ := if_pos hr

theorem missedRetry_of_old (hm : (d.rate n).missed = some false) (hl : d.locked n = false) :
    missedRetry env n d = (((((d.updRate n fun r => { r with missed := some true }).calPoint env n ⟨0, (d.rate n).slots, (d.rate n).h⟩).stopRx env n .down).updRx n
      fun x => { x with op := some ⟨0, (d.rate n).slots, (d.rate n).h⟩ })).startFast env n := by
  simp only [missedRetry, hm, hl, Bool.false_eq_true, if_false, Bool.not_false]

end

/-- Settles O37. -/
theorem handshakeEvents : Obligations.HandshakeEvents := by
  unfold Obligations.HandshakeEvents
  intro s c
  refine ⟨?_, ?_, ?_, ?_, ?_, ?_, ?_, ?_, ?_, ?_, ?_, ?_, ?_, ?_⟩
  · exact fun roomOk hop hst hp => exec_of_onDev rfl (reqRx_of_barred hop hst hp)
  · exact fun roomOk hop hst => exec_of_onDev rfl (reqRx_of_collision hop hst)
  · exact fun roomOk q hop hst hp hb hc hq hrs ht he => exec_of_onDev rfl (reqRx_of_sameRate hop hst hp hb hc hq hrs ht he)
  · exact fun roomOk hop hst hp hb hc ht => exec_of_onDev rfl (reqRx_of_traffic hop hst hp hb hc ht)
  · exact fun hst ho hs => exec_of_onDev rfl (if_pos ⟨hst, Dev.rsIs_of ho hs⟩)
  · exact fun hst ho hs => exec_of_onDev rfl (if_pos ⟨hst, Dev.rsIs_of ho hs⟩)
  · exact fun hst ho hs => exec_of_onDev rfl (if_pos ⟨hst, Dev.rsIs_of ho hs⟩)
  · exact fun hr hu ho hs => exec_of_onDev rfl (if_pos ⟨hr, hu, Dev.rsIs_of ho hs⟩)
  · exact fun hst => exec_of_onDev rfl (if_pos hst)
  · exact fun hst ht hm hr hroom => exec_of_onDev rfl (throttleDone_of_met hst ht hm hr hroom)
  · exact fun hst ht hr => exec_of_onDev rfl ((throttleTimeout_of_throttling hst ht).trans (Dev.stepRefused_of_initiator hr))
  · exact fun hst ht hr => exec_of_onDev rfl ((throttleTimeout_of_throttling hst ht).trans (Dev.stepRefused_of_responder hr))
  · exact fun hst hx => exec_of_onDev rfl (if_pos ⟨hst, hx⟩)
  · exact fun hm hl => exec_of_onDev rfl (missedRetry_of_old hm hl)

end Sys2Proof.Machine
end

section
/-! The switches of a rate step, and the rate policy (chapter 10). -/

namespace Sys2Proof.Machine

/-! ### The switches -/

theorem fsChanges_of_same {o : Option OpPoint} {p q : OpPoint} (hq : o = some q) (h : q.sameFs p = true) : fsChanges o p = false := by
  simp [fsChanges, hq, h]

theorem Dev.growElastic_of_inelastic {d : Dev} {n : Nat} (slots : Nat) (h : d.elasticOf n = none) : d.growElastic n slots = d := by
  simp only [Dev.growElastic, h]

/-- A responder's transmitter switches first, at the sample rate in force, with no elastic bundle to follow (R240). -/
theorem txSwitch_of_first {d : Dev} {env : Env} {n : Nat} {q : OpPoint} (hq : (d.tx n).op = some q) (hfs : q.sameFs ⟨0, (d.rate n).slots, (d.rate n).h⟩ = true)
    (hst : (d.rate n).st = .committed) (hcd : (d.rate n).tx.cd ≤ 1) (he : d.elasticOf n = none) (hr : (d.rate n).responder = true)
    (hm : (d.rate n).missed = none) (hx : (d.rate n).rxDone = false) :
    txSwitch env n d = (carrierSetResult ⟨0, (d.rate n).slots, (d.rate n).h⟩
      (((d.updTx n fun t => t.switchPoint env.now ⟨0, (d.rate n).slots, (d.rate n).h⟩).updRate n fun r =>
        { r with st := .txSwitched, txDone := true, throttled := false, txSwitchAt := env.now }).sendIdle env n)).2 := by
  have he' : (d.updTx n fun t => t.switchPoint env.now ⟨0, (d.rate n).slots, (d.rate n).h⟩).elasticOf n = none := he
  unfold txSwitch; dsimp only
  rw [if_pos ⟨hst, hcd⟩]
  simp only [fsChanges_of_same hq hfs, Dev.growElastic_of_inelastic _ he', hr, hm, hx, if_true, Option.isSome_none, Bool.false_eq_true, if_false]

/-- The receiver's switch, of a step that brings no new set (R241). -/
def Dev.rxSwitched (d : Dev) (env : Env) (n : Nat) : Dev :=
  (((d.calPoint env n ⟨0, (d.rate n).slots, (d.rate n).h⟩).updRx n fun x => { x with op := some ⟨0, (d.rate n).slots, (d.rate n).h⟩, repeatAt := none }).updRate n
    fun r => { r with rxDone := true, shadow := false }).updSense n fun x => { x with sigma := some env.now }

theorem rxSwitch_of_plain {d : Dev} {env : Env} {n : Nat} (hst : (d.rate n).st = .committed ∨ (d.rate n).st = .txSwitched) (hx : (d.rate n).rxDone = false)
    (hsh : (d.rate n).shadow = false) (hl : d.locked n = true) :
    rxSwitch env n d = if (d.rate n).txDone then (d.rxSwitched env n).stepDone env n else d.rxSwitched env n := by
  have hack : (d.rate n).st ≠ .ackSent := by rcases hst with h | h <;> rw [h] <;> decide
  have hgo : ((d.rate n).st = .committed ∨ (d.rate n).st = .txSwitched ∨ (d.rate n).st = .ackSent) ∧ (d.rate n).rxDone = false ∧ d.locked n = true :=
    ⟨hst.imp_right Or.inl, hx, hl⟩
  unfold rxSwitch; dsimp only
  rw [if_pos hgo, if_neg hack, hsh] <;> rfl

/-- The end of a rate step (R242). -/
theorem Dev.stepDone_rate (d : Dev) (env : Env) (n : Nat) : (d.stepDone env n).rate n =
    { d.rate n with st := .idle, lastCause := 0, lastDuration := (env.now - (d.rate n).start) / us, throttled := false, shadow := false, split := false } := by
  simp only [Dev.stepDone, Dev.raise_rate, Dev.count_rate, Dev.updRate_same]

theorem Dev.stepDone_rate_other (d : Dev) (env : Env) {n m : Nat} (h : m ≠ n) : (d.stepDone env n).rate m = d.rate m := by
  simp only [Dev.stepDone, Dev.raise_rate, Dev.count_rate, Dev.updRate_other _ _ _ _ h]

theorem Dev.stepDone_tx (d : Dev) (env : Env) (n : Nat) : (d.stepDone env n).tx n = d.tx n := by
  simp only [Dev.stepDone, Dev.raise_tx, Dev.count_tx, Dev.updRate_tx]

theorem Dev.stepDone_rx (d : Dev) (env : Env) (n : Nat) : (d.stepDone env n).rx n = d.rx n := by
  simp only [Dev.stepDone, Dev.raise_rx, Dev.count_rx, Dev.updRate_rx]

theorem Dev.stepDone_counter (d : Dev) (env : Env) (n : Nat) : (d.stepDone env n).counter (ctrStepsDone n) = (d.counter (ctrStepsDone n) + 1) % 2 ^ 48 :=
  Dev.count_same _ _ _

/-- Settles O38. -/
theorem rateSwitches : Obligations.RateSwitches := by
  unfold Obligations.RateSwitches
  refine ⟨fun s c => ⟨?_, ?_, ?_⟩, fun d env n => ?_⟩
  · intro q hq hfs hst hcd he hr hm hx
    exact ⟨_, _, exec_of_onDev rfl (txSwitch_of_first (env := s.env) hq hfs hst hcd he hr hm hx), rfl⟩
  · intro hst hx ht hsh hl
    exact exec_of_onDev rfl ((rxSwitch_of_plain (env := s.env) (Or.inr hst) hx hsh hl).trans (if_pos ht))
  · intro hst hx ht hsh hl
    exact exec_of_onDev rfl ((rxSwitch_of_plain (env := s.env) (Or.inl hst) hx hsh hl).trans (if_neg (Bool.eq_false_iff.mp ht)))
  · dsimp only
    rw [Dev.stepDone_rate]
    exact ⟨rfl, rfl, rfl, rfl, Dev.stepDone_counter d env n, fun m h => Dev.stepDone_rate_other d env h, Dev.stepDone_tx d env n, Dev.stepDone_rx d env n⟩

/-! ### The policy's decision -/

theorem policyDecision_of_unplaced {d : Dev} {env : Env} {n : Nat} (h : d.runPlaced .ratePolicy n = false) : policyDecision env n d = d := if_pos h

theorem policyDecision_of_unready {d : Dev} {env : Env} {n : Nat} (h : d.runPlaced .ratePolicy n = true)
    (hp : env.par.val (pRsPolicy + n) = 0 ∨ (d.endRun .ratePolicy n).policyReady n = false) :
    policyDecision env n d = (d.endRun .ratePolicy n).updRate n fun r => { r with upSince := none } :=
  (if_neg (by rw [h]; decide)).trans (if_pos hp)

theorem Dev.policyAct_of_advice {d : Dev} {env : Env} {n : Nat} {down : Bool} {p : OpPoint} (hmin : env.par.nat (pRsMinSlots + n) ≤ p.slots)
    (hmax : p.slots ≤ env.par.nat (pRsMaxSlots + n)) (ht : down = true → d.stepTraffic n p.slots = false) (hp : env.par.val (pRsPolicy + n) = 1) :
    d.policyAct env n down p = (d.updRate n fun r => { r with adviceSlots := p.slots, adviceH := p.h }).raise .rateAdvice n [(1, p.slots), (2, p.h)] := by
  have hbar : (decide (p.slots < env.par.nat (pRsMinSlots + n) ∨ env.par.nat (pRsMaxSlots + n) < p.slots) || (down && d.stepTraffic n p.slots)) = false := by
    rw [decide_eq_false (by omega), Bool.false_or]
    cases down with
    | false => rfl
    | true => exact ht rfl
  unfold Dev.policyAct
  rw [if_neg (Bool.eq_false_iff.mp hbar)]; dsimp only; rw [if_pos hp]

/-- Two equal samples have no slope. -/
theorem slope_of_level (x m : Int) : slope [(0, m), (x, m)] = (0, x * x) := by
  simp only [slope, List.foldl, List.length_cons, List.length_nil]
  refine Prod.ext ?_ ?_
  · dsimp only; push_cast; ring
  · dsimp only; push_cast; ring

/-- A second decision at the same margin, inside both thresholds, only records it (R244). -/
theorem policyDecision_of_level {d : Dev} {env : Env} {n t : Nat} {m : Int} (hp : env.par.val (pRsPolicy + n) ≠ 0) (hr : d.runPlaced .ratePolicy n = true)
    (hready : (d.endRun .ratePolicy n).policyReady n = true)
    (hm : m = 4 * ((d.endRun .ratePolicy n).rx n).meas.margin - snrShift4 ((d.endRun .ratePolicy n).fec n).iter ((d.endRun .ratePolicy n).fec n).latmode)
    (hms : ((d.endRun .ratePolicy n).rate n).margins = [(t, m)]) (ht : t < env.now) (hwin : env.now < t + env.par.nat (pRsTrendWin + n) * sec)
    (hdown : ¬ m < 4 * env.par.val (pRsDownMargin + n))
    (hup : ¬ 64 * env.par.val (pRsUpMargin + n) + (((policyTarget env n ((d.endRun .ratePolicy n).txSlots n + env.par.nat (pRsStepSlots + n))
      (d.endRun .ratePolicy n)).requiredSnr64 : Int) - ((((d.endRun .ratePolicy n).tx n).op.map OpPoint.requiredSnr64).getD 0 : Nat)) < 16 * m) :
    policyDecision env n d = (d.endRun .ratePolicy n).updRate n fun r => { r with margins := [(env.now, m), (t, m)], upSince := none } := by
  have hslope : slope ([(env.now, m), (t, m)].map fun x : Nat × Int => ((x.1 : Int) - env.now, x.2)) = (0, ((t : Int) - env.now) * ((t : Int) - env.now)) := by
    simpa using slope_of_level ((t : Int) - env.now) m
  have hden : 0 < ((t : Int) - env.now) * ((t : Int) - env.now) := mul_pos_of_neg_of_neg (by omega) (by omega)
  have hdown' : ¬ m * (((t : Int) - env.now) * ((t : Int) - env.now)) + 0 * sec * env.par.val (pRsHorizon + n) <
      4 * env.par.val (pRsDownMargin + n) * (((t : Int) - env.now) * ((t : Int) - env.now)) := by
    rw [zero_mul, zero_mul, add_zero, not_lt]
    exact mul_le_mul_of_nonneg_right (not_lt.mp hdown) hden.le
  have hfilter : [(t, m)].filter (fun x => decide (env.now < x.1 + env.par.nat (pRsTrendWin + n) * sec)) = [(t, m)] := List.filter_cons_of_pos (decide_eq_true hwin)
  unfold policyDecision
  dsimp only
  rw [if_neg (by rw [hr]; decide), if_neg (by rw [hready]; simp [hp]), ← hm, hms]
  have hlen : decide ([(env.now, m), (t, m)].length < 2) = false := rfl
  rw [hfilter, hlen, if_neg Bool.false_ne_true, if_neg Bool.false_ne_true, hslope, if_neg hdown', decide_eq_false hup, if_neg Bool.false_ne_true, Bool.and_false,
    if_neg Bool.false_ne_true]

/-! ### The policy's runs -/

theorem Dev.policyFollow_of_due {d : Dev} {env : Env} {n : Nat} (hp : env.par.val (pRsPolicy + n) ≠ 0) (hs : (d.rate n).policySec < env.now / sec)
    (hserv : d.inService = true) (ho : d.domOn n = true) (hrun : d.runs.any (isRun .ratePolicy n) = false) (hmbx : env.mbx = .ready) :
    d.policyFollow env n =
      if ((d.updRate n fun r => { r with policySec := env.now / sec }).startRun env .ratePolicy n).runPlaced .ratePolicy n then
        (d.updRate n fun r => { r with policySec := env.now / sec }).startRun env .ratePolicy n
      else (((d.updRate n fun r => { r with policySec := env.now / sec }).startRun env .ratePolicy n).updRate n fun r => { r with upSince := none }).rateBlocked env n 1 0 := by
  have hserv' : (d.updRate n fun r => { r with policySec := env.now / sec }).inService = true := hserv
  have ho' : (d.updRate n fun r => { r with policySec := env.now / sec }).domOn (domCarrier n) = true := ho
  have hrun' : (d.updRate n fun r => { r with policySec := env.now / sec }).runs.any (isRun .ratePolicy n) = false := hrun
  unfold Dev.policyFollow
  dsimp only
  rw [if_neg hp, if_neg (Nat.not_le.mpr hs), hserv', ho', hrun']
  simp only [decide_eq_false hp, hmbx, Bool.not_true, Bool.or_false, Bool.false_eq_true, if_false, ne_eq, not_true_eq_false, decide_false]

theorem Dev.rateBlocked_of_first {d : Dev} {n : Nat} (env : Env) (reason status : Nat) (h : (d.rate n).blockedAt = none) :
    d.rateBlocked env n reason status = (d.updRate n fun r => { r with blockedAt := some env.now }).raise .rateBlocked n [(1, reason), (1, status)] := by
  simp only [Dev.rateBlocked, h, if_true]

theorem Dev.rateBlocked_of_recent {d : Dev} {env : Env} {n t : Nat} (reason status : Nat) (h : (d.rate n).blockedAt = some t) (ht : env.now < t + 60 * sec) :
    d.rateBlocked env n reason status = d := by
  simp only [Dev.rateBlocked, h, decide_eq_false (Nat.not_le.mpr ht), Bool.false_eq_true, if_false]

/-- The hold of an up step is broken, and the policy blocked, for the first time (R245). -/
theorem Dev.holdBroken_of_first {d : Dev} {n : Nat} (env : Env) (h : (d.rate n).blockedAt = none) :
    (d.updRate n fun r => { r with upSince := none }).rateBlocked env n 1 0 =
      (d.updRate n fun r => { r with upSince := none, blockedAt := some env.now }).raise .rateBlocked n [(1, 1), (1, 0)] := by
  rw [Dev.rateBlocked_of_first env 1 0 (by rw [Dev.updRate_same]; exact h), Dev.updRate_fuse] <;> rfl

/-- Settles O39. -/
theorem ratePolicy : Obligations.RatePolicy := by
  unfold Obligations.RatePolicy
  refine ⟨fun s c => ⟨?_, ?_, ?_, ?_⟩, fun d env n hp hs hserv ho hrun hmbx => ⟨?_, ?_, ?_⟩⟩
  · exact fun h => exec_of_onDev rfl (policyDecision_of_unplaced h)
  · exact fun h hp => exec_of_onDev rfl (policyDecision_of_unready (env := s.env) h hp)
  · exact fun down p hmin hmax ht hp => Dev.policyAct_of_advice (env := s.env) hmin hmax ht hp
  · intro m t hp hr hready hm hms ht hwin hdown hup
    have hp' : s.env.par.val (pRsPolicy + c) ≠ 0 := by rw [State.env_par, hp]; decide
    exact exec_of_onDev rfl (policyDecision_of_level (env := s.env) hp' hr hready hm hms ht hwin hdown hup)
  · exact fun hplaced => (Dev.policyFollow_of_due hp hs hserv ho hrun hmbx).trans (if_pos hplaced)
  · exact fun hplaced hb => (Dev.policyFollow_of_due hp hs hserv ho hrun hmbx).trans
      ((if_neg (Bool.eq_false_iff.mp hplaced)).trans (Dev.holdBroken_of_first env hb))
  · intro t hplaced hb ht
    refine (Dev.policyFollow_of_due hp hs hserv ho hrun hmbx).trans ((if_neg (Bool.eq_false_iff.mp hplaced)).trans (Dev.rateBlocked_of_recent 1 0 ?_ ht))
    rw [Dev.updRate_same]; exact hb

end Sys2Proof.Machine
end

section
/-! Protection groups: their commands and events (chapter 10). -/

namespace Sys2Proof.Machine

/-! ### Commands, case by case -/

theorem protCreate_of_existing {d : Dev} {e : CmdEntry} (env : Env) (h : d.hasGroup (u8 e 0) = true) : protCreate env e d = .refuse .badParam 8 := if_pos h

section
variable {d : Dev} {env : Env} {e : CmdEntry} (hg : d.hasGroup (u8 e 0) = false) (hw : d.hasBundle (u8 e 1) = true) (hwb : (d.bundleAt (u8 e 1)).buffered = false)
  (hwe : (d.bundleAt (u8 e 1)).elastic = false) (hwi : d.interop (d.bundleAt (u8 e 1)).carrier = false) (hp : d.hasBundle (u8 e 2) = true)
  (hpb : (d.bundleAt (u8 e 2)).buffered = false) (hpe : (d.bundleAt (u8 e 2)).elastic = false) (hpi : d.interop (d.bundleAt (u8 e 2)).carrier = false)
  (hc : (d.bundleAt (u8 e 2)).count = (d.bundleAt (u8 e 1)).count) (hn : (d.bundleAt (u8 e 2)).carrier ≠ (d.bundleAt (u8 e 1)).carrier)
  (hst : (d.bundleAt (u8 e 2)).st = .disabled) (ha : d.attached (u8 e 2) = false) (hmax : d.protectedChans + (d.bundleAt (u8 e 1)).count ≤ 256)
  (hr : fitsRegion d.stacksFor (d.protectedChans + (d.bundleAt (u8 e 1)).count) (env.par.nat pProtMaxDelay) = true)
  (hbw : fitsBandwidth d.stacksFor d.bufferedChans (d.protectedChans + (d.bundleAt (u8 e 1)).count) = true)
  (hrw : d.rateBusy (d.bundleAt (u8 e 1)).carrier = false) (hrp : d.rateBusy (d.bundleAt (u8 e 2)).carrier = false)
include hg hw hwb hwe hwi hp hpb hpe hpi hc hn hst ha hmax hr hbw hrw hrp

theorem protCreate_of_free : protCreate env e d = .done [] { d with group := d.group.set (u8 e 0) { Group.absent with
    work := u8 e 1, prot := u8 e 2, revert := bitAt (u8 e 3) 0, sdEn := bitAt (u8 e 3) 1, holdoff := u16 e 4, wtr := u16 e 6 } } := by
  simp only [protCreate, hg, hw, hwb, hwe, hwi, hp, hpb, hpe, hpi, hc, hn, hst, ha, Nat.not_lt.mpr hmax, hr, hbw, hrw, hrp, Bool.not_true, Bool.or_self, ne_eq,
    not_true_eq_false, or_self, decide_false, Bool.false_eq_true, if_false]

end

theorem protDelete_of_armed {d : Dev} {e : CmdEntry} (hg : d.hasGroup (u8 e 0) = true) (ha : (d.groupAt (u8 e 0)).armed = true) :
    protDelete e d = .refuse .trafficPresent 0 := by simp [protDelete, hg, ha]

theorem protDelete_of_rest {d : Dev} {e : CmdEntry} (hg : d.hasGroup (u8 e 0) = true) (ha : (d.groupAt (u8 e 0)).armed = false) :
    protDelete e d = .done [] { d with group := d.group.drop (u8 e 0) } := by simp [protDelete, hg, ha]

section
variable {d : Dev} {env : Env} {e : CmdEntry} (hg : d.hasGroup (u8 e 0) = true)
include hg

theorem protArm_of_off (hon : bitAt (u8 e 1) 0 = true) (ha : (d.groupAt (u8 e 0)).armed = false)
    (ho : d.domOn (domCarrier (d.bundleAt (d.groupAt (u8 e 0)).work).carrier) = false) : protArm env e d = .refuse .domainOff 0 := by
  simp [protArm, hg, hon, ha, ho]

theorem protArm_of_fit (hon : bitAt (u8 e 1) 0 = true) (ha : (d.groupAt (u8 e 0)).armed = false)
    (how : d.domOn (domCarrier (d.bundleAt (d.groupAt (u8 e 0)).work).carrier) = true) (hop : d.domOn (domCarrier (d.bundleAt (d.groupAt (u8 e 0)).prot).carrier) = true)
    (hs : d.anyStack = true) (hr : fitsRegion d.stacksFor d.protectedChans (env.par.nat pProtMaxDelay) = true) :
    protArm env e d = .start (env.par.nat pProtMaxDelay * us + 50 * ms)
      ((d.updGroup (u8 e 0) fun x => { x with
        st := .filling, armForce := force e, selProt := false, protWas := decide ((d.bundleAt x.prot).st = .enabled) }).updBundle (d.groupAt (u8 e 0)).prot fun b =>
        { b with st := if b.st = .enabled then .enabled else .enabling }) := by
  simp only [protArm, hg, hon, ha, how, hop, hs, hr, Bool.not_true, Bool.or_self, Bool.false_eq_true, if_false, if_true]

theorem protArm_of_rest (hon : bitAt (u8 e 1) 0 = false) (ha : (d.groupAt (u8 e 0)).armed = false) : protArm env e d = .done [] d := by
  simp [protArm, hg, hon, ha]

theorem protArm_of_withdrawn (hon : bitAt (u8 e 1) 0 = false) (ha : (d.groupAt (u8 e 0)).st = .filling) : protArm env e d = .done [] (d.disarm (u8 e 0)) := by
  simp [protArm, hg, hon, ha, Group.armed]

theorem protSwitch_of_rest (ha : (d.groupAt (u8 e 0)).armed = false) : protSwitch e d = .refuse .state 0 := by
  simp [protSwitch, hg, ha]

variable (ha : (d.groupAt (u8 e 0)).armed = true)
include ha

theorem protSwitch_of_armed : protSwitch e d = match u8 e 1 with
    | 0 => .done [] (d.updGroup (u8 e 0) fun x => { x with host := 0, wtrEnd := none })
    | r => if 3 ≤ r ∧ 1 ≤ (d.groupAt (u8 e 0)).winner.1 ∧ (d.groupAt (u8 e 0)).winner.1 ≤ 5 then .refuse .state 0
        else .done [] (d.updGroup (u8 e 0) fun x => { x with host := r }) := by
  unfold protSwitch; dsimp only; rw [hg, ha] <;> rfl

theorem protSwitch_of_clear (hr : u8 e 1 = 0) : protSwitch e d = .done [] (d.updGroup (u8 e 0) fun x => { x with host := 0, wtrEnd := none }) := by
  rw [protSwitch_of_armed hg ha, hr] <;> rfl

/-- LOCKOUT and FORCED are taken whatever is in force. -/
theorem protSwitch_of_strong (hr : u8 e 1 = 1 ∨ u8 e 1 = 2) : protSwitch e d = .done [] (d.updGroup (u8 e 0) fun x => { x with host := u8 e 1 }) := by
  rw [protSwitch_of_armed hg ha]
  rcases hr with hr | hr
  · rw [hr] <;> rfl
  · rw [hr] <;> rfl

theorem protSwitch_of_outranked (hr : 3 ≤ u8 e 1) (h1 : 1 ≤ (d.groupAt (u8 e 0)).winner.1) (h5 : (d.groupAt (u8 e 0)).winner.1 ≤ 5) :
    protSwitch e d = .refuse .state 0 := by
  rw [protSwitch_of_armed hg ha]
  generalize u8 e 1 = r at hr
  match r, hr with
  | k + 1, hr => exact if_pos ⟨hr, h1, h5⟩

end

/-! ### The status of a group -/

/-- What a look at the delay leaves of a group (log entry 180). -/
structure Group.SameButDelay (x y : Group) : Prop where
  st : y.st = x.st
  selProt : y.selProt = x.selProt
  rank : y.rank = x.rank
  wAligned : y.wAligned = x.wAligned
  pAligned : y.pAligned = x.pAligned
  delay : x.st ≠ .aligned → y.diff = x.diff ∧ y.earlierProt = x.earlierProt

theorem Dev.framesRun_groupAt (d : Dev) (g k : Nat) : (d.framesRun g).groupAt k = d.groupAt k := by
  unfold Dev.framesRun; split <;> rfl

theorem Dev.diffRuns_groupAt (d : Dev) (env : Env) (g : Nat) : Group.SameButDelay (d.groupAt g) ((d.diffRuns env g).groupAt g) := by
  unfold Dev.diffRuns
  dsimp only
  split
  · rename_i h
    rw [Dev.updGroup_same]
    exact ⟨rfl, rfl, rfl, rfl, rfl, fun hne => absurd h hne⟩
  · exact ⟨rfl, rfl, rfl, rfl, rfl, fun _ => ⟨rfl, rfl⟩⟩

theorem Dev.lookedAt_groupAt (d : Dev) (env : Env) (g : Nat) : Group.SameButDelay (d.groupAt g) (((d.diffRuns env g).framesRun g).groupAt g) := by
  rw [Dev.framesRun_groupAt]; exact Dev.diffRuns_groupAt d env g

theorem ProtState.code_lt (x : ProtState) : x.code < 2 ^ 2 := by cases x <;> decide

theorem protStatus_fields (env : Env) (g : Nat) (d : Dev) : let r := leNat (protStatus env g d); let x := d.groupAt g
    bitsAt r 0 2 = x.st.code ∧ bitAt r 2 = x.selProt ∧ bitAt r 3 = x.earlierProt ∧ bitsAt r 4 4 = x.rank % 16 ∧ bitAt r 12 = x.wAligned ∧ bitAt r 13 = x.pAligned ∧
    bitsAt r 32 32 = x.diff % 2 ^ 32 := by
  refine ⟨?_, ?_, ?_, ?_, ?_, ?_, ?_⟩
  · exact (bitsAt_resultBits (fs := []) rfl rfl (by decide)).trans (Nat.mod_eq_of_lt (ProtState.code_lt _))
  · exact bitAt_resultBits (fs := [_]) rfl rfl (by decide)
  · exact bitAt_resultBits (fs := [_, _]) rfl rfl (by decide)
  · exact bitsAt_resultBits (fs := [_, _, _]) rfl rfl (by decide)
  · exact bitAt_resultBits (fs := [_, _, _, _, _, _, _, _]) rfl rfl (by decide)
  · exact bitAt_resultBits (fs := [_, _, _, _, _, _, _, _, _]) rfl rfl (by decide)
  · exact bitsAt_resultBits (fs := [_, _, _, _, _, _, _, _, _, _, _, _]) rfl (by simp only [fieldsWidth, sumBy, List.foldr]) (by decide)

/-- Settles O40. -/
theorem protectionCommands : Obligations.ProtectionCommands := by
  unfold Obligations.ProtectionCommands
  intro e s s1
  refine ⟨?_, ?_, ?_, ?_, ?_, ?_, ?_⟩
  · intro h
    refine ⟨fun hg => h.refuses rfl (protCreate_of_existing s.env hg), ?_⟩
    intro hg hwi hpi hw hwb hwe hp hpb hpe hc hn hst ha hmax hr hbw hrw hrp
    exact h.completes rfl (protCreate_of_free (env := s.env) hg hw hwb hwe hwi hp hpb hpe hpi hc hn hst ha hmax hr hbw hrw hrp)
  · intro h hg
    exact ⟨fun ha => h.refuses rfl (protDelete_of_armed hg ha), fun ha => h.completes rfl (protDelete_of_rest hg ha)⟩
  · intro h hg hon ha _ _
    exact ⟨fun ho => h.refuses rfl (protArm_of_off (env := s.env) hg hon ha ho),
      fun how hop hs hr => h.starts rfl (protArm_of_fit (env := s.env) hg hon ha how hop hs hr)⟩
  · intro h hg hon
    exact ⟨fun ha => h.completes rfl (protArm_of_rest (env := s.env) hg hon ha), fun ha => h.completes rfl (protArm_of_withdrawn (env := s.env) hg hon ha)⟩
  · intro h hg
    refine ⟨fun ha => ?_, fun ha hr => ?_, fun ha hr => ?_, fun ha hr h1 h5 => ?_⟩
    · exact h.refuses rfl (protSwitch_of_rest hg ha)
    · exact h.completes rfl (protSwitch_of_clear hg ha hr)
    · exact h.completes rfl (protSwitch_of_strong hg ha hr)
    · exact h.refuses rfl (protSwitch_of_outranked hg ha hr h1 h5)
  · intro h hg
    obtain ⟨hcode, hsel, hep, hrank, hwa, hpa, hdiff⟩ := protStatus_fields s.env (u8 e 0) ((s.dev.diffRuns s.env (u8 e 0)).framesRun (u8 e 0))
    have hsame := Dev.lookedAt_groupAt s.dev s.env (u8 e 0)
    rw [hsame.st] at hcode
    rw [hsame.selProt] at hsel
    rw [hsame.rank] at hrank
    rw [hsame.wAligned] at hwa
    rw [hsame.pAligned] at hpa
    exact ⟨_, h.completes rfl (if_pos hg), hcode, hsel, hep, hrank, hwa, hpa, hdiff, hsame.delay⟩
  · exact fun h hg => h.refuses rfl (if_neg (Bool.eq_false_iff.mp hg))

/-! ### Events, case by case -/

section
variable {d : Dev} {env : Env} {g diff : Nat} {ep : Bool} {m : LegMatch} (hst : (d.groupAt g).st = .filling)
include hst

theorem protAlign_of_ambiguous (hm : 1 < (matchOffsets m).length) (ha : (d.groupAt g).ambig = false) :
    protAlign env g diff ep m d = (d.updGroup g fun x => { x with ambig := true }).raise .protAlignAmbig g [] := by
  have hne : matchOffsets m ≠ [] := fun h => by rw [h] at hm; exact absurd hm (by decide)
  simp [protAlign, hst, hne, hm, ha]

variable (hm : matchOffsets m = [multiframesIn diff])
include hm

theorem protAlign_of_far (hd : env.par.nat pProtMaxDelay * us < diff) :
    protAlign env g diff ep m d = (d.raise .protDelayRange g [(4, diff)]).armRefused g .badParam pProtMaxDelay := by
  simp [protAlign, hst, hm, hd]

theorem protAlign_of_earlierProt (hd : diff ≤ env.par.nat pProtMaxDelay * us) :
    protAlign env g diff true m d = (((d.updGroup g fun x =>
      { x with st := .aligned, wAligned := true, pAligned := true, wHold := 0, pHold := 0, earlierProt := true }.setDiff env.now diff).count (ctrProt protGapUs g) 0).raise
        .protAligned g [(4, diff), (1, 1)]).finish 0x0512 g .ok 0 [] := by
  simp only [protAlign, hst, hm, Nat.not_lt.mpr hd, ne_eq, not_true_eq_false, false_or, List.cons_ne_nil, if_false, List.length_cons, List.length_nil, Nat.reduceAdd, Nat.lt_irrefl,
    List.headD_cons, Bool.not_true, Bool.false_and, Bool.false_eq_true, if_true]
  rfl

end

/-- The protection leg is found earlier by `diff` ns, from no hold on either leg (R250). -/
theorem Group.setDiff_of_earlierProt (x : Group) (now diff : Nat) (hw : x.wHold = 0) (hp : x.pHold = 0) (he : x.earlierProt = true) :
    x.setDiff now diff = { x with diff := diff, wHold := 0, pHold := diff, diffAt := now } := by
  have hearlier : (if (diff : Int) = 0 then x.earlierProt else decide (0 < (diff : Int))) = true := by
    split
    · exact he
    · exact decide_eq_true (by omega)
  simp only [Group.setDiff, hearlier, hw, hp, Nat.min_self, Int.natAbs_natCast, Int.toNat_natCast, Int.toNat_neg_natCast, Nat.zero_add, ← he]

theorem Dev.updGroup_congr {d : Dev} {g : Nat} {f k : Group → Group} (h : f (d.groupAt g) = k (d.groupAt g)) : d.updGroup g f = d.updGroup g k :=
  congrArg (fun x => { d with group := d.group.set g x }) h

/-- The conditions that have lasted the hold-off act; a working leg that fails again ends the wait to restore (R253). -/
def Group.heldOff (now : Nat) (x : Group) : Group :=
  { x with
    wSf := x.acting now x.wSf x.wSfAt, pSf := x.acting now x.pSf x.pSfAt, wSd := x.acting now x.wSd x.wSdAt, pSd := x.acting now x.pSd x.pSdAt,
    wtrEnd := if x.acting now x.wSf x.wSfAt || (x.sdEn && x.acting now x.wSd x.wSdAt) then none else x.wtrEnd }

theorem holdoffExpiry_of_armed {d : Dev} {g : Nat} (env : Env) (subst damaged : Nat) (ha : (d.groupAt g).armed = true) :
    holdoffExpiry env g subst damaged d = ((d.updGroup g (Group.heldOff env.now)).protSelect g).countFrames g subst damaged := by
  unfold holdoffExpiry; dsimp only; rw [if_pos ha]
  exact congrArg (fun y : Dev => (y.protSelect g).countFrames g subst damaged) (Dev.updGroup_congr rfl)

section
variable {d : Dev} {env : Env} {g diff subst damaged : Nat} {early : Int} (hst : (d.groupAt g).st = .degraded) (hsk : (d.groupAt g).stuck = false)
include hst hsk

theorem legReturn_of_fit (hf : d.legFails env (d.groupAt g).work = false) (hw : (d.groupAt g).wAligned = false) (hd : diff ≤ env.par.nat pProtMaxDelay * us)
    (he : 2000 ≤ early) (hmost : early - 2000 ≤ (env.par.nat pProtMaxDelay * us : Nat)) :
    legReturn env g false early diff subst damaged d = (d.countFrames g subst damaged).updGroup g fun x => x.rejoin env.now false (early - 2000).toNat 0 := by
  unfold legReturn; dsimp only
  rw [if_neg (by simp [hst, hsk, Group.leg, hf, hw]), if_neg (by omega), if_pos he]

theorem legReturn_of_far (hf : d.legFails env (d.groupAt g).prot = false) (hp : (d.groupAt g).pAligned = false)
    (hfar : env.par.nat pProtMaxDelay * us < diff ∨ (env.par.nat pProtMaxDelay * us : Nat) < early - 2000) :
    legReturn env g true early diff subst damaged d =
      ((d.countFrames g subst damaged).updGroup g fun x => { x with stuck := true }).raise .protDelayRange g [(4, diff)] := by
  unfold legReturn; dsimp only
  rw [if_neg (by simp [hst, hsk, Group.leg, hf, hp]), if_pos hfar]

end

/-- The working leg rejoins, held for `hold` ns, with the other's hold raised (R250, R255). -/
theorem Group.rejoin_work (x : Group) (now hold raise : Nat) : let y := x.rejoin now false hold raise
    y.wAligned = true ∧ y.pAligned = x.pAligned ∧ y.st = (if x.pAligned then .aligned else .degraded) ∧ y.wHold = hold ∧ y.pHold = x.pHold + raise ∧
    y.diff = ((hold : Int) - (x.pHold + raise : Nat)).natAbs ∧ (hold < x.pHold + raise → y.earlierProt = true) ∧ (x.pHold + raise < hold → y.earlierProt = false) := by
  simp only [Group.rejoin, Group.setDiff, Bool.not_false, Bool.or_true, Bool.or_false, Bool.true_and, Bool.false_eq_true, if_false]
  refine ⟨trivial, trivial, trivial, ?_, ?_, ?_, fun h => ?_, fun h => ?_⟩
  · omega
  · omega
  · omega
  · rw [if_neg (by omega)]; exact decide_eq_true (by omega)
  · rw [if_neg (by omega)]; exact decide_eq_false (by omega)

theorem Group.winner_of_lockout {x : Group} (h : x.host = 1) : x.winner = (1, false) := if_pos h

theorem Group.winner_of_forced {x : Group} (hp : x.pSf = false) (h : x.host = 2) : x.winner = (3, true) := by
  simp [Group.winner, hp, h]

theorem Group.winner_of_manual {x : Group} (hp : x.pSf = false) (hw : x.wSf = false) (h : x.host = 3) (hpd : x.pSd = false) (hwd : x.wSd = false) :
    x.winner = (6, true) := by
  simp [Group.winner, hp, h, hw, hpd, hwd, Group.quiet]

section
variable {x : Group} (h1 : x.host ≠ 1)
include h1

theorem Group.winner_of_protectFail (hp : x.pSf = true) : x.winner = (2, false) := (if_neg h1).trans (if_pos hp)

variable (hp : x.pSf = false)
include hp

variable (h2 : x.host ≠ 2)
include h2

theorem Group.winner_of_workingFail (hw : x.wSf = true) : x.winner = (4, true) := by
  simp [Group.winner, h1, hp, h2, hw]

variable (hw : x.wSf = false)
include hw

variable (hsd : x.sdEn = false) (h3 : x.host = 3 → x.quiet = false) (h4 : x.host = 4 → x.quiet = false)
include hsd h3 h4

/-- Without a request of the host or of a failure, WTR or none is in force. -/
theorem Group.winner_of_noRequest : x.winner = if x.revert && x.wtrEnd.isSome then (7, true) else (0, if x.revert then false else x.selProt) := by
  have h3' : ¬ (x.host = 3 ∧ x.quiet = true) := fun h => by rw [h3 h.1] at h; exact Bool.false_ne_true h.2
  have h4' : ¬ (x.host = 4 ∧ x.quiet = true) := fun h => by rw [h4 h.1] at h; exact Bool.false_ne_true h.2
  simp only [Group.winner, h1, hp, h2, hw, hsd, h3', h4', Bool.false_and, Bool.false_eq_true, if_false]

end

/-- The winner of a group's requests (Table 10-6). -/
theorem Group.winner_ranks (x : Group) : (x.host = 1 → x.winner = (1, false)) ∧ (x.host ≠ 1 → x.pSf = true → x.winner = (2, false)) ∧
    (x.host = 2 → x.pSf = false → x.winner = (3, true)) ∧ (x.host ≠ 1 → x.host ≠ 2 → x.pSf = false → x.wSf = true → x.winner = (4, true)) ∧
    (x.host = 3 → x.pSf = false → x.wSf = false → x.pSd = false → x.wSd = false → x.winner = (6, true)) ∧
    (x.host = 3 → x.pSf = false → x.wSf = false → x.sdEn = false → x.wSd = true → x.revert = false → x.winner = (0, x.selProt)) ∧
    (x.host = 0 → x.pSf = false → x.wSf = false → x.sdEn = false → x.revert = true → x.wtrEnd.isSome = true → x.winner = (7, true)) ∧
    (x.host = 0 → x.pSf = false → x.wSf = false → x.sdEn = false → x.revert = true → x.wtrEnd = none → x.winner = (0, false)) ∧
    (x.host = 0 → x.pSf = false → x.wSf = false → x.sdEn = false → x.revert = false → x.winner = (0, x.selProt)) := by
  have hidle : ∀ k : Nat, x.host = 0 → k ≠ 0 → x.host ≠ k := fun k h hk => by rw [h]; exact hk.symm
  have hnone : x.host = 0 → x.pSf = false → x.wSf = false → x.sdEn = false →
      x.winner = if x.revert && x.wtrEnd.isSome then (7, true) else (0, if x.revert then false else x.selProt) := fun h hp hw hsd =>
    Group.winner_of_noRequest (hidle 1 h (by decide)) hp (hidle 2 h (by decide)) hw hsd (fun h3 => absurd h3 (hidle 3 h (by decide))) fun h4 => absurd h4 (hidle 4 h (by decide))
  refine ⟨Group.winner_of_lockout, Group.winner_of_protectFail, ?_, ?_, ?_, ?_, ?_, ?_, ?_⟩
  · exact fun h hp => Group.winner_of_forced hp h
  · exact fun h1 h2 hp hw => Group.winner_of_workingFail h1 hp h2 hw
  · exact fun h hp hw hpd hwd => Group.winner_of_manual hp hw h hpd hwd
  · intro h hp hw hsd hwd hr
    have hq : x.quiet = false := by simp [Group.quiet, hwd]
    rw [Group.winner_of_noRequest (by rw [h]; decide) hp (by rw [h]; decide) hw hsd (fun _ => hq) (fun _ => hq), hr]
    rfl
  · intro h hp hw hsd hr ht
    rw [hnone h hp hw hsd, hr, ht]; rfl
  · intro h hp hw hsd hr ht
    rw [hnone h hp hw hsd, hr, ht]; rfl
  · intro h hp hw hsd hr
    rw [hnone h hp hw hsd, hr]; rfl

theorem Dev.count_groupAt (d : Dev) (key k g : Nat) : (d.count key k).groupAt g = d.groupAt g := rfl

theorem Dev.raise_groupAt (d : Dev) (ev : Evt) (i : Nat) (fs : List (Nat × Int)) (g : Nat) : (d.raise ev i fs).groupAt g = d.groupAt g := rfl

theorem Dev.protSelect_groupAt (d : Dev) (g : Nat) :
    (d.protSelect g).groupAt g = { d.groupAt g with rank := (d.groupAt g).winner.1, selProt := (d.groupAt g).winner.2 } := by
  unfold Dev.protSelect; dsimp only; split
  · rw [Dev.count_groupAt, Dev.raise_groupAt, Dev.updGroup_same]
  · exact Dev.updGroup_same _ _ _

theorem Dev.protSelect_groupAt_other (d : Dev) {g h : Nat} (hne : h ≠ g) : (d.protSelect g).groupAt h = d.groupAt h := by
  unfold Dev.protSelect; dsimp only; split
  · rw [Dev.count_groupAt, Dev.raise_groupAt, Dev.updGroup_other _ _ _ _ hne]
  · exact Dev.updGroup_other _ _ _ _ hne

/-- A change of SEL is counted. -/
theorem Dev.protSelect_counter {d : Dev} {g : Nat} (h : (d.groupAt g).winner.2 ≠ (d.groupAt g).selProt) :
    (d.protSelect g).counter (ctrProt protSwitches g) = (d.counter (ctrProt protSwitches g) + 1) % 2 ^ 48 := by
  unfold Dev.protSelect; dsimp only; rw [if_pos h, Dev.count_same]; rfl

/-- Settles O41. -/
theorem protectionEvents : Obligations.ProtectionEvents := by
  unfold Obligations.ProtectionEvents
  refine ⟨fun s g => ⟨?_, ?_, ?_, ?_, ?_, ?_, ?_⟩, Group.rejoin_work, Group.winner_ranks, fun d g => ⟨?_, Dev.protSelect_counter, fun h hne => Dev.protSelect_groupAt_other d hne⟩⟩
  · exact fun diff ep m hst hm ha => exec_of_onDev rfl (protAlign_of_ambiguous (env := s.env) hst hm ha)
  · exact fun diff ep m hst hm hd => exec_of_onDev rfl (protAlign_of_far (env := s.env) hst hm hd)
  · intro diff m hst hm hd
    refine exec_of_onDev rfl ((protAlign_of_earlierProt (env := s.env) hst hm hd).trans ?_)
    rw [Dev.updGroup, Group.setDiff_of_earlierProt _ _ _ rfl rfl rfl] <;> rfl
  · exact fun subst damaged ha => exec_of_onDev rfl (holdoffExpiry_of_armed s.env subst damaged ha)
  · exact fun hm hw => exec_of_onDev rfl (if_pos ⟨hm, hw⟩)
  · exact fun early diff subst damaged hst hsk hf hw _ hd he hmost => exec_of_onDev rfl (legReturn_of_fit (env := s.env) hst hsk hf hw hd he hmost)
  · exact fun early diff subst damaged hst hsk hf hp hfar => exec_of_onDev rfl (legReturn_of_far (env := s.env) hst hsk hf hp hfar)
  · rw [Dev.protSelect_groupAt]

end Sys2Proof.Machine
end

section
/-! Client lanes: their events, their status and their test state (chapter 12). -/

namespace Sys2Proof.Machine

/-! ### Events of a lane, case by case -/

section
variable {d : Dev} {l : Nat}

theorem laneLosChange_of_loss (hp : d.lanePowered l = true) (hl : (d.lane l).los = false) :
    laneLosChange l true d = (d.updLane l fun x => { x.stopRx with los := true }).count (ctrLane laneLos l) 1 := by
  unfold laneLosChange; rw [if_pos ⟨hp, by rw [hl]; decide⟩, if_pos rfl]

theorem laneLosChange_of_return (hp : d.lanePowered l = true) (hl : (d.lane l).los = true) :
    laneLosChange l false d = d.updLane l fun x => { x with los := false } := by
  unfold laneLosChange; rw [if_pos ⟨hp, by rw [hl]; decide⟩, if_neg Bool.false_ne_true]

theorem laneAdaptEnd_of_initial (env : Env) (h : (d.lane l).adapt = .initial) : laneAdaptEnd env l d =
    d.draw.2.updLane l fun x => { x with
      adapt := if env.adaptMode l = 1 then .frozen else .tracking, ctle := d.draw.1 % 41, dfe1 := (d.draw.1 / 41 % 256 : Nat) - 128 } := if_pos h

theorem Lane.coefficients_of_frozen {x : Lane} (r : LaneReport) (h : x.adapt = .frozen) : x.coefficients r = (x.ctle, x.dfe1) := by
  unfold Lane.coefficients; rw [h]

theorem Lane.coefficients_of_tracking {x : Lane} (r : LaneReport) (h : x.adapt = .tracking) : x.coefficients r = (x.ctle, r.dfe1) := by
  unfold Lane.coefficients; rw [h]

variable {env : Env} {r : LaneReport} (hp : d.lanePowered l = true) (hc : (d.lane l).cdr = true) (hk : (d.lane l).chkLock = false)
include hp hc hk

theorem laneFomWindow_of_good (ht : d.laneTunes l = false) (hf : ¬ r.fom < env.par.val pLaneFomMin) : laneFomWindow env l r d =
    d.updLane l fun _ => { d.lane l with
      fom := r.fom, fomLow := 0, ctle := ((d.lane l).coefficients r).1, dfe1 := ((d.lane l).coefficients r).2, freq := r.freq } := by
  simp [laneFomWindow, hp, hc, hk, ht, hf, Dev.raiseIf]

theorem laneFomWindow_of_goodInSweep (ht : d.laneTunes l = true) (hf : ¬ r.fom < env.par.val pLaneFomMin) : laneFomWindow env l r d =
    d.updLane l fun _ => Lane.sweepWindow { d.lane l with
      fom := r.fom, fomLow := 0, ctle := ((d.lane l).coefficients r).1, dfe1 := ((d.lane l).coefficients r).2, freq := r.freq } env.now r.fom := by
  simp [laneFomWindow, hp, hc, hk, ht, hf, Dev.raiseIf]

/-- The tenth low window in a row, and no alarm so far. -/
theorem laneFomWindow_of_tenthLow (ht : d.laneTunes l = false) (hf : r.fom < env.par.val pLaneFomMin) (h9 : (d.lane l).fomLow = 9) (ha : (d.lane l).fomLowAt = none) :
    laneFomWindow env l r d = (d.updLane l fun _ => { d.lane l with
      fom := r.fom, fomLow := 10, ctle := ((d.lane l).coefficients r).1, dfe1 := ((d.lane l).coefficients r).2, freq := r.freq, fomLowAt := some env.now }).raise
        .laneFomLow l [(2, r.fom)] := by
  simp [laneFomWindow, hp, hc, hk, ht, hf, h9, ha, Dev.raiseIf]

end

/-! ### The status of a lane -/

theorem Dev.quadMode_lt (d : Dev) (q : Nat) : d.quadMode q < 2 ^ 2 := by
  unfold Dev.quadMode; split
  · decide
  · split <;> decide

theorem laneStatus_fields (env : Env) (l : Nat) (d : Dev) : let r := leNat (laneStatus env l d); let x := d.lane l
    bitsAt r 0 2 = d.quadMode (l / 4) ∧ bitAt r 2 = x.los ∧ bitAt r 3 = x.cdr ∧ bitsAt r 4 2 = x.adapt.code % 4 ∧
    bitsAt r 6 2 = x.loopback % 4 ∧ bitsAt r 16 4 = x.gen % 16 ∧ bitsAt r 20 4 = x.chk % 16 ∧ bitAt r 24 = x.chkLock := by
  refine ⟨?_, ?_, ?_, ?_, ?_, ?_, ?_, ?_⟩
  · exact (bitsAt_resultBits (fs := []) rfl rfl (by decide)).trans (Nat.mod_eq_of_lt (Dev.quadMode_lt _ _))
  · exact bitAt_resultBits (fs := [_]) rfl rfl (by decide)
  · exact bitAt_resultBits (fs := [_, _]) rfl rfl (by decide)
  · exact bitsAt_resultBits (fs := [_, _, _]) rfl rfl (by decide)
  · exact bitsAt_resultBits (fs := [_, _, _, _]) rfl rfl (by decide)
  · exact bitsAt_resultBits (fs := [_, _, _, _, _, _, _]) rfl rfl (by decide)
  · exact bitsAt_resultBits (fs := [_, _, _, _, _, _, _, _]) rfl rfl (by decide)
  · exact bitAt_resultBits (fs := [_, _, _, _, _, _, _, _, _]) rfl rfl (by decide)

/-! ### Changes of several lanes -/

/-- A change of lanes touches the lanes alone. -/
theorem Dev.updLanes_frame (ls : List Nat) (f : Lane → Lane) : ∀ d : Dev, ∃ t, d.updLanes ls f = { d with cli := { d.cli with lane := t } } := by
  unfold Dev.updLanes
  induction ls with
  | nil => exact fun d => ⟨d.cli.lane, rfl⟩
  | cons l ls ih =>
    intro d
    obtain ⟨t, ht⟩ := ih (d.updLane l f)
    exact ⟨t, by rw [List.foldl_cons, ht]; rfl⟩

/-- What `f` makes of every lane holds of a lane that it was applied to. -/
theorem Dev.updLanes_holds {P : Lane → Prop} {f : Lane → Lane} (hf : ∀ x, P (f x)) {k : Nat} (ls : List Nat) :
    ∀ d : Dev, P (d.lane k) ∨ k ∈ ls → P ((d.updLanes ls f).lane k) := by
  unfold Dev.updLanes
  induction ls with
  | nil => exact fun d h => h.resolve_right (List.not_mem_nil)
  | cons l ls ih =>
    intro d h
    rw [List.foldl_cons]
    refine ih _ ?_
    by_cases hkl : k = l
    · exact Or.inl (by rw [hkl, Dev.updLane_same]; exact hf _)
    · rw [Dev.updLane_other _ _ _ _ hkl]
      exact h.imp_right fun hm => (List.mem_cons.mp hm).resolve_left hkl

/-- A walk whose every step stands still stands still. -/
theorem foldl_fixed {α β : Type} {f : α → β → α} {a : α} (bs : List β) (h : ∀ b ∈ bs, f a b = a) : bs.foldl f a = a := by
  induction bs with
  | nil => rfl
  | cons b bs ih => rw [List.foldl_cons, h b List.mem_cons_self]; exact ih fun c hc => h c (List.mem_cons_of_mem b hc)

/-- A lane of an ON quad stays powered while a generator works on it, where its Stitch port has its reference (R293, R301). -/
theorem Dev.lanePowered_of_generator {d : Dev} {k : Nat} (ho : d.laneOn k = true) (hg : (d.lane k).gen ≠ 0)
    (hs : ∀ p, d.stitchOfLane k = some p → (d.stitch p).srefLost = false) : d.lanePowered k = true := by
  have htest : (d.lane k).underTest = true := decide_eq_true (Or.inr (Or.inl hg))
  unfold Dev.lanePowered
  rw [ho, htest]
  cases hp : d.stitchOfLane k with
  | none => rfl
  | some p => simp [hs p hp]

theorem Dev.setTest_lanePowered {d : Dev} {ls : List Nat} {lb gen chk : Nat} {inject : Bool} {k : Nat} (hk : k ∈ ls) (hg : gen ≠ 0) (ho : d.laneOn k = true)
    (hs : ∀ p, d.stitchOfLane k = some p → (d.stitch p).srefLost = false) : (d.setTest ls lb gen chk inject).lanePowered k = true := by
  have hgen : ((d.setTest ls lb gen chk inject).lane k).gen = gen := Dev.updLanes_holds (P := fun x => x.gen = gen) (fun _ => rfl) ls d (Or.inr hk)
  obtain ⟨t, ht⟩ : ∃ t, d.setTest ls lb gen chk inject = { d with cli := { d.cli with lane := t } } := Dev.updLanes_frame ls _ d
  refine Dev.lanePowered_of_generator ?_ (by rw [hgen]; exact hg) ?_
  · rw [ht]; exact ho
  · rw [ht]; exact hs

/-! ### CMD_LANE_TEST -/

theorem laneTest_of_tooMany {e : CmdEntry} {d : Dev} (h : 64 < u8 e 0 + u8 e 1) : laneTest e d = .refuse .badParam 9 := if_pos h

section
variable {e : CmdEntry} {d : Dev} (hn : u8 e 0 + u8 e 1 ≤ 64)
include hn

theorem laneTest_of_badCode (h : 6 < ltGen e ∨ 5 < ltChk e) : laneTest e d = .refuse .badParam 10 := (if_neg (Nat.not_lt.mpr hn)).trans (if_pos h)

variable (hg : ltGen e ≤ 6) (hc : ltChk e ≤ 5) (hs : d.inService = true)
include hg hc hs

theorem laneTest_of_off (ho : ∃ k ∈ ltLanes e, d.laneOn k = false) : laneTest e d = .refuse .domainOff 0 := by
  have hany : (ltLanes e).any (fun l => !d.laneOn l) = true := by
    obtain ⟨k, hk, hoff⟩ := ho
    exact List.any_eq_true.mpr ⟨k, hk, by rw [hoff]; rfl⟩
  simp only [laneTest, Nat.not_lt.mpr hn, Nat.not_lt.mpr hg, Nat.not_lt.mpr hc, or_self, hs, Bool.not_true, Bool.false_eq_true, if_false, hany, if_true]

variable (ho : ∀ k ∈ ltLanes e, d.laneOn k = true) (hpl : d.partLoopback (ltLanes e) (ltLoopback e) = false)
include ho hpl

theorem laneTest_of_traffic (ht : ltLoopback e ≠ 0 ∨ ltGen e ≠ 0) (htr : ∃ k ∈ ltLanes e, d.laneTraffic k = true) (hf : force e = false) :
    laneTest e d = .refuse .trafficPresent 0 := by
  have hany : (ltLanes e).any (fun l => !d.laneOn l) = false := List.any_eq_false.mpr fun k hk => by rw [ho k hk]; decide
  have htraffic : (ltLanes e).any d.laneTraffic = true := List.any_eq_true.mpr htr
  simp only [laneTest, Nat.not_lt.mpr hn, Nat.not_lt.mpr hg, Nat.not_lt.mpr hc, or_self, hs, Bool.not_true, Bool.false_eq_true, if_false, hany, hpl]
  exact if_pos ⟨ht, htraffic, hf⟩

/-- A generator is set up on lanes without traffic, none of which tested before. -/
theorem laneTest_of_generator (hg0 : 0 < ltGen e) (htr : ∀ k ∈ ltLanes e, d.laneTraffic k = false) (h3 : bitAt (u8 e 3) 3 = false) (hgen : ∀ k, (d.lane k).gen = 0)
    (hsr : ∀ k ∈ ltLanes e, ∀ p, d.stitchOfLane k = some p → (d.stitch p).srefLost = false) :
    laneTest e d = .done [] (d.setTest (ltLanes e) (ltLoopback e) (ltGen e) (ltChk e) (bitAt (u8 e 3) 2)) := by
  have hany : (ltLanes e).any (fun l => !d.laneOn l) = false := List.any_eq_false.mpr fun k hk => by rw [ho k hk]; decide
  have htraffic : (ltLanes e).any d.laneTraffic = false := List.any_eq_false.mpr fun k hk => by rw [htr k hk]; decide
  have htested : d.portLanes.filter (fun pl => pl.any fun l => decide ((d.lane l).gen ≠ 0)) = [] := by
    refine List.filter_eq_nil_iff.mpr fun pl _ => ?_
    simp [hgen]
  have hpowered : (ltLanes e).foldl (fun d l => if d.lanePowered l then d else d.updLane l Lane.powerDown)
      (d.setTest (ltLanes e) (ltLoopback e) (ltGen e) (ltChk e) (bitAt (u8 e 3) 2)) = d.setTest (ltLanes e) (ltLoopback e) (ltGen e) (ltChk e) (bitAt (u8 e 3) 2) :=
    foldl_fixed _ fun k hk => if_pos (Dev.setTest_lanePowered hk (Nat.pos_iff_ne_zero.mp hg0) (ho k hk) (hsr k hk))
  simp only [laneTest, Nat.not_lt.mpr hn, Nat.not_lt.mpr hg, Nat.not_lt.mpr hc, or_self, hs, Bool.not_true, Bool.false_eq_true, if_false, hany, hpl, htraffic, false_and,
    and_false, htested, hpowered, List.foldl_nil, h3]

end

/-- Settles O42. -/
theorem clientLanes : Obligations.ClientLanes := by
  unfold Obligations.ClientLanes
  intro s
  refine ⟨fun l => ⟨?_, ?_, ?_, ?_, ?_, ?_, ?_, ?_, ?_, ?_, ?_, ?_⟩, fun e s1 => ⟨?_, ?_, ?_⟩⟩
  · exact fun hp hl => exec_of_onDev rfl (laneLosChange_of_loss hp hl)
  · exact fun hp hl => exec_of_onDev rfl (laneLosChange_of_return hp hl)
  · exact fun hp hl => exec_of_onDev rfl (if_pos ⟨hp, hl⟩)
  · exact fun hc => exec_of_onDev rfl (if_pos hc)
  · exact fun ha => exec_of_onDev rfl (laneAdaptEnd_of_initial s.env ha)
  · exact fun r ha => Lane.coefficients_of_frozen r ha
  · exact fun r ha => Lane.coefficients_of_tracking r ha
  · exact fun r hp ht hc hf hk => exec_of_onDev rfl (laneFomWindow_of_good (env := s.env) hp hc hk ht hf)
  · intro r hp ht hc hf h9 ha hk
    exact exec_of_onDev rfl (laneFomWindow_of_tenthLow (env := s.env) hp hc hk ht hf h9 ha)
  · exact fun r hp ht hc hf hk => exec_of_onDev rfl (laneFomWindow_of_goodInSweep (env := s.env) hp hc hk ht hf)
  · exact fun inv hp hk hl => exec_of_onDev rfl (if_pos ⟨hp, hk, hl⟩)
  · exact fun hk => exec_of_onDev rfl (if_pos hk)
  · exact fun h ho => ⟨_, h.completes rfl (if_pos ho), laneStatus_fields s.env (u8 e 0) s.dev⟩
  · exact fun h ho => h.refuses rfl (if_neg (Bool.eq_false_iff.mp ho))
  · intro h
    refine ⟨fun hn => ?_, fun hn hbad => ?_, fun hn hg hc hs ho => ?_, fun hn hg hc hs ho hpl ht htr hf => ?_, fun hn hg hg0 hc hs ho hpl htr h3 hgen hsr => ?_⟩
    · exact h.refuses rfl (laneTest_of_tooMany hn)
    · exact h.refuses rfl (laneTest_of_badCode hn hbad)
    · exact h.refuses rfl (laneTest_of_off hn hg hc hs ho)
    · exact h.refuses rfl (laneTest_of_traffic hn hg hc hs ho hpl ht htr hf)
    · exact h.completes rfl (laneTest_of_generator hn hg hc hs ho hpl hg0 htr h3 hgen hsr)

end Sys2Proof.Machine
end

section
/-! Ethernet ports: their commands and events (chapter 12). -/

namespace Sys2Proof.Machine

/-! ### The port table -/

theorem Tbl.get_of_noKey {α : Type} (a : α) (t : Tbl α) (i : Nat) (h : (t.map (·.1)).contains i = false) : t.get a i = a := by
  induction t with
  | nil => rfl
  | cons kv t ih =>
    obtain ⟨k, x⟩ := kv
    simp only [List.map_cons, List.contains_cons, Bool.or_eq_false_iff, beq_eq_false_iff_ne] at h
    obtain ⟨hk, ht⟩ := h
    simp only [Tbl.get, hk.symm, if_false]
    exact ih ht

/-- A port whose frames are delineated exists. -/
theorem Dev.hasEth_of_sync {d : Dev} {p : Nat} (h : (d.ethAt p).gfpSync = true) : d.hasEth p = true := by
  by_contra hn
  have habs : d.ethAt p = EthPort.absent := Tbl.get_of_noKey _ _ _ (Bool.eq_false_iff.mpr hn)
  rw [habs] at h
  exact Bool.false_ne_true h

theorem Dev.updEth_same {d : Dev} {p : Nat} (f : EthPort → EthPort) (h : d.hasEth p = true) : (d.updEth p f).ethAt p = f (d.ethAt p) := by
  unfold Dev.updEth; rw [if_pos h]; exact Tbl.get_set_same _ _ _ _

/-! ### Commands, case by case -/

theorem ethCreate_of_existing {d : Dev} {e : CmdEntry} (h : d.hasEth (u8 e 0) = true) : ethCreate e d = .refuse .badParam 8 := if_pos h

/-- The port that CMD_ETH_PORT_CREATE describes (R302). -/
def createdEth (e : CmdEntry) : EthPort := { EthPort.absent with type := u8 e 1, first := u8 e 2, bundle := u8 e 3 }

section
variable {d : Dev} {e : CmdEntry} (hp : d.hasEth (u8 e 0) = false)
include hp

theorem ethCreate_of_misplaced (h : (createdEth e).first % ethLanes (createdEth e).type ≠ 0 ∨ 64 < (createdEth e).first + ethLanes (createdEth e).type) :
    ethCreate e d = .refuse .badParam 10 := (if_neg (Bool.eq_false_iff.mp hp)).trans (if_pos h)

variable (hal : (createdEth e).first % ethLanes (createdEth e).type = 0) (hmax : (createdEth e).first + ethLanes (createdEth e).type ≤ 64)
  (hfree : ∀ l ∈ (createdEth e).lanes, d.ethOfLane l = none ∧ d.stitchOfLane l = none ∧ d.quadMode (l / 4) ≠ 2)
include hal hmax hfree

/-- On free lanes the bundle decides (R302). -/
theorem ethCreate_of_freeLanes : ethCreate e d =
    if !d.hasBundle (u8 e 3) || decide ((d.bundleAt (u8 e 3)).count ≠ ethChans (u8 e 1)) || decide ((d.bundleAt (u8 e 3)).attach ≠ .none) || (d.bundleAt (u8 e 3)).elastic
        || d.interop (d.bundleAt (u8 e 3)).carrier && !d.interopFits (u8 e 3) (d.rxSlots (d.bundleAt (u8 e 3)).carrier)
        || d.group.any (fun kv => decide (kv.2.prot = u8 e 3)) then badField 3
    else if d.rateBusy (d.bundleAt (u8 e 3)).carrier then .refuse .busy 0
    else .done [] (Dev.updBundle { (List.range 8).foldl (fun d k => d.restartCounter (ctrEth k (u8 e 0))) d with
        cli := { ((List.range 8).foldl (fun d k => d.restartCounter (ctrEth k (u8 e 0))) d).cli with
          eth := ((List.range 8).foldl (fun d k => d.restartCounter (ctrEth k (u8 e 0))) d).cli.eth.set (u8 e 0) (createdEth e) } } (u8 e 3)
            fun b => { b with attach := .eth (u8 e 0) }) := by
  have hany : (createdEth e).lanes.any (fun l => (d.ethOfLane l).isSome || (d.stitchOfLane l).isSome || decide (d.quadMode (l / 4) = 2)) = false := by
    refine List.any_eq_false.mpr fun l hl => ?_
    obtain ⟨he, hs, hq⟩ := hfree l hl
    simp [he, hs, hq]
  exact (if_neg (Bool.eq_false_iff.mp hp)).trans ((if_neg (fun h => h.elim (fun h => h hal) (Nat.not_lt.mpr hmax))).trans (if_neg (Bool.eq_false_iff.mp hany)))

theorem ethCreate_of_fit (hb : d.hasBundle (u8 e 3) = true) (hc : (d.bundleAt (u8 e 3)).count = ethChans (u8 e 1)) (ha : (d.bundleAt (u8 e 3)).attach = .none)
    (he : (d.bundleAt (u8 e 3)).elastic = false) (hi : d.interop (d.bundleAt (u8 e 3)).carrier = false) (hg : d.group = [])
    (hr : d.rateBusy (d.bundleAt (u8 e 3)).carrier = false) :
    ethCreate e d = .done [] (Dev.updBundle { (List.range 8).foldl (fun d k => d.restartCounter (ctrEth k (u8 e 0))) d with
        cli := { ((List.range 8).foldl (fun d k => d.restartCounter (ctrEth k (u8 e 0))) d).cli with
          eth := ((List.range 8).foldl (fun d k => d.restartCounter (ctrEth k (u8 e 0))) d).cli.eth.set (u8 e 0) (createdEth e) } } (u8 e 3)
            fun b => { b with attach := .eth (u8 e 0) }) := by
  rw [ethCreate_of_freeLanes hp hal hmax hfree, if_neg (by simp [hb, hc, ha, he, hi, hg]), if_neg (Bool.eq_false_iff.mp hr)]

theorem ethCreate_of_interopMisfit (hi : d.interop (d.bundleAt (u8 e 3)).carrier = true)
    (hf : d.interopFits (u8 e 3) (d.rxSlots (d.bundleAt (u8 e 3)).carrier) = false) : ethCreate e d = .refuse .badParam 11 := by
  rw [ethCreate_of_freeLanes hp hal hmax hfree, if_pos (by simp [hi, hf])]; rfl

end

section
variable {d : Dev} {e : CmdEntry}

theorem ethDelete_of_absent (hp : d.hasEth (u8 e 0) = false) : ethDelete e d = .refuse .badParam 8 := by simp [ethDelete, hp, badField]

theorem ethDelete_of_enabled (hp : d.hasEth (u8 e 0) = true) (he : (d.ethAt (u8 e 0)).enabled = true) : ethDelete e d = .refuse .trafficPresent 0 := by
  simp [ethDelete, hp, he]

theorem ethDelete_of_rest (hp : d.hasEth (u8 e 0) = true) (he : (d.ethAt (u8 e 0)).enabled = false) (hb : d.ethBundleOn (u8 e 0) = false) :
    ethDelete e d = .done [] (Dev.updBundle { d with cli := { d.cli with eth := d.cli.eth.drop (u8 e 0) } } (d.ethAt (u8 e 0)).bundle
      fun b => { b with attach := .none }) := by
  simp [ethDelete, hp, he, hb]

variable (hp : d.hasEth (u8 e 0) = true)
include hp

theorem ethEnable_of_inForce (h : (d.ethAt (u8 e 0)).enabled = bitAt (u8 e 1) 0) : ethEnable e d = .done [] d := by
  simp [ethEnable, hp, h]

theorem ethEnable_of_off (he : (d.ethAt (u8 e 0)).enabled = false) (hon : bitAt (u8 e 1) 0 = true) (hs : d.inService = true)
    (ho : ∃ l ∈ (d.ethAt (u8 e 0)).lanes, d.laneOn l = false) : ethEnable e d = .refuse .domainOff 0 := by
  have hany : (d.ethAt (u8 e 0)).lanes.any (fun l => !d.laneOn l) = true := by
    obtain ⟨l, hl, hoff⟩ := ho
    exact List.any_eq_true.mpr ⟨l, hl, by rw [hoff]; rfl⟩
  simp only [ethEnable, hp, he, hon, hs, hany, Bool.not_true, Bool.false_eq_true, if_false, if_true]

theorem ethEnable_of_ready (he : (d.ethAt (u8 e 0)).enabled = false) (hon : bitAt (u8 e 1) 0 = true) (hs : d.inService = true)
    (ho : ∀ l ∈ (d.ethAt (u8 e 0)).lanes, d.laneOn l = true) : ethEnable e d = .done [] (d.updEth (u8 e 0) fun x => { x with enabled := true }) := by
  have hany : (d.ethAt (u8 e 0)).lanes.any (fun l => !d.laneOn l) = false := List.any_eq_false.mpr fun l hl => by rw [ho l hl]; decide
  simp only [ethEnable, hp, he, hon, hs, hany, Bool.not_true, Bool.false_eq_true, if_false, if_true]

theorem ethEnable_of_traffic (he : (d.ethAt (u8 e 0)).enabled = true) (hoff : bitAt (u8 e 1) 0 = false) (hb : d.ethBundleOn (u8 e 0) = true) (hf : force e = false) :
    ethEnable e d = .refuse .trafficPresent 0 := by
  simp [ethEnable, hp, he, hoff, hb, hf]

end

/-! ### The status of a port -/

theorem EthState.code_lt (x : EthState) : x.code < 2 ^ 3 := by cases x <;> decide

theorem Dev.txFault_lt (d : Dev) (p : Nat) : d.txFault p < 2 ^ 2 := by
  unfold Dev.txFault; dsimp only; split
  · decide
  · split
    · decide
    · split <;> decide

theorem ethStatus_fields (p : Nat) (d : Dev) : let r := leNat (ethStatus p d); let x := d.ethAt p
    bitsAt r 0 3 = x.st.code ∧ bitsAt r 3 2 = x.type % 4 ∧ bitsAt r 8 6 = x.first % 64 ∧ bitsAt r 16 7 = x.bundle % 128 ∧
    bitAt r 23 = x.gfpSync ∧ bitsAt r 24 2 = d.txFault p ∧ bitsAt r 32 48 = d.counter (ctrEth 0 p) % 2 ^ 48 := by
  refine ⟨?_, ?_, ?_, ?_, ?_, ?_, ?_⟩
  · exact (bitsAt_resultBits (fs := []) rfl rfl (by decide)).trans (Nat.mod_eq_of_lt (EthState.code_lt _))
  · exact bitsAt_resultBits (fs := [_]) rfl rfl (by decide)
  · exact bitsAt_resultBits (fs := [_, _, _]) rfl rfl (by decide)
  · exact bitsAt_resultBits (fs := [_, _, _, _, _]) rfl rfl (by decide)
  · exact bitAt_resultBits (fs := [_, _, _, _, _, _]) rfl rfl (by decide)
  · exact (bitsAt_resultBits (fs := [_, _, _, _, _, _, _]) rfl rfl (Nat.le_of_ble_eq_true rfl)).trans (Nat.mod_eq_of_lt (Dev.txFault_lt _ _))
  · exact bitsAt_resultBits (fs := [_, _, _, _, _, _, _, _, _, _, _]) rfl (by simp only [fieldsWidth, sumBy, List.foldr]) (by decide)

/-! ### Events, case by case -/

section
variable {d : Dev} {env : Env} {p : Nat} {frame : List Byte} (hst : (d.ethAt p).st = .up) (hf : (d.ethAt p).rxFault ≠ 1)
include hst hf

theorem ethFrameRx_of_badLength (err : Bool) (hl : env.par.nat (pEthMaxFrame + p) < frame.length ∨ frame.length < 64) :
    ethFrameRx env p frame err d = d.count (ctrEth 2 p) 1 := (if_pos ⟨hst, hf⟩).trans (if_pos hl)

variable (hmin : 64 ≤ frame.length) (hmax : frame.length ≤ env.par.nat (pEthMaxFrame + p))
include hmin hmax

theorem ethFrameRx_of_goodLength (err : Bool) : ethFrameRx env p frame err d =
    if err || !fcsOk frame then
      (if d.ethAdmits p then (d.updEth p fun x => { x with mapped := if err then spoilFcs frame else frame }).count (ctrEth 0 p) 1 else d).count (ctrEth 1 p) 1
    else if d.ethAdmits p then (d.updEth p fun x => { x with mapped := if err then spoilFcs frame else frame }).count (ctrEth 0 p) 1 else d :=
  (if_pos ⟨hst, hf⟩).trans (if_neg (by omega))

theorem ethFrameRx_of_good (ha : d.ethAdmits p = true) (hk : fcsOk frame = true) :
    ethFrameRx env p frame false d = (d.updEth p fun x => { x with mapped := frame }).count (ctrEth 0 p) 1 := by
  rw [ethFrameRx_of_goodLength hst hf hmin hmax, hk, if_neg (by decide), if_pos ha]; rfl

theorem ethFrameRx_of_barred (ha : d.ethAdmits p = false) (hk : fcsOk frame = true) : ethFrameRx env p frame false d = d := by
  rw [ethFrameRx_of_goodLength hst hf hmin hmax, hk, if_neg (by decide), if_neg (Bool.eq_false_iff.mp ha)]

theorem ethFrameRx_of_error (ha : d.ethAdmits p = true) :
    ethFrameRx env p frame true d = ((d.updEth p fun x => { x with mapped := spoilFcs frame }).count (ctrEth 0 p) 1).count (ctrEth 1 p) 1 := by
  rw [ethFrameRx_of_goodLength hst hf hmin hmax, Bool.true_or, if_pos rfl, if_pos ha]; rfl

end

/-- With far-end loopback the port does not send its own data. -/
theorem Dev.ethSends_of_echo {d : Dev} {p : Nat} (h : d.ethEchoes p = true) : d.ethSends p = false := by
  obtain ⟨l, hl, hloop⟩ := List.any_eq_true.mp h
  have hall : (d.ethAt p).lanes.all (fun l => decide ((d.lane l).gen = 0 ∧ (d.lane l).loopback ≠ 3)) = false :=
    List.all_eq_false.mpr ⟨l, hl, by simp [of_decide_eq_true hloop]⟩
  unfold Dev.ethSends; rw [hall]; exact Bool.and_false _

/-- While a cause of Local Fault stands, no frame goes out (R291). -/
theorem ethFrameTx_of_cause {d : Dev} {p : Nat} (env : Env) (frame : List Byte) (held : Nat) (hs : (d.ethAt p).gfpSync = true) (hc : d.lfCause p = true) :
    ethFrameTx env p frame held d = d := by
  have hend : d.lfEnd p = d := if_pos hc
  have hbar : d.txFault p ≠ 0 ∨ d.ethSends p = false := by
    cases he : d.ethEchoes p with
    | true => exact Or.inr (Dev.ethSends_of_echo he)
    | false => exact Or.inl (by simp [Dev.txFault, he, hc])
  unfold ethFrameTx
  rw [if_pos hs, hend]
  exact if_pos hbar

section
variable {d : Dev} {env : Env} {p : Nat} {frame : List Byte} {held : Nat} (hs : (d.ethAt p).gfpSync = true) (hc : d.lfCause p = false) (hr : (d.ethAt p).csfRf = false)
  (hsend : d.ethSends p = true)
include hs hc

theorem Dev.lfEnd_ethAt : (d.lfEnd p).ethAt p = { d.ethAt p with lf := false } := by
  unfold Dev.lfEnd; rw [hc, if_neg Bool.false_ne_true]
  exact Dev.updEth_same _ (Dev.hasEth_of_sync hs)

/-- The end of Local Fault touches nothing but the port table. -/
theorem Dev.lfEnd_frame : ∃ t, d.lfEnd p = { d with cli := { d.cli with eth := t } } := by
  unfold Dev.lfEnd; rw [hc, if_neg Bool.false_ne_true]
  unfold Dev.updEth; rw [if_pos (Dev.hasEth_of_sync hs)]
  exact ⟨_, rfl⟩

theorem Dev.lfEnd_lfCause : (d.lfEnd p).lfCause p = false := by
  have hat := Dev.lfEnd_ethAt hs hc
  obtain ⟨t, ht⟩ := Dev.lfEnd_frame hs hc
  unfold Dev.lfCause at hc ⊢
  rw [hat, ht]; exact hc

include hr in
theorem Dev.lfEnd_txFault : (d.lfEnd p).txFault p = 0 := by
  have hcause := Dev.lfEnd_lfCause hs hc
  have hat := Dev.lfEnd_ethAt hs hc
  unfold Dev.txFault; simp [hat, hcause, hr]

include hsend in
theorem Dev.lfEnd_ethSends : (d.lfEnd p).ethSends p = true := by
  have hat := Dev.lfEnd_ethAt hs hc
  obtain ⟨t, ht⟩ := Dev.lfEnd_frame hs hc
  unfold Dev.ethSends at hsend ⊢
  rw [hat, ht]; exact hsend

include hr hsend

theorem ethFrameTx_of_clear : ethFrameTx env p frame held d =
    if 2 * env.par.nat (pEthMaxFrame + p) < held + frame.length then (d.lfEnd p).count (ctrEth 4 p) 1
    else ((d.lfEnd p).updEth p fun x => { x with
      sent := List.replicate 7 0x55 ++ 0xD5 :: frame, gap := if env.par.nat (pEthMaxFrame + p) < held then 9 else 12 }).count (ctrEth 3 p) 1 := by
  unfold ethFrameTx
  rw [if_pos hs]
  exact if_neg (by rw [Dev.lfEnd_txFault hs hc hr, Dev.lfEnd_ethSends hs hc hsend]; decide)

end

/-- Settles O43. -/
theorem ethernetPorts : Obligations.EthernetPorts := by
  unfold Obligations.EthernetPorts
  intro s
  refine ⟨fun e s1 => ⟨?_, ?_, ?_, ?_, ?_⟩, fun p => ⟨?_, ?_, ?_, ?_, ?_, ?_, ?_, ?_, ?_, ?_, ?_, ?_, ?_, ?_⟩⟩
  · intro h
    refine ⟨fun hp => ?_, fun hp hbad => ?_, fun hp hal hmax hfree hb hc ha he hi hg hr => ?_, fun hp hal hmax hfree hi hf => ?_⟩
    · exact h.refuses rfl (ethCreate_of_existing hp)
    · exact h.refuses rfl (ethCreate_of_misplaced hp hbad)
    · exact h.completes rfl (ethCreate_of_fit hp hal hmax hfree hb hc ha he hi hg hr)
    · exact h.refuses rfl (ethCreate_of_interopMisfit hp hal hmax hfree hi hf)
  · intro h
    refine ⟨fun hp => ?_, fun hp he => ?_, fun hp he hb => ?_⟩
    · exact h.refuses rfl (ethDelete_of_absent hp)
    · exact h.refuses rfl (ethDelete_of_enabled hp he)
    · exact h.completes rfl (ethDelete_of_rest hp he hb)
  · intro h hp
    refine ⟨fun he hon hs ho => ?_, fun he hon hs ho => ?_, fun he hoff hb hf => ?_, fun he => ?_⟩
    · exact h.refuses rfl (ethEnable_of_off hp he hon hs ho)
    · exact h.completes rfl (ethEnable_of_ready hp he hon hs ho)
    · exact h.refuses rfl (ethEnable_of_traffic hp he hoff hb hf)
    · exact h.completes rfl (ethEnable_of_inForce hp he)
  · exact fun h hp => ⟨_, h.completes rfl (if_pos hp), ethStatus_fields (u8 e 0) s.dev⟩
  · exact fun h hp => h.refuses rfl (if_neg (Bool.eq_false_iff.mp hp))
  · exact fun locked corr uncorr he => exec_of_onDev rfl (if_pos he)
  · exact fun frame hst hf ha hmin hmax hk => exec_of_onDev rfl (ethFrameRx_of_good (env := s.env) hst hf hmin hmax ha hk)
  · exact fun frame hst hf ha hmin hmax hk => exec_of_onDev rfl (ethFrameRx_of_barred (env := s.env) hst hf hmin hmax ha hk)
  · exact fun frame hst hf ha hmin hmax => exec_of_onDev rfl (ethFrameRx_of_error (env := s.env) hst hf hmin hmax ha)
  · exact fun frame err hst hf hl => exec_of_onDev rfl (ethFrameRx_of_badLength (env := s.env) hst hf err hl)
  · exact fun frame held hs hc => exec_of_onDev rfl (ethFrameTx_of_cause s.env frame held hs hc)
  · intro frame held hs hc hr hsend
    exact ⟨fun hfit => exec_of_onDev rfl ((ethFrameTx_of_clear (env := s.env) hs hc hr hsend).trans (if_neg (Nat.not_lt.mpr hfit))),
      fun hfull => exec_of_onDev rfl ((ethFrameTx_of_clear (env := s.env) hs hc hr hsend).trans (if_pos hfull))⟩
  · exact fun hs => exec_of_onDev rfl (if_pos hs)
  · exact fun hs => exec_of_onDev rfl (if_neg (Bool.eq_false_iff.mp hs))
  · exact fun hen hu => exec_of_onDev rfl (if_pos ⟨hen, hu⟩)
  · intro hs
    exact ⟨exec_of_onDev rfl ((if_pos hs).trans (if_pos (Or.inl rfl))), exec_of_onDev rfl ((if_pos hs).trans (if_pos (Or.inr rfl))),
      exec_of_onDev rfl ((if_pos hs).trans ((if_neg (by decide)).trans (if_pos rfl)))⟩
  · exact exec_of_onDev rfl rfl
  · exact exec_of_onDev rfl rfl
  · exact fun fault he => exec_of_onDev rfl (if_pos he)

end Sys2Proof.Machine
end

section
/-! Stitch ports: their commands, their references and their training (chapter 13). -/

namespace Sys2Proof.Machine

/-! ### Commands, case by case -/

section
variable {d : Dev} {env : Env} {e : CmdEntry}

theorem stitchCreate_of_existing (h : d.hasStitch (u8 e 0) = true) : stitchCreate e d = .refuse .badParam 8 := if_pos h

theorem stitchCreate_of_free (h : d.hasStitch (u8 e 0) = false)
    (hfree : ∀ i < u8 e 1, d.ethOfLane (16 * u8 e 0 + i) = none ∧ d.quadMode ((16 * u8 e 0 + i) / 4) ≠ 1) :
    stitchCreate e d = .done [] (Dev.updStitch ((List.range 12).foldl (fun d j => d.restartCounter (ctrStitch j (u8 e 0))) d) (u8 e 0) fun s =>
      { Stitch.absent with lanes := u8 e 1, baud := u16 e 2, srefLost := s.srefLost, srefFreq := s.srefFreq }) := by
  have hany : (List.range (u8 e 1)).any (fun i => (d.ethOfLane (16 * u8 e 0 + i)).isSome || decide (d.quadMode ((16 * u8 e 0 + i) / 4) = 1)) = false := by
    refine List.any_eq_false.mpr fun i hi => ?_
    obtain ⟨he, hq⟩ := hfree i (List.mem_range.mp hi)
    simp [he, hq]
  exact (if_neg (Bool.eq_false_iff.mp h)).trans (if_neg (Bool.eq_false_iff.mp hany))

variable (hp : d.hasStitch (u8 e 0) = true)
include hp

theorem stitchDelete_of_busy (h : (d.stitch (u8 e 0)).enabled = true ∨ (d.stitch (u8 e 0)).flows ≠ []) : stitchDelete e d = .refuse .trafficPresent 0 := by
  simp [stitchDelete, hp, h]

theorem stitchDelete_of_rest (he : (d.stitch (u8 e 0)).enabled = false) (hf : (d.stitch (u8 e 0)).flows = []) :
    stitchDelete e d = .done [] ((d.updLanes (d.stitchLanes (u8 e 0)) Lane.untrain).updStitch (u8 e 0) fun s =>
      { Stitch.absent with srefLost := s.srefLost, srefFreq := s.srefFreq }) := by
  simp [stitchDelete, hp, he, hf]

theorem stitchEnable_of_traffic (hoff : bitAt (u8 e 1) 0 = false) (he : (d.stitch (u8 e 0)).enabled = true) (ht : d.stitchTraffic (u8 e 0) = true)
    (hf : force e = false) : stitchEnable env e d = .refuse .trafficPresent 0 := by
  simp [stitchEnable, hp, hoff, he, ht, hf]

end

section
variable {d : Dev} {env : Env} {e : CmdEntry} (hon : bitAt (u8 e 1) 0 = true)
include hon

theorem stitchEnable_of_enabled (he : (d.stitch (u8 e 0)).enabled = true) : stitchEnable env e d = .done [] d := by
  simp [stitchEnable, hon, he]

variable (he : (d.stitch (u8 e 0)).enabled = false) (hs : d.inService = true)
include he hs

theorem stitchEnable_of_off (ho : ∃ l ∈ d.stitchLanes (u8 e 0), d.laneOn l = false) : stitchEnable env e d = .refuse .domainOff 0 := by
  have hany : (d.stitchLanes (u8 e 0)).any (fun l => !d.laneOn l) = true := by
    obtain ⟨l, hl, hoff⟩ := ho
    exact List.any_eq_true.mpr ⟨l, hl, by rw [hoff]; rfl⟩
  simp only [stitchEnable, hon, he, hs, hany, Bool.not_true, Bool.false_eq_true, if_false, if_true]

theorem stitchEnable_of_ready (ho : ∀ l ∈ d.stitchLanes (u8 e 0), d.laneOn l = true) (hp : d.hasStitch (u8 e 0) = true) :
    stitchEnable env e d = .start (100 * ms)
      ((d.updStitch (u8 e 0) fun s => { (s.capture env.par (u8 e 0)) with enabled := true }).stitchTrain (u8 e 0)) := by
  have hany : (d.stitchLanes (u8 e 0)).any (fun l => !d.laneOn l) = false := List.any_eq_false.mpr fun l hl => by rw [ho l hl]; decide
  simp only [stitchEnable, hon, he, hs, hany, hp, Bool.not_true, Bool.false_eq_true, if_false, if_true]

end

/-! ### Flows -/

section
variable {d : Dev} {env : Env} {e : CmdEntry} (hp : d.hasStitch (u8 e 0) = true) (hb : d.hasBundle (u8 e 1) = true)
include hp hb

theorem stitchFlow_of_attached (hon : bitAt (u8 e 2) 0 = true) (ha : (d.bundleAt (u8 e 1)).attach ≠ .none) : stitchFlow e d = .refuse .badParam 9 := by
  simp [stitchFlow, hp, hb, hon, ha, badField]

theorem stitchFlow_of_fit (hon : bitAt (u8 e 2) 0 = true) (ha : (d.bundleAt (u8 e 1)).attach = .none) (hg : d.group = [])
    (ht : (d.tx (d.bundleAt (u8 e 1)).carrier).op = none)
    (hf : fitsPort (d.stitch (u8 e 0)).lanes (d.stitch (u8 e 0)).baud
      ((d.bundleAt (u8 e 1)).flowSize + sumBy (fun f => (d.bundleAt f.bundle).flowSize) (d.stitch (u8 e 0)).flows) = true)
    (hst : (d.stitch (u8 e 0)).st = .down) :
    stitchFlow e d = .done [] ((d.updBundle (u8 e 1) fun b => { b with attach := .stitch (u8 e 0) }).updStitch (u8 e 0) fun s =>
      { s with flows := s.flows ++ [⟨u8 e 1, []⟩] }) := by
  simp [stitchFlow, hp, hb, hon, ha, hg, ht, hf, Dev.stitchUp, hst]

variable (hoff : bitAt (u8 e 2) 0 = false) (ha : (d.bundleAt (u8 e 1)).attach = .stitch (u8 e 0))
include hoff ha

theorem stitchFlow_of_detachOn (ho : (d.bundleAt (u8 e 1)).on = true) : stitchFlow e d = .refuse .trafficPresent 0 := by
  simp [stitchFlow, hp, hb, hoff, ha, ho]

theorem stitchFlow_of_detach (ho : (d.bundleAt (u8 e 1)).on = false) :
    stitchFlow e d = .done [] ((d.updBundle (u8 e 1) fun b => { b with attach := .none }).updStitch (u8 e 0) fun s =>
      { s with flows := s.flows.filter fun f => decide (f.bundle ≠ u8 e 1) }) := by
  simp [stitchFlow, hp, hb, hoff, ha, ho]

end

theorem stitchFlowCmd_of_refused {d : Dev} {env : Env} {e : CmdEntry} {st : Status} {k : Nat} (h : stitchFlow e d = .refuse st k) :
    stitchFlowCmd env e d = .refuse st k := by
  unfold stitchFlowCmd; rw [h]

theorem stitchFlowCmd_of_attach {d d1 : Dev} {env : Env} {e : CmdEntry} {r : List Byte} (h : stitchFlow e d = .done r d1)
    (hs : env.par.on (pStitchRttStrict + u8 e 0) = false) (hr : d.rateBusy (d.bundleAt (u8 e 1)).carrier = false) : stitchFlowCmd env e d = .done r d1 := by
  simp [stitchFlowCmd, h, hs, hr]

theorem stitchFlowCmd_of_detach {d d1 : Dev} {env : Env} {e : CmdEntry} {r : List Byte} (h : stitchFlow e d = .done r d1) (hoff : bitAt (u8 e 2) 0 = false) :
    stitchFlowCmd env e d = .done r d1 := by
  simp [stitchFlowCmd, h, hoff]

/-! ### The status of a port -/

theorem Dev.stitchCode_lt (d : Dev) (p : Nat) : d.stitchCode p < 2 ^ 3 := by
  unfold Dev.stitchCode; dsimp only; split
  · decide
  · split
    · decide
    · split
      · decide
      · split <;> decide

theorem stitchStatus_fields (p : Nat) (d : Dev) : let r := leNat (stitchStatus p d); let x := d.stitch p
    bitsAt r 0 3 = d.stitchCode p ∧ bitsAt r 3 4 = x.cause % 16 ∧ bitsAt r 8 5 = x.lanes % 32 ∧ bitsAt r 16 16 = x.baud % 65536 ∧
    bitsAt r 32 16 = x.rtt % 65536 ∧ bitsAt r 64 32 = d.counter (ctrStitch stCellsRx p) % 2 ^ 32 := by
  refine ⟨?_, ?_, ?_, ?_, ?_, ?_⟩
  · exact (bitsAt_resultBits (fs := []) rfl rfl (by decide)).trans (Nat.mod_eq_of_lt (Dev.stitchCode_lt _ _))
  · exact bitsAt_resultBits (fs := [_]) rfl rfl (by decide)
  · exact bitsAt_resultBits (fs := [_, _, _]) rfl rfl (by decide)
  · exact bitsAt_resultBits (fs := [_, _, _, _, _]) rfl rfl (by decide)
  · exact bitsAt_resultBits (fs := [_, _, _, _, _, _]) rfl rfl (by decide)
  · exact bitsAt_resultBits (fs := [_, _, _, _, _, _, _, _, _]) rfl rfl (by decide)

/-! ### References and training, case by case -/

section
variable {d : Dev} {env : Env} {p : Nat}

theorem Dev.stitchUp_of_other (h : (d.stitch p).st ≠ .up) : d.stitchUp p = false := decide_eq_false h

theorem Dev.updStitch_same (d : Dev) (p : Nat) (f : Stitch → Stitch) : (d.updStitch p f).stitch p = f (d.stitch p) := Tbl.get_upd_same _ _ _ _

theorem Dev.raise_stitch (d : Dev) (ev : Evt) (i : Nat) (fs : List (Nat × Int)) (p : Nat) : (d.raise ev i fs).stitch p = d.stitch p := rfl

theorem srefLoss_of_down (hs : (d.stitch p).srefLost = false) (hst : (d.stitch p).st = .down) :
    srefLoss p d = ((d.draw.2.updStitch p fun s => { s with srefLost := true }).raise .srefLoss p [(1, (d.draw.1 % 2 : Nat))]).updLanes (d.stitchLanes p) Lane.powerDown := by
  have hup : ((d.draw.2.updStitch p fun s => { s with srefLost := true }).raise .srefLoss p [(1, (d.draw.1 % 2 : Nat))]).stitchUp p = false := by
    refine Dev.stitchUp_of_other ?_
    rw [Dev.raise_stitch, Dev.updStitch_same]
    exact fun h => nomatch hst.symm.trans h
  unfold srefLoss
  rw [if_neg (Bool.eq_false_iff.mp hs)]
  exact congrArg (fun x : Dev => x.updLanes (d.stitchLanes p) Lane.powerDown) (if_neg (Bool.eq_false_iff.mp hup))

theorem srefReturn_of_disabled (hs : (d.stitch p).srefLost = true) (he : (d.stitch p).enabled = false) :
    srefReturn p d = d.updStitch p fun s => { s with srefLost := false } := (if_pos hs).trans (if_neg (Bool.eq_false_iff.mp he))

theorem srefReturn_of_enabled (hs : (d.stitch p).srefLost = true) (he : (d.stitch p).enabled = true) :
    srefReturn p d = (d.updStitch p fun s => { s with srefLost := false }).stitchTrain p := (if_pos hs).trans (if_pos he)

theorem lanesLocked_of_locked {lanes : List (List CwArrival)} (hst : (d.stitch p).st = .training) (he : (d.stitch p).enabled = true) (hc : d.laneCause p = none)
    (ha : ∀ l ∈ d.stitchLanes p, (d.lane l).adaptOk = true) (hl : ∀ i < (d.stitch p).lanes, cwLocks i (lanes.getD i []) = true) :
    lanesLocked p lanes d = if (d.stitch p).txtune then
        (d.updLanes (d.stitchLanes p) fun x => x.request (sweepPoint 0)).updStitch p fun s => { s with st := .tune }
      else d.updStitch p fun s => { s with st := .ready, tuneDone := true } :=
  if_pos ⟨hst, he, hc, List.all_eq_true.mpr ha, List.all_eq_true.mpr fun i hi => hl i (List.mem_range.mp hi)⟩

section
variable {l : Nat} {ctrl : List Byte} (ht : (d.stitch p).trains = true) (hl : l < (d.stitch p).lanes)
include ht hl

theorem trainingCw_of_mismatch (hid : fieldAt ctrl 0 2 ≠ (d.stitch p).linkId) :
    trainingCw env p l ctrl d = d.updStitch p fun s => { s with st := .mismatch, cause := 5 } := (if_pos ⟨ht, hl⟩).trans (if_pos hid)

/-- A request that the FIR can take is applied, and confirmed (R316). -/
theorem trainingCw_of_request (hid : fieldAt ctrl 0 2 = (d.stitch p).linkId) (hseq : fieldAt ctrl 4 1 ≠ 0) (hpre : fieldAt ctrl 2 1 ≤ 32) (hpost : fieldAt ctrl 3 1 ≤ 32) :
    trainingCw env p l ctrl d = d.updLane (16 * p + l) fun y => { y with
      peerFir := some (fieldAt ctrl 2 1, fieldAt ctrl 3 1), appliedSeq := fieldAt ctrl 4 1,
      confirmedAt := if (d.stitch p).st = .tune ∧ y.confirmedAt = none ∧ fieldAt ctrl 5 1 = y.reqSeq then some env.now else y.confirmedAt,
      peerReady := y.peerReady || bitAt (fieldAt ctrl 6 1) 0 } := by
  unfold trainingCw
  dsimp only
  rw [if_pos ⟨ht, hl⟩, if_neg (not_not_intro hid)]
  simp only [hseq, hpre, hpost, ne_eq, not_false_eq_true, and_self, if_true, decide_eq_true_eq]

end

theorem tuneDone_of_swept {foms : List (List Int)} (hst : (d.stitch p).st = .tune)
    (h : ∀ k ∈ (d.stitchLanes p).zipIdx, ((d.lane k.1).swept (foms.getD k.2 [])).length = 35) :
    tuneDone p foms d = ((d.stitchLanes p).zipIdx.foldl (fun d k => d.updLane k.1 fun l =>
        { l with sweep := l.swept (foms.getD k.2 []), reqFir := bestPoint (l.swept (foms.getD k.2 [])), reqSeq := 36, confirmedAt := none }) d).updStitch p
      fun s => { s with st := .ready, tuneDone := true } :=
  if_pos ⟨hst, List.all_eq_true.mpr fun k hk => decide_eq_true (h k hk)⟩

theorem codewordLoss_of_up {l : Nat} {cws : List CwArrival} (hl : l < (d.stitch p).lanes) (hu : cwUnlocks cws = true) (hst : (d.stitch p).st = .up) :
    codewordLoss p l cws d = ((d.raise .stitchDown p [(1, 3)]).stitchClear p).updStitch p fun s => { s with cause := 3, st := .down } := by
  have hup : d.stitchUp p = true := decide_eq_true hst
  unfold codewordLoss Dev.stitchDown
  rw [if_pos ⟨hl, hu⟩, if_pos hup, if_pos hup]
  rfl

theorem codewordLoss_of_training {l : Nat} {cws : List CwArrival} (hl : l < (d.stitch p).lanes) (hu : cwUnlocks cws = true) (hst : (d.stitch p).st ≠ .up)
    (ht : (d.stitch p).trains = true) : codewordLoss p l cws d = d.stitchTrain p :=
  (if_pos ⟨hl, hu⟩).trans ((if_neg (Bool.eq_false_iff.mp (Dev.stitchUp_of_other hst))).trans (if_pos ht))

end

/-- Settles O44. -/
theorem stitchPorts : Obligations.StitchPorts := by
  unfold Obligations.StitchPorts
  intro s
  refine ⟨fun e s1 => ⟨?_, ?_, ?_, ?_, ?_, ?_, ?_⟩, fun p => ⟨?_, ?_, ?_, ?_, ?_, ?_, ?_, ?_, ?_, ?_, ?_, ?_⟩⟩
  · exact fun h => ⟨fun hp => h.refuses rfl (stitchCreate_of_existing hp), fun hp hfree => h.completes rfl (stitchCreate_of_free hp hfree)⟩
  · exact fun h hp => ⟨fun hb => h.refuses rfl (stitchDelete_of_busy hp hb), fun he hf => h.completes rfl (stitchDelete_of_rest hp he hf)⟩
  · intro h hon
    refine ⟨fun he => ?_, fun he hs ho => ?_, fun he hs ho hp => ?_⟩
    · exact h.completes rfl (stitchEnable_of_enabled (env := s.env) hon he)
    · exact h.refuses rfl (stitchEnable_of_off (env := s.env) hon he hs ho)
    · rw [h.par_eq]
      exact h.starts rfl (stitchEnable_of_ready (env := s.env) hon he hs ho hp)
  · exact fun h hoff hp he ht hf => h.refuses rfl (stitchEnable_of_traffic (env := s.env) hp hoff he ht hf)
  · intro h hp hb hon
    refine ⟨fun ha => ?_, fun ha hg ht hf hs hr hst => ?_⟩
    · exact h.refuses rfl (stitchFlowCmd_of_refused (env := s.env) (stitchFlow_of_attached hp hb hon ha))
    · exact h.completes rfl (stitchFlowCmd_of_attach (env := s.env) (stitchFlow_of_fit hp hb hon ha hg ht hf hst) hs hr)
  · intro h hp hb hoff ha
    refine ⟨fun ho => ?_, fun ho => ?_⟩
    · exact h.refuses rfl (stitchFlowCmd_of_refused (env := s.env) (stitchFlow_of_detachOn hp hb hoff ha ho))
    · exact h.completes rfl (stitchFlowCmd_of_detach (env := s.env) (stitchFlow_of_detach hp hb hoff ha ho) hoff)
  · exact fun h hp => ⟨_, h.completes rfl (if_pos hp), stitchStatus_fields (u8 e 0) s.dev⟩
  · exact fun hs hst => exec_of_onDev rfl (srefLoss_of_down hs hst)
  · exact fun hs he => exec_of_onDev rfl (srefReturn_of_disabled hs he)
  · exact fun hs he => exec_of_onDev rfl (srefReturn_of_enabled hs he)
  · intro lanes hst he hc ha hl
    exact ⟨fun ht => exec_of_onDev rfl ((lanesLocked_of_locked hst he hc ha hl).trans (if_pos ht)),
      fun ht => exec_of_onDev rfl ((lanesLocked_of_locked hst he hc ha hl).trans (if_neg (Bool.eq_false_iff.mp ht)))⟩
  · exact fun l ctrl ht hl hid => exec_of_onDev rfl (trainingCw_of_mismatch (env := s.env) ht hl hid)
  · exact fun l ctrl ht hl hid hseq hpre hpost => exec_of_onDev rfl (trainingCw_of_request (env := s.env) ht hl hid hseq hpre hpost)
  · exact fun foms hst h => exec_of_onDev rfl (tuneDone_of_swept hst h)
  · exact fun hst => exec_of_onDev rfl (if_pos hst)
  · exact fun hst => exec_of_onDev rfl (if_pos hst)
  · exact fun l cws hl hu hst => exec_of_onDev rfl (codewordLoss_of_up hl hu hst)
  · exact fun l cws hl hu hst ht => exec_of_onDev rfl (codewordLoss_of_training hl hu hst ht)
  · exact fun he hst hs ht => exec_of_onDev rfl (if_pos ⟨he, Dev.stitchUp_of_other hst, hs, ht⟩)

end Sys2Proof.Machine
end

section
/-! Key commands (chapter 14). -/

namespace Sys2Proof.Machine

/-! ### CMD_KEY_LOAD -/

/-- Fields of an unwrapped load into line key slots (Table 14-2). -/
abbrev lineKeyLayout : List Fld := [⟨0, 2, 0x3FF, 0, 511, false⟩, fldU 2 1 1 128, ⟨3, 1, 7, 0, 7, false⟩, fldAny 4 4, fldAny 8 4]

/-- The line key slot that channel `i` of the run gets (R349). -/
def loadedSlot (env : Env) (e : CmdEntry) (i : Nat) : KeySlot :=
  ⟨((payload e).drop 20).take 32, (u32 e 4 + i) % 2 ^ 32, (u32 e 8 + i) % 2 ^ 32, fieldAt (payload e) 12 8, env.par.nat pKeyLimitLog2, fieldAt (payload e) 12 8, none, false⟩

section
variable {d : Dev} {env : Env} {e : CmdEntry} (hf : u8 e 3 < 2)
include hf

theorem flags_not_wrapped : bitAt (u8 e 3) 1 = false := by
  interval_cases u8 e 3 <;> rfl

theorem flags_not_job : bitAt (u8 e 3) 2 = false := by
  interval_cases u8 e 3 <;> rfl

variable (hlen : e.plen = 52) (hl : layoutFault (payload e) lineKeyLayout = none)
include hlen hl

theorem keyLoad_of_off (ho : d.domOn domCrypto = false) : keyLoad env e d = .refuse .domainOff 0 := by
  have hplen : e.plen.toNat = 52 := by rw [hlen]; rfl
  simp only [keyLoad, flags_not_wrapped hf, flags_not_job hf, hplen, Bool.false_eq_true, if_false, ne_eq, not_true_eq_false, hl, ho, Bool.not_false, if_true]

variable (ho : d.domOn domCrypto = true) (hi : ∀ ch ∈ kChans e, d.interopChan ch = false)
include ho hi

/-- What decides on a load once domain and profile are right. -/
theorem keyLoad_of_on : keyLoad env e d =
    if env.par.on pKeyWrapOnly then .refuse .state 0
    else if !kOneCarrier e then badField 2
    else if saltsOverlap (u32 e 4) (u32 e 8) (kCount e) then badField 8
    else if 2 ^ 64 - 1 < fieldAt (payload e) 12 8 + 2 ^ env.par.nat pKeyLimitLog2 then badField 12
    else if (kChans e).any fun ch => (d.keyChan ch).active (b2n (bitAt (u8 e 3) 0)) then .refuse .slotActive 0
    else .done [] ((List.range (kCount e)).foldl (fun d i => d.loadSlot env (kFirst e + i) (b2n (bitAt (u8 e 3) 0)) (loadedSlot env e i)) d) := by
  have hplen : e.plen.toNat = 52 := by rw [hlen]; rfl
  have hinterop : (kChans e).any d.interopChan = false := List.any_eq_false.mpr fun ch hch => by rw [hi ch hch]; decide
  simp only [keyLoad, flags_not_wrapped hf, flags_not_job hf, hplen, Bool.false_eq_true, if_false, ne_eq, not_true_eq_false, hl, ho, Bool.not_true, hinterop, Bool.and_false,
    Bool.not_false, Bool.true_and, Bool.false_and, keyOf, loadedSlot]

theorem keyLoad_of_wrapOnly (hw : env.par.on pKeyWrapOnly = true) : keyLoad env e d = .refuse .state 0 := (keyLoad_of_on hf hlen hl ho hi).trans (if_pos hw)

variable (hw : env.par.on pKeyWrapOnly = false)
include hw

theorem keyLoad_of_twoCarriers (hc : kOneCarrier e = false) : keyLoad env e d = .refuse .badParam 10 := by
  rw [keyLoad_of_on hf hlen hl ho hi, hw, hc]; rfl

variable (hc : kOneCarrier e = true)
include hc

theorem keyLoad_of_overlap (hs : saltsOverlap (u32 e 4) (u32 e 8) (kCount e) = true) : keyLoad env e d = .refuse .badParam 16 := by
  rw [keyLoad_of_on hf hlen hl ho hi, hw, hc, hs]; rfl

variable (hs : saltsOverlap (u32 e 4) (u32 e 8) (kCount e) = false) (hlim : fieldAt (payload e) 12 8 + 2 ^ env.par.nat pKeyLimitLog2 ≤ 2 ^ 64 - 1)
include hs hlim

theorem keyLoad_of_active (ha : ∃ ch ∈ kChans e, (d.keyChan ch).active (b2n (bitAt (u8 e 3) 0)) = true) : keyLoad env e d = .refuse .slotActive 0 := by
  rw [keyLoad_of_on hf hlen hl ho hi, hw, hc, hs, if_neg Bool.false_ne_true, if_neg (by decide), if_neg Bool.false_ne_true, if_neg (Nat.not_lt.mpr hlim)]
  exact if_pos (List.any_eq_true.mpr ha)

theorem keyLoad_of_free (ha : ∀ ch ∈ kChans e, (d.keyChan ch).active (b2n (bitAt (u8 e 3) 0)) = false) :
    keyLoad env e d = .done [] ((List.range (kCount e)).foldl (fun d i => d.loadSlot env (kFirst e + i) (b2n (bitAt (u8 e 3) 0)) (loadedSlot env e i)) d) := by
  rw [keyLoad_of_on hf hlen hl ho hi, hw, hc, hs, if_neg Bool.false_ne_true, if_neg (by decide), if_neg Bool.false_ne_true, if_neg (Nat.not_lt.mpr hlim)]
  exact if_neg (Bool.eq_false_iff.mp (List.any_eq_false.mpr fun ch hch => by rw [ha ch hch]; decide))

end

/-! ### CMD_KEY_ACTIVATE -/

section
variable {d : Dev} {e : CmdEntry} (hc : kOneCarrier e = true)
include hc

theorem keyActivate_of_off (ho : d.domOn domCrypto = false) : keyActivate e d = .refuse .domainOff 0 := by
  simp [keyActivate, hc, ho]

variable (ho : d.domOn domCrypto = true) (hi : ∀ ch ∈ kChans e, d.interopChan ch = false)
include ho hi

theorem keyActivate_of_on : keyActivate e d =
    if kaTx e < 2 ∧ (kChans e).any (fun ch => !(d.keyChan ch).usable (kaTx e)) = true then .refuse .sequence 0
    else if (kChans e).any (d.weakens e) && !force e then .refuse .trafficPresent 0
    else .done [] ((kChans e).foldl (fun d ch => d.updKey ch fun c =>
      { (if kaTx e < 2 then c.setTx (.slot (kaTx e)) else if kaTx e = 2 then c.setTx .plain else c) with expect := if kaRx e < 3 then kaRx e else c.expect }) d) := by
  have hinterop : (kChans e).any d.interopChan = false := List.any_eq_false.mpr fun ch hch => by rw [hi ch hch]; decide
  simp only [keyActivate, hc, ho, hinterop, Bool.not_true, Bool.false_eq_true, if_false]

theorem keyActivate_of_unusable (ht : kaTx e < 2) (hu : ∃ ch ∈ kChans e, (d.keyChan ch).usable (kaTx e) = false) : keyActivate e d = .refuse .sequence 0 := by
  obtain ⟨ch, hch, hus⟩ := hu
  exact (keyActivate_of_on hc ho hi).trans (if_pos ⟨ht, List.any_eq_true.mpr ⟨ch, hch, by rw [hus]; rfl⟩⟩)

/-- RX_EXPECT 1 with a slot to send under weakens no channel. -/
theorem keyActivate_of_usable (ht : kaTx e < 2) (hr : kaRx e = 1) (hu : ∀ ch ∈ kChans e, (d.keyChan ch).usable (kaTx e) = true) :
    keyActivate e d = .done [] ((kChans e).foldl (fun d ch => d.updKey ch fun c => { c.setTx (.slot (kaTx e)) with expect := 1 }) d) := by
  have hany : (kChans e).any (fun ch => !(d.keyChan ch).usable (kaTx e)) = false := List.any_eq_false.mpr fun ch hch => by rw [hu ch hch]; decide
  have hweak : (kChans e).any (d.weakens e) = false := List.any_eq_false.mpr fun ch _ => by
    simp [Dev.weakens, hr, Nat.ne_of_lt ht]
  rw [keyActivate_of_on hc ho hi]
  simp only [hany, hweak, ht, hr, Bool.false_eq_true, and_false, Bool.false_and, if_false, if_true, Nat.reduceLT]

theorem keyActivate_of_traffic (ht : kaTx e = 2)
    (hu : ∃ ch ∈ kChans e, ((d.bundleOf ch).any fun kv => kv.2.on) = true ∧ (d.keyChan ch).txSlot.isSome = true) (hf : force e = false) :
    keyActivate e d = .refuse .trafficPresent 0 := by
  obtain ⟨ch, hch, hon, hslot⟩ := hu
  have hweak : (kChans e).any (d.weakens e) = true := List.any_eq_true.mpr ⟨ch, hch, by simp [Dev.weakens, hon, hslot, ht]⟩
  rw [keyActivate_of_on hc ho hi, if_neg (by rw [ht]; exact fun h => absurd h.1 (by decide)), hweak, hf] <;> rfl

end

/-! ### CMD_KEY_ERASE, CMD_KEY_STATUS, CMD_KEK_LOAD -/

section
variable {d : Dev} {e : CmdEntry}

theorem keyErase_of_off (ho : d.domState domCrypto = .off) : keyErase e d = .refuse .domainOff 0 := if_pos ho

/-- An erase of slot 0 of a run of channels. -/
theorem keyErase_of_slot0 (hf : u8 e 3 = 1) (ho : d.domState domCrypto ≠ .off) (hn : kFirst e + kCount e ≤ 512) :
    keyErase e d = if (kChans e).any (fun ch => (d.keyChan ch).active 0) && !force e then .refuse .slotActive 0
      else .done [] ((kChans e).foldl (fun d ch => d.updKey ch fun c => c.erase 0) d) := by
  have hjob : bitAt 1 2 = false := rfl
  have hslots : ([0, 1].filter fun s => bitAt 1 s) = [0] := rfl
  simp only [keyErase, hf, ho, hjob, hslots, Nat.not_lt.mpr hn, Bool.false_eq_true, if_false, List.any_cons, List.any_nil, Bool.or_false, List.foldl_cons, List.foldl_nil]

theorem keyErase_of_active (hf : u8 e 3 = 1) (ho : d.domState domCrypto ≠ .off) (hn : kFirst e + kCount e ≤ 512) (ha : ∃ ch ∈ kChans e, (d.keyChan ch).active 0 = true)
    (hforce : force e = false) : keyErase e d = .refuse .slotActive 0 := by
  rw [keyErase_of_slot0 hf ho hn, List.any_eq_true.mpr ha, hforce]; rfl

theorem keyErase_of_free (hf : u8 e 3 = 1) (ho : d.domState domCrypto ≠ .off) (hn : kFirst e + kCount e ≤ 512)
    (ha : (∀ ch ∈ kChans e, (d.keyChan ch).active 0 = false) ∨ force e = true) :
    keyErase e d = .done [] ((kChans e).foldl (fun d ch => d.updKey ch fun c => c.erase 0) d) := by
  rw [keyErase_of_slot0 hf ho hn]
  refine if_neg ?_
  rcases ha with ha | ha
  · rw [List.any_eq_false.mpr fun ch hch => by rw [ha ch hch]; decide, Bool.false_and]; exact Bool.false_ne_true
  · rw [ha, Bool.not_true, Bool.and_false]; decide

theorem keyStatus_fields (ch : Nat) (d : Dev) : let r := leNat (keyStatus ch d); let c := d.keyChan ch
    bitAt r 0 = c.slot0.isSome ∧ bitAt r 1 = decide (c.txSlot = some 0) ∧ bitAt r 2 = c.rx 0 ∧ bitAt r 3 = c.slot1.isSome ∧
    bitsAt r 6 2 = c.tx.code % 4 ∧ bitsAt r 8 2 = c.expect % 4 ∧ bitsAt r 160 64 = (d.chanAt ch).mfc % 2 ^ 64 := by
  refine ⟨?_, ?_, ?_, ?_, ?_, ?_, ?_⟩
  · exact bitAt_resultBits (fs := []) rfl rfl (by decide)
  · exact bitAt_resultBits (fs := [_]) rfl rfl (by decide)
  · exact bitAt_resultBits (fs := [_, _]) rfl rfl (by decide)
  · exact bitAt_resultBits (fs := [_, _, _]) rfl rfl (by decide)
  · exact bitsAt_resultBits (fs := [_, _, _, _, _, _]) rfl rfl (by decide)
  · exact bitsAt_resultBits (fs := [_, _, _, _, _, _, _]) rfl rfl (by decide)
  · exact bitsAt_resultBits (fs := [_, _, _, _, _, _, _, _, _, _, _, _]) rfl (by simp only [fieldsWidth, sumBy, List.foldr]) (by decide)

variable {env : Env} (ho : d.domOn domCrypto = true)
include ho

theorem kekLoad_of_first (h0 : u8 e 0 = 0) :
    kekLoad env e d = .done [] (d.updKeys fun k => { k with kekHalf := some (((payload e).drop 2).take 192, env.cmds8 + 1) }) := by
  simp [kekLoad, ho, h0]

theorem kekLoad_of_missing (h1 : u8 e 0 = 1) (hk : d.key.kekHalf = none) : kekLoad env e d = .refuse .sequence 0 := by
  simp [kekLoad, ho, h1, hk]

theorem kekLoad_of_second {first : List Byte} (h1 : u8 e 0 = 1) (hk : d.key.kekHalf = some (first, env.cmds8)) :
    kekLoad env e d = match Config.oaepDecode (first ++ ((payload e).drop 2).take 192) with
      | none => .refuse .authFail 0
      | some k => .done [] (d.updKeys fun x => { x with kek := some k, kekHalf := none }) := by
  simp only [kekLoad, ho, h1, hk, Bool.not_true, Bool.false_eq_true, if_false, Nat.lt_irrefl, one_ne_zero, ne_eq, not_true_eq_false] <;> rfl

end

/-- Settles O46. -/
theorem keyCommands : Obligations.KeyCommands := by
  unfold Obligations.KeyCommands
  intro e s s1
  refine ⟨?_, ?_, ?_, ?_, ?_, ?_, ?_, ?_⟩
  · intro h hf hlen hl
    refine ⟨fun ho => ?_, fun ho hi => ⟨fun hw => ?_, fun hw hc => ?_, fun hw hc hs => ?_, fun hw hc hs hlim ha => ?_, fun hw hc hs hlim ha => ?_⟩⟩
    · exact h.refuses rfl (keyLoad_of_off (env := s.env) hf hlen hl ho)
    · exact h.refuses rfl (keyLoad_of_wrapOnly (env := s.env) hf hlen hl ho hi hw)
    · exact h.refuses rfl (keyLoad_of_twoCarriers (env := s.env) hf hlen hl ho hi hw hc)
    · exact h.refuses rfl (keyLoad_of_overlap (env := s.env) hf hlen hl ho hi hw hc hs)
    · exact h.refuses rfl (keyLoad_of_active (env := s.env) hf hlen hl ho hi hw hc hs hlim ha)
    · exact h.completes rfl (keyLoad_of_free (env := s.env) hf hlen hl ho hi hw hc hs hlim ha)
  · intro h hc ho hi
    refine ⟨fun ht hu => ?_, fun ht hr hu => ?_, fun ht hr hu hf => ?_⟩
    · exact h.refuses rfl (keyActivate_of_unusable hc ho hi ht hu)
    · exact h.completes rfl (keyActivate_of_usable hc ho hi ht hr hu)
    · obtain ⟨ch, hch, _, hon, hslot⟩ := hu
      exact h.refuses rfl (keyActivate_of_traffic hc ho hi ht ⟨ch, hch, hon, hslot⟩ hf)
  · exact fun h hc ho => h.refuses rfl (keyActivate_of_off hc ho)
  · exact fun h ho => h.refuses rfl (keyErase_of_off ho)
  · intro h hf ho hn
    exact ⟨fun ha hforce => h.refuses rfl (keyErase_of_active hf ho hn ha hforce), fun ha => h.completes rfl (keyErase_of_free hf ho hn ha)⟩
  · exact fun h ho => ⟨_, h.completes rfl (if_pos ho), keyStatus_fields (u16 e 0) s.dev⟩
  · exact fun h ho => h.refuses rfl (if_neg (Bool.eq_false_iff.mp ho))
  · intro h ho
    refine ⟨fun h0 => ?_, fun h1 hk => ?_, fun first h1 hk => ⟨fun hd => ?_, fun k hd => ?_⟩⟩
    · exact h.completes rfl (kekLoad_of_first (env := s.env) ho h0)
    · exact h.refuses rfl (kekLoad_of_missing (env := s.env) ho h1 hk)
    · exact h.refuses rfl ((kekLoad_of_second (env := s.env) ho h1 hk).trans (by rw [hd]))
    · exact h.completes rfl ((kekLoad_of_second (env := s.env) ho h1 hk).trans (by rw [hd]))

end Sys2Proof.Machine
end

section
/-! The line cipher's events (chapter 14). -/

namespace Sys2Proof.Machine

/-! ### Slots of a channel -/

theorem KeyChan.put_at (c : KeyChan) (s : Nat) (v : Option KeySlot) : (c.put s v).at_ s = v := by
  unfold KeyChan.put KeyChan.at_
  by_cases h : s = 0
  · simp only [h, if_true]
  · simp only [h, if_false]

theorem KeyChan.txSlot_of_slot {c : KeyChan} {t : Nat} (h : c.tx = .slot t) : c.txSlot = some t := by
  unfold KeyChan.txSlot; rw [h]

theorem Dev.updKey_congr {d : Dev} {ch : Nat} {f g : KeyChan → KeyChan} (h : f (d.keyChan ch) = g (d.keyChan ch)) : d.updKey ch f = d.updKey ch g :=
  congrArg (fun x => { d with key := { d.key with chan := d.key.chan.set ch x } }) h

theorem eventChans_one {ch : Nat} (h : ch < 512) : eventChans ch 1 = [ch] := by
  have hmin : min 1 (512 - ch) = 1 := by omega
  unfold eventChans; rw [hmin]; rfl

/-! ### Warning and limit of one channel's slot -/

section
variable {d : Dev} {env : Env} {ch t : Nat} {k : KeySlot} (hch : ch < 512) (ht : (d.keyChan ch).tx = .slot t) (hk : (d.keyChan ch).at_ t = some k)
include hch ht hk

/-- The warning of one channel's slot (R342). -/
theorem nearLimit_of_one (hn : k.near = false) : nearLimit env ch 1 d =
    (d.updKey ch fun c => { c.put t (some { k with near := true, mfc := max k.mfc (k.warnAt (env.par.nat pKeyWarn)) }) with
      rollAt := if env.par.on pKeyRollAuto = true ∧ (c.usable (1 - t) = true ∨ env.mbx ≠ .ready) then some (multiframesIn env.now + 1) else none }).raise
        .keyNearLimit ch [(2, 1), (1, t)] := by
  have hslot := KeyChan.txSlot_of_slot ht
  have hhit : (eventChans ch 1).filter (fun c => (d.keyChan c).txSlot.any fun s => ((d.keyChan c).at_ s).any fun k => !k.near) = [ch] := by
    rw [eventChans_one hch]; simp [hslot, hk, hn]
  unfold nearLimit
  dsimp only
  rw [hhit]
  simp only [Dev.raiseGroups, Dev.groupChans, List.foldl_cons, List.foldl_nil, hslot, Option.getD_some]
  refine congrArg (fun x : Dev => x.raise .keyNearLimit ch [(2, 1), (1, (t : Int))]) (Dev.updKey_congr ?_)
  simp only [hslot, hk, Option.map_some, KeyChan.canRoll, Option.any_some, Bool.and_eq_true, Bool.or_eq_true, decide_eq_true_eq]

/-- The limit of one channel's slot, with no roll that could be made (R342). -/
theorem keyExpiry_of_one (hr : (d.keyChan ch).rollAt = none ∨ (d.keyChan ch).usable (1 - t) = false) : keyExpiry env ch 1 d =
    (d.updKey ch fun c => { c.put t (some { k with mfc := max k.mfc k.limit }) with tx := .expired t, rollAt := none }).raise .keyExpired ch [(2, 1), (1, t)] := by
  have hslot := KeyChan.txSlot_of_slot ht
  have hrolls : ((d.keyChan ch).rollDue (multiframesIn env.now) && (d.keyChan ch).canRoll && decide (env.mbx = .ready)) = false := by
    rcases hr with hr | hr
    · simp [KeyChan.rollDue, hr]
    · simp [KeyChan.canRoll, hslot, hr]
  have hhit : (eventChans ch 1).filter (fun c => (d.keyChan c).txSlot.isSome &&
      !((d.keyChan c).rollDue (multiframesIn env.now) && (d.keyChan c).canRoll && decide (env.mbx = .ready))) = [ch] := by
    rw [eventChans_one hch, List.filter_cons_of_pos (by rw [hrolls, hslot]; rfl), List.filter_nil]
  unfold keyExpiry
  dsimp only
  rw [hhit]
  simp only [Dev.raiseGroups, Dev.groupChans, List.foldl_cons, List.foldl_nil, hslot, Option.getD_some]
  refine congrArg (fun x : Dev => x.raise .keyExpired ch [(2, 1), (1, (t : Int))]) (Dev.updKey_congr ?_)
  simp only [hk, Option.map_some]

end

/-! ### The check of a received multiframe -/

section
variable {d : Dev} {env : Env} {ch : Nat} {m : MfReport} (hn : d.notChecked env ch = false)
include hn

theorem Dev.mfOutcome_of_clear (hm : m.enc = false) : d.mfOutcome env ch m = if (d.keyChan ch).expect = 1 then .zeros else .delivered := by
  simp [Dev.mfOutcome, hn, hm]

theorem Dev.mfOutcome_of_unexpected (hm : m.enc = true) (he : (d.keyChan ch).expect = 0) : d.mfOutcome env ch m = .zeros := by
  simp [Dev.mfOutcome, hn, hm, he]

variable (hm : m.enc = true) (he : (d.keyChan ch).expect ≠ 0)
include hm he

theorem Dev.mfOutcome_of_noKey (hk : (d.keyChan ch).at_ m.kp = none) : d.mfOutcome env ch m = .noKey := by
  simp [Dev.mfOutcome, hn, hm, he, hk]

theorem Dev.mfOutcome_of_stale {k : KeySlot} (hk : (d.keyChan ch).at_ m.kp = some k)
    (hr : (k.rxLast = none ∧ m.mfc.toNat < k.start) ∨ (∃ x, k.rxLast = some x ∧ m.mfc.toNat ≤ x)) : d.mfOutcome env ch m = .mfcReject := by
  rcases hr with ⟨hx, hs⟩ | ⟨x, hx, hs⟩
  · simp [Dev.mfOutcome, hn, hm, he, hk, hx, hs]
  · simp [Dev.mfOutcome, hn, hm, he, hk, hx, hs]

end

theorem accepted_of_judged {stale : Bool} {p : Prop} [Decidable p] (h : (if stale then MfOutcome.mfcReject else if p then .accepted else .authFail) = .accepted) :
    stale = false ∧ p := by
  cases stale with
  | true => rw [if_pos rfl] at h; exact absurd h (by decide)
  | false =>
    by_cases hp : p
    · exact ⟨rfl, hp⟩
    · rw [if_neg Bool.false_ne_true, if_neg hp] at h
      exact absurd h (by decide)

/-- What an accepted multiframe has met (R339, R346). -/
theorem Dev.mfOutcome_accepted {d : Dev} {env : Env} {ch : Nat} {m : MfReport} (h : d.mfOutcome env ch m = .accepted) :
    m.enc = true ∧ ∃ k, (d.keyChan ch).at_ m.kp = some k ∧ (lineOpen k m.mfc.toNat (ch % 128) m.text).2 = padTo 12 m.tag ∧
      (∀ x, k.rxLast = some x → x < m.mfc.toNat) ∧ (k.rxLast = none → k.start ≤ m.mfc.toNat) := by
  unfold Dev.mfOutcome at h
  dsimp only at h
  split at h
  · exact absurd h (by decide)
  · split at h
    · split at h
      · exact absurd h (by decide)
      · exact absurd h (by decide)
    · rename_i henc
      split at h
      · exact absurd h (by decide)
      · split at h
        · exact absurd h (by decide)
        · rename_i k hk
          have henc' : m.enc = true := by simpa using henc
          cases hx : k.rxLast with
          | none =>
            rw [hx] at h
            obtain ⟨hfresh, htag⟩ := accepted_of_judged h
            refine ⟨henc', k, hk, htag, fun x hsome => ?_, fun _ => Nat.not_lt.mp (of_decide_eq_false hfresh)⟩
            rw [hx] at hsome; exact absurd hsome nofun
          | some y =>
            rw [hx] at h
            obtain ⟨hfresh, htag⟩ := accepted_of_judged h
            refine ⟨henc', k, hk, htag, fun x hsome => ?_, fun hnone => ?_⟩
            · rw [← Option.some.inj (hx.symm.trans hsome)]
              exact Nat.not_le.mp (of_decide_eq_false hfresh)
            · rw [hx] at hnone; exact absurd hnone nofun

/-- The part of a check that every outcome has: KP and zeros are noted. -/
def Dev.notedMf (d : Dev) (env : Env) (ch : Nat) (m : MfReport) : Dev :=
  (d.updKey ch fun c => { c with kp1 := if d.mfOutcome env ch m = .skipped ∨ m.enc = false then none else some m.kp.val, kp2 := c.kp1 }).updChan ch fun c => { c with
    zeros := decide (d.mfOutcome env ch m = .zeros ∨ d.mfOutcome env ch m = .noKey ∨ d.mfOutcome env ch m = .mfcReject ∨ d.mfOutcome env ch m = .authFail),
    kp := if d.mfOutcome env ch m = .skipped then c.kp else decide (m.kp.val = 1) }

theorem Dev.notedMf_keyChan_other (d : Dev) (env : Env) {ch b : Nat} (m : MfReport) (hb : b ≠ ch) : (d.notedMf env ch m).keyChan b = d.keyChan b :=
  Dev.updKey_other _ _ _ _ hb

theorem Dev.notedMf_keyChan (d : Dev) (env : Env) (ch : Nat) (m : MfReport) : ∃ a b, (d.notedMf env ch m).keyChan ch = { d.keyChan ch with kp1 := a, kp2 := b } :=
  ⟨_, _, Dev.updKey_same _ _ _⟩

theorem Dev.checkMf_eq (d : Dev) (env : Env) (ch : Nat) (m : MfReport) : d.checkMf env ch m = match d.mfOutcome env ch m with
    | .noKey => (d.notedMf env ch m).count (ckey 8 (1024 + ch)) 1
    | .mfcReject => (d.notedMf env ch m).count (ckey 8 (512 + ch)) 1
    | .authFail =>
      (((d.notedMf env ch m).count (ckey 8 ch) 1).emit (.pulse 9 ch)).updKeys fun k =>
        { k with failAt := some env.now, chan := k.chan.upd .reset ch fun c => { c with failSince := c.failSince + 1 } }
    | .accepted =>
      ((d.notedMf env ch m).updKey ch fun c => c.put m.kp ((c.at_ m.kp).map fun k => { k with rxLast := some m.mfc.toNat })).updChan ch fun c => { c with mfc := m.mfc.toNat }
    | _ => d.notedMf env ch m := by
  unfold Dev.checkMf Dev.notedMf
  rfl

theorem Dev.checkMf_keyChan_other (d : Dev) (env : Env) {ch b : Nat} (m : MfReport) (hb : b ≠ ch) : (d.checkMf env ch m).keyChan b = d.keyChan b := by
  have hnoted := Dev.notedMf_keyChan_other d env m hb
  rw [Dev.checkMf_eq, ← hnoted]
  generalize d.notedMf env ch m = x
  cases d.mfOutcome env ch m with
  | skipped => rfl
  | delivered => rfl
  | zeros => rfl
  | noKey => rfl
  | mfcReject => rfl
  | authFail => exact Tbl.get_upd_other KeyChan.reset x.key.chan ch b (fun c => { c with failSince := c.failSince + 1 }) hb
  | accepted => exact Dev.updKey_other x ch b _ hb

/-- An accepted multiframe's MFC is the last of its slot. -/
theorem Dev.checkMf_accepted {d : Dev} {env : Env} {ch : Nat} {m : MfReport} {k : KeySlot} (h : d.mfOutcome env ch m = .accepted) (hk : (d.keyChan ch).at_ m.kp = some k) :
    ((d.checkMf env ch m).keyChan ch).at_ m.kp = some { k with rxLast := some m.mfc.toNat } := by
  obtain ⟨a, b, hab⟩ := Dev.notedMf_keyChan d env ch m
  rw [Dev.checkMf_eq, h]
  dsimp only
  refine (congrArg (fun c : KeyChan => c.at_ m.kp) (Dev.updKey_same _ _ _)).trans ?_
  rw [KeyChan.put_at, hab]
  exact congrArg (Option.map _) hk

/-- No failure is noted where the tag was not at fault. -/
theorem Dev.checkMf_failSince {d : Dev} {env : Env} {ch : Nat} {m : MfReport} (h : d.mfOutcome env ch m ≠ .authFail) :
    ((d.checkMf env ch m).keyChan ch).failSince = (d.keyChan ch).failSince := by
  obtain ⟨a, b, hab⟩ := Dev.notedMf_keyChan d env ch m
  have hnoted : ((d.notedMf env ch m).keyChan ch).failSince = (d.keyChan ch).failSince := by rw [hab]
  have hput : ∀ (c : KeyChan) (s : Nat) (v : Option KeySlot), (c.put s v).failSince = c.failSince := fun c s v => by
    unfold KeyChan.put; split <;> rfl
  rw [Dev.checkMf_eq, ← hnoted]
  generalize d.notedMf env ch m = x
  cases ho : d.mfOutcome env ch m with
  | skipped => rfl
  | delivered => rfl
  | zeros => rfl
  | noKey => rfl
  | mfcReject => rfl
  | authFail => exact absurd ho h
  | accepted => exact (congrArg KeyChan.failSince (Dev.updKey_same _ _ _)).trans (hput _ _ _)

/-- One multiframe, with nothing to report. -/
theorem authCheck_of_one {d : Dev} {env : Env} {ch : Nat} {m : MfReport} (hch : ch < 512) (ho : d.domOn (domCarrier (ch / 128)) = true)
    (hs : ch % 128 < d.rxSlots (ch / 128)) (hi : d.interop (ch / 128) = false) (hf : (d.keyChan ch).failSince = 0) (hm : d.mfOutcome env ch m ≠ .authFail) :
    authCheck env ch [m] d = d.checkMf env ch m := by
  have hon : (List.zip (eventChans ch [m].length) [m]).filter (fun x => d.domOn (domCarrier (x.1 / 128)) && decide (x.1 % 128 < d.rxSlots (x.1 / 128)) && !d.interop (x.1 / 128)) =
      [(ch, m)] := by
    rw [List.length_singleton, eventChans_one hch]
    simp [ho, hs, hi]
  have hdue : ([ch].filter fun c => ((d.checkMf env ch m).keyChan c).failDue env.now) = [] := by
    have hnone : ((d.checkMf env ch m).keyChan ch).failDue env.now = false := by simp [KeyChan.failDue, Dev.checkMf_failSince hm, hf]
    simp [hnone]
  unfold authCheck
  dsimp only
  rw [hon]
  simp only [List.foldl_cons, List.foldl_nil, List.map_cons, List.map_nil, hdue, Dev.groupChans]

/-- Settles O47. -/
theorem cipherEvents : Obligations.CipherEvents := by
  unfold Obligations.CipherEvents
  refine ⟨fun s ch => ⟨?_, ?_, ?_, ?_, ?_⟩, fun d env ch m hn => ⟨?_, ?_, ?_, ?_, ?_, ?_, ?_⟩⟩
  · exact fun t k ht hk hnear => exec_of_onDev rfl (nearLimit_of_one (env := s.env) ch.isLt ht hk hnear)
  · exact fun t k ht hk hr => exec_of_onDev rfl (keyExpiry_of_one (env := s.env) ch.isLt ht hk hr)
  · exact fun m ho hs hi hf hm => exec_of_onDev rfl (authCheck_of_one (env := s.env) ch.isLt ho hs hi hf hm)
  · exact fun sl word => exec_of_onDev rfl rfl
  · exact fun k word => exec_of_onDev rfl rfl
  · exact fun hm he => (Dev.mfOutcome_of_clear hn hm).trans (if_pos he)
  · exact fun hm he => (Dev.mfOutcome_of_clear hn hm).trans (if_neg he)
  · exact fun hm he => Dev.mfOutcome_of_unexpected hn hm he
  · exact fun hm he hk => Dev.mfOutcome_of_noKey hn hm he hk
  · exact fun k hm he hk hr => Dev.mfOutcome_of_stale hn hm he hk hr
  · intro h
    obtain ⟨henc, k, hk, htag, hlast, hstart⟩ := Dev.mfOutcome_accepted h
    exact ⟨henc, k, hk, htag, hlast, hstart, Dev.checkMf_accepted h hk⟩
  · exact fun b hb => Dev.checkMf_keyChan_other d env m hb

end Sys2Proof.Machine
end

section
/-! Memory-to-memory crypto jobs (chapter 14). -/

namespace Sys2Proof.Machine

/-! ### CMD_CRYPTO_JOB -/

theorem cryptoJob_of_badField {d : Dev} {e : CmdEntry} {k : Nat} (h : cjField e = some k) : cryptoJob e d = .refuse .badParam k := by
  simp only [cryptoJob, h]

/-- The key that the job's slot holds (R355). -/
abbrev cjKey (d : Dev) (e : CmdEntry) : JobKey := d.key.job.get ⟨[], 0, 0, 0, 0⟩ (cjSlot e)

section
variable {d : Dev} {e : CmdEntry} (hf : cjField e = none)
include hf

theorem cryptoJob_of_off (ho : d.domOn domCrypto = false) : cryptoJob e d = .refuse .domainOff 0 := by
  simp only [cryptoJob, hf, ho, Bool.not_false, if_true]

variable (ho : d.domOn domCrypto = true)
include ho

theorem cryptoJob_of_noKey (hk : (d.key.job.map (·.1)).contains (cjSlot e) = false) : cryptoJob e d = .refuse .sequence 0 := by
  simp only [cryptoJob, hf, ho, hk, Bool.not_true, Bool.not_false, Bool.false_eq_true, if_false, if_true]

variable (hk : (d.key.job.map (·.1)).contains (cjSlot e) = true) (ha : cjAuto e = false) (hr : ∀ r ∈ cjRegions e, r.1 + r.2.1 ≤ jobArea)
  (hov : overlapOf (cjChecked e) = none) (hid : ∀ j ∈ d.key.jobs, j.id ≠ u8 e 0)
include hk ha hr hov hid

/-- A job that all checks pass is queued where its queue has room (R355, R356). -/
theorem cryptoJob_of_checked : cryptoJob e d =
    if (if cjUrgent e then 2 else 8) ≤ (if cjUrgent e then d.key.urgent.length else d.key.normal.length) then .refuse .busy 0
    else .done [] (d.updKeys fun x =>
      if cjUrgent e then { x with urgent := x.urgent ++ [jobOf e (cjKey d e)] } else { x with normal := x.normal ++ [jobOf e (cjKey d e)] }) := by
  have hfind : ((cjRegions e).find? fun r => decide (jobArea < r.1 + r.2.1)) = none :=
    List.find?_eq_none.mpr fun r hmem => by rw [decide_eq_true_eq]; exact Nat.not_lt.mpr (hr r hmem)
  have hany : (d.key.jobs.any fun j => decide (j.id = u8 e 0)) = false := List.any_eq_false.mpr fun j hj => by rw [decide_eq_true_eq]; exact hid j hj
  simp only [cryptoJob, hf, ho, hk, ha, hfind, hov, hany, Bool.not_true, Bool.false_and, Bool.false_eq_true, if_false]

theorem cryptoJob_of_full (hu : cjUrgent e = false) (hn : 8 ≤ d.key.normal.length) : cryptoJob e d = .refuse .busy 0 := by
  rw [cryptoJob_of_checked hf ho hk ha hr hov hid, hu]; exact if_pos hn

theorem cryptoJob_of_normal (hu : cjUrgent e = false) (hn : d.key.normal.length < 8) :
    cryptoJob e d = .done [] (d.updKeys fun x => { x with normal := x.normal ++ [jobOf e (cjKey d e)] }) := by
  rw [cryptoJob_of_checked hf ho hk ha hr hov hid, hu]; exact if_neg (Nat.not_le.mpr hn)

theorem cryptoJob_of_urgent (hu : cjUrgent e = true) (hn : d.key.urgent.length < 2) :
    cryptoJob e d = .done [] (d.updKeys fun x => { x with urgent := x.urgent ++ [jobOf e (cjKey d e)] }) := by
  rw [cryptoJob_of_checked hf ho hk ha hr hov hid, hu]; exact if_neg (Nat.not_le.mpr hn)

end

/-! ### CMD_CRYPTO_CANCEL -/

theorem cryptoCancel_of_unknown {d : Dev} {e : CmdEntry} (env : Env) (h : ∀ j ∈ d.key.jobs, j.id ≠ u8 e 0) : cryptoCancel env e d = .refuse .badParam 8 := by
  have hnone : ∀ js : List Job, (∀ j ∈ js, j ∈ d.key.jobs) → js.find? (fun j => decide (j.id = u8 e 0)) = none := fun js hjs =>
    List.find?_eq_none.mpr fun j hj => by rw [decide_eq_true_eq]; exact h j (hjs j hj)
  have hstarted := hnone (d.key.running.toList ++ d.key.suspended.toList) fun j hj => List.mem_append_left _ (List.mem_append_left _ hj)
  have hqueued := hnone (d.key.urgent ++ d.key.normal) fun j hj => by
    unfold Keys.jobs; rw [List.append_assoc]; exact List.mem_append_right _ hj
  simp only [cryptoCancel, hstarted, hqueued, badField]

theorem cryptoCancel_of_waiting {d : Dev} {e : CmdEntry} {j : Job} (env : Env)
    (hs : (d.key.running.toList ++ d.key.suspended.toList).find? (fun j => decide (j.id = u8 e 0)) = none)
    (hq : (d.key.urgent ++ d.key.normal).find? (fun j => decide (j.id = u8 e 0)) = some j) :
    cryptoCancel env e d = .done [] ((d.updKeys fun k =>
      { k with
        urgent := k.urgent.filter fun j => !decide (j.id = u8 e 0), normal := k.normal.filter fun j => !decide (j.id = u8 e 0) }).jobDone env j .state true 0 []) := by
  simp only [cryptoCancel, hs, hq]

/-! ### The engine takes up its work -/

section
variable {d : Dev} (env : Env) (ho : d.domOn domCrypto = true)
include ho

theorem jobStart_of_preempting {r u : Job} {us : List Job} (hr : d.key.running = some r) (hn : r.urgent = false) (hu : d.key.urgent = u :: us) :
    jobStart env d = (d.updKeys fun k => { k with suspended := some r, urgent := us }).jobStart env u := by
  simp only [jobStart, ho, hr, hu, hn, Bool.not_true, Bool.false_eq_true, if_false]

theorem jobStart_of_suspended {r : Job} (hr : d.key.running = none) (hu : d.key.urgent = []) (hs : d.key.suspended = some r) :
    jobStart env d = d.updKeys fun k => { k with running := some r, suspended := none } := by
  simp only [jobStart, ho, hr, hu, hs, Bool.not_true, Bool.false_eq_true, if_false]

theorem jobStart_of_normal {n : Job} {ns : List Job} (hr : d.key.running = none) (hu : d.key.urgent = []) (hs : d.key.suspended = none) (hn : d.key.normal = n :: ns) :
    jobStart env d = (d.updKeys fun k => { k with normal := ns }).jobStart env n := by
  simp only [jobStart, ho, hr, hu, hs, hn, Bool.not_true, Bool.false_eq_true, if_false]

end

theorem jobEnd_of_running {d : Dev} {j : Job} (env : Env) (bad : Bool) (h : d.key.running = some j) :
    jobEnd env bad d = if bad then (d.updKeys fun k => { k with running := none }).jobStop env j .internal false
      else (d.updKeys fun k => { k with running := none }).jobDone env j j.outcome.1 false j.len j.outcome.2 := by
  simp only [jobEnd, h]

/-- Settles O48. -/
theorem cryptoJobs : Obligations.CryptoJobs := by
  unfold Obligations.CryptoJobs
  intro s
  refine ⟨fun e s1 => ⟨?_, ?_, ?_⟩, fun ho => ⟨?_, ?_, ?_⟩, fun j hj => ⟨?_, ?_⟩⟩
  · intro h
    refine ⟨fun k hk => ?_, fun hf ho => ?_, fun hf ho hk => ?_, fun hf ho hk ha hr hov hid => ⟨fun hu hn => ?_, fun hu hn => ?_, fun hu hn => ?_⟩⟩
    · exact h.refuses rfl (cryptoJob_of_badField hk)
    · exact h.refuses rfl (cryptoJob_of_off hf ho)
    · exact h.refuses rfl (cryptoJob_of_noKey hf ho hk)
    · exact h.refuses rfl (cryptoJob_of_full hf ho hk ha hr hov hid hu hn)
    · exact h.completes rfl (cryptoJob_of_normal hf ho hk ha hr hov hid hu hn)
    · exact h.completes rfl (cryptoJob_of_urgent hf ho hk ha hr hov hid hu hn)
  · exact fun h hid => h.refuses rfl (cryptoCancel_of_unknown s.env hid)
  · exact fun j h hs hq => h.completes rfl (cryptoCancel_of_waiting s.env hs hq)
  · exact fun r u us hr hn hu => exec_of_onDev rfl (jobStart_of_preempting s.env ho hr hn hu)
  · exact fun r hr hu hs => exec_of_onDev rfl (jobStart_of_suspended s.env ho hr hu hs)
  · exact fun n ns hr hu hs hn => exec_of_onDev rfl (jobStart_of_normal s.env ho hr hu hs hn)
  · exact exec_of_onDev rfl ((jobEnd_of_running s.env false hj).trans (if_neg Bool.false_ne_true))
  · exact exec_of_onDev rfl ((jobEnd_of_running s.env true hj).trans (if_pos rfl))

end Sys2Proof.Machine
end

section
/-! The commands of hosted engine programs (chapter 15). -/

namespace Sys2Proof.Machine

/-! ### Loading -/

/-- The image that CMD_ENG_LOAD copies (R374). -/
abbrev loadedImage (env : Env) (e : CmdEntry) : List Byte := env.mem.readAll (0x3C000000 + u32 e 4) (min (u32 e 8) 0x2000000)

section
variable {d : Dev} {env : Env} {e : CmdEntry}

theorem engLoad_of_taken (h : (d.prog (u8 e 0)).isSome = true) : engLoad env e d = .refuse .badParam 8 := if_pos h

variable (hp : d.prog (u8 e 0) = none)
include hp

theorem engLoad_of_misaligned (ha : u32 e 4 % 4096 ≠ 0) : engLoad env e d = .refuse .badParam 12 := (if_neg (by rw [hp]; decide)).trans (if_pos ha)

variable (ha : u32 e 4 % 4096 = 0)
include ha

theorem engLoad_of_badLength (hl : 0x2000000 < u32 e 4 + u32 e 8 ∨ u32 e 8 ≠ fieldAt (loadedImage env e) 12 4) : engLoad env e d = .refuse .badParam 16 :=
  (if_neg (by rw [hp]; decide)).trans ((if_neg (not_not_intro ha)).trans (if_pos hl))

variable (hmax : u32 e 4 + u32 e 8 ≤ 0x2000000) (hl : u32 e 8 = fieldAt (loadedImage env e) 12 4)
include hmax hl

/-- What decides on an image that lies in the staging area and has its stated length (R375). -/
theorem engLoad_of_image : engLoad env e d = match hdrRange (loadedImage env e) with
    | some o => .refuse .badParam (0x1000 + o)
    | none => match hdrRelation (loadedImage env e) with
      | some o => .refuse .badParam (0x1000 + o)
      | none => match d.signerKey (fieldAt (loadedImage env e) 5 1) with
        | none => .refuse .authFail 0
        | some key =>
          if !Config.pssOk key ((loadedImage env e).take 128 ++ (loadedImage env e).drop 512) (((loadedImage env e).drop 128).take 384) then .refuse .authFail 0
          else if fieldAt (loadedImage env e) 8 4 < d.nv.engMin.get 0 (fieldAt (loadedImage env e) 5 1) then .refuse .fuse 0
          else if storeBytes < sumBy (fun kv => kv.2.len) d.eng.prog + u32 e 8 then .refuse .busy 0
          else .done (leBytes 4 (progOf (loadedImage env e)).svn ++ leBytes 4 (progOf (loadedImage env e)).signer ++ (progOf (loadedImage env e)).digest.take 16)
            ([0, 1, 2].foldl (fun d k => d.restartCounter (ctrProg k (u8 e 0)))
              { d with eng := { d.eng with prog := d.eng.prog.set (u8 e 0) (progOf (loadedImage env e)) } }) :=
  (if_neg (by rw [hp]; decide)).trans ((if_neg (not_not_intro ha)).trans (if_neg (not_or.mpr ⟨Nat.not_lt.mpr hmax, not_not_intro hl⟩)))

theorem engLoad_of_badHeader {o : Nat} (ho : hdrRange (loadedImage env e) = some o) : engLoad env e d = .refuse .badParam (0x1000 + o) := by
  rw [engLoad_of_image hp ha hmax hl, ho]

variable {key : List Byte} (hr : hdrRange (loadedImage env e) = none) (hrel : hdrRelation (loadedImage env e) = none)
  (hk : d.signerKey (fieldAt (loadedImage env e) 5 1) = some key)
include hr hrel hk

theorem engLoad_of_badSignature
    (hs : Config.pssOk key ((loadedImage env e).take 128 ++ (loadedImage env e).drop 512) (((loadedImage env e).drop 128).take 384) = false) :
    engLoad env e d = .refuse .authFail 0 := by
  rw [engLoad_of_image hp ha hmax hl, hr, hrel, hk]; dsimp only; rw [hs]; rfl

variable (hs : Config.pssOk key ((loadedImage env e).take 128 ++ (loadedImage env e).drop 512) (((loadedImage env e).drop 128).take 384) = true)
include hs

theorem engLoad_of_oldVersion (hv : fieldAt (loadedImage env e) 8 4 < d.nv.engMin.get 0 (fieldAt (loadedImage env e) 5 1)) : engLoad env e d = .refuse .fuse 0 := by
  rw [engLoad_of_image hp ha hmax hl, hr, hrel, hk]; dsimp only; rw [hs]; exact if_pos hv

theorem engLoad_of_good (hv : d.nv.engMin.get 0 (fieldAt (loadedImage env e) 5 1) ≤ fieldAt (loadedImage env e) 8 4)
    (hroom : sumBy (fun kv => kv.2.len) d.eng.prog + u32 e 8 ≤ storeBytes) :
    engLoad env e d = .done (leBytes 4 (progOf (loadedImage env e)).svn ++ leBytes 4 (progOf (loadedImage env e)).signer ++ (progOf (loadedImage env e)).digest.take 16)
      ([0, 1, 2].foldl (fun d k => d.restartCounter (ctrProg k (u8 e 0)))
        { d with eng := { d.eng with prog := d.eng.prog.set (u8 e 0) (progOf (loadedImage env e)) } }) := by
  rw [engLoad_of_image hp ha hmax hl, hr, hrel, hk]; dsimp only; rw [hs]
  exact (if_neg (Nat.not_lt.mpr hv)).trans (if_neg (Nat.not_lt.mpr hroom))

end

/-! ### Starting -/

/-- A walk that leaves the programs at every step leaves them. -/
theorem foldl_progTable {α : Type} {f : Dev → α → Dev} (hf : ∀ d a, (f d a).eng.prog = d.eng.prog) (as : List α) : ∀ d : Dev, (as.foldl f d).eng.prog = d.eng.prog := by
  induction as with
  | nil => exact fun _ => rfl
  | cons a as ih => intro d; rw [List.foldl_cons, ih, hf]

theorem Dev.loadImage_progTable (d : Dev) (p : Prog) (k : Nat) (engs pages : List Nat) : (d.loadImage p k engs pages).eng.prog = d.eng.prog := by
  have hpage : ∀ (d : Dev) (u q : Nat) (bs : List Byte), (d.setPage u q bs).eng.prog = d.eng.prog := fun _ _ _ _ => rfl
  have hlocal : ∀ (d : Dev) (u : Nat) (bs : List Byte), (d.setLocal u bs).eng.prog = d.eng.prog := fun _ _ _ => rfl
  refine (foldl_progTable (fun d x => hpage d k x.1 _) pages.zipIdx _).trans ?_
  exact foldl_progTable (fun d e => hlocal d (16 * k + e) _) engs _

theorem Dev.prog_of_table {d d' : Dev} (h : d'.eng.prog = d.eng.prog) (k : Nat) : d'.prog k = d.prog k := by
  unfold Dev.prog; rw [h]

theorem Dev.updProg_of_prog {d : Dev} {h : Nat} {p : Prog} (f : Prog → Prog) (hp : d.prog h = some p) :
    d.updProg h f = { d with eng := { d.eng with prog := d.eng.prog.set h (f p) } } := by
  unfold Dev.updProg; rw [hp]

theorem Dev.updProg_congr {d : Dev} {h : Nat} {p : Prog} {f g : Prog → Prog} (hp : d.prog h = some p) (hfg : f p = g p) : d.updProg h f = d.updProg h g := by
  rw [Dev.updProg_of_prog f hp, Dev.updProg_of_prog g hp, hfg]

/-- A placement that asks for no permission and no output window (R377). -/
def Prog.startedPlain (k : Nat) (engs free : List Nat) (arg : Nat) (p : Prog) : Prog :=
  { p with
    st := .running, cluster := k, engs := engs, shared := free.take p.pages, perm := 0, cntMask := 0, arg := arg, out := none, spill := [], records := 0, inbox := [], userTimes := [] }

section
variable {d : Dev} {env : Env} {e : CmdEntry} (hk : u8 e 1 ≤ 15) (hs : d.inService = true)
include hk hs

theorem engStart_of_empty (hp : d.prog (u8 e 0) = none) : engStart env e d = .refuse .sequence 0 := by
  have h15 : ¬ 15 < u8 e 1 := Nat.not_lt.mpr hk
  simp only [engStart, h15, false_and, if_false, hs, Bool.not_true, Bool.false_eq_true, hp]

variable {p : Prog} (hp : d.prog (u8 e 0) = some p)
include hp

theorem engStart_of_placed (hpl : p.placed = true) : engStart env e d = .refuse .state 0 := by
  have h15 : ¬ 15 < u8 e 1 := Nat.not_lt.mpr hk
  simp only [engStart, h15, false_and, if_false, hs, Bool.not_true, Bool.false_eq_true, hp, hpl, if_true]

variable (hpl : p.placed = false)
include hpl

theorem engStart_of_masked (hm : bitAt env.mask (u8 e 1) = false) : engStart env e d = .refuse .badParam 9 := by
  have h15 : ¬ 15 < u8 e 1 := Nat.not_lt.mpr hk
  have hff : u8 e 1 ≠ 0xFF := by omega
  simp only [engStart, h15, false_and, if_false, hs, Bool.not_true, Bool.false_eq_true, hp, hpl, hm, hff, ne_eq, not_false_eq_true, and_self, if_true, badField]

variable (hm : bitAt env.mask (u8 e 1) = true)
include hm

theorem engStart_of_badCount (hn : u8 e 2 < p.engMin ∨ p.engMax < u8 e 2) : engStart env e d = .refuse .badParam 10 := by
  have h15 : ¬ 15 < u8 e 1 := Nat.not_lt.mpr hk
  simp only [engStart, h15, false_and, if_false, hs, Bool.not_true, Bool.false_eq_true, hp, hpl, hm, Bool.true_eq_false, and_false, hn, if_true, badField]

variable (hmin : p.engMin ≤ u8 e 2) (hmax : u8 e 2 ≤ p.engMax) (h0 : u32 e 4 = 0) (hc : u16 e 8 = 0) (hout : p.outMib = 0)
  (ho : d.domOn (domCluster (u8 e 1)) = true) (hroom : d.hasRoom p (u8 e 2) (u8 e 1) = true) (hsp : d.spillUsed + p.spillMib ≤ 2048)
include hmin hmax h0 hc hout ho hroom hsp

/-- A start on a named cluster with room, for a program that asks for no permission, turns on its image (R377). -/
theorem engStart_of_fit : engStart env e d =
    if !p.intact then .fail .authFail 0 { d with eng := { d.eng with prog := d.eng.prog.drop (u8 e 0) } }
    else .done [] ((d.loadImage p (u8 e 1) ((d.freeEngines (u8 e 1)).take (u8 e 2)) ((d.freePages (u8 e 1)).take p.pages)).updProg (u8 e 0)
      (Prog.startedPlain (u8 e 1) ((d.freeEngines (u8 e 1)).take (u8 e 2)) (d.freePages (u8 e 1)) (fieldAt (payload e) 12 8))) := by
  have h15 : ¬ 15 < u8 e 1 := Nat.not_lt.mpr hk
  have hff : u8 e 1 ≠ 0xFF := by omega
  have hcluster : d.startCluster env e p = some (u8 e 1) := (if_neg hff).trans (if_pos hroom)
  have hn : ¬ (u8 e 2 < p.engMin ∨ p.engMax < u8 e 2) := by omega
  have hgrant : ([0, 1, 2, 3].any fun n => bitAt 0 n && d.txTableGranted n 0) = false := rfl
  have hload := (Dev.prog_of_table (Dev.loadImage_progTable d p (u8 e 1) ((d.freeEngines (u8 e 1)).take (u8 e 2)) ((d.freePages (u8 e 1)).take p.pages)) (u8 e 0)).trans hp
  simp only [engStart, h15, false_and, if_false, hs, Bool.not_true, Bool.false_eq_true, hp, hpl, hm, Bool.true_eq_false, and_false, hn, h0, hc, Nat.zero_sub, ne_eq,
    not_true_eq_false, ho, hcluster, hgrant, hout, Nat.lt_irrefl, decide_false, Bool.false_and, Bool.false_or, Nat.not_lt.mpr hsp]
  refine congrArg (fun x => ite _ _ (CmdRes.done [] x)) (Dev.updProg_congr hload ?_)
  simp only [Prog.startedPlain, hout, if_true]

theorem engStart_of_intact (hi : p.intact = true) : engStart env e d =
    .done [] ((d.loadImage p (u8 e 1) ((d.freeEngines (u8 e 1)).take (u8 e 2)) ((d.freePages (u8 e 1)).take p.pages)).updProg (u8 e 0)
      (Prog.startedPlain (u8 e 1) ((d.freeEngines (u8 e 1)).take (u8 e 2)) (d.freePages (u8 e 1)) (fieldAt (payload e) 12 8))) := by
  rw [engStart_of_fit hk hs hp hpl hm hmin hmax h0 hc hout ho hroom hsp, hi]; rfl

theorem engStart_of_corrupt (hi : Config.sha256 p.image ≠ p.digest) :
    engStart env e d = .fail .authFail 0 { d with eng := { d.eng with prog := d.eng.prog.drop (u8 e 0) } } := by
  have hint : p.intact = false := by unfold Prog.intact; rw [decide_eq_false hi]; exact Bool.and_false _
  rw [engStart_of_fit hk hs hp hpl hm hmin hmax h0 hc hout ho hroom hsp, hint]; rfl

end

/-! ### Stopping, messages, status -/

section
variable {d : Dev} {e : CmdEntry}

theorem engStop_of_empty (hp : d.prog (u8 e 0) = none) : engStop e d = .refuse .sequence 0 := by
  simp only [engStop, hp]

theorem engStop_of_prog {p : Prog} (hp : d.prog (u8 e 0) = some p) :
    engStop e d = if p.placed then .start (p.tileMax * 5 / 4) (d.updProg (u8 e 0) fun p => { p with st := .stopping }) else .done [] d := by
  simp only [engStop, hp]

theorem engMsg_of_empty (hp : d.prog (u8 e 0) = none) : engMsg e d = .refuse .state 0 := by
  have hruns : d.progRuns (u8 e 0) = d := by unfold Dev.progRuns; rw [hp]
  simp only [engMsg, hruns, hp]

theorem engMsg_of_running {p : Prog} (hp : (d.progRuns (u8 e 0)).prog (u8 e 0) = some p) (hst : p.st = .running) (hn : p.inbox.length < 4) :
    engMsg e d = .done [] ((d.progRuns (u8 e 0)).updProg (u8 e 0) fun p => { p with inbox := p.inbox ++ [(payload e).drop 1] }) := by
  simp only [engMsg, hp, hst, Nat.not_le.mpr hn, ne_eq, not_true_eq_false, if_false]

end

theorem ProgState.code_lt (x : ProgState) : x.code < 2 ^ 3 := by cases x <;> decide

theorem engStatus_fields {h : Nat} {d : Dev} {p : Prog} (hp : d.prog h = some p) : let r := leNat (engStatus h d)
    bitsAt r 0 3 = p.st.code ∧ bitsAt r 3 4 = p.fault % 16 ∧ bitsAt r 24 8 = p.signer % 256 ∧ bitsAt r 32 32 = p.svn % 2 ^ 32 := by
  simp only [engStatus, hp]
  refine ⟨?_, ?_, ?_, ?_⟩
  · exact (bitsAt_resultBits (fs := []) rfl rfl (by decide)).trans (Nat.mod_eq_of_lt (ProgState.code_lt _))
  · exact bitsAt_resultBits (fs := [_]) rfl rfl (by decide)
  · exact bitsAt_resultBits (fs := [_, _, _, _, _, _]) rfl rfl (by decide)
  · exact bitsAt_resultBits (fs := [_, _, _, _, _, _, _]) rfl rfl (by decide)

theorem Dev.engClock_lt (d : Dev) : d.engClock < 2 ^ 16 := by
  unfold Dev.engClock
  refine Nat.lt_of_le_of_lt (Nat.div_le_self _ _) ?_
  split <;> decide

/-- The entry of one cluster in the array's status (Table 15-9). -/
def clusterFields (d : Dev) (k : Nat) : List (Nat × Nat) :=
  [(5, (d.sysUse k).1), (5, (d.hostedUse k).1), (6, (d.room k).2), (2, (d.domState (domCluster k)).code), (6, 0)]

theorem clusterFields_width (d : Dev) (ks : List Nat) : fieldsWidth (ks.flatMap (clusterFields d)) = 24 * ks.length := by
  induction ks with
  | nil => rfl
  | cons k ks ih =>
    rw [List.flatMap_cons, fieldsWidth_append, ih, List.length_cons]
    exact (Nat.add_comm _ _).trans (Nat.mul_succ 24 _).symm

theorem engArray_eq (d : Dev) : engArray d = resultBits ((List.range 16).flatMap (clusterFields d) ++ [(16, d.engClock), (16, d.eng.faults)]) := rfl

theorem engArray_fields (d : Dev) : let r := leNat (engArray d)
    bitsAt r 0 5 = (d.sysUse 0).1 % 32 ∧ bitsAt r 5 5 = (d.hostedUse 0).1 % 32 ∧ bitsAt r 16 2 = (d.domState (domCluster 0)).code % 4 ∧ bitsAt r 384 16 = d.engClock := by
  have hfirst : (List.range 16).flatMap (clusterFields d) = clusterFields d 0 ++ (List.range' 1 15).flatMap (clusterFields d) := by
    rw [List.range_eq_range', List.range'_succ, List.flatMap_cons]
  refine ⟨?_, ?_, ?_, ?_⟩
  · rw [engArray_eq, hfirst]
    exact bitsAt_resultBits (fs := []) rfl rfl (by decide)
  · rw [engArray_eq, hfirst]
    exact bitsAt_resultBits (fs := [_]) rfl rfl (by decide)
  · rw [engArray_eq, hfirst]
    exact bitsAt_resultBits (fs := [_, _, _]) rfl rfl (by decide)
  · have hwidth : fieldsWidth ((List.range 16).flatMap (clusterFields d)) = 384 := clusterFields_width d (List.range 16)
    rw [engArray_eq]
    exact (bitsAt_resultBits rfl hwidth (by decide)).trans (Nat.mod_eq_of_lt d.engClock_lt)

/-- Settles O49. -/
theorem engineCommands : Obligations.EngineCommands := by
  unfold Obligations.EngineCommands
  intro e s s1
  refine ⟨?_, ?_, ?_, ?_, ?_, ?_, ?_, ?_, ?_⟩
  · intro h
    refine ⟨fun hp => ?_, fun hp ha => ?_, fun hp ha hl => ?_, fun hp ha hmax hl => ⟨fun o ho => ?_, fun key hr hrel hk => ⟨fun hs => ?_, fun hs => ⟨fun hv => ?_, fun hv hroom => ?_⟩⟩⟩⟩
    · exact h.refuses rfl (engLoad_of_taken (env := s.env) hp)
    · exact h.refuses rfl (engLoad_of_misaligned (env := s.env) hp ha)
    · exact h.refuses rfl (engLoad_of_badLength (env := s.env) hp ha hl)
    · exact h.refuses rfl (engLoad_of_badHeader (env := s.env) hp ha hmax hl ho)
    · exact h.refuses rfl (engLoad_of_badSignature (env := s.env) hp ha hmax hl hr hrel hk hs)
    · exact h.refuses rfl (engLoad_of_oldVersion (env := s.env) hp ha hmax hl hr hrel hk hs hv)
    · exact h.completes rfl (engLoad_of_good (env := s.env) hp ha hmax hl hr hrel hk hs hv hroom)
  · intro h p hp hk hs
    refine ⟨fun hpl => ?_, fun hpl hm => ?_, fun hpl hm hn => ?_, fun hpl hm hmin hmax h0 hc hout hi ho hroom hsp => ?_⟩
    · exact h.refuses rfl (engStart_of_placed (env := s.env) hk hs hp hpl)
    · exact h.refuses rfl (engStart_of_masked (env := s.env) hk hs hp hpl hm)
    · exact h.refuses rfl (engStart_of_badCount (env := s.env) hk hs hp hpl hm hn)
    · exact h.completes rfl (engStart_of_intact (env := s.env) hk hs hp hpl hm hmin hmax h0 hc hout ho hroom hsp hi)
  · intro h p hp hk hs hpl hm hmin hmax h0 hc hout ho hroom hsp hi
    exact h.fails rfl (engStart_of_corrupt (env := s.env) hk hs hp hpl hm hmin hmax h0 hc hout ho hroom hsp hi)
  · exact fun h hk hs hp => h.refuses rfl (engStart_of_empty (env := s.env) hk hs hp)
  · intro h
    refine ⟨fun hp => ?_, fun p hp hpl => ?_, fun p hp hpl => ?_⟩
    · exact h.refuses rfl (engStop_of_empty hp)
    · exact h.completes rfl ((engStop_of_prog hp).trans (if_neg (Bool.eq_false_iff.mp hpl)))
    · exact h.starts rfl ((engStop_of_prog hp).trans (if_pos hpl))
  · exact fun h => ⟨fun hp => h.refuses rfl (if_pos hp), fun hp => h.completes rfl (if_neg (Bool.eq_false_iff.mp hp))⟩
  · exact fun h => ⟨fun hp => h.refuses rfl (engMsg_of_empty hp), fun p hp hst hn => h.completes rfl (engMsg_of_running hp hst hn)⟩
  · exact fun h => ⟨_, h.completes rfl rfl, fun p hp => engStatus_fields hp⟩
  · exact fun h => ⟨_, h.completes rfl rfl, engArray_fields s.dev⟩

end Sys2Proof.Machine
end

section
/-! Faults, stops, captures and grants of engine programs (chapter 15). -/

namespace Sys2Proof.Machine

/-! ### Faults and stops of a hosted program -/

theorem progFaultAt_of_placed {d : Dev} {h cause pc : Nat} {p : Prog} (hp : d.prog h = some p) (hpl : p.placed = true) : d.progFaultAt h cause pc =
    (((((d.progRuns h).progRelease h).updProg h fun p => { p.released with st := .faulted, fault := cause, faultPc := pc }).countFault.emit
      (.event .engFault h 3 [(1, cause), (1, p.cluster), (4, pc)])).finish 0x0903 h .ok 0 []) := by
  simp only [Dev.progFaultAt, hp, hpl, if_true]

theorem Prog.placed_of_stopping {o : Option Prog} (h : o.any (fun p => decide (p.st = .stopping)) = true) : o.any Prog.placed = true := by
  cases o with
  | none => exact h
  | some p => exact decide_eq_true (.inr (of_decide_eq_true h))

theorem tileEndStop_of_stopping {d : Dev} {h : Nat} (hs : (d.prog h).any (fun p => decide (p.st = .stopping)) = true) : tileEndStop h d =
    ((((((d.progRuns h).progRelease h).zeroWindow h).updProg h fun p => { p.released with st := .loaded }).raise .engStopped h [(1, 0)]).finish 0x0903 h .ok 0 []) := by
  simp only [tileEndStop, hs, if_true, Dev.progStop, Prog.placed_of_stopping hs]
  rfl

/-! ### System runs -/

theorem Dev.placeFor_of_ready {d : Dev} {env : Env} (h : env.mbx = .ready) (p : SysProg) : d.placeFor env d.onClusters p = d.choose env.mask p := if_pos h

/-- The oldest waiting run that finds a cluster is placed there (R366). -/
theorem sysRunPlace_of_found {d : Dev} {env : Env} {r : SysRun} (hm : env.mbx = .ready)
    (hr : (d.runs.find? fun r => r.cluster.isNone && (d.choose env.mask r.prog).isSome) = some r) :
    sysRunPlace env d = (d.placeRun r.prog r.carrier (d.choose env.mask r.prog)).runStarted env r.prog r.carrier := by
  simp only [sysRunPlace, Dev.placeFor_of_ready hm, hr]

/-- No run is placed while MBX_STATE is not READY (R384, log entry 140). -/
theorem sysRunPlace_of_notReady {d : Dev} {env : Env} (hm : env.mbx ≠ .ready) : sysRunPlace env d = d := by
  have hnone : ∀ p : SysProg, d.placeFor env d.onClusters p = none := fun _ => if_neg hm
  simp only [sysRunPlace, hnone, Option.isSome_none, Bool.and_false, List.find?_eq_none.mpr (fun _ _ => Bool.false_ne_true)]

theorem sysRunWait_of_waiting {d : Dev} {row c : Nat} {r : SysRun} (hr : r ∈ d.runs) (hp : r.prog = sysRow row) (hc : r.carrier = c) (hk : r.cluster = none)
    (hw : r.warned = false) : sysRunWait row c d =
    { d with runs := d.runs.map fun r => if isRun (sysRow row) c r then { r with warned := true } else r }.raise .engSysWait (256 + row) [(1, row), (1, c)] :=
  if_pos (List.any_eq_true.mpr ⟨r, hr, by simp [isRun, hp, hc, hk, hw]⟩)

/-! ### Grants -/

section
variable {d : Dev} {h bit : Nat} {f : Dev → Dev} {p : Prog} (hp : d.prog h = some p) (hpl : p.placed = true)
include hp hpl

theorem Dev.withPerm_of_granted (hb : bitAt p.perm bit = true) : d.withPerm h bit f = f d := by
  simp only [Dev.withPerm, hp, hpl, hb, if_true]

theorem Dev.withPerm_of_denied (hb : bitAt p.perm bit = false) : d.withPerm h bit f = d.progFaultAt h 3 0 := by
  simp only [Dev.withPerm, hp, hpl, hb, if_true, Bool.false_eq_true, if_false]

end

/-! ### Captures -/

theorem captureSystem_of_free {d : Dev} {p : SysProg} {c n : Nat} (hl : d.locked n = true) (hc : d.eng.capture = []) :
    captureSystem p c n d = { d with eng := { d.eng with capture := d.eng.capture.set n (.system p c) } } := by
  simp only [captureSystem, hl, if_true, hc, List.find?_nil]

section
variable {d : Dev} {h n : Nat} {p : Prog} (hp : d.prog h = some p) (hpl : p.placed = true)
include hp hpl

theorem captureHosted_of_denied (hb : bitAt p.perm (4 + n) = false) : captureHosted h n d = d.progFaultAt h 3 0 := Dev.withPerm_of_denied hp hpl hb

variable (hb : bitAt p.perm (4 + n) = true)
include hb

theorem captureHosted_of_unlocked (hl : d.locked n = false) : captureHosted h n d = d.updProg h fun p => { p with answer := 2 } :=
  (Dev.withPerm_of_granted hp hpl hb).trans (if_neg (by rw [hl]; exact Bool.false_ne_true))

theorem captureHosted_of_free (hl : d.locked n = true) (hc : d.eng.capture = []) : captureHosted h n d =
    { d with eng := { d.eng with capture := d.eng.capture.set n (.hosted h) } }.updProg h fun p => { p with answer := 1 } :=
  (Dev.withPerm_of_granted hp hpl hb).trans (if_pos (by rw [hl, hc]; rfl))

end

theorem captureEnd_of_idle {d : Dev} {n : Nat} (hc : d.eng.capture = []) : captureEnd n d = d := by
  have hd : ({ d with eng := { d.eng with capture := [] } } : Dev) = d := by rw [← hc]
  simp only [captureEnd, hc, List.find?_nil, Option.bind_none]
  exact hd

theorem Dev.storeCapture_capture (d : Dev) (k : Nat) (pages : List Nat) : (d.storeCapture k pages).eng.capture = d.eng.capture := by
  have hpage : ∀ (d : Dev) (q : Nat) (bs : List Byte), (d.setPage k q bs).eng.capture = d.eng.capture := fun _ _ _ => rfl
  have hdraw : ∀ d : Dev, (d.drawBytes pageBytes).2.eng.capture = d.eng.capture := fun _ => rfl
  unfold Dev.storeCapture
  generalize pages.take 8 = qs
  induction qs generalizing d with
  | nil => rfl
  | cons q qs ih =>
    rw [List.foldl_cons, ih]
    exact (hpage _ q _).trans (hdraw d)

theorem Dev.capturePlace_hosted {d : Dev} {h : Nat} {p : Prog} (hp : d.prog h = some p) (hpl : p.placed = true) :
    d.capturePlace (.hosted h) = some (p.cluster, p.shared) := by
  simp only [Dev.capturePlace, hp, Option.bind_some, hpl, if_true]

theorem captureEnd_of_hosted {d : Dev} {h n : Nat} {p : Prog} (hc : d.eng.capture = [(n, .hosted h)]) (hp : d.prog h = some p) (hpl : p.placed = true) :
    captureEnd n d = { d.storeCapture p.cluster p.shared with eng := { (d.storeCapture p.cluster p.shared).eng with capture := [] } } := by
  have hfind : ([(n, Capture.hosted h)].find? fun kv => decide (kv.1 = n)) = some (n, Capture.hosted h) := List.find?_cons_of_pos (decide_eq_true rfl)
  have hdrop : Tbl.drop [(n, Capture.hosted h)] n = [] := by simp [Tbl.drop]
  simp only [captureEnd, hc, hfind, Option.bind_some, Dev.capturePlace_hosted hp hpl, Dev.storeCapture_capture, hdrop]

/-! ### Coefficient tables, counters, user events -/

section
variable {d : Dev} {h n : Nat} {es : List (Nat × BitVec 48)} {p : Prog} (hp : d.prog h = some p) (hpl : p.placed = true)
include hp hpl

theorem txCommit_of_nlc {new : CoefTable × Option (Option Nat)} (hb : bitAt p.perm n = true)
    (hnew : ((d.tx n).nlc.stage 0 es).commit ((d.tx n).nlc.stage 0 es).staged (some (16 * (h + 1) + p.cluster)) = new) : txCommit h n 0 es d =
    ((d.updTx n fun x => { x with nlc := new.1 }).countSuperseded new.2).updProg h fun p => { p with commits := (p.commits + 1) % 2 ^ 32 } := by
  subst hnew
  refine (Dev.withPerm_of_granted hp hpl hb).trans ?_
  simp only [hp, if_true]

theorem txCommit_of_taps {new : CoefTable × Option (Option Nat)} (hb : bitAt p.perm n = true)
    (hnew : ((d.tx n).taps.stage 1 es).commit ((d.tx n).taps.stage 1 es).staged (some (16 * (h + 1) + p.cluster)) = new) : txCommit h n 1 es d =
    ((d.updTx n fun x => { x with taps := new.1 }).countSuperseded new.2).updProg h fun p => { p with commits := (p.commits + 1) % 2 ^ 32 } := by
  subst hnew
  refine (Dev.withPerm_of_granted hp hpl hb).trans ?_
  simp only [hp, Nat.one_ne_zero, if_false]

theorem userRaise_of_first {env : Env} {bytes : List Byte} (hb : bitAt p.perm 9 = true) (hu : p.userTimes = []) (hr : 0 < env.par.nat pEngUserRate) :
    userRaise env h bytes d =
    (d.updProg h fun p => { p with userTimes := [env.now] }).raise .engUser h ((padTo 12 bytes).map fun b => (1, (b.toNat : Int))) := by
  refine (Dev.withPerm_of_granted hp hpl hb).trans ?_
  simp only [hp, hu, List.filter_nil, List.length_nil, hr, if_true]

end

section
variable {d : Dev} {env : Env} {h cid : Nat} {p : Prog} (hp : d.countersRun.prog h = some p) (hpl : p.placed = true)
include hp hpl

theorem counterRead_of_granted (hf : cid / 65536 < 16) (hb : bitAt p.cntMask (cid / 65536) = true) (hi : cid % 65536 < 2048) : counterRead env h cid d =
    d.countersRun.updProg h fun p => { p with
      answer := (d.countersRun.readCounter env.pcs (cid / 65536) (cid % 2048)).1 + 2 ^ 48 * b2n (d.countersRun.readCounter env.pcs (cid / 65536) (cid % 2048)).2.1 } := by
  simp only [counterRead, hp, hpl, hf, hb, hi, and_self, if_true, Bool.not_true, Bool.false_eq_true, if_false]

theorem counterRead_of_denied (hb : bitAt p.cntMask (cid / 65536) = false) : counterRead env h cid d =
    (d.countersRun.updProg h fun p => { p with answer := 0 }).count (ctrProg 2 h) 1 := by
  simp only [counterRead, hp, hpl, hb, false_and, and_false, Bool.not_true, Bool.false_eq_true, if_false]

end

/-- Settles O50. -/
theorem engineEvents : Obligations.EngineEvents := by
  unfold Obligations.EngineEvents
  intro s d
  refine ⟨?_, ?_, ?_, ?_, ?_, ?_, ?_, ?_, ?_, ?_, ?_, ?_, ?_, ?_, ?_⟩
  · exact fun h cause pc p hp hpl => exec_of_onDev rfl (progFaultAt_of_placed hp hpl)
  · exact fun h hs => exec_of_onDev rfl (tileEndStop_of_stopping hs)
  · exact fun hm r hr => exec_of_onDev rfl (sysRunPlace_of_found (env := s.env) hm hr)
  · exact fun hm => exec_of_onDev rfl (sysRunPlace_of_notReady (env := s.env) hm)
  · exact fun row c r hr hp hc hk hw => exec_of_onDev rfl (sysRunWait_of_waiting hr hp hc hk hw)
  · exact fun c row k hl hc => exec_of_onDev rfl (captureSystem_of_free hl hc)
  · exact fun c h p hp hpl hb => exec_of_onDev rfl (captureHosted_of_denied hp hpl hb)
  · exact fun c h p hp hpl hb hl => exec_of_onDev rfl (captureHosted_of_unlocked hp hpl hb hl)
  · exact fun c h p hp hpl hb hl hc => exec_of_onDev rfl (captureHosted_of_free hp hpl hb hl hc)
  · exact fun c hc => exec_of_onDev rfl (captureEnd_of_idle hc)
  · exact fun c h p hc hp hpl => exec_of_onDev rfl (captureEnd_of_hosted hc hp hpl)
  · exact fun h c es p hp hpl hb => ⟨exec_of_onDev rfl (txCommit_of_nlc hp hpl hb rfl), exec_of_onDev rfl (txCommit_of_taps hp hpl hb rfl)⟩
  · exact fun h cid p hp hpl hf hb hi => exec_of_onDev rfl (counterRead_of_granted (env := s.env) hp hpl hf hb hi)
  · exact fun h cid p hp hpl hb => exec_of_onDev rfl (counterRead_of_denied (env := s.env) hp hpl hb)
  · exact fun h bytes p hp hpl hb hu hr => exec_of_onDev rfl (userRaise_of_first (env := s.env) hp hpl hb hu hr)

end Sys2Proof.Machine
end

section
/-! Timing commands and events (chapter 16). -/

namespace Sys2Proof.Machine

/-- Consuming a command leaves what its rule may read beside the device. -/
theorem Runs.env_eq {f : CmdForm} {e : CmdEntry} {s s1 : State} (h : Runs f e s s1) : s1.env = s.env := by
  obtain ⟨-, hc, -⟩ := h
  obtain ⟨-, -, -, -, -, -, -, henv⟩ := s.consumed_spec s1 f.op (canonEntry e) hc
  exact henv

/-! ### References -/

section
variable {d : Dev} {env : Env} {e : CmdEntry}

theorem timRefCfg_of_noPrio (h : bitsAt (u8 e 2) 0 4 = 0) : timRefCfg env e d = .refuse .badParam 10 := if_pos h

theorem timRefCfg_of_badFreq (h : bitsAt (u8 e 2) 0 4 ≠ 0) (hf : u32 e 4 < 1000 ∨ 156250000 < u32 e 4) : timRefCfg env e d = .refuse .badParam 12 :=
  (if_neg h).trans (if_pos hf)

/-- An enabled reference keeps its frequency: its monitors go on (R402). -/
theorem timRefCfg_of_sameFreq {r : Nat} (hr : bitsAt (u8 e 0) 0 2 = r) (h : bitsAt (u8 e 2) 0 4 ≠ 0) (hlo : 1000 ≤ u32 e 4) (hhi : u32 e 4 ≤ 156250000)
    (hf : (d.timRef r).freq = u32 e 4) (hen : (d.timRef r).enable = true) (hb : bitAt (u8 e 1) 0 = true) : timRefCfg env e d =
    .done [] ((d.updRef r fun y =>
      { y with
        enable := true, prio := bitsAt (u8 e 2) 0 4, ql := bitsAt (u8 e 2) 4 4, freq := u32 e 4
        wtrEnd := if bitsAt (u8 e 2) 4 4 < y.ql ∨ bitsAt (u8 e 2) 0 4 < y.prio then none else y.wtrEnd }).timSelect env ((d.timRef r).eligible == false)) := by
  have hrange : ¬ (u32 e 4 < 1000 ∨ 156250000 < u32 e 4) := by omega
  subst hr
  refine (if_neg h).trans ((if_neg hrange).trans ?_)
  dsimp only
  simp only [hf, hen, hb, ne_eq, not_true_eq_false, Bool.not_true, Bool.false_eq_true, or_self, if_false]
  refine congrArg (fun g => CmdRes.done [] ((d.updRef (bitsAt (u8 e 0) 0 2) g).timSelect env ((d.timRef (bitsAt (u8 e 0) 0 2)).eligible == false))) (funext fun y => ?_)
  unfold TimRef.improved
  split <;> rfl

theorem timRefQl_eq : timRefQl env e d = .done [] ((d.updRef (u8 e 0) fun x => { x with ql := u8 e 1, wtrEnd := if u8 e 1 < x.ql then none else x.wtrEnd }).timSelect env
    ((d.timRef (u8 e 0)).eligible == false)) := by
  refine congrArg (fun g => CmdRes.done [] ((d.updRef (u8 e 0) g).timSelect env ((d.timRef (u8 e 0)).eligible == false))) (funext fun x => ?_)
  simp only [TimRef.improved, Nat.lt_irrefl, or_false]
  split <;> rfl

/-! ### Modes -/

theorem timSelectMode_of_unqualified (hm : TimMode.of (u8 e 0) = .forced) (hq : (d.timRef (u8 e 1)).qualified = false) : timSelectMode env e d = .refuse .state 0 :=
  if_pos ⟨hm, hq⟩

theorem timSelectMode_of_noHistory (hm : TimMode.of (u8 e 0) = .holdover) (hh : d.tim.history = false) : timSelectMode env e d = .refuse .state 0 :=
  (if_neg (by rw [hm]; nofun)).trans (if_pos ⟨hm, hh⟩)

variable (hm : TimMode.of (u8 e 0) = .auto ∨ TimMode.of (u8 e 0) = .freerun)
include hm

theorem timSelectMode_of_free : timSelectMode env e d = if !d.domOn domDpll then .refuse .domainOff 0
    else .done [] ((d.updTim fun t => { t with mode := TimMode.of (u8 e 0) }).timSelect env false) := by
  have hf : TimMode.of (u8 e 0) ≠ .forced := by rcases hm with hm | hm <;> rw [hm] <;> nofun
  have hh : TimMode.of (u8 e 0) ≠ .holdover := by rcases hm with hm | hm <;> rw [hm] <;> nofun
  simp only [timSelectMode, hf, hh, false_and, if_false]

theorem timSelectMode_of_off (ho : d.domOn domDpll = false) : timSelectMode env e d = .refuse .domainOff 0 := by
  rw [timSelectMode_of_free hm, ho]; rfl

theorem timSelectMode_of_on (ho : d.domOn domDpll = true) :
    timSelectMode env e d = .done [] ((d.updTim fun t => { t with mode := TimMode.of (u8 e 0) }).timSelect env false) := by
  rw [timSelectMode_of_free hm, ho]; rfl

end

/-! ### Phase steps -/

section
variable {d : Dev} {env : Env} {e : CmdEntry}

theorem timPhaseStep_of_noOutput (h : u8 e 0 = 0) : timPhaseStep env e d = .refuse .badParam 8 := if_pos h

variable (h : u8 e 0 ≠ 0)
include h

theorem timPhaseStep_of_far (hs : i32 e 4 < -1000000 ∨ 1000000 < i32 e 4) : timPhaseStep env e d = .refuse .badParam 12 := (if_neg h).trans (if_pos hs)

variable (hlo : -1000000 ≤ i32 e 4) (hhi : i32 e 4 ≤ 1000000) (hoff : ∀ o ∈ maskedOutputs (u8 e 0), (d.timOut o).stepsOffset o = false)
include hlo hhi hoff

/-- What decides on a step within ±1 µs that reaches no OFFSET (R401, R406). -/
theorem timPhaseStep_of_near : timPhaseStep env e d =
    if (maskedOutputs (u8 e 0)).any fun o => !(d.timOut o).enable then .refuse .state 0
    else if !d.domOn domDpll then .refuse .domainOff 0
    else if env.par.nat pTimStepRate = 0 ∨ i32 e 4 = 0 then .done [] (d.moveOuts (u8 e 0) (i32 e 4))
    else .start (ms + ceilDiv ((i32 e 4).natAbs * 1000000) (env.par.nat pTimStepRate))
      (d.updTim fun t => { t with step := some ⟨u8 e 0, i32 e 4, 0, env.par.nat pTimStepRate, env.now⟩ }) := by
  have hnear : ¬ (i32 e 4 < -1000000 ∨ 1000000 < i32 e 4) := by omega
  have hfar : ((maskedOutputs (u8 e 0)).any fun o => (d.timOut o).stepsOffset o && decide (500000000000 < ((d.timOut o).offsetPs + i32 e 4).natAbs)) = false :=
    List.any_eq_false.mpr fun o ho => by rw [hoff o ho]; exact Bool.false_ne_true
  exact (if_neg h).trans ((if_neg hnear).trans (if_neg (Bool.eq_false_iff.mp hfar)))

theorem timPhaseStep_of_disabled (hd : ∃ o ∈ maskedOutputs (u8 e 0), (d.timOut o).enable = false) : timPhaseStep env e d = .refuse .state 0 := by
  obtain ⟨o, ho, hen⟩ := hd
  exact (timPhaseStep_of_near h hlo hhi hoff).trans (if_pos (List.any_eq_true.mpr ⟨o, ho, by rw [hen]; rfl⟩))

variable (hen : ∀ o ∈ maskedOutputs (u8 e 0), (d.timOut o).enable = true)
include hen

theorem timPhaseStep_of_enabled : timPhaseStep env e d =
    if !d.domOn domDpll then .refuse .domainOff 0
    else if env.par.nat pTimStepRate = 0 ∨ i32 e 4 = 0 then .done [] (d.moveOuts (u8 e 0) (i32 e 4))
    else .start (ms + ceilDiv ((i32 e 4).natAbs * 1000000) (env.par.nat pTimStepRate))
      (d.updTim fun t => { t with step := some ⟨u8 e 0, i32 e 4, 0, env.par.nat pTimStepRate, env.now⟩ }) :=
  (timPhaseStep_of_near h hlo hhi hoff).trans (if_neg (Bool.eq_false_iff.mp (List.any_eq_false.mpr fun o ho => by rw [hen o ho]; exact Bool.false_ne_true)))

theorem timPhaseStep_of_off (ho : d.domOn domDpll = false) : timPhaseStep env e d = .refuse .domainOff 0 := by
  rw [timPhaseStep_of_enabled h hlo hhi hoff hen, ho]; rfl

theorem timPhaseStep_of_jump (ho : d.domOn domDpll = true) (hr : env.par.nat pTimStepRate = 0) :
    timPhaseStep env e d = .done [] (d.moveOuts (u8 e 0) (i32 e 4)) := by
  rw [timPhaseStep_of_enabled h hlo hhi hoff hen, ho]; exact (if_neg Bool.false_ne_true).trans (if_pos (Or.inl hr))

theorem timPhaseStep_of_slew (ho : d.domOn domDpll = true) (hr : env.par.nat pTimStepRate ≠ 0) (hs : i32 e 4 ≠ 0) : timPhaseStep env e d =
    .start (ms + ceilDiv ((i32 e 4).natAbs * 1000000) (env.par.nat pTimStepRate))
      (d.updTim fun t => { t with step := some ⟨u8 e 0, i32 e 4, 0, env.par.nat pTimStepRate, env.now⟩ }) := by
  rw [timPhaseStep_of_enabled h hlo hhi hoff hen, ho]; exact (if_neg Bool.false_ne_true).trans (if_neg (not_or.mpr ⟨hr, hs⟩))

end

/-! ### Outputs -/

section
variable {d : Dev} {env : Env} {e : CmdEntry}

theorem timOutCfg_of_badSource (ho : u8 e 0 < 4) (hs : bitsAt (u8 e 1) 1 2 ≠ 0) : timOutCfg env e d = .refuse .badParam 9 :=
  if_pos (.inr ⟨decide_eq_true ho, hs⟩)

theorem timOutCfg_of_badFreq (ho : u8 e 0 < 4) (hs : bitsAt (u8 e 1) 1 2 = 0) (hf : u32 e 4 < 1000 ∨ 156250000 < u32 e 4) : timOutCfg env e d = .refuse .badParam 12 :=
  (if_neg (by rw [hs]; rintro (h | ⟨-, h⟩) <;> exact absurd h (by decide))).trans (if_pos (Or.inl ⟨decide_eq_true ho, hf⟩))

/-- A pulse output that was off is set and starts (R399, R405). -/
theorem timOutCfg_of_pulse (ho : 4 ≤ u8 e 0) (hs : bitsAt (u8 e 1) 1 2 ≠ 3) (hlo : 100 ≤ u32 e 4) (hhi : u32 e 4 ≤ 200000000) (hoff : (i32 e 8).natAbs ≤ 500000000)
    (hb : bitAt (u8 e 1) 0 = true) (hwas : (d.timOut (u8 e 0)).enable = false) : timOutCfg env e d =
    .done [] ((d.updOut (u8 e 0) fun x =>
      { x with
        enable := true, source := bitsAt (u8 e 1) 1 2, freqWidth := u32 e 4, offsetPs := i32 e 8 * 1000
        aligning := (x.aligning || !x.enable || decide (x.source ≠ bitsAt (u8 e 1) 1 2) || decide (x.offsetPs ≠ i32 e 8 * 1000)) && decide (bitsAt (u8 e 1) 1 2 ≠ 0)
        above := if !x.enable || decide (x.source ≠ bitsAt (u8 e 1) 1 2) || decide (x.offsetPs ≠ i32 e 8 * 1000) then 0 else x.above
        atNominal := false }).ppsStart env (u8 e 0)) := by
  have hclk : decide (u8 e 0 < 4) = false := decide_eq_false (Nat.not_lt.mpr ho)
  have hw : ¬ (u32 e 4 < 100 ∨ 200000000 < u32 e 4) := by omega
  simp only [timOutCfg, hclk, hs, hw, Nat.not_lt.mpr hoff, hb, hwas, Bool.false_eq_true, false_and, and_false, or_self, if_false, Bool.not_false, Bool.true_and,
    Bool.false_and, Bool.and_true, Bool.or_assoc, if_true]

end

/-! ### Status -/

theorem DpllState.code_lt (x : DpllState) : x.code < 2 ^ 3 := by cases x <;> decide
theorem TimMode.code_lt (x : TimMode) : x.code < 2 ^ 2 := by cases x <;> decide

theorem timStatus_of_off {d : Dev} {env : Env} (h : d.domOn domDpll = false) : timStatus env d = .refuse .domainOff 0 := if_pos (by rw [h]; rfl)

/-- The fields of the timing status, from bit 0 (R407). -/
def timStatusBits (env : Env) (d : Dev) : List (Nat × Nat) :=
  [(3, d.tim.st.code), (2, d.tim.mode.code), (2, d.tim.sel.getD d.tim.lastSel), (1, b2n d.tim.sel.isSome)] ++ timRefs.map (fun r => (4, (d.timRef r).bits))
    ++ [(1, b2n d.tim.history), (7, 0)] ++ timRefs.map (fun r => (16, ofSigned 16 (d.timRef r).offset))
    ++ [(32, ofSigned 32 (d.coreNow env).tim.core), (32, (d.coreNow env).draw.1),
        (32, if d.tim.st = .holdover then secondsLeft env.now (d.tim.hoSince + env.par.nat pTimHoTime * sec) else 0), (16, d.wtrLeft env.now), (2, d.ppsState 4),
        (2, d.ppsState 5), (1, b2n (d.tim.pps.get .reset 0).valid), (1, b2n (d.tim.pps.get .reset 1).valid), (10, 0),
        (32, ofSigned 32 (d.timOut 4).err), (32, ofSigned 32 (d.timOut 5).err), (32, d.counter (ckey 10 0))]

theorem timStatus_of_on {d : Dev} {env : Env} (h : d.domOn domDpll = true) : timStatus env d = .done (resultBits (timStatusBits env d)) (d.coreNow env).draw.2 :=
  if_neg (by rw [h]; exact Bool.false_ne_true)

theorem timStatusBits_fields (env : Env) (d : Dev) : let r := leNat (resultBits (timStatusBits env d))
    bitsAt r 96 32 = ofSigned 32 (d.coreNow env).tim.core ∧ bitsAt r 0 3 = d.tim.st.code ∧ bitsAt r 3 2 = d.tim.mode.code ∧ bitAt r 7 = d.tim.sel.isSome ∧
      bitAt r 24 = d.tim.history := by
  refine ⟨?_, ?_, ?_, ?_, ?_⟩
  · exact (bitsAt_resultBits (fs := [_, _, _, _, _, _, _, _, _, _, _, _, _, _]) rfl (by simp only [fieldsWidth, sumBy, List.foldr]) (Nat.le_of_ble_eq_true rfl)).trans
      (Nat.mod_eq_of_lt (ofSigned_lt _ _))
  · exact (bitsAt_resultBits (fs := []) rfl rfl (Nat.le_of_ble_eq_true rfl)).trans (Nat.mod_eq_of_lt (DpllState.code_lt _))
  · exact (bitsAt_resultBits (fs := [_]) rfl rfl (Nat.le_of_ble_eq_true rfl)).trans (Nat.mod_eq_of_lt (TimMode.code_lt _))
  · exact bitAt_resultBits (fs := [_, _, _]) rfl rfl (by decide)
  · exact bitAt_resultBits (fs := [_, _, _, _, _, _, _, _]) rfl rfl (by decide)

/-! ### Events -/

section
variable {d : Dev} {env : Env} (h : d.domOn domDpll = true)
include h

theorem Dev.timEvent_of_on (f : Dev → Dev) : d.timEvent f = f d := if_pos h

theorem refLoss_of_active {r : Nat} (hen : (d.timRef r).enable = true) (hl : (d.timRef r).lost = false) : refLoss env r d =
    (((d.updRef r fun x => { x with lost := true }).raise .timRefLos r []).timDisq r 0).timSelect env false :=
  (Dev.timEvent_of_on h _).trans (if_pos (by rw [hen, hl]; rfl))

theorem refReturn_of_lost {r : Nat} (hen : (d.timRef r).enable = true) (hl : (d.timRef r).lost = true) : refReturn env r d =
    (d.updRef r fun x => { x with lost := false, since := env.now, okSince := none }).raise .timRefLosClr r [] :=
  (Dev.timEvent_of_on h _).trans (if_pos (by rw [hen, hl]; rfl))

theorem refWtr_of_waiting {r : Nat} (hw : (d.timRef r).wtrEnd.isSome = true) : refWtr env r d = (d.updRef r fun x => { x with wtrEnd := none }).timSelect env true :=
  (Dev.timEvent_of_on h _).trans (if_pos hw)

theorem refMeasure_of_on (offs : List Int) : refMeasure env offs d =
    ((timRefs.foldl (fun d r => d.timMeasure env r (offs.getD r 0)) d).timVote env).timSelect env true := Dev.timEvent_of_on h _

theorem dpllLock_of_pulling (hst : d.tim.st = .acquiring ∨ d.tim.st = .switching) : dpllLock env d =
    ((((d.coreNow env).updTim fun t => { t with st := .locked, lockedSince := env.now }).raise .timLock 0 [(1, d.tim.sel.getD 0)]).timSelect env true) :=
  (Dev.timEvent_of_on h _).trans (if_pos hst)

theorem holdoverExpiry_of_holdover (hst : d.tim.st = .holdover) :
    holdoverExpiry env d = ((d.coreNow env).updTim fun t => { t with st := .freerun }).raise .timFreerun 0 [] :=
  (Dev.timEvent_of_on h _).trans (if_pos hst)

theorem historyReady_of_locked (hst : d.tim.st = .locked) : historyReady d = d.updTim fun t => { t with history := true } :=
  (Dev.timEvent_of_on h _).trans (if_pos hst)

theorem ppsLoss_of_valid {p : Nat} (hv : (d.tim.pps.get .reset p).valid = true) :
    ppsLoss p d = (d.updTim fun t => { t with pps := t.pps.set p ⟨0, false, true⟩ }).raise .timPpsLoss p [] :=
  (Dev.timEvent_of_on h _).trans (if_pos hv)

end

/-- An edge that leaves a pulse input invalid sets its run of edges alone (R400). -/
theorem Dev.ppsIn_of_invalid {d : Dev} {p gap n : Nat} {x : PpsIn} (env : Env) (raw0 raw1 : Int) (hx : d.tim.pps.get .reset p = x) (hv : x.valid = false)
    (hn : (if decide (sec ≤ gap + 10 * us ∧ gap ≤ sec + 10 * us) = true then min 3 (x.edges + 1) else 1) = n) (h3 : n < 3) :
    d.ppsIn env p gap raw0 raw1 = d.updTim fun t => { t with pps := t.pps.set p ⟨n, false, x.lost⟩ } := by
  have hlt : decide (3 ≤ n) = false := decide_eq_false (Nat.not_le.mpr h3)
  simp only [Dev.ppsIn, hx, hv, Bool.false_eq_true, if_false, hn, hlt, Bool.or_false, Bool.not_false, Bool.and_true, Bool.and_false, Bool.false_and]
  exact if_neg Bool.false_ne_true

/-- Settles O51. -/
theorem timing : Obligations.Timing := by
  unfold Obligations.Timing
  intro s d
  refine ⟨fun e s1 => ⟨?_, ?_, ?_, ?_, ?_, ?_, ?_⟩, fun hon => ⟨fun r => ⟨?_, ?_, ?_⟩, ?_, ?_, ?_, ?_, fun p => ⟨?_, ?_, ?_⟩⟩⟩
  · intro h
    rw [h.env_eq]
    exact ⟨fun hp => h.refuses rfl (timRefCfg_of_noPrio (env := s.env) hp), fun hp hf => h.refuses rfl (timRefCfg_of_badFreq (env := s.env) hp hf),
      fun hp hlo hhi hf hen hb => h.completes rfl (timRefCfg_of_sameFreq (env := s.env) rfl hp hlo hhi hf hen hb)⟩
  · intro h
    rw [h.env_eq]
    exact h.completes rfl timRefQl_eq
  · intro h
    rw [h.env_eq]
    exact ⟨fun hm hq => h.refuses rfl (timSelectMode_of_unqualified (env := s.env) hm hq), fun hm hh => h.refuses rfl (timSelectMode_of_noHistory (env := s.env) hm hh),
      fun hm ho => h.refuses rfl (timSelectMode_of_off (env := s.env) hm ho), fun hm ho => h.completes rfl (timSelectMode_of_on (env := s.env) hm ho)⟩
  · intro h
    refine ⟨fun h0 => ?_, fun h0 hs => ?_, fun h0 hlo hhi hoff => ⟨fun hd => ?_, fun hen ho => ?_, fun hen ho hr => ?_, fun hen ho hr hs => ?_⟩⟩
    · exact h.refuses rfl (timPhaseStep_of_noOutput (env := s.env) h0)
    · exact h.refuses rfl (timPhaseStep_of_far (env := s.env) h0 hs)
    · exact h.refuses rfl (timPhaseStep_of_disabled (env := s.env) h0 hlo hhi hoff hd)
    · exact h.refuses rfl (timPhaseStep_of_off (env := s.env) h0 hlo hhi hoff hen ho)
    · exact h.completes rfl (timPhaseStep_of_jump (env := s.env) h0 hlo hhi hoff hen ho hr)
    · exact h.starts rfl (timPhaseStep_of_slew (env := s.env) h0 hlo hhi hoff hen ho hr hs)
  · intro h
    rw [h.env_eq]
    exact ⟨fun ho hs => h.refuses rfl (timOutCfg_of_badSource (env := s.env) ho hs), fun ho hs hf => h.refuses rfl (timOutCfg_of_badFreq (env := s.env) ho hs hf),
      fun ho hs hlo hhi hoff hb hwas => h.completes rfl (timOutCfg_of_pulse (env := s.env) ho hs hlo hhi hoff hb hwas)⟩
  · exact fun h ho => h.refuses rfl (timStatus_of_off (env := s.env) ho)
  · intro h ho
    rw [h.env_eq]
    exact ⟨_, _, h.completes rfl (timStatus_of_on (env := s.env) ho), rfl, timStatusBits_fields s.env s.dev⟩
  · exact fun hen hl => exec_of_onDev rfl (refLoss_of_active (env := s.env) hon hen hl)
  · exact fun hen hl => exec_of_onDev rfl (refReturn_of_lost (env := s.env) hon hen hl)
  · exact fun hw => exec_of_onDev rfl (refWtr_of_waiting (env := s.env) hon hw)
  · exact fun offs => exec_of_onDev rfl (refMeasure_of_on (env := s.env) hon offs)
  · exact fun hst => exec_of_onDev rfl (dpllLock_of_pulling (env := s.env) hon hst)
  · exact fun hst => exec_of_onDev rfl (holdoverExpiry_of_holdover (env := s.env) hon hst)
  · exact fun hst => exec_of_onDev rfl (historyReady_of_locked hon hst)
  · exact fun hv => exec_of_onDev rfl (ppsLoss_of_valid hon hv)
  · intro gap r0 r1 hv hedges hlo hhi
    refine exec_of_onDev rfl ((Dev.timEvent_of_on hon _).trans (Dev.ppsIn_of_invalid s.env r0 r1 rfl hv ?_ (by decide : 2 < 3)))
    rw [if_pos (decide_eq_true ⟨hlo, hhi⟩), hedges]; rfl
  · intro gap r0 r1 hv hgap
    refine exec_of_onDev rfl ((Dev.timEvent_of_on hon _).trans (Dev.ppsIn_of_invalid s.env r0 r1 rfl hv ?_ (by decide : 1 < 3)))
    exact if_neg fun h => by have := of_decide_eq_true h; omega

end Sys2Proof.Machine
end

section
/-! Sensing and housekeeping (chapter 17). -/

namespace Sys2Proof.Machine

/-! ### Sensing commands -/

theorem Dev.senseLoad_of_steady {d : Dev} {n : Nat} (c : CompSet) (h : (d.sense n).fading = none) :
    d.senseLoad n c = d.updSense n fun x => { x with fading := some c, faded := 0 } := by
  simp only [Dev.senseLoad, h]

section
variable {d : Dev} {e : CmdEntry} (hb : bitAt (u8 e 1) 0 = false) (hp : e.plen = 68)
  (hl : layoutFault (payload e) [fldCarrier, fldBits 1 1 1, fldRsv 2 2] = none)
include hb hp hl

theorem senseCoefLoad_of_host : senseCoefLoad e d =
    if !d.domOn (domCarrier (u8 e 0)) then .refuse .domainOff 0
    else if decide (4 * 2 ^ 14 < sumBy Int.natAbs (senseTaps e)) then .refuse .badParam 12
    else .done [] (d.senseLoad (u8 e 0) (.host (senseTaps e))) := by
  have hlen : ¬ e.plen.toNat ≠ (if bitAt (u8 e 1) 0 then 4 else 68) := by rw [hb, hp]; decide
  refine (if_neg hlen).trans ?_
  simp only [hl, hb, Bool.false_eq_true, if_false, Bool.not_false, Bool.true_and]
  rfl

theorem senseCoefLoad_of_off (ho : d.domOn (domCarrier (u8 e 0)) = false) : senseCoefLoad e d = .refuse .domainOff 0 := by
  rw [senseCoefLoad_of_host hb hp hl, ho]; rfl

theorem senseCoefLoad_of_large (ho : d.domOn (domCarrier (u8 e 0)) = true) (hs : 4 * 2 ^ 14 < sumBy Int.natAbs (senseTaps e)) :
    senseCoefLoad e d = .refuse .badParam 12 := by
  rw [senseCoefLoad_of_host hb hp hl, ho]
  exact (if_neg Bool.false_ne_true).trans (if_pos (decide_eq_true hs))

theorem senseCoefLoad_of_good (ho : d.domOn (domCarrier (u8 e 0)) = true) (hs : sumBy Int.natAbs (senseTaps e) ≤ 4 * 2 ^ 14) (hf : (d.sense (u8 e 0)).fading = none) :
    senseCoefLoad e d = .done [] (d.updSense (u8 e 0) fun x => { x with fading := some (.host (senseTaps e)), faded := 0 }) := by
  rw [senseCoefLoad_of_host hb hp hl, ho, Dev.senseLoad_of_steady _ hf]
  exact (if_neg Bool.false_ne_true).trans (if_neg fun h => absurd (of_decide_eq_true h) (Nat.not_lt.mpr hs))

end

theorem senseStatus_of_off {d : Dev} {env : Env} {e : CmdEntry} (ho : d.domOn (domCarrier (u8 e 0)) = false) : senseStatus env e d = .refuse .domainOff 0 :=
  if_pos (by rw [ho]; rfl)

/-- The fields of the sensing status, from bit 0 (R419). -/
def senseStatusBits (env : Env) (d : Dev) (n : Nat) : List (Nat × Nat) :=
  [(2, if (d.sense n).running then (if d.locked n then 2 else 1) else 0),
    (2, if d.runPlaced .front n then 1 else if d.runWaiting .front n then 2 else 0),
    (1, b2n (d.sense n).ph.active), (1, b2n (d.sense n).sop.active), (1, match (d.sense n).fading.getD (d.sense n).set with | .dflt _ => 0 | .host _ => 1),
    (1, b2n (bandClamped env n (d.sense n).k)), (4, (d.sense n).k), (1, b2n (d.sense n).fading.isSome), (19, 0),
    (32, (d.sense n).seq), (32, (d.sense n).ph.last), (32, (d.sense n).sop.last), (32, d.counter (ckey 11 n)), (32, (d.sense n).superseded)]

theorem senseStatus_of_on {d : Dev} {env : Env} {e : CmdEntry} (ho : d.domOn (domCarrier (u8 e 0)) = true) :
    senseStatus env e d = .done (resultBits (senseStatusBits env d (u8 e 0))) d :=
  if_neg (by rw [ho]; exact Bool.false_ne_true)

theorem senseStatusBits_fields (env : Env) (d : Dev) (n : Nat) : let r := leNat (resultBits (senseStatusBits env d n))
    bitAt r 4 = (d.sense n).ph.active ∧ bitAt r 5 = (d.sense n).sop.active ∧ bitsAt r 8 4 = (d.sense n).k % 16 ∧ bitAt r 12 = (d.sense n).fading.isSome ∧
      bitsAt r 32 32 = (d.sense n).seq % 2 ^ 32 := by
  refine ⟨?_, ?_, ?_, ?_, ?_⟩
  · exact bitAt_resultBits (fs := [_, _]) rfl rfl (by decide)
  · exact bitAt_resultBits (fs := [_, _, _]) rfl rfl (by decide)
  · exact bitsAt_resultBits (fs := [_, _, _, _, _, _]) rfl rfl (by decide)
  · exact bitAt_resultBits (fs := [_, _, _, _, _, _, _]) rfl rfl (by decide)
  · exact bitsAt_resultBits (fs := [_, _, _, _, _, _, _, _, _]) rfl rfl (by decide)

/-! ### Housekeeping lists -/

/-- A converter without results has none that is new (R426). -/
theorem Dev.hkForget_of_noResults {d : Dev} {v : Nat} (h : (d.hkConv v).res = []) :
    d.hkForget v = ([28, 29, 30, 31] : List Nat).foldl (fun (d : Dev) i => d.updCmp i fun c => if v = 0 then { c with newA := false } else { c with newB := false }) d := by
  unfold Dev.hkForget
  generalize ([28, 29, 30, 31] : List Nat) = is
  induction is generalizing d with
  | nil => rfl
  | cons i is ih =>
    have hnone : (((d.hkConv v).entryOf i).any fun x => (d.hkConv v).res.any fun kv => decide (kv.1 = x.key)) = false := by
      rw [h]; cases (d.hkConv v).entryOf i <;> rfl
    rw [List.foldl_cons, List.foldl_cons, hnone]
    exact ih h

theorem hkCfg_of_badEntry {d : Dev} {e : CmdEntry} {b : Nat} (hb : hkBadEntry e = some b) : hkCfg e d = .refuse .badParam (8 + b) := by
  simp only [hkCfg, hb, badField]

theorem hkCfg_of_calibrating {d : Dev} {e : CmdEntry} (hb : hkBadEntry e = none) (hc : (d.hkConv (u8 e 0)).cal.isSome = true) : hkCfg e d = .refuse .busy 0 := by
  simp only [hkCfg, hb, hc, if_true]

/-- A list is set with the converter off: its results are gone, and none of them is compared (R422, R426). -/
theorem hkCfg_of_disable {d : Dev} {e : CmdEntry} (hb : hkBadEntry e = none) (hc : (d.hkConv (u8 e 0)).cal = none) (hen : bitAt (u8 e 1) 0 = false) :
    hkCfg e d = .done [] (([28, 29, 30, 31] : List Nat).foldl
      (fun (d : Dev) i => d.updCmp i fun c => if u8 e 0 = 0 then { c with newA := false } else { c with newB := false })
      (d.updHk (u8 e 0) fun c => { c with enable := false, warm := false, list := hkEntries e, suspect := false, res := [] })) := by
  have hres : ((d.updHk (u8 e 0) fun c => { c with enable := false, warm := false, list := hkEntries e, suspect := false, res := [] }).hkConv (u8 e 0)).res = [] := by
    rw [Dev.updHk_same]
  rw [← Dev.hkForget_of_noResults hres]
  simp only [hkCfg, hb, hc, hen, Option.isSome_none, Bool.false_eq_true, if_false, Bool.and_false, Bool.false_and]

/-! ### Housekeeping calibration -/

section
variable {d : Dev} {e : CmdEntry} {codes : List (BitVec 16)} (hp : e.plen = 12) (hl : layoutFault (payload e) (hkCalLayout (u8 e 1)) = none)
include hp hl

theorem hkCal_of_busy (h : u8 e 1 = 0) (hc : (d.hkConv (u8 e 0)).cal.isSome = true) : hkCal e codes d = .refuse .busy 0 := by
  rw [h] at hl
  simp [hkCal, hp, h, hl, hc]

theorem hkCal_of_cold (h : u8 e 1 = 0) (hc : (d.hkConv (u8 e 0)).cal = none) (hk : (d.hkConv (u8 e 0)).enable = false ∨ (d.hkConv (u8 e 0)).warm = false) :
    hkCal e codes d = .refuse .state 0 := by
  rw [h] at hl
  simp [hkCal, hp, h, hl, hc, hk]

theorem hkCal_of_open (h : u8 e 1 = 0) (hc : (d.hkConv (u8 e 0)).cal = none) (hen : (d.hkConv (u8 e 0)).enable = true) (hw : (d.hkConv (u8 e 0)).warm = true) :
    hkCal e codes d = .done [] (d.updHk (u8 e 0) fun c => { c with cal := some ⟨u32 e 4, c.convert (u8 e 0) (u32 e 4) codes, 0, none⟩ }) := by
  rw [h] at hl
  simp [hkCal, hp, h, hl, hc, hen, hw]

theorem hkCal_of_closed (h : u8 e 1 = 1 ∨ u8 e 1 = 2) (hc : (d.hkConv (u8 e 0)).cal = none) : hkCal e codes d = .refuse .sequence 0 := by
  rcases h with h | h <;> rw [h] at hl
  · simp [hkCal, hp, h, hl, hc]
  · simp [hkCal, hp, h, hl, hkCommit, hc]

theorem hkCal_of_span {o : HkOpen} (h : u8 e 1 = 1) (hc : (d.hkConv (u8 e 0)).cal = some o) (hm : o.mask = u32 e 4) : hkCal e codes d =
    .done [] (d.updHk (u8 e 0) fun c => { c with cal := some { o with spanUv := i32 e 8, span := some (c.convert (u8 e 0) (u32 e 4) codes) } }) := by
  rw [h] at hl
  simp [hkCal, hp, h, hl, hc, hm]

theorem hkCal_of_abandon (h : u8 e 1 = 3) : hkCal e codes d = .done [] (d.updHk (u8 e 0) fun c => { c with cal := none }) := by
  rw [h] at hl
  simp [hkCal, hp, h, hl]

end

/-! ### Telemetry -/

/-- A record with no stack on and no hosted program (R417). -/
theorem telemetryRecord_of_unread {d : Dev} {env : Env} {n now : Nat} {ss : List SenseSample} {x : Sense} (hx : d.sense n = x) (hr : x.running = true)
    (hlen : ss.length = 2 ^ x.k) (hs : d.anyStack = false) (hp : d.eng.prog = []) : telemetryRecord env n now ss d =
    d.updSense n fun _ =>
      { x.decimate n ss with
        seq := (x.seq + 1) % 2 ^ 32, discont := false, faded := x.faded + b2n x.fading.isSome
        window := if d.runPlaced .front n = true then (x.decimate n ss).frontRecord env n (d.recordValid n ss) (x.stepIn now n) :: x.window else x.window } := by
  subst hx
  simp only [telemetryRecord, hr, hlen, hs, hp, ne_eq, not_true_eq_false, decide_false, Bool.not_true, Bool.or_false, Bool.false_eq_true, if_false, List.map_nil, List.foldl_nil]

theorem senseXfadeEnd_of_fading {d : Dev} {n : Nat} {f : CompSet} (h : (d.sense n).fading = some f) :
    senseXfadeEnd n d = d.updSense n fun x => { x with set := f, fading := x.waiting, waiting := none, faded := 0 } := by
  simp only [senseXfadeEnd, h]

/-! ### Front -/

/-- A measure within its threshold (R418). -/
theorem FrontMeasure.window_of_within {m : FrontMeasure} {thr milli : Nat} (first : Nat) (h : milli ≤ 1000 * thr) : m.window thr milli first =
    ({ m with last := (milli + 500) / 1000, below := decide (2 * milli < 1000 * thr), above := 0 }, false) :=
  if_neg (Nat.not_lt.mpr h)

/-- A measure above its threshold for the second time in a row (R418). -/
theorem FrontMeasure.window_of_second {m : FrontMeasure} {thr milli : Nat} (first : Nat) (h : 1000 * thr < milli) (ha : m.above = 1) (hact : m.active = false) :
    m.window thr milli first =
    ({ m with
      last := (milli + 500) / 1000, below := decide (2 * milli < 1000 * thr), above := 2, peak := max m.peak ((milli + 500) / 1000), active := true }, true) := by
  simp only [FrontMeasure.window, h, if_true, ha, Nat.one_ne_zero, if_false, hact, Bool.not_false, Nat.le_refl, decide_true, Bool.and_self]

/-- The front records kept cover half of the window, as the model words it (R418). -/
theorem Sense.covered_iff (x : Sense) (env : Env) : x.covered env = true ↔
    10000000 * env.par.nat pFrontWin ≤ 2 * (1024 * 2 ^ x.k * (x.window.filter fun r => r.valid && !r.step).length) := by
  rw [Sense.covered, decide_eq_true_iff, Nat.mul_assoc 2 1024, Nat.mul_assoc 2]
  rfl

theorem frontWindow_of_few {d : Dev} {env : Env} {n ph sop : Nat}
    (h : 2 * (1024 * 2 ^ (d.sense n).k * ((d.sense n).window.filter fun r => r.valid && !r.step).length) < 10000000 * env.par.nat pFrontWin) :
    frontWindow env n ph sop d = d.updSense n fun x => { x with window := [] } := by
  have hc : (d.sense n).covered env = false := Bool.eq_false_iff.mpr fun hc => absurd ((Sense.covered_iff _ _).mp hc) (Nat.not_le.mpr h)
  exact if_pos (by rw [hc]; rfl)

section
variable {d : Dev} {env : Env} {n ph sop : Nat} {x : Sense} (hx : d.sense n = x) (hr : d.runPlaced .front n = true)
  (hc : 10000000 * env.par.nat pFrontWin ≤ 2 * (1024 * 2 ^ x.k * (x.window.filter fun r => r.valid && !r.step).length))
  {p q : FrontMeasure} {rp : Bool}
  (hp : x.ph.window (env.par.nat (pFrontPhThr + n)) ph x.firstSeq = (p, rp)) (hq : x.sop.window (env.par.nat (pFrontSopThr + n)) sop x.firstSeq = (q, false))
include hx hr hc hp hq

/-- A window that is evaluated, with SOP not rising (R418). -/
theorem frontWindow_of_covered : frontWindow env n ph sop d =
    if rp then (d.updSense n fun y => { y with window := [], ph := p, sop := q }).raiseFront n 0 p else d.updSense n fun y => { y with window := [], ph := p, sop := q } := by
  subst hx
  have hcov : (d.sense n).covered env = true := (Sense.covered_iff _ _).mpr hc
  have hplaced : (d.updSense n fun x => { x with window := [] }).runPlaced .front n = true := hr
  simp only [frontWindow, hcov, hplaced, Bool.not_true, Bool.or_self, Bool.false_eq_true, if_false, Dev.updSense_same, hp, hq, Dev.updSense_fuse]

end

theorem frontClear_of_phase {d : Dev} {n : Nat} {x : Sense} (hx : d.sense n = x) (ha : x.ph.active = true) (hb : x.ph.below = true) : frontClear n 0 d =
    (d.updSense n fun y => { y with ph := { x.ph with active := false } }).raise .frontClr n [(1, 0)] := by
  subst hx
  exact if_pos (by rw [if_pos rfl, ha, hb]; rfl)

/-! ### Housekeeping events -/

section
variable {d : Dev} {env : Env} {v : Nat} {k : HkConv} (hk : d.hkConv v = k) (hpw : d.powered = true) (hen : k.enable = true)
include hk hpw hen

theorem hkWarm_of_on : hkWarm v d = d.updHk v fun c => { c with warm := true } := if_pos (by rw [hk, hpw, hen]; rfl)

variable (hw : k.warm = true)
include hw

theorem hkConversion_of_own {i : Nat} {raw : BitVec 16} {y : HkEntry} (hl : k.list[i]? = some y) (hc : k.inCal y = false) (hi : y.input < 28) : hkConversion env v i raw d =
    (d.updHk v fun c => { c with
      res := c.res.set y.key ⟨hkCode y.diff raw, env.now, (k.res.find? fun kv => decide (kv.1 = y.key)).any (·.2.limit)⟩ }).hkLimit env v y
        (k.best v y (hkCode y.diff raw)).1 (k.best v y (hkCode y.diff raw)).2 := by
  subst hk
  simp only [hkConversion, hl, hpw, hen, hw, hc, Nat.not_le.mpr hi, Bool.not_true, Bool.or_self, Bool.false_eq_true, if_false]

theorem hkSelfcheck_of_good {c26 c27 : BitVec 16} (h26 : (Config.hkFactory v false c26.toNat - 1000000).natAbs ≤ 2000)
    (h27 : (Config.hkFactory v false c27.toNat).natAbs ≤ 1000) : hkSelfcheck v c26 c27 d = d.updHk v fun c => { c with suspect := false } := by
  subst hk
  have hcode : ∀ c : BitVec 16, hkCode false c = c.toNat := fun _ => rfl
  have hok : ¬ (2000 < (Config.hkFactory v false c26.toNat - 1000000).natAbs ∨ 1000 < (Config.hkFactory v false c27.toNat).natAbs) := by omega
  simp only [hkSelfcheck, hpw, hen, hw, Bool.not_true, Bool.or_self, Bool.false_eq_true, if_false, hcode, hok, decide_false, Bool.false_and, Dev.raiseIf]

theorem hkSelfcheck_of_bad {c26 c27 : BitVec 16} (hs : k.suspect = false) (h26 : 2000 < (Config.hkFactory v false c26.toNat - 1000000).natAbs) :
    hkSelfcheck v c26 c27 d = (d.updHk v fun c => { c with suspect := true }).raise .hkSelfcheck v
      [(4, Config.hkFactory v false c26.toNat), (4, Config.hkFactory v false c27.toNat)] := by
  subst hk
  have hcode : ∀ c : BitVec 16, hkCode false c = c.toNat := fun _ => rfl
  simp only [hkSelfcheck, hpw, hen, hw, hs, Bool.not_true, Bool.or_self, Bool.false_eq_true, if_false, hcode, h26, true_or, decide_true, Bool.not_false, Bool.and_self,
    Dev.raiseIf, if_true]

end

/-- Settles O53. -/
theorem sensingAndHousekeeping : Obligations.SensingAndHousekeeping := by
  unfold Obligations.SensingAndHousekeeping
  intro s d
  refine ⟨fun e s1 => ⟨?_, ?_, ?_, ?_, ?_, fun codes h hp hl => ⟨?_, ?_, ?_, ?_, ?_, ?_⟩⟩, fun c => ⟨?_, ?_, ?_, ?_, ?_⟩, fun v hpw hen => ⟨?_, ?_, ?_, ?_⟩⟩
  · exact fun h hb hp hl => ⟨fun ho => h.refuses rfl (senseCoefLoad_of_off hb hp hl ho), fun ho hs => h.refuses rfl (senseCoefLoad_of_large hb hp hl ho hs),
      fun ho hs hf => h.completes rfl (senseCoefLoad_of_good hb hp hl ho hs hf)⟩
  · exact fun h ho => h.refuses rfl (senseStatus_of_off (env := s.env) ho)
  · exact fun h ho => ⟨_, h.completes rfl (senseStatus_of_on (env := s.env) ho), senseStatusBits_fields s.env s.dev (u8 e 0)⟩
  · exact fun h => ⟨fun b hb => h.refuses rfl (hkCfg_of_badEntry hb), fun hb hc => h.refuses rfl (hkCfg_of_calibrating hb hc),
      fun hb hc hen => h.completes rfl (hkCfg_of_disable hb hc hen)⟩
  · exact fun h => ⟨_, _, h.completes rfl rfl, rfl⟩
  · exact fun h0 hc => h.refuses rfl (hkCal_of_busy hp hl h0 hc)
  · exact fun h0 hc hk => h.refuses rfl (hkCal_of_cold hp hl h0 hc hk)
  · exact fun h0 hc hen hw => h.completes rfl (hkCal_of_open hp hl h0 hc hen hw)
  · exact fun h12 hc => h.refuses rfl (hkCal_of_closed hp hl h12 hc)
  · exact fun o h1 hc hm => h.completes rfl (hkCal_of_span hp hl h1 hc hm)
  · exact fun h3 => h.completes rfl (hkCal_of_abandon hp hl h3)
  · exact fun late valid values hr hlen hs hp => exec_of_onDev rfl (telemetryRecord_of_unread (env := s.env) rfl hr hlen hs hp)
  · exact fun f hf => exec_of_onDev rfl (senseXfadeEnd_of_fading hf)
  · exact fun ph sop phm sopm hfew => exec_of_onDev rfl (frontWindow_of_few (env := s.env) hfew)
  · refine fun ph sop phm sopm hr hc => ⟨fun ha hb => ?_, fun habove hact ha hb => ?_⟩
    · exact exec_of_onDev rfl (frontWindow_of_covered (env := s.env) rfl hr hc (FrontMeasure.window_of_within _ ha) (FrontMeasure.window_of_within _ hb))
    · exact exec_of_onDev rfl (frontWindow_of_covered (env := s.env) rfl hr hc (FrontMeasure.window_of_second _ ha habove hact) (FrontMeasure.window_of_within _ hb))
  · exact fun ha hb => exec_of_onDev rfl (frontClear_of_phase rfl ha hb)
  · exact exec_of_onDev rfl (hkWarm_of_on rfl hpw hen)
  · exact fun i raw y hw hl hc hi => exec_of_onDev rfl (hkConversion_of_own (env := s.env) rfl hpw hen hw hl hc hi)
  · exact fun c26 c27 hw h26 h27 => exec_of_onDev rfl (hkSelfcheck_of_good rfl hpw hen hw h26 h27)
  · exact fun c26 c27 hw hs h26 => exec_of_onDev rfl (hkSelfcheck_of_bad rfl hpw hen hw hs h26)

end Sys2Proof.Machine
end

section
/-! The Breeze channel (chapter 18). -/

namespace Sys2Proof.Machine

theorem Dev.updBrz_congr {d : Dev} {n : Nat} {f g : Breeze → Breeze} (h : f (d.brz n) = g (d.brz n)) : d.updBrz n f = d.updBrz n g :=
  congrArg (fun x => { d with breeze := d.breeze.set n x }) h

/-! ### Commands -/

theorem Dev.brzDisable_of_on {d : Dev} {n : Nat} (ht : (d.brz n).tone = .on) (hq : (d.brz n).queue = []) : d.brzDisable n =
    (d.updBrz n fun b => { b with queue := [] }).updBrz n fun b => { b with en := false, disabling := true } := by
  have hon : decide (Tone.on ≠ Tone.off) = true := rfl
  simp only [Dev.brzDisable, Dev.brzFlush, hq, List.foldl_nil, ht, hon]

section
variable {d : Dev} {env : Env} {e : CmdEntry} (hs : d.inService = true)
include hs

theorem brzTxEnable_of_noPoint (ho : d.domOn (domCarrier (u8 e 0)) = true) (hp : (d.rx (u8 e 0)).op = none) : brzTxEnable env e d = .refuse .sequence 0 := by
  simp only [brzTxEnable, hs, hp, ho, Option.any_none, Option.isNone_none, Bool.not_true, Bool.or_self, Bool.false_eq_true, if_false, if_true]

variable {p : OpPoint} (hp : (d.rx (u8 e 0)).op = some p) (hn : p.profile = 0)
include hp hn

theorem brzTxEnable_of_off (ho : d.domOn (domCarrier (u8 e 0)) = false) : brzTxEnable env e d = .refuse .domainOff 0 := by
  simp only [brzTxEnable, hs, hp, hn, ho, Option.any_some, ne_eq, not_true_eq_false, decide_false, Bool.not_true, Bool.not_false, Bool.or_self, Bool.false_eq_true, if_false,
    if_true]

variable (ho : d.domOn (domCarrier (u8 e 0)) = true)
include ho

/-- What decides where the carrier is native and on (R439). -/
theorem brzTxEnable_of_native : brzTxEnable env e d =
    if (d.brz (u8 e 0)).tone = .rampUp ∨ (d.brz (u8 e 0)).tone = .rampDown then .refuse .busy 0
    else if (d.brz (u8 e 0)).en = bitAt (u8 e 1) 0 then .done [] d
    else if bitAt (u8 e 1) 0 then
      if !env.par.on (pBrzTxMode + u8 e 0) && d.brzOutput (u8 e 0) then
        .start (env.par.nat (pBrzRamp + u8 e 0) * ms + ms) (d.updBrz (u8 e 0) fun b => { b with en := true })
      else .done [] (d.updBrz (u8 e 0) fun b => { b with en := true })
    else if (d.brz (u8 e 0)).tone = .off then .done [] (d.brzDisable (u8 e 0))
    else .start (134 * ms) (d.brzDisable (u8 e 0)) := by
  simp only [brzTxEnable, hs, hp, hn, ho, Option.any_some, Option.isNone_some, ne_eq, not_true_eq_false, decide_false, Bool.not_true, Bool.or_self, Bool.false_eq_true,
    if_false]

theorem brzTxEnable_of_ramping (ht : (d.brz (u8 e 0)).tone = .rampUp ∨ (d.brz (u8 e 0)).tone = .rampDown) : brzTxEnable env e d = .refuse .busy 0 :=
  (brzTxEnable_of_native hs hp hn ho).trans (if_pos ht)

theorem brzTxEnable_of_enable (ht : (d.brz (u8 e 0)).tone = .off) (hen : (d.brz (u8 e 0)).en = false) (hb : bitAt (u8 e 1) 0 = true)
    (hm : env.par.on (pBrzTxMode + u8 e 0) = false) : brzTxEnable env e d =
    if d.brzOutput (u8 e 0) then .start (env.par.nat (pBrzRamp + u8 e 0) * ms + ms) (d.updBrz (u8 e 0) fun b => { b with en := true })
    else .done [] (d.updBrz (u8 e 0) fun b => { b with en := true }) := by
  have htone : ¬ (Tone.off = .rampUp ∨ Tone.off = .rampDown) := by decide
  rw [brzTxEnable_of_native hs hp hn ho]
  simp only [ht, hen, hb, hm, htone, if_false, if_true, Bool.false_eq_true, Bool.not_false, Bool.true_and]

theorem brzTxEnable_of_disable (ht : (d.brz (u8 e 0)).tone = .on) (hen : (d.brz (u8 e 0)).en = true) (hb : bitAt (u8 e 1) 0 = false)
    (hq : (d.brz (u8 e 0)).queue = []) : brzTxEnable env e d =
    .start (134 * ms) ((d.updBrz (u8 e 0) fun b => { b with queue := [] }).updBrz (u8 e 0) fun b => { b with en := false, disabling := true }) := by
  have htone : ¬ (Tone.on = .rampUp ∨ Tone.on = .rampDown) := by decide
  have hon : ¬ Tone.on = .off := nofun
  rw [brzTxEnable_of_native hs hp hn ho, ← Dev.brzDisable_of_on ht hq]
  simp only [ht, hen, hb, htone, hon, if_false, Bool.true_eq_false, Bool.false_eq_true]

end

section
variable {d : Dev} {e : CmdEntry}

theorem brzSend_of_off (h : d.domState (domCarrier (u8 e 0)) = .off) : brzSend e d = .refuse .domainOff 0 := if_pos h

theorem brzSend_of_disabled (h : d.domState (domCarrier (u8 e 0)) ≠ .off) (hen : (d.brz (u8 e 0)).en = false) : brzSend e d = .refuse .sequence 0 :=
  (if_neg h).trans (if_pos (by rw [hen]; rfl))

theorem brzSend_of_native {p : OpPoint} (hp : (d.rx (u8 e 0)).op = some p) (hn : p.profile = 0) (h : d.domState (domCarrier (u8 e 0)) ≠ .off)
    (hen : (d.brz (u8 e 0)).en = true) : brzSend e d =
    if 4 ≤ (d.brz (u8 e 0)).queue.length then .refuse .busy 0
    else .done [] (d.updBrz (u8 e 0) fun b => { b with queue := b.queue ++ [⟨u16 e 2, ((payload e).drop 4).take (u8 e 1)⟩] }) := by
  simp only [brzSend, h, hen, hp, hn, if_false, Bool.not_true, Bool.false_eq_true, Option.any_some, ne_eq, not_true_eq_false, decide_false]

end

/-- The fields of the Breeze status, from bit 0 (R442). -/
def brzStatusBits (env : Env) (d : Dev) (n : Nat) : List (Nat × Nat) :=
  [(1, b2n ((d.brz n).en || (d.brz n).disabling)), (2, (d.brz n).tone.code), (3, (d.brz n).queue.length),
      (2, if d.brzListens env n then max (d.brz n).ctx0.code (d.brz n).ctx1.code else 0), (24, 0), (32, (d.brz n).wrSeq % 2 ^ 32), (16, (d.brz n).level), (16, 0)]
    ++ (List.range 7).map fun k => (32, d.counter (ctrBrz k n))

theorem brzStatus_of_off {d : Dev} {env : Env} {e : CmdEntry} (ho : d.domOn (domCarrier (u8 e 0)) = false) : brzStatus env e d = .refuse .domainOff 0 :=
  if_pos (by rw [ho]; rfl)

theorem brzStatus_of_on {d : Dev} {env : Env} {e : CmdEntry} (ho : d.domOn (domCarrier (u8 e 0)) = true) :
    brzStatus env e d = .done (resultBits (brzStatusBits env d (u8 e 0))) d :=
  if_neg (by rw [ho]; exact Bool.false_ne_true)

theorem Tone.code_lt (x : Tone) : x.code < 2 ^ 2 := by cases x <;> decide

theorem brzStatusBits_fields (env : Env) (d : Dev) (n : Nat) : let r := leNat (resultBits (brzStatusBits env d n))
    bitAt r 0 = ((d.brz n).en || (d.brz n).disabling) ∧ bitsAt r 1 2 = (d.brz n).tone.code ∧ bitsAt r 3 3 = (d.brz n).queue.length % 8 ∧
      bitsAt r 32 32 = (d.brz n).wrSeq % 2 ^ 32 ∧ bitsAt r 96 32 = d.counter (ctrBrz 0 n) % 2 ^ 32 := by
  refine ⟨?_, ?_, ?_, ?_, ?_⟩
  · exact bitAt_resultBits (fs := []) rfl rfl (by decide)
  · exact (bitsAt_resultBits (fs := [_]) rfl rfl (Nat.le_of_ble_eq_true rfl)).trans (Nat.mod_eq_of_lt (Tone.code_lt _))
  · exact bitsAt_resultBits (fs := [_, _]) rfl rfl (by decide)
  · exact (bitsAt_resultBits (fs := [_, _, _, _, _]) rfl rfl (Nat.le_of_ble_eq_true rfl)).trans (Nat.mod_mod _ _)
  · exact bitsAt_resultBits (fs := [_, _, _, _, _, _, _, _]) rfl rfl (by decide)

/-! ### Ramps and packets sent -/

section
variable {d : Dev} {n : Nat}

theorem brzRampEnd_of_up (h : (d.brz n).tone = .rampUp) : brzRampEnd n d = (d.updBrz n fun b => { b with tone := .on }).finish 0x0C01 n .ok 0 [] := by
  simp only [brzRampEnd, h, Dev.brzFinish]

theorem brzRampEnd_of_disabling (h : (d.brz n).tone = .rampDown) (hd : (d.brz n).disabling = true) : brzRampEnd n d =
    (d.updBrz n fun b => { b with tone := .off, disabling := false }).finish 0x0C01 n .ok 0 [] := by
  simp only [brzRampEnd, h, hd, if_true, Dev.brzFinish]

variable {env : Env} {p : BrzPacket}

theorem brzTxStart_of_queued {ps : List BrzPacket} (ht : (d.brz n).tone = .on) (hq : (d.brz n).queue = p :: ps) (ho : d.brzOutput n = true)
    (hm : env.par.on (pBrzTxMode + n) = false) : brzTxStart env n d =
    d.updBrz n fun b => { b with tone := .sending, queue := ps, cur := some p, txCfg := env.brzTx n, line := brzLine (env.brzTx n) p.data } := by
  simp only [brzTxStart, ht, hq, ho, hm, if_true, Bool.false_eq_true, if_false]

theorem brzTxEnd_of_sending (hc : (d.brz n).cur = some p) : brzTxEnd env n d =
    ((d.updBrz n fun b => { b with
      cur := none, line := [], tone := if env.par.on (pBrzTxMode + n) then .rampDown else .on }).count (ctrBrz 5 n) 1).raise .breezeTxDone n [(2, p.tag)] := by
  simp only [brzTxEnd, hc]

end

/-! ### Preambles -/

theorem Breeze.declares_of_weak {b : Breeze} {env : Env} {n : Nat} {h : BrzHeard} (hl : h.level.toNat < env.par.nat (pBrzRxMin + n)) : b.declares env n h = false := by
  have hdepth : ¬ (h.symbols.length = 16 ∧ env.par.nat (pBrzRxMin + n) ≤ h.level.toNat) := fun hh => absurd hh.2 (Nat.not_le.mpr hl)
  simp only [Breeze.declares, preambleDeclared, hdepth, decide_false, Bool.false_and, Bool.and_false]

theorem Breeze.declares_of_preamble {b : Breeze} {env : Env} {n : Nat} {h : BrzHeard} (ht : (h.tone - 1000 * (b.rxCfg.freq : Int)).natAbs ≤ 1000)
    (hl : env.par.nat (pBrzRxMin + n) ≤ h.level.toNat)
    (hs : h.symbols = (List.range 16).map (preambleSymbol b.rxCfg.rate) ∨ h.symbols = (List.range 16).map fun i => preambleSymbol b.rxCfg.rate (i + 1)) :
    b.declares env n h = true := by
  have hlen : h.symbols.length = 16 := by rcases hs with hs | hs <;> rw [hs, List.length_map, List.length_range]
  have hphase : (decide (h.symbols = (List.range 16).map (preambleSymbol b.rxCfg.rate)) ||
      decide (h.symbols = (List.range 16).map fun i => preambleSymbol b.rxCfg.rate (i + 1))) = true := by
    rcases hs with hs | hs
    · rw [decide_eq_true hs]; rfl
    · rw [decide_eq_true hs]; exact Bool.or_true _
  simp only [Breeze.declares, preambleDeclared, toneAt, ht, hlen, hl, hphase, decide_true, and_self, Bool.and_self]

theorem brzPreamble_of_undeclared {d : Dev} {env : Env} {n k : Nat} {h : BrzHeard} (hd : (d.brz n).declares env n h = false) : brzPreamble env n k h d = d :=
  if_pos (by rw [hd]; exact Bool.or_true _)

section
variable {d : Dev} {env : Env} {n : Nat} {h : BrzHeard} (hl : d.brzListens env n = true) (hc : (d.brz n).ctx0 = .listening) (hd : (d.brz n).declares env n h = true)
include hl hc hd

/-- A preamble declared by context 0, which listens, turns on the other context (R436). -/
theorem brzPreamble_of_declared : brzPreamble env n 0 h d = match (d.brz n).ctx1 with
    | .recv other _ =>
      if sixDbAbove h.level.toNat other then (d.updBrz n fun b => { b with ctx0 := .sync env.now h.level.toNat true, ctx1 := .listening }).count (ctrBrz 2 n) 1
      else d.count (ctrBrz 4 n) 1
    | _ => d.updBrz n fun b => { b with ctx0 := .sync env.now h.level.toNat false } := by
  refine (if_neg ?_).trans rfl
  rw [hl, hd, show (d.brz n).ctx 0 = .listening from hc]
  exact Bool.false_ne_true

theorem brzPreamble_of_free (h1 : (d.brz n).ctx1 = .listening) : brzPreamble env n 0 h d = d.updBrz n fun b => { b with ctx0 := .sync env.now h.level.toNat false } := by
  rw [brzPreamble_of_declared hl hc hd, h1]

variable {other : Nat} {cap : Bool} (h1 : (d.brz n).ctx1 = .recv other cap)
include h1

theorem brzPreamble_of_stronger (hs : sixDbAbove h.level.toNat other = true) : brzPreamble env n 0 h d =
    (d.updBrz n fun b => { b with ctx0 := .sync env.now h.level.toNat true, ctx1 := .listening }).count (ctrBrz 2 n) 1 := by
  rw [brzPreamble_of_declared hl hc hd, h1]
  exact if_pos hs

theorem brzPreamble_of_weaker (hs : sixDbAbove h.level.toNat other = false) : brzPreamble env n 0 h d = d.count (ctrBrz 4 n) 1 := by
  rw [brzPreamble_of_declared hl hc hd, h1]
  exact if_neg (Bool.eq_false_iff.mp hs)

end

/-! ### Synchronisation and reception -/

theorem natBits_length (n v : Nat) : (natBits n v).length = n := by
  induction n with
  | zero => rfl
  | succ n ih => rw [natBits, List.length_cons, ih]

section
variable {d : Dev} {env : Env} {n since level : Nat} {cap : Bool} (h0 : (d.brz n).ctx0 = .sync since level cap)
include h0

theorem brzSync_of_found {last : BitVec 32} (h1 : (d.brz n).ctx1 = .listening)
    (he : countTrue (List.zipWith xor (natBits 32 last.toNat) (natBits 32 (d.brz n).rxCfg.sync)) ≤ 2)
    (ht : (env.now - since) * brzSymbolRate (d.brz n).rxCfg.rate ≤ 64 * 10000000) : brzSync env n 0 last d = d.updBrz n fun b => { b with ctx0 := .recv level cap } := by
  have hctx : (d.brz n).ctx 0 = .sync since level cap := h0
  have hlen : (natBits 32 last.toNat).length = 32 := natBits_length 32 last.toNat
  simp only [brzSync, hctx, syncFound, syncInTime, hlen, he, ht, decide_true, Bool.and_self, if_true]
  refine Dev.updBrz_congr ?_
  rw [show (d.brz n).ctx (1 - 0) = .listening from h1]
  rfl

theorem brzSync_of_missed {last : BitVec 32} (hm : 2 < countTrue (List.zipWith xor (natBits 32 last.toNat) (natBits 32 (d.brz n).rxCfg.sync)) ∨
    ¬ (env.now - since) * brzSymbolRate (d.brz n).rxCfg.rate ≤ 64 * 10000000) : brzSync env n 0 last d = d := by
  have hctx : (d.brz n).ctx 0 = .sync since level cap := h0
  have hno : (syncFound (d.brz n).rxCfg.sync (natBits 32 last.toNat) && syncInTime (d.brz n).rxCfg.rate (env.now - since)) = false := by
    rcases hm with hm | hm
    · simp only [syncFound, Nat.not_le.mpr hm, decide_false, Bool.and_false, Bool.false_and]
    · simp only [syncInTime, hm, decide_false, Bool.and_false]
  simp only [brzSync, hctx, hno, Bool.false_eq_true, if_false]

end

theorem brzTimeout_of_second {d : Dev} {n since level : Nat} {cap : Bool} (h : (d.brz n).ctx1 = .sync since level cap) :
    brzTimeout n 1 d = (d.updBrz n fun b => { b with ctx1 := .listening }).count (ctrBrz 3 n) 1 := by
  have hctx : (d.brz n).ctx 1 = .sync since level cap := h
  simp only [brzTimeout, hctx]
  rfl

section
variable {d : Dev} {env : Env} {n level : Nat} {cap : Bool} {bytes : List Byte} {r f : Int} (h0 : (d.brz n).ctx0 = .recv level cap)
include h0

theorem brzRxEnd_of_bad (hb : fieldAt bytes 0 1 = 0 ∨ 64 < fieldAt bytes 0 1 ∨
    beNat (padTo 2 (bytes.drop (1 + fieldAt bytes 0 1))) ≠ brzCrc (padTo (1 + fieldAt bytes 0 1) bytes)) : brzRxEnd env n 0 bytes r f d =
    (d.updBrz n fun b => { b with ctx0 := .listening }).count (ctrBrz 1 n) 1 := by
  have hctx : (d.brz n).ctx 0 = .recv level cap := h0
  simp only [brzRxEnd, hctx, if_pos hb]
  rfl

theorem brzRxEnd_of_good (hpos : 0 < fieldAt bytes 0 1) (hmax : fieldAt bytes 0 1 ≤ 64)
    (hcrc : beNat (padTo 2 (bytes.drop (1 + fieldAt bytes 0 1))) = brzCrc (padTo (1 + fieldAt bytes 0 1) bytes)) (hst : d.anyStack = true) :
    brzRxEnd env n 0 bytes r f d =
    ((((d.updBrz n fun b => { b with ctx0 := .listening }).emit (.dram (brzOffset n (d.brz n).wrSeq)
      (brzEntry ((d.brz n).wrSeq % 2 ^ 32) (fieldAt bytes 0 1) (d.brz n).rxCfg.rate level env.now cap r f ((padTo (1 + fieldAt bytes 0 1) bytes).drop 1)))).updBrz n
        fun b => { b with wrSeq := b.wrSeq + 1, level := level }).count (ctrBrz 0 n) 1).raise
          .breezeRx n [(4, ((d.brz n).wrSeq % 2 ^ 32 : Nat)), (1, fieldAt bytes 0 1), (2, level)] := by
  have hctx : (d.brz n).ctx 0 = .recv level cap := h0
  have hgood : ¬ (fieldAt bytes 0 1 = 0 ∨ 64 < fieldAt bytes 0 1 ∨
      beNat (padTo 2 (bytes.drop (1 + fieldAt bytes 0 1))) ≠ brzCrc (padTo (1 + fieldAt bytes 0 1) bytes)) := by
    rintro (h | h | h)
    · omega
    · omega
    · exact h hcrc
  have hstack : (d.updBrz n fun b => b.setCtx 0 .listening).anyStack = true := hst
  simp only [brzRxEnd, hctx, if_neg hgood, hstack, if_true]
  rfl

end

/-- Settles O54. -/
theorem breezeRows : Obligations.BreezeRows := by
  unfold Obligations.BreezeRows
  intro s d
  refine ⟨fun e s1 => ⟨?_, ?_, ?_, ?_, ?_, ?_⟩, fun c => ⟨?_, ?_, ?_, ?_, ?_, ?_, ?_, ?_, ?_⟩⟩
  · intro h hs p hp hn
    refine ⟨fun ho _ => ?_, fun ho ht => ?_, fun ho ht hen hb hm => ⟨fun hout => ?_, fun hout => ?_⟩, fun ho ht hen hb hq => ?_⟩
    · exact h.refuses rfl (brzTxEnable_of_off (env := s.env) hs hp hn ho)
    · exact h.refuses rfl (brzTxEnable_of_ramping (env := s.env) hs hp hn ho ht)
    · exact h.starts rfl ((brzTxEnable_of_enable (env := s.env) hs hp hn ho ht hen hb hm).trans (if_pos hout))
    · exact h.completes rfl ((brzTxEnable_of_enable (env := s.env) hs hp hn ho ht hen hb hm).trans (if_neg (Bool.eq_false_iff.mp hout)))
    · exact h.starts rfl (brzTxEnable_of_disable (env := s.env) hs hp hn ho ht hen hb hq)
  · exact fun h hs ho hp => h.refuses rfl (brzTxEnable_of_noPoint (env := s.env) hs ho hp)
  · intro h
    refine ⟨fun ho => ?_, fun ho hen => ?_, fun p hp hn ho hen hq => ?_, fun p hp hn ho hen hq => ?_⟩
    · exact h.refuses rfl (brzSend_of_off ho)
    · exact h.refuses rfl (brzSend_of_disabled ho hen)
    · exact h.refuses rfl ((brzSend_of_native hp hn ho hen).trans (if_pos hq))
    · exact h.completes rfl ((brzSend_of_native hp hn ho hen).trans (if_neg (Nat.not_le.mpr hq)))
  · exact fun h => ⟨fun hh => h.refuses rfl (if_neg (Bool.eq_false_iff.mp hh)), fun hh => h.completes rfl (if_pos hh)⟩
  · exact fun h ho => h.refuses rfl (brzStatus_of_off (env := s.env) ho)
  · exact fun h ho => ⟨_, h.completes rfl (brzStatus_of_on (env := s.env) ho), brzStatusBits_fields s.env s.dev (u8 e 0)⟩
  · exact fun h => exec_of_onDev rfl (brzRampEnd_of_up h)
  · exact fun h hd => exec_of_onDev rfl (brzRampEnd_of_disabling h hd)
  · exact fun p ps ht hq ho hm => exec_of_onDev rfl (brzTxStart_of_queued (env := s.env) ht hq ho hm)
  · exact fun p hc => exec_of_onDev rfl (brzTxEnd_of_sending (env := s.env) hc)
  · exact fun h hl => exec_of_onDev rfl (brzPreamble_of_undeclared (env := s.env) (Breeze.declares_of_weak hl))
  · intro h level hl ht hmin h0 hs
    have hd : (s.dev.brz c).declares s.env c h = true := Breeze.declares_of_preamble ht hmin hs
    exact ⟨fun h1 => exec_of_onDev rfl (brzPreamble_of_free hl h0 hd h1), fun other cap h1 hdb => exec_of_onDev rfl (brzPreamble_of_stronger hl h0 hd h1 hdb),
      fun other cap h1 hdb => exec_of_onDev rfl (brzPreamble_of_weaker hl h0 hd h1 hdb)⟩
  · exact fun since level cap last h0 h1 => ⟨fun he ht => exec_of_onDev rfl (brzSync_of_found (env := s.env) h0 h1 he ht),
      fun hm => exec_of_onDev rfl (brzSync_of_missed (env := s.env) h0 hm)⟩
  · exact fun since level cap h1 => exec_of_onDev rfl (brzTimeout_of_second h1)
  · exact fun level cap bytes r f h0 => ⟨fun hb => exec_of_onDev rfl (brzRxEnd_of_bad (env := s.env) h0 hb),
      fun hpos hmax hcrc hst => exec_of_onDev rfl (brzRxEnd_of_good (env := s.env) h0 hpos hmax hcrc hst)⟩

end Sys2Proof.Machine
end

section
/-! Counters and snapshots (chapter 20). -/

namespace Sys2Proof.Machine

/-! ### Commands -/

section
variable {d : Dev} {env : Env} {e : CmdEntry}

theorem cntRead_of_unnamed {k : Nat} (hk : k < u8 e 0) (hbad : cidNamed (cidAt e k) = false) (hlow : ∀ j, j < k → cidNamed (cidAt e j) = true) :
    cntRead env e d = .refuse .badParam (9 + 4 * k) := by
  have hfind : ((List.range (u8 e 0)).find? fun k => !cidNamed (cidAt e k)) = some k :=
    List.find?_range_eq_some.mpr ⟨by rw [hbad]; rfl, List.mem_range.mpr hk, fun j hj => by rw [hlow j hj]; rfl⟩
  simp only [cntRead, hfind, badField, ← Nat.add_assoc]

theorem cntRead_of_named (h : ∀ k, k < u8 e 0 → cidNamed (cidAt e k) = true) : cntRead env e d =
    .done ((List.range (u8 e 0)).flatMap fun k =>
      let r := d.countersRun.readCounter env.pcs (bitsAt (cidAt e k) 16 8) (bitsAt (cidAt e k) 0 11)
      cntEntry r.1 r.2.1 r.2.2) d.countersRun := by
  have hfind : ((List.range (u8 e 0)).find? fun k => !cidNamed (cidAt e k)) = none :=
    List.find?_eq_none.mpr fun k hk => by rw [h k (List.mem_range.mp hk)]; exact Bool.false_ne_true
  simp only [cntRead, hfind]

/-- Either every counter asked for is named, or there is a first one that is not (R458). -/
theorem firstUnnamed (e : CmdEntry) : (∃ k, k < u8 e 0 ∧ cidNamed (cidAt e k) = false ∧ ∀ j, j < k → cidNamed (cidAt e j) = true) ∨
    ∀ k, k < u8 e 0 → cidNamed (cidAt e k) = true := by
  cases hfind : (List.range (u8 e 0)).find? fun k => !cidNamed (cidAt e k) with
  | some k =>
    obtain ⟨hbad, hk, hlow⟩ := List.find?_range_eq_some.mp hfind
    exact .inl ⟨k, List.mem_range.mp hk, by simpa using hbad, fun j hj => by simpa using hlow j hj⟩
  | none => exact .inr fun k hk => by simpa using List.find?_eq_none.mp hfind k (List.mem_range.mpr hk)

theorem cntClear_of_fixed (h : bitAt (u16 e 0) 13 = false) : cntClear e d =
    .done [] { d with cnt := d.cnt.map fun kv => if bitAt (u16 e 0) (kv.1 / 2048) then (kv.1, { kv.2 with ovf := false }) else kv } := by
  simp only [cntClear, h, Bool.false_eq_true, if_false]

end

/-! ### SNAP_CTRL -/

theorem State.writeSnapCtrl_of_noTrig (s : State) {v : Word} (h : v.getLsbD 2 = false) : s.writeSnapCtrl v =
    { s with io := { s.io with snap := { s.io.snap with run := v.getLsbD 0, dmaEn := v.getLsbD 1 && decide (2 ≤ s.io.snap.dmaCount.toNat) } } } := by
  simp only [State.writeSnapCtrl, h, Bool.false_eq_true, if_false]

/-- The dump that a strobe begins now (R464). -/
def State.dumpNow (s : State) (trig : Bool) : SnapDump :=
  ⟨s.io.snap.next.toNat, s.now, trig, min (2 ^ 24 - 1) s.io.snap.since, s.io.snap.period.toNat, s.dev.countersRun.latch s.io.pcs⟩

theorem snapTrig_of_idle {s : State} (hr : s.dev.snapReady = true) (hb : s.io.snap.busy = none) : snapTrig s = snapBegin true s := by
  simp only [snapTrig, hr, hb, Bool.not_true, Bool.false_eq_true, if_false, Option.isSome_none]

theorem State.writeSnapCtrl_of_trig {s : State} {v : Word} (hr : s.dev.snapReady = true) (hb : s.io.snap.busy = none) (h2 : v.getLsbD 2 = true)
    (h1 : v.getLsbD 1 = false) : s.writeSnapCtrl v =
    { s with dev := s.dev.countersRun, io := { s.io with
      snap := { s.io.snap with run := v.getLsbD 0, dmaEn := false, since := 0, busy := some (s.dumpNow true) } } } := by
  simp only [State.writeSnapCtrl, h2, h1, if_true, Bool.false_and]
  exact snapTrig_of_idle (s := { s with io := { s.io with snap := { s.io.snap with run := v.getLsbD 0, dmaEn := false } } }) hr hb

/-! ### Strobes -/

section
variable {s : State} (hrun : s.io.snap.run = true) (hr : s.dev.snapReady = true)
include hrun hr

theorem snapStrobe_of_idle (hb : s.io.snap.busy = none) : snapStrobe s =
    { s with dev := s.dev.countersRun, io := { s.io with snap := { s.io.snap with since := 0, busy := some (s.dumpNow false) } } } := by
  have hruns : ¬ (!s.io.snap.run || !s.dev.snapReady) = true := by rw [hrun, hr]; exact Bool.false_ne_true
  have hfree : ¬ s.io.snap.busy.isSome = true := by rw [hb]; exact Bool.false_ne_true
  exact (if_neg hruns).trans (if_neg hfree)

theorem snapStrobe_of_busy (hb : s.io.snap.busy.isSome = true) : snapStrobe s = snapSkip s := by
  simp only [snapStrobe, hrun, hr, hb, Bool.not_true, Bool.or_self, Bool.false_eq_true, if_false, if_true]

end

theorem snapSkip_dev (s : State) : (snapSkip s).dev = s.dev := rfl

/-- An event that may be due leaves the snapshot block. -/
theorem Io.snap_of_dueEvent (c : Prop) [Decidable c] (io : Io) (par : Params) (now : Nat) (ev : Evt) (i sev : Nat) (fs : List (Nat × Int)) :
    (if c then io.event par now ev i sev fs else io).snap = io.snap := by
  split
  · exact (Io.event_host io par now ev i sev fs).snap
  · rfl

/-- A skipped strobe sets SKIP and counts; the dump that runs and the next SEQ stay, whether or not the event is due (R467). -/
theorem snapSkip_snap (s : State) : (snapSkip s).io.snap.skip = true ∧
    (snapSkip s).io.snap.skipped = BitVec.ofNat 32 (satAdd 32 s.io.snap.skipped.toNat 1) ∧ (snapSkip s).io.snap.busy = s.io.snap.busy ∧
      (snapSkip s).io.snap.next = s.io.snap.next := by
  unfold snapSkip
  dsimp only
  rw [Io.snap_of_dueEvent]
  exact ⟨rfl, rfl, rfl, rfl⟩

theorem satAdd_toNat (w a b : Nat) : (BitVec.ofNat w (satAdd w a b)).toNat = min (2 ^ w - 1) (a + b) := by
  have hpos : 0 < 2 ^ w := Nat.two_pow_pos w
  rw [BitVec.toNat_ofNat, satAdd, Nat.mod_eq_of_lt (by omega)]

/-! ### The end of a dump -/

theorem snapEnd_of_noStack {s : State} (hb : s.io.snap.busy.isSome = true) (hs : s.dev.anyStack = false) (ok : Bool) :
    snapEnd ok s = { s with io := { s.io with snap := { s.io.snap with busy := none } } } := by
  obtain ⟨y, hy⟩ := Option.isSome_iff_exists.mp hb
  simp only [snapEnd, hy, hs, if_true]

theorem Snap.dma_of_disabled {x : Snap} (h : x.dmaEn = false) (ok : Bool) (seq : Nat) : x.dma ok seq = x := if_pos (by rw [h]; rfl)

/-- SNAP registers at the end of a dump that has been written (R466). -/
def Snap.ended (x : Snap) (y : SnapDump) (late : Bool) : Snap :=
  { x with busy := none, seq := BitVec.ofNat 32 y.seq, next := BitVec.ofNat 32 (y.seq + 1), late := x.late || late }

theorem snapEnd_of_written {s : State} {y : SnapDump} (hb : s.io.snap.busy = some y) (hs : s.dev.anyStack = true) (hd : s.io.snap.dmaEn = false) (ok : Bool) :
    snapEnd ok s = { s with mem := snapWrite y (decide (y.time + ms < s.now)) s.mem,
                            io := Io.raiseInt { s.io with snap := s.io.snap.ended y (decide (y.time + ms < s.now)) } intSnapshot } := by
  have hdma : (s.io.snap.ended y (decide (y.time + ms < s.now))).dma ok y.seq = s.io.snap.ended y (decide (y.time + ms < s.now)) :=
    Snap.dma_of_disabled (x := s.io.snap.ended y (decide (y.time + ms < s.now))) hd ok y.seq
  simp only [snapEnd, hb, hs, Bool.true_eq_false, if_false]
  exact congrArg (fun x => { s with mem := snapWrite y (decide (y.time + ms < s.now)) s.mem, io := Io.raiseInt { s.io with snap := x } intSnapshot }) hdma

theorem bit16_eq_twoPow (n : Nat) : bit16 n = BitVec.twoPow 16 n := BitVec.eq_of_toNat_eq (by rw [bit16, BitVec.toNat_ofNat, BitVec.toNat_twoPow])

/-- A source that is raised stands beside those that stood. -/
theorem Io.raiseInt_intStatus (io : Io) (n : Nat) : (io.raiseInt n).intStatus = io.intStatus ||| BitVec.twoPow 16 n := by
  by_cases h : io.intStatus &&& bit16 n = 0
  · rw [Io.raiseInt_of_clear h, bit16_eq_twoPow]
  · rw [Io.raiseInt, if_neg h]
    rw [bit16_eq_twoPow, BitVec.and_twoPow] at h
    have hset : io.intStatus.getLsbD n = true := by_contra fun hn => h (if_neg hn)
    refine BitVec.eq_of_getLsbD_eq fun i hi => ?_
    rw [BitVec.getLsbD_or, BitVec.getLsbD_twoPow]
    by_cases hin : n = i
    · rw [← hin, hset]; rfl
    · rw [decide_eq_false hin, Bool.and_false, Bool.or_false]

/-- Dropping cells leaves what the kept addresses hold. -/
theorem Mem.read_filter {q : Host.Cell → Bool} {a : Nat} (hq : ∀ v, q (a, v) = true) (m : Mem) : Mem.read (m.filter q) a = m.read a := by
  induction m with
  | nil => rfl
  | cons kv t ih =>
    obtain ⟨k, v⟩ := kv
    rw [List.filter_cons]
    by_cases hka : k = a
    · subst hka
      rw [if_pos (hq v), Mem.read, Mem.read, if_pos rfl, if_pos rfl]
    · rw [show Mem.read ((k, v) :: t) a = Mem.read t a from if_neg hka, ← ih]
      split
      · exact if_neg hka
      · rfl

theorem cntEntry_length (v : Nat) (ovf off : Bool) : (cntEntry v ovf off).length = 8 := leBytes_length _ _

theorem SnapDump.header_length (x : SnapDump) (late : Bool) : (x.header late).length = 64 := leBytes_length _ _

/-- Entries of 8 bytes written at slots of the place leave what lies outside it. -/
theorem Mem.read_foldl_entries {base a : Nat} (ha : a < base ∨ base + 0x40000 ≤ a) (cells : List SnapCell) (hc : ∀ c ∈ cells, c.slot < 32768) : ∀ m : Mem, m.wf = true →
    (cells.foldl (fun (m : Mem) c => Mem.writeAll m (base + 8 * c.slot) (cntEntry c.v c.ovf c.off)) m).read a = m.read a := by
  induction cells with
  | nil => exact fun _ _ => rfl
  | cons c cs ih =>
    intro m hm
    have hslot := hc c List.mem_cons_self
    rw [List.foldl_cons, ih (fun c' h' => hc c' (List.mem_cons_of_mem _ h')) _ (Mem.wf_writeAll _ _ _ hm),
      Mem.read_writeAll_other _ _ _ _ hm (by rw [cntEntry_length]; omega)]

/-- A dump writes its own place of the ring alone (R466). -/
theorem snapWrite_read_other {x : SnapDump} {m : Mem} {a : Nat} (late : Bool) (hm : m.wf = true) (ha : a < snapOffset x.seq ∨ snapOffset x.seq + 0x40000 ≤ a)
    (hc : ∀ c ∈ x.cells, c.slot < 32768) : (snapWrite x late m).read a = m.read a := by
  have hfilter : Mem.wf (m.filter fun c => decide (c.1 < snapOffset x.seq ∨ snapOffset x.seq + 0x40000 ≤ c.1)) = true := Mem.wf_filter _ m hm
  unfold snapWrite
  dsimp only
  rw [Mem.read_foldl_entries ha _ hc _ (Mem.wf_writeAll _ _ _ hfilter), Mem.read_writeAll_other _ _ _ _ hfilter (by rw [SnapDump.header_length]; omega),
    Mem.read_filter fun _ => decide_eq_true ha]

/-- Settles O55. -/
theorem counterRows : Obligations.CounterRows := by
  unfold Obligations.CounterRows
  intro s d x
  refine ⟨fun e s1 => ⟨fun h => ?_, fun h => ⟨fun hs => ?_, fun hs => ?_⟩, fun h hb => ?_⟩, fun hd via v h2 => ⟨?_, ?_, ?_⟩, fun hd hr hb via v h2 h1 => ?_,
    fun hrun hr hb => ?_, fun hrun hr hb => ?_, fun hb hs ok => ?_, fun y hb hs hen => ?_⟩
  · rcases firstUnnamed e with ⟨k, hk, hbad, hlow⟩ | hall
    · exact .inl ⟨k, hk, hbad, hlow, h.refuses rfl (cntRead_of_unnamed (env := s.env) hk hbad hlow)⟩
    · exact .inr ⟨hall, h.completes rfl (cntRead_of_named (env := s.env) hall)⟩
  · exact h.refuses rfl (if_pos hs)
  · exact h.completes rfl (if_neg (Nat.not_le.mpr hs))
  · exact h.completes rfl (cntClear_of_fixed hb)
  · exact (onBus_of_answers hd fun s => s.writeSnapCtrl v).trans (congrArg Host.Outcome.next (s.writeSnapCtrl_of_noTrig h2))
  · exact (onBus_of_answers hd fun s => s.writeSnapCtrl v).trans (congrArg Host.Outcome.next (s.writeSnapCtrl_of_noTrig h2))
  · exact (onBus_of_answers hd fun s => s.writeSnapCtrl v).trans (congrArg Host.Outcome.next (s.writeSnapCtrl_of_noTrig h2))
  · exact (onBus_of_answers hd fun s => s.writeSnapCtrl v).trans (congrArg Host.Outcome.next (State.writeSnapCtrl_of_trig hr hb h2 h1))
  · exact congrArg Host.Outcome.next (snapStrobe_of_idle hrun hr hb)
  · obtain ⟨hskip, hskipped, hbusy, hnext⟩ := snapSkip_snap s
    exact ⟨snapSkip s, congrArg Host.Outcome.next (snapStrobe_of_busy hrun hr hb), hskip, hskipped ▸ satAdd_toNat 32 _ 1, hbusy, hnext, snapSkip_dev s⟩
  · exact congrArg Host.Outcome.next (snapEnd_of_noStack hb hs ok)
  · have hsnap := (Io.raiseInt_host { s.io with snap := s.io.snap.ended y (decide (y.time + ms < s.now)) } intSnapshot).snap
    have hexec : exec (.snapshotDumpEnd true) s = _ := congrArg Host.Outcome.next (snapEnd_of_written hb hs hen true)
    refine ⟨_, hexec, rfl, ?_, ?_, ?_, ?_, Io.raiseInt_intStatus _ _,
      fun hm a ha hc => snapWrite_read_other _ hm ha hc⟩
    all_goals dsimp only; rw [hsnap]; rfl

end Sys2Proof.Machine
end

section
/-! Security, firmware activation and the boot ROM (chapter 19). -/

namespace Sys2Proof.Machine

/-! ### Status and staging -/

/-- The fields of the security status, from bit 0 (R455). -/
def secStatusBits (d : Dev) : List (Nat × Nat) :=
  [(1, b2n d.boot.bootB), (1, b2n d.boot.fallback), (1, b2n d.boot.staged.isSome), (5, 0), (8, d.boot.fallbackCode), (8, d.nv.fuseF), (8, 0),
    (32, (d.boot.running.map (·.svn)).getD 0), (32, (d.boot.staged.map (·.version)).getD 0), (32, (d.boot.staged.map (·.svn)).getD 0), (32, d.boot.activations)]

theorem secStatusBits_fields (d : Dev) : let r := leNat (resultBits (secStatusBits d))
    bitAt r 0 = d.boot.bootB ∧ bitAt r 1 = d.boot.fallback ∧ bitAt r 2 = d.boot.staged.isSome ∧ bitsAt r 8 8 = d.boot.fallbackCode % 256 ∧
      bitsAt r 16 8 = d.nv.fuseF % 256 ∧ bitsAt r 128 32 = d.boot.activations % 2 ^ 32 := by
  refine ⟨?_, ?_, ?_, ?_, ?_, ?_⟩
  · exact bitAt_resultBits (fs := []) rfl rfl (by decide)
  · exact bitAt_resultBits (fs := [_]) rfl rfl (by decide)
  · exact bitAt_resultBits (fs := [_, _]) rfl rfl (by decide)
  · exact bitsAt_resultBits (fs := [_, _, _, _]) rfl rfl (by decide)
  · exact bitsAt_resultBits (fs := [_, _, _, _, _]) rfl rfl (by decide)
  · exact bitsAt_resultBits (fs := [_, _, _, _, _, _, _, _, _, _]) rfl (by simp only [fieldsWidth, sumBy, List.foldr]) (by decide)

/-- The header, the image and its record, as CMD_FW_STAGE reads them (R448, R449). -/
abbrev stagedHeader (env : Env) (e : CmdEntry) : List Byte := env.mem.readAll (fwArea + u32 e 0) 512
abbrev stagedBytes (env : Env) (e : CmdEntry) : List Byte := env.mem.readAll (fwArea + u32 e 0) (fieldAt (stagedHeader env e) 16 4)
abbrev stagedImage (env : Env) (e : CmdEntry) : FwImage :=
  ⟨fieldAt (stagedHeader env e) 8 4, fieldAt (stagedHeader env e) 12 4, fieldAt (stagedHeader env e) 16 4, padTo 32 (Config.sha256 (stagedBytes env e))⟩

section
variable {d : Dev} {env : Env} {e : CmdEntry} {ok : Bool}

theorem fwStage_of_badOffset (h : u32 e 0 % 4096 ≠ 0 ∨ 0x800000 ≤ u32 e 0) : fwStage env e ok d = .refuse .badParam 8 := if_pos h

variable (ha : u32 e 0 % 4096 = 0) (hr : u32 e 0 < 0x800000)
include ha hr

theorem fwStage_of_calm (hs : d.inService = false) : fwStage env e ok d = .refuse .state 0 :=
  (if_neg (not_or.mpr ⟨not_not_intro ha, Nat.not_le.mpr hr⟩)).trans (if_pos (by rw [hs]; rfl))

variable (hs : d.inService = true)
include hs

theorem fwStage_of_badHeader {k : Nat} (hk : fwHeaderFault (stagedHeader env e) (0x800000 - u32 e 0) = some k) : fwStage env e ok d = .refuse .badParam (0x1000 + k) := by
  refine (if_neg (not_or.mpr ⟨not_not_intro ha, Nat.not_le.mpr hr⟩)).trans ((if_neg (by rw [hs]; exact Bool.false_ne_true)).trans ?_)
  simp only [hk]

variable (hk : fwHeaderFault (stagedHeader env e) (0x800000 - u32 e 0) = none)
include hk

/-- What decides on an image with a good header (R448). -/
theorem fwStage_of_header : fwStage env e ok d =
    if !Config.pssOk Config.firmwareKey ((stagedBytes env e).take 128 ++ (stagedBytes env e).drop 512) (((stagedBytes env e).drop 128).take 384) then .refuse .authFail 0
    else if (stagedImage env e).svn < d.nv.fuseF then .refuse .fuse 0
    else if !ok then .fail .internal 0 { d.drawImage.2 with nv := d.drawImage.2.nv.setSlot (!d.boot.bootB) (some d.drawImage.1) }
    else .done (leBytes 4 (stagedImage env e).version ++ leBytes 4 (stagedImage env e).svn ++ (stagedImage env e).digest)
      { d with
        nv := if bitAt (u8 e 4) 0 then (d.nv.setSlot (!d.boot.bootB) (some (stagedImage env e))).point (!d.boot.bootB)
          else d.nv.setSlot (!d.boot.bootB) (some (stagedImage env e))
        boot := { d.boot with staged := some (stagedImage env e), stagedBad := false } } := by
  refine (if_neg (not_or.mpr ⟨not_not_intro ha, Nat.not_le.mpr hr⟩)).trans ((if_neg (by rw [hs]; exact Bool.false_ne_true)).trans ?_)
  simp only [hk]

theorem fwStage_of_badSignature (hg : Config.pssOk Config.firmwareKey ((stagedBytes env e).take 128 ++ (stagedBytes env e).drop 512)
    (((stagedBytes env e).drop 128).take 384) = false) : fwStage env e ok d = .refuse .authFail 0 :=
  (fwStage_of_header ha hr hs hk).trans (if_pos (by rw [hg]; rfl))

variable (hg : Config.pssOk Config.firmwareKey ((stagedBytes env e).take 128 ++ (stagedBytes env e).drop 512) (((stagedBytes env e).drop 128).take 384) = true)
include hg

theorem fwStage_of_oldVersion (hv : (stagedImage env e).svn < d.nv.fuseF) : fwStage env e ok d = .refuse .fuse 0 :=
  (fwStage_of_header ha hr hs hk).trans ((if_neg (by rw [hg]; exact Bool.false_ne_true)).trans (if_pos hv))

theorem fwStage_of_good (hv : d.nv.fuseF ≤ (stagedImage env e).svn) (hb : bitAt (u8 e 4) 0 = false) : fwStage env e true d =
    .done (leBytes 4 (stagedImage env e).version ++ leBytes 4 (stagedImage env e).svn ++ (stagedImage env e).digest)
      { d with nv := d.nv.setSlot (!d.boot.bootB) (some (stagedImage env e)), boot := { d.boot with staged := some (stagedImage env e), stagedBad := false } } := by
  refine (fwStage_of_header ha hr hs hk).trans ((if_neg (by rw [hg]; exact Bool.false_ne_true)).trans ((if_neg (Nat.not_lt.mpr hv)).trans ((if_neg Bool.false_ne_true).trans ?_)))
  rw [hb]
  rfl

end

/-! ### Activation and attestation -/

theorem fwActivate_of_nothing {d : Dev} {env : Env} (h : d.boot.staged = none) : fwActivate env d = .refuse .sequence 0 := by
  simp only [fwActivate, h]

theorem fwActivate_of_first {d : Dev} {env : Env} {x : FwImage} (h : d.boot.staged = some x) (hr : d.boot.running = none) (hb : d.boot.stagedBad = false) :
    fwActivate env d = .start (1500 * ms) (((d.frelvoRestarts env).updBoot fun b => { b with activating := some x }).emit (.mbx .activating)) := by
  simp only [fwActivate, h, hr, hb, Option.any_none, Bool.false_eq_true, if_false]

theorem activationReady_of_activating {d : Dev} {x : FwImage} (h : d.boot.activating = some x) : activationReady d =
    (((((d.updNv fun v => v.point (!d.boot.bootB)).updBoot fun b => { b with activating := none, running := some x, activations := b.activations + 1 }).count
      (ckey 14 0) 1).emit (.mbx .ready)).raise .fwActivated 0 [(4, x.version)]).finish 0x0E03 0 .ok 0 [] := by
  simp only [activationReady, h]

theorem activationFallback_of_activating {d : Dev} {x : FwImage} (h : d.boot.activating = some x) : activationFallback d =
    (((d.updBoot fun b => { b with activating := none }).emit (.mbx .ready)).raise .fwActivateFail 0 [(4, x.version)]).finish 0x0E03 0 .timeout 0 [] := by
  simp only [activationFallback, h]

/-- The report is kept, whether or not a stack takes its copy (R453). -/
theorem secAttest_report (env : Env) (e : CmdEntry) (d : Dev) : ∃ d2, secAttest env e d = .done (padTo 32 (Config.sha256 (d.attestBody env (payload e)))) d2 ∧
    d2.boot.attest = some (d.attestBody env (payload e) ++ padTo 384 (Config.dikSign d.draw.1 (d.attestBody env (payload e)))) := by
  refine ⟨_, rfl, ?_⟩
  split <;> rfl

/-! ### Fuses -/

section
variable {d : Dev} {env : Env} {e : CmdEntry} {burn : BurnEnd}

theorem svnCommit_of_ownValue (ht : u8 e 0 = 0) (hv : u8 e 1 ≠ 0) : svnCommit env e burn d = .refuse .badParam 9 := if_pos ⟨ht, hv⟩

variable (ht : u8 e 0 ≠ 0)
include ht

theorem svnCommit_of_badValue (hv : 16 < u8 e 1 ∨ u8 e 1 < svnOld d (u8 e 0)) : svnCommit env e burn d = .refuse .badParam 9 :=
  (if_neg fun h => ht h.1).trans (if_pos ⟨ht, hv⟩)

variable (hmax : u8 e 1 ≤ 16) (hmin : svnOld d (u8 e 0) ≤ u8 e 1)
include hmax hmin

theorem svnCommit_of_value : svnCommit env e burn d = if d.pwrWarn then .refuse .state 0
    else match burnShort burn (u8 e 1 - svnOld d (u8 e 0)) with
      | some k => (d.updNv fun v => { v with engMin := v.engMin.set (u8 e 0 - 1) (svnOld d (u8 e 0) + k) }).burnCut env burn
      | none => .done [] ((d.updNv fun v => { v with engMin := v.engMin.set (u8 e 0 - 1) (u8 e 1) }).raise .svnCommitted 0 [(1, u8 e 0), (1, u8 e 1)]) := by
  have hrange : ¬ (u8 e 0 ≠ 0 ∧ (16 < u8 e 1 ∨ u8 e 1 < svnOld d (u8 e 0))) := fun h => by omega
  have hnew : svnNew d (u8 e 0) (u8 e 1) = u8 e 1 := if_neg ht
  have hput : ∀ value, svnPut (u8 e 0) value = fun v => { v with engMin := v.engMin.set (u8 e 0 - 1) value } := fun value => funext fun v => if_neg ht
  refine (if_neg fun h => ht h.1).trans ((if_neg hrange).trans ?_)
  simp only [hnew, hput] <;> rfl

theorem svnCommit_of_warning (hw : d.pwrWarn = true) : svnCommit env e burn d = .refuse .state 0 := (svnCommit_of_value ht hmax hmin).trans (if_pos hw)

variable (hw : d.pwrWarn = false)
include hw

theorem svnCommit_of_whole : svnCommit env e .whole d =
    .done [] ((d.updNv fun v => { v with engMin := v.engMin.set (u8 e 0 - 1) (u8 e 1) }).raise .svnCommitted 0 [(1, u8 e 0), (1, u8 e 1)]) :=
  (svnCommit_of_value ht hmax hmin).trans (if_neg (Bool.eq_false_iff.mp hw))

theorem svnCommit_of_short {k : Nat} (hb : burnShort burn (u8 e 1 - svnOld d (u8 e 0)) = some k) : svnCommit env e burn d =
    (d.updNv fun v => { v with engMin := v.engMin.set (u8 e 0 - 1) (svnOld d (u8 e 0) + k) }).burnCut env burn := by
  rw [svnCommit_of_value ht hmax hmin, hb]
  exact if_neg (Bool.eq_false_iff.mp hw)

end

section
variable {d : Dev} {env : Env} {e : CmdEntry} {burn : BurnEnd} (hl : layoutFault (payload e) (enrollLayout (u8 e 1)) = none) (h0 : u8 e 1 = 0)
include hl h0

theorem secEnroll_of_locked (ho : d.nv.ownerLock = true) : secEnroll env e burn d = .refuse .state 0 := by
  simp only [secEnroll, hl]
  exact if_pos ⟨h0, ho⟩

theorem secEnroll_of_first (ho : d.nv.ownerLock = false) (hk : d.nv.keyDigest = []) (hr : d.nv.revoked = []) (hb : bitAt (u8 e 34) 0 = false) :
    secEnroll env e .whole d = .done [] (d.updNv fun v => { v with keyDigest := v.keyDigest.set (u8 e 0) (((payload e).drop 2).take 32) }) := by
  have hlocked : ¬ (u8 e 1 = 0 ∧ d.nv.ownerLock = true) := fun h => absurd h.2 (Bool.eq_false_iff.mp ho)
  have htaken : ¬ (u8 e 1 = 0 ∧ ((d.nv.keyDigest.map (·.1)).contains (u8 e 0) || d.nv.revoked.contains (u8 e 0)) = true) := by
    rw [hk, hr]; exact fun h => absurd h.2 Bool.false_ne_true
  have hput : (fun v => enrollPut e v) = fun v : NonVolatile => { v with keyDigest := v.keyDigest.set (u8 e 0) (((payload e).drop 2).take 32) } :=
    funext fun v => if_pos h0
  simp only [secEnroll, hl, hlocked, htaken, if_false, burnShort, hb, Bool.false_and, Bool.false_eq_true, hput]

end

/-! ### The boot ROM -/

/-- The boot ROM runs after a reset, once the rails of Calm are up (R446). -/
theorem exec_bootRomRun {s : State} {b : BootEvidence} {d : Dev} (hm : s.io.mbxState = .booting) (hp : s.dev.boot.phase = 0) (hc : s.dev.pw.state = .calm)
    (hr : s.dev.pw.inReset = false) (hd : s.dev.bootRom b = d) : exec (.bootRomRun b) s = .next (s.commit d) := by
  have hrun : bootRomRun b s = onDev s fun _ d => d.bootRom b := if_pos ⟨hm, hp, hc, hr⟩
  subst hd
  exact congrArg Host.Outcome.next hrun

section
variable {d : Dev} {x : FwImage}

theorem Dev.bootRom_of_badFuses {b : BootEvidence} (h : b.fusesOk = false) :
    d.bootRom b = (d.updBoot fun x => { x with phase := 1, failed := true, failCode := 0x04 }).emit (.mbx .fault) :=
  if_pos (by rw [h]; rfl)

/-- A slot whose image the ROM finds good, and whose version is not below F (R446). -/
theorem slotFault_of_good {v : NonVolatile} {b : Bool} (h : v.slot b = some x) (hv : v.fuseF ≤ x.svn) : slotFault v b none = none := by
  simp only [slotFault, h, Nat.not_lt.mpr hv, if_false]

variable (hs : d.nv.selectedB = false)
include hs

theorem Dev.bootRom_of_selected (hx : d.nv.slotA = some x) (hv : d.nv.fuseF ≤ x.svn) : d.bootRom ⟨true, none, none, true⟩ =
    (((d.updBoot fun y => { y with bootB := false, fallback := false, fallbackCode := 0 }).updBoot fun y =>
      { y with phase := 7, running := some x }).emit (.mbx .ready)).bootReports := by
  have hslot : d.nv.slot false = some x := hx
  simp only [Dev.bootRom, hs, Bool.not_true, Bool.false_eq_true, if_false, slotFault_of_good hslot hv]
  rw [← hslot]
  rfl

theorem Dev.bootRom_of_fallback (hx : d.nv.slotB = some x) (hv : d.nv.fuseF ≤ x.svn) : d.bootRom ⟨true, some 0x02, none, true⟩ =
    ((((d.updBoot fun y => { y with bootB := true, fallback := true, fallbackCode := 0x02 }).updBoot fun y =>
      { y with phase := 7, running := some x }).raise .bootFallback 0 [(1, 0), (1, 0x02)]).emit (.mbx .ready)).bootReports := by
  have hslot : d.nv.slot true = some x := hx
  have hfault : slotFault d.nv false (some 0x02) = some 0x02 := rfl
  simp only [Dev.bootRom, hs, Bool.not_true, Bool.not_false, Bool.false_eq_true, if_false, if_true, hfault, slotFault_of_good hslot hv]
  rw [← hslot]
  rfl

end

/-- Settles O56. -/
theorem securityRows : Obligations.SecurityRows := by
  unfold Obligations.SecurityRows
  intro s d
  refine ⟨fun e s1 => ⟨?_, ?_, ?_, ?_, ?_, ?_, ?_⟩, ?_, ?_, fun hm hp hc hr => ⟨?_, ?_, ?_⟩⟩
  · exact fun h => ⟨_, h.completes rfl rfl, secStatusBits_fields s.dev⟩
  · intro ok h
    refine ⟨fun ho => ?_, fun ha hr hs => ?_, fun ha hr hs => ⟨fun k hk => ?_, fun hk hg => ?_, fun hk hg hv => ?_, fun hk hg hv hb => ?_⟩⟩
    · exact h.refuses rfl (fwStage_of_badOffset (env := s.env) ho)
    · exact h.refuses rfl (fwStage_of_calm (env := s.env) ha hr hs)
    · exact h.refuses rfl (fwStage_of_badHeader (env := s.env) ha hr hs hk)
    · exact h.refuses rfl (fwStage_of_badSignature (env := s.env) ha hr hs hk hg)
    · exact h.refuses rfl (fwStage_of_oldVersion (env := s.env) ha hr hs hk hg hv)
    · exact h.completes rfl (fwStage_of_good (env := s.env) ha hr hs hk hg hv hb)
  · intro h
    rw [h.env_eq]
    exact ⟨fun hn => h.refuses rfl (fwActivate_of_nothing (env := s.env) hn), fun x hx hr hb => h.starts rfl (fwActivate_of_first (env := s.env) hx hr hb)⟩
  · intro h
    rw [h.env_eq]
    obtain ⟨d2, hbody, hreport⟩ := secAttest_report s.env e s.dev
    exact ⟨_, _, rfl, d2, h.completes rfl hbody, hreport⟩
  · intro burn h
    rw [h.env_eq]
    refine ⟨fun ht hv => ?_, fun ht hv => ?_, fun ht hmax hmin hw => ?_, fun ht hmax hmin hw => ?_, fun k ht hmax hk hw => ⟨?_, fun vin => ?_⟩⟩
    · exact h.refuses rfl (svnCommit_of_ownValue (env := s.env) ht hv)
    · exact h.refuses rfl (svnCommit_of_badValue (env := s.env) ht hv)
    · exact h.refuses rfl (svnCommit_of_warning (env := s.env) ht hmax hmin hw)
    · exact h.completes rfl (svnCommit_of_whole (env := s.env) ht hmax hmin hw)
    · exact h.fails rfl (svnCommit_of_short (env := s.env) (burn := .failed k) ht hmax (by omega) hw (if_pos (by omega)))
    · exact h.fails rfl (svnCommit_of_short (env := s.env) (burn := .warned k vin) ht hmax (by omega) hw (if_pos (by omega)))
  · exact fun burn h hl h0 => ⟨fun ho => h.refuses rfl (secEnroll_of_locked (env := s.env) hl h0 ho),
      fun ho hk hr hb => h.completes rfl (secEnroll_of_first (env := s.env) hl h0 ho hk hr hb)⟩
  · exact fun h => ⟨fun hb => h.refuses rfl (if_pos hb), fun hb => h.completes rfl (if_neg (Nat.not_le.mpr hb))⟩
  · exact fun x hx => exec_of_onDev rfl (activationReady_of_activating hx)
  · exact fun x hx => exec_of_onDev rfl (activationFallback_of_activating hx)
  · exact fun b hb => exec_bootRomRun hm hp hc hr (Dev.bootRom_of_badFuses hb)
  · exact fun x hs hx hv => exec_bootRomRun hm hp hc hr (Dev.bootRom_of_selected hs hx hv)
  · exact fun x hs hx hv => exec_bootRomRun hm hp hc hr (Dev.bootRom_of_fallback hs hx hv)

end Sys2Proof.Machine
end

section
/-! Memory errors, scrubbing and the memory commands (chapter 11). -/

namespace Sys2Proof.Machine

/-! ### Commands -/

/-- The fields of the memory status, from bit 0, with what was drawn for SCRUB_PROGRESS and TRACKER_PEAK (Table 11-7). -/
def memStatusBits (d : Dev) (scrub peak : Nat) : List (Nat × Nat) :=
  [(2, (d.domState (domStack 0)).code), (2, (d.domState (domStack 1)).code), (1, b2n d.pw.restriping), (3, 0), (8, scrub % 101),
    (16, peak % 8193), (48, d.counter ctrCeDram), (32, d.counter ctrUeDram), (32, d.counter ctrParityCfg), (32, d.counter ctrParityData),
    (16, d.msys.retired.length), (8, d.msys.spareOut), (8, 0), (16, 5 * (d.bufferedChans + d.protectedChans)), (16, 1360 * d.stacksFor),
    (32, d.msys.logSeq), (48, sumBy (fun b => d.counter (ctrBufOverflow b)) (List.range 128)), (64, d.msys.lastScrubEnd)]

theorem memStatus_eq (d : Dev) : memStatus d = (resultBits (memStatusBits d d.draw.1 d.draw.2.draw.1), d.draw.2.draw.2) := rfl

theorem memStatusBits_fields (d : Dev) (scrub peak : Nat) : let r := leNat (resultBits (memStatusBits d scrub peak))
    bitsAt r 0 2 = (d.domState (domStack 0)).code % 4 ∧ bitAt r 4 = d.pw.restriping ∧ bitsAt r 32 48 = d.counter ctrCeDram % 2 ^ 48 ∧
      bitsAt r 80 32 = d.counter ctrUeDram % 2 ^ 32 := by
  refine ⟨?_, ?_, ?_, ?_⟩
  · exact bitsAt_resultBits (fs := []) rfl rfl (by decide)
  · exact bitAt_resultBits (fs := [_, _]) rfl rfl (by decide)
  · exact bitsAt_resultBits (fs := [_, _, _, _, _, _]) rfl rfl (by decide)
  · exact bitsAt_resultBits (fs := [_, _, _, _, _, _, _]) rfl rfl (by decide)

section
variable {d : Dev} {env : Env} {e : CmdEntry}

theorem memRetire_of_fault {k : Nat} (h : retireFault (u8 e 0) (u16 e 1) (fieldAt (payload e) 3 8) = some k) : memRetire env e d = .refuse .badParam k := by
  simp only [memRetire, h]

variable (h : retireFault (u8 e 0) (u16 e 1) (fieldAt (payload e) 3 8) = none)
include h

/-- What decides on a row that can be named (R278). -/
theorem memRetire_of_named : memRetire env e d =
    if d.msys.isRetired (u8 e 0) (u16 e 1) (fieldAt (payload e) 3 8) then .done [] d
    else if !d.msys.hasSpare (u8 e 0) (u16 e 1) (fieldAt (payload e) 3 8) then .refuse .fuse 0
    else if !bistDomain (u8 e 0) (u16 e 1) d then .refuse .domainOff 0
    else .done [] ((d.drawRegion (u8 e 0)).2.retireRow env 5 (u8 e 0) (u16 e 1) (fieldAt (payload e) 3 8) (d.drawRegion (u8 e 0)).1) := by
  simp only [memRetire, h]

theorem memRetire_of_retired (hr : d.msys.isRetired (u8 e 0) (u16 e 1) (fieldAt (payload e) 3 8) = true) : memRetire env e d = .done [] d :=
  (memRetire_of_named h).trans (if_pos hr)

variable (hr : d.msys.isRetired (u8 e 0) (u16 e 1) (fieldAt (payload e) 3 8) = false)
include hr

theorem memRetire_of_noSpare (hs : d.msys.hasSpare (u8 e 0) (u16 e 1) (fieldAt (payload e) 3 8) = false) : memRetire env e d = .refuse .fuse 0 := by
  rw [memRetire_of_named h, hr, hs]; rfl

theorem memRetire_of_spare (hs : d.msys.hasSpare (u8 e 0) (u16 e 1) (fieldAt (payload e) 3 8) = true) (hd : bistDomain (u8 e 0) (u16 e 1) d = true) :
    memRetire env e d = .done [] ((d.drawRegion (u8 e 0)).2.retireRow env 5 (u8 e 0) (u16 e 1) (fieldAt (payload e) 3 8) (d.drawRegion (u8 e 0)).1) := by
  rw [memRetire_of_named h, hr, hs, hd]; rfl

end

section
variable {d : Dev} {env : Env} {e : CmdEntry} {found : BistReport}

theorem memBist_of_fault {k : Nat} (h : bistFault (u8 e 0) (u16 e 1) = some k) : memBist env e found d = .refuse .badParam k := by
  simp only [memBist, h]

variable (h : bistFault (u8 e 0) (u16 e 1) = none)
include h

theorem memBist_of_busy (hi : bistIdle (u8 e 0) (u16 e 1) d = false) : memBist env e found d = .refuse .trafficPresent 0 := by
  simp only [memBist, h, hi, Bool.not_false, if_true]

/-- A test that finds no failing row changes nothing (R277). -/
theorem memBist_of_clean (hi : bistIdle (u8 e 0) (u16 e 1) d = true) (hs : d.inService = true) (hd : bistDomain (u8 e 0) (u16 e 1) d = true) (hm : u8 e 0 ≠ 0x12)
    (hrows : found.rows = []) : memBist env e found d = .done (leBytes 4 found.words ++ leBytes 2 0 ++ leBytes 1 (d.msys.sparesLeft (u8 e 0) (u16 e 1))) d := by
  simp only [memBist, h, hi, hs, hd, hm, hrows, Bool.not_true, Bool.false_eq_true, if_false, rowsOnce, List.foldl_nil, Nat.sub_self]

end

/-! ### DRAM -/

section
variable {d : Dev} {k : Nat} {env : Env} (hs : d.inService = true) (hk : d.domOn (domStack k) = true)
include hs hk

theorem dramCorrectable_of_on (addr syndrome bitpos region : Nat) : dramCorrectable env k addr syndrome bitpos region d =
    ((d.count ctrCeDram 1).correction env ⟨1, k, 0, addr, syndrome, bitpos, 0, region⟩).raiseCe env :=
  if_pos (by rw [hs, hk]; rfl)

theorem dramUncorrectable_of_on (addr syndrome region : Nat) (what : DramUse) : dramUncorrectable env k addr syndrome region what d =
    ueOutcome env what (((d.count ctrUeDram 1).log env ⟨2, k, 0, addr, syndrome, 0xFF, d.tracked env k 0 addr, region⟩).raiseUe env k region addr) :=
  if_pos (by rw [hs, hk]; rfl)

end

section
variable {d : Dev} {k : Nat} {env : Env} (hk : d.domOn (domStack k) = true)
include hk

theorem scrubEnd_of_inTime (ho : d.scrubOverdue env k = false) : scrubEnd env k d =
    d.updMsys fun m => { m with scrubStart := m.scrubStart.set k env.now, scrubLate := m.scrubLate.erase k, lastScrubEnd := env.now } := by
  simp only [scrubEnd, hk, ho, if_true, Dev.raiseIf, Bool.false_eq_true, if_false]

theorem scrubEnd_of_late (ho : d.scrubOverdue env k = true) : scrubEnd env k d =
    (d.updMsys fun m => { m with scrubStart := m.scrubStart.set k env.now, scrubLate := m.scrubLate.erase k, lastScrubEnd := env.now }).raise .memScrubLate 0 [(1, k)] := by
  simp only [scrubEnd, hk, ho, if_true, Dev.raiseIf]

end

/-! ### SRAM, striping, rings -/

/-- A parity error of a configuration memory with a usable golden copy (R270). -/
theorem cfgParity_of_reload {d : Dev} {env : Env} (unit word mask : Nat) (hs : d.anyStack = true) : cfgParity env 0x11 unit word mask 1 false d =
    ((d.count ctrParityCfg 1).correction env ⟨3, 0x11, unit, word, mask, 0xFF, 0, 7⟩).raiseParity env 0x11 unit := by
  have hcopy : (!false && (decide (1 = 0) || !d.anyStack)) = false := by rw [hs]; rfl
  exact (if_pos (Or.inr (Or.inl rfl))).trans (if_neg (by rw [hcopy]; exact Bool.false_ne_true))

theorem dataParity_of_insole {d : Dev} {env : Env} (unit word mask : Nat) (ch : Fin 512) : dataParity env 0x20 unit word mask (.insole ch) d =
    (((d.count ctrParityData 1).correction env ⟨4, 0x20, unit, word, mask, 0xFF, 0, 7⟩).raiseParity env 0x20 unit).insoleDrop ch :=
  if_pos (by decide)

theorem Dev.updBundle_congr {d : Dev} {b : Nat} {f g : Bundle → Bundle} (h : f (d.bundleAt b) = g (d.bundleAt b)) : d.updBundle b f = d.updBundle b g :=
  congrArg (fun x => { d with bundle := d.bundle.set b x }) h

section
variable {d : Dev} {env : Env} {b : Nat} (bytes : Nat) (hb : (d.bundleAt b).buffered = true)
include hb

theorem ringOverflow_of_first (hl : (d.bundleAt b).lostAt = none) : ringOverflow env b bytes d =
    ((d.count (ctrBufOverflow b) bytes).updBundle b fun x => { x with lost := 0, lostAt := some env.now }).raise
      .bufOverflow b [(8, (((d.bundleAt b).lost + bytes : Nat) : Int))] := by
  simp only [ringOverflow, hb, if_true, hl, Merged.due]

theorem ringOverflow_of_recent {t : Nat} (hl : (d.bundleAt b).lostAt = some t) (ht : env.now < t + sec) : ringOverflow env b bytes d =
    (d.count (ctrBufOverflow b) bytes).updBundle b fun x => { x with lost := x.lost + bytes } := by
  simp only [ringOverflow, hb, if_true, hl, Merged.due, Nat.not_le.mpr ht, decide_false, Bool.false_eq_true, if_false]
  exact Dev.updBundle_congr rfl

end

/-- Settles O57. -/
theorem memoryRows : Obligations.MemoryRows := by
  unfold Obligations.MemoryRows
  intro s d
  refine ⟨fun e s1 => ⟨?_, ?_, ?_⟩, fun k hs hk => ⟨?_, ?_, ?_, ?_⟩, ?_, ?_, ?_, fun b bytes hb => ⟨?_, ?_⟩⟩
  · exact fun h => ⟨_, _, h.completes rfl (congrArg (fun x => CmdRes.done x.1 x.2) (memStatus_eq s.dev)), rfl, memStatusBits_fields s.dev _ _⟩
  · intro h
    rw [h.env_eq]
    refine ⟨fun k hk => ?_, fun hn hr => ?_, fun hn hr => ⟨fun hs => ?_, fun hs hd => ?_⟩⟩
    · exact h.refuses rfl (memRetire_of_fault (env := s.env) hk)
    · exact h.completes rfl (memRetire_of_retired (env := s.env) hn hr)
    · exact h.refuses rfl (memRetire_of_noSpare (env := s.env) hn hr hs)
    · exact h.completes rfl (memRetire_of_spare (env := s.env) hn hr hs hd)
  · exact fun found h => ⟨fun k hk => h.refuses rfl (memBist_of_fault (env := s.env) hk), fun hn hi => h.refuses rfl (memBist_of_busy (env := s.env) hn hi),
      fun hn hi hs hd hm hrows => h.completes rfl (memBist_of_clean (env := s.env) hn hi hs hd hm hrows)⟩
  · exact fun a y bp rg => exec_of_onDev rfl (dramCorrectable_of_on (env := s.env) hs hk _ _ _ _)
  · exact fun a y rg => exec_of_onDev rfl (dramUncorrectable_of_on (env := s.env) hs hk _ _ _ _)
  · exact fun ho => exec_of_onDev rfl (scrubEnd_of_inTime (env := s.env) hk ho)
  · exact fun ho => exec_of_onDev rfl (scrubEnd_of_late (env := s.env) hk ho)
  · exact fun unit word bytes hs => exec_of_onDev rfl (cfgParity_of_reload (env := s.env) _ _ _ hs)
  · exact fun unit word bytes ch => exec_of_onDev rfl (dataParity_of_insole (env := s.env) _ _ _ _)
  · exact fun hr => exec_of_onDev rfl (if_pos hr)
  · exact fun hl => exec_of_onDev rfl (ringOverflow_of_first (env := s.env) bytes hb hl)
  · exact fun t hl ht => exec_of_onDev rfl (ringOverflow_of_recent (env := s.env) bytes hb hl ht)

end Sys2Proof.Machine
end
